-- ==== Sys2Proof/Word.lean ====
section
/-! DEFINITION. The word types of the BX-1024 and their plainest reading: 32-bit register words, bytes,
64-bit addresses, 32-lane masks (R6, R7). -/

namespace Sys2Proof

/-- One lane of a general register (R10). -/
abbrev Word := BitVec 32

/-- One byte of memory; multi-byte values are little-endian (R7). -/
abbrev Byte := BitVec 8

/-- A memory address as programs hold it (R50). -/
abbrev Addr := BitVec 64

/-- A set of lanes: bit l is lane l (R17). -/
abbrev Mask := BitVec 32

/-- Lane l is in the mask. -/
def Mask.has (m : Mask) (l : Nat) : Bool := m.getLsbD l

/-- The lane numbers of a crew, lane 0 first (R7). -/
def allLanes : List Nat :=
  [0, 1, 2, 3, 4, 5, 6, 7, 8, 9, 10, 11, 12, 13, 14, 15,
   16, 17, 18, 19, 20, 21, 22, 23, 24, 25, 26, 27, 28, 29, 30, 31]

/-- The lanes of a mask in ascending order (R8). -/
def Mask.lanes (m : Mask) : List Nat := allLanes.filter (fun l => m.getLsbD l)

/-- The mask of the lanes that satisfy a test. -/
def Mask.ofFn (p : Nat → Bool) : Mask :=
  BitVec.ofNat 32 (allLanes.foldl (fun acc l => if p l then acc + 2 ^ l else acc) 0)

/-- The lowest lane of a mask, or 0 for the empty one. -/
def Mask.lowest (m : Mask) : Nat := (Mask.lanes m).headD 0

/-- Bits hi down to lo of a number, as a number (R6). -/
def bits (x hi lo : Nat) : Nat := (x / 2 ^ lo) % 2 ^ (hi + 1 - lo)

/-- Bit i of a number. -/
def bit (x i : Nat) : Bool := (x / 2 ^ i) % 2 == 1

/-- A number of n bits read as two's complement. -/
def signed (n x : Nat) : Int :=
  if 2 * (x % 2 ^ n) < 2 ^ n then (x % 2 ^ n : Nat) else (x % 2 ^ n : Nat) - (2 ^ n : Nat)

/-- The n low bits of an integer, as two's complement. -/
def wrap (n : Nat) (x : Int) : Nat := (x % (2 ^ n : Nat)).toNat

/-- The n bytes of a number, lowest address first (R7). -/
def toBytes : Nat → Nat → List Byte
  | 0, _ => []
  | n + 1, x => BitVec.ofNat 8 x :: toBytes n (x / 256)

/-- The number whose little-endian bytes these are (R7). -/
def ofBytes : List Byte → Nat
  | [] => 0
  | b :: bs => b.toNat + 256 * ofBytes bs

end Sys2Proof
end

