-- ==== Sys2Proof/Syntax.lean ====
section
/-! DEFINITION. The whole syntax: one constructor of Instr for each row of the table of operations and
events. Instructions carry the fields of their format (R215 to R221); the device's own steps and the
acts of outside parties carry what names them. -/

namespace Sys2Proof

/-- The 16-bit format (R215). -/
structure C16 where
  gs : BitVec 5
  gd : BitVec 5
  deriving DecidableEq, Repr

/-- The 32-bit register format (R216). -/
structure S32 where
  mod : BitVec 5
  gb : BitVec 6
  ga : BitVec 6
  gd : BitVec 6
  deriving DecidableEq, Repr

/-- The 32-bit immediate format (R217). -/
structure I32 where
  imm : BitVec 11
  ga : BitVec 6
  gd : BitVec 6
  deriving DecidableEq, Repr

/-- The 32-bit branch format (R218). -/
structure J32 where
  off : BitVec 17
  pn : BitVec 1
  pred : BitVec 5
  deriving DecidableEq, Repr

/-- The 64-bit register format (R219). -/
structure L64 where
  mx : BitVec 2
  bln : BitVec 5
  bcm : BitVec 2
  sbw : BitVec 6
  sbs : BitVec 3
  nwb : BitVec 1
  hold : BitVec 2
  pn : BitVec 1
  pred : BitVec 5
  c : BitVec 7
  b : BitVec 7
  a : BitVec 7
  d : BitVec 7
  deriving DecidableEq, Repr

/-- The 64-bit immediate format (R220). -/
structure K64 where
  imm : BitVec 32
  sbs : BitVec 3
  pn : BitVec 1
  pred : BitVec 5
  a : BitVec 7
  d : BitVec 7
  deriving DecidableEq, Repr

/-- The 64-bit memory format (R221); for atomics off holds 00, TID and FN. -/
structure M64 where
  off : BitVec 16
  sx : BitVec 1
  hint : BitVec 2
  scope : BitVec 2
  ord : BitVec 2
  sz : BitVec 3
  sbw : BitVec 6
  sbs : BitVec 3
  pn : BitVec 1
  pred : BitVec 5
  a : BitVec 7
  d : BitVec 7
  deriving DecidableEq, Repr

/-- Classes of sensor events (R149). -/
inductive SensorClass where
  | strike
  | droop
  | clock
  deriving DecidableEq, Repr

/-- The unit that applies writes to a byte (R81, R59), a stack controller answering its slice, and an
outside party: PCIe root port 0 to 3, or 4 + 16 j + k for package k through Phoac port j (R480, R493, R494). -/
inductive HomeId where
  | outside (n : Nat)
  | slice (n : Nat)
  | vault (core : Nat)
  | port (core : Nat)
  | stack (n : Nat)
  deriving DecidableEq, Repr

/-- Who writes a device register (R481). -/
inductive Party where
  | plinth
  | armature
  | tempo (die : Nat)
  | app (hart : Nat)
  | other
  deriving DecidableEq, Repr

/-- What a fence removes (R440, R441). -/
inductive FenceKind where
  | core
  | slice
  deriving DecidableEq, Repr

/-- Why a unit is fenced (R504). -/
inductive FenceReason where
  | threshold
  | fieldTest
  | crossing
  | linkTraining
  | operator
  deriving DecidableEq, Repr

/-- What an uncorrectable storage error damaged (R439, R504). -/
inductive StorageDamage where
  | block (pa : Nat)
  | group (core gslot unit : Nat)
  | homeRecord (home : HomeId)
  | device (die table : Nat)
  deriving DecidableEq, Repr

/-- What the codes found in a block that the scrubber read (R502). -/
inductive EccResult where
  | clean
  | correctable
  | uncorrectable
  deriving DecidableEq, Repr

/-- An access of a party outside the compute dies (R492, R493, R494). Sizes are in bytes. -/
inductive HostAccess where
  | read (addr size : Nat)
  | write (addr : Nat) (data : List Byte)
  | fetchAdd (addr size operand : Nat)
  | swap (addr size operand : Nat)
  | cas (addr size operand compare : Nat)
  deriving DecidableEq, Repr

/-- A bind record (R426). mbz holds every must-be-zero byte, 0 when all are zero. -/
structure BindRecord where
  lslot : BitVec 16
  group : BitVec 32
  core : BitVec 16
  scrbase : BitVec 16
  crews : BitVec 32
  hslots : BitVec 32
  tiles : BitVec 16
  barbase : BitVec 8
  xsub : BitVec 8
  mbz : BitVec 80
  deriving DecidableEq, Repr

/-- A restore record (R449): a bind record, the image and its length. -/
structure RestoreRecord where
  bind : BindRecord
  image : BitVec 64
  imglen : BitVec 32
  mbz : BitVec 32
  deriving DecidableEq, Repr

/-- A pre-emption request (R442). -/
structure PreemptRequest where
  lslot : BitVec 16
  mode : BitVec 8
  group : BitVec 32
  core : BitVec 16
  saveaddr : BitVec 64
  savelen : BitVec 64
  mbz : BitVec 56
  deriving DecidableEq, Repr

/-- A quiesce (R452, R509): the excluded ranges, whether a cast is emitted, and whether the device then
resumes. A slice to remove makes it the quiesce of R441. -/
structure QuiesceRequest where
  excluded : List (Nat × Nat)
  emitCast : Bool
  resume : Bool
  dropSlice : Option Nat
  deriving DecidableEq, Repr

/-- A record of a cast (R454). mbz holds its must-be-zero header bytes. -/
structure CastRecord where
  type : BitVec 16
  mbz : BitVec 48
  crc : BitVec 32
  body : List Byte
  deriving DecidableEq, Repr

/-- A firmware image (R486): its bytes, its signature and its security version. -/
structure FirmwareImage where
  data : List Byte
  signature : List Byte
  version : Nat
  deriving DecidableEq, Repr

/-- What power-on meets (R486, R487, R510): the flash slots, the units that fail a step of bring-up, with the reason for each
cell's fence (R504; the in-field test where none is given), and the configuration block that Plinth verifies and applies. -/
structure BootConfig where
  slotA : FirmwareImage
  slotB : FirmwareImage
  fused : Nat
  socket16 : Bool
  towersOff : List Nat
  coresOff : List Nat
  slicesOff : List Nat
  routersOff : List Nat
  stacksOff : List Nat
  enginesOff : List Nat
  reasons : List (Nat × FenceReason)
  regions : List (BitVec 256)
  parts : List (Nat × BitVec 1024 × BitVec 1024)
  adminq : BitVec 64
  pkgid : BitVec 4
  phoac : List (BitVec 64)
  phase : List (BitVec 64)
  tlimit : BitVec 64
  rails : List Nat
  phoacPorts : BitVec 12
  pciePorts : BitVec 4
  deriving DecidableEq, Repr

/-- The unit that one of the device's own steps acts on: up to three numbers, whose meaning each such step
states (a core, a sub-core and a slot; a transaction; a queue). -/
structure Sel where
  a : Nat
  b : Nat
  c : Nat
  deriving DecidableEq, Repr

/-- One row of the table of operations and events. An instruction carries its format's fields, an act of an
outside party what the party supplies; a step of the device's own acts on the unit that the state selects
(State.sel). -/
inductive Instr where
  /-- POWER_ON (R487). Power-on or device reset: the boot ROM loads Plinth, which brings the device up, fences failing units and locks the maps. -/
  | powerOn (b : BootConfig)
  /-- SENSOR_EVENT_CORE (R160). A STRIKE, DROOP or CLOCK event covering a core cell restarts every crew of the core at its oldest unreleased head. -/
  | sensorEventCore (cls : SensorClass) (cell : Nat)
  /-- SENSOR_EVENT_HOME (R172). An event covering an L2 slice or bulk-stack controller undoes its uncleared updates, sends redo notices and performs the requests again. -/
  | sensorEventHome (cls : SensorClass) (cell : Nat)
  /-- SENSOR_EVENT_ROUTER_PORT (R152). An event in a router or link-port cell discards the packets it holds; their sources retry them. -/
  | sensorEventRouterPort (cls : SensorClass) (cell : Nat)
  /-- CROSSING_SLIP (R479). A clock-crossing pointer slip is a CLOCK event of the crossing's cell, and the crossing re-centres within 8 cycles. -/
  | crossingSlip (cell : Nat)
  /-- LINK_CRC_FAIL (R473). A flit failing its CRC-16 is discarded with every later flit of the link until the resend. -/
  | linkCrcFail (port lane : Nat)
  /-- LANE_REMAP (R476). A lane with 8 CRC failures in 2^20 cycles or loss of signal is remapped to a spare, and the port pauses for 256 cycles. -/
  | laneRemap (port lane : Nat) (lost : Bool)
  /-- SUBSCRIPTION_UPDATE_APPLY (R113). A subscriber applies a range part's update in sequence order and acknowledges or NACKs it. -/
  | subscriptionUpdateApply (upd : Nat) (damaged : Bool)
  /-- UNCORRECTABLE_STORAGE_ERROR (R439). An uncorrectable storage error is charged to the one context it damaged, or is a device error. -/
  | uncorrectableStorageError (what : StorageDamage)
  /-- DOORBELL_WRITE (R416). A doorbell write sets a queue's TAIL, and the engine reads the descriptor and commands with an acquire. -/
  | doorbellWrite (q : Nat) (value : BitVec 64)
  /-- BIND_RECORD_WRITE (R427). A bind record written to a die's bind port is checked and placed in the core's slot table, with BINDSTAT written. -/
  | bindRecordWrite (die : Nat) (rec : BindRecord)
  /-- RESTORE_RECORD_WRITE (R449). A restore record written to the bind port is checked against its saved image and placed for restore. -/
  | restoreRecordWrite (die : Nat) (rec : RestoreRecord)
  /-- LOG_OVERRUN_CLEAR (R429). A write of zero to the die's log-overrun flag clears it. -/
  | logOverrunClear (die : Nat) (value : BitVec 64)
  /-- FQHEAD_WRITE (R437). A write of FQHEAD frees fault-queue space, and waiting parked crews are entered in parking order. -/
  | fqheadWrite (value : Word)
  /-- FAULTRESP_REPLAY (R438). A FAULTRESP with ACT replay replays the parked instruction in every participating lane. -/
  | faultrespReplay (token : Word)
  /-- FAULTRESP_DECLINE (R438). A FAULTRESP with ACT decline delivers PAGEFAULT as a class-2 trap. -/
  | faultrespDecline (token : Word)
  /-- FAULTRESP_TERMINATE (R438). A FAULTRESP with ACT terminate terminates the context with CAUSE 2. -/
  | faultrespTerminate (token : Word)
  /-- PREEMPT_REQUEST (R442). A pre-emption request written to a die's port is checked, then stops, drains and saves the named groups. -/
  | preemptRequest (die : Nat) (req : PreemptRequest)
  /-- FENCE_UNIT (R440). A core is fenced after evacuating its groups, or a slice is fenced through a quiesce without a cast. -/
  | fenceUnit (kind : FenceKind) (n : Nat) (reason : FenceReason)
  /-- QUIESCE (R452). The Quiesce action stops queues, cuts host traffic, pre-empts every group, drains the network, writes back L2 and emits the cast. -/
  | quiesce (req : QuiesceRequest)
  /-- RESTORE_CAST (R462). The RestoreCast action checks and applies a cast to a halted device, making contexts valid only after SIG verifies. -/
  | restoreCast (records : List CastRecord)
  /-- RUN_FIELD_TEST (R509). The RunFieldTest action stops binding to a cluster, pre-empts its groups and starts the in-field test. -/
  | runFieldTest (cluster : Nat)
  /-- IFTCTL_START (R505). A write to IFTCTL starts the in-field test of a physical cluster. -/
  | iftctlStart (die cluster : Nat)
  /-- IFT_COMPLETE (R505). After 2^22 cycles the test reports pass, resetting the mark and seen mask, or fail, fencing the cluster's cores. -/
  | iftComplete (die : Nat) (fault : Option Nat)
  /-- RESET_CLUSTER (R477). The ResetCluster action resets a fenced cluster's cores, engines and vault controllers, tearing down its circuits. -/
  | resetCluster (cluster : Nat)
  /-- CLEAR_COUNTERS (R509). The ClearCounters action writes zero to every cell counter in a range. -/
  | clearCounters (lo hi : Nat)
  /-- UPDATE_FIRMWARE (R509). The UpdateFirmware action writes an image to the inactive flash slot for verification at next boot. -/
  | updateFirmware (image : FirmwareImage) (slot : Nat)
  /-- SET_POWER_CAP (R496). The SetPowerCap action writes PWRCAP. -/
  | setPowerCap (watts : Nat)
  /-- POWER_CONTROL_PERIOD (R496). Every 2^16 cycles the power controller measures package power and sets the die-wide duty D. -/
  | powerControlPeriod (die : Nat) (watts duty : Nat)
  /-- THERMAL_THROTTLE (R497). A die whose junction temperature exceeds TLIMIT has its duty forced to 8. -/
  | thermalThrottle (die : Nat) (celsius : Nat)
  /-- THERMAL_RELEASE (R497). When the temperature falls 5 degrees below TLIMIT the forced duty ends. -/
  | thermalRelease (die : Nat) (celsius : Nat)
  /-- SCRUB_VISIT (R502). The scrubber reads a block with its version bit, logging uncorrectable blocks and descriptor mismatches. -/
  | scrubVisit (block : Nat) (ecc : EccResult)
  /-- COUNTER_WRITE (R498). A write of zero clears a cell counter field; any other value is dropped and sets ACCERR. -/
  | counterWrite (cell field : Nat) (value : Word)
  /-- THRESHOLD_WRITE (R499). A threshold register write sets LIMIT and WEXP, or is dropped with ACCERR when WEXP is out of range. -/
  | thresholdWrite (kind index : Nat) (value : BitVec 64)
  /-- ELLOST_CLEAR (R503). A write of zero clears the count of dropped error-log records. -/
  | ellostClear (value : Word)
  /-- LOCK_REGION (R482). Setting LOCK.REGION checks every region-table entry and locks the table and SLICEMASK, or sets LOCKERR. -/
  | lockRegion (who : Party)
  /-- LOCK_PART (R482). Setting LOCK.PART locks the partitions and ADMINQ. -/
  | lockPart (who : Party)
  /-- LOCK_LMAP (R482). Setting LOCK.LMAP locks the logical map. -/
  | lockLmap (who : Party)
  /-- LOCK_SENSORS (R482). Setting LOCK.SENSORS locks sensor calibration and the sensor-to-cell mapping. -/
  | lockSensors (who : Party)
  /-- LOCK_CLOCK (R482). Setting LOCK.CLOCK locks the PHASE words and PKGID. -/
  | lockClock (who : Party)
  /-- LOCK_PHOAC (R482). Setting LOCK.PHOAC locks the Phoac route table. -/
  | lockPhoac (who : Party)
  /-- LOCK_ERROR_CLEAR (R482). Writing one to ACCERR or LOCKERR clears that flag. -/
  | lockErrorClear (value : BitVec 64)
  /-- REGISTER_WRITE (R481). A write to any other aperture register takes effect if the writer has the right, and is otherwise dropped with ACCERR. -/
  | registerWrite (who : Party) (off : Nat) (value : BitVec 64)
  /-- APP_CORE_ACCESS (R492). An application-core access to device memory is performed uncached at its home without a tag. -/
  | appCoreAccess (hart : Nat) (acc : HostAccess)
  /-- PCIE_INBOUND_REQUEST (R493). An inbound PCIe request is matched against the port's windows and performed or answered Unsupported Request. -/
  | pcieInboundRequest (port : Nat) (acc : HostAccess)
  /-- PHOAC_REQUEST (R494). A request from a remote package over Phoac is performed at its home, keyed by package and core. -/
  | phoacRequest (package : Nat) (txid : Nat) (acc : HostAccess)
  /-- NEGOTIATE_ALGORITHMS (R489). SPDM NEGOTIATE_ALGORITHMS selects Ed25519 and SHA-512. -/
  | negotiateAlgorithms (sig hash : Nat)
  /-- GET_CERTIFICATE (R489). SPDM GET_CERTIFICATE returns the slot 0 chain. -/
  | getCertificate (slot offset length : Nat)
  /-- CHALLENGE (R489). SPDM CHALLENGE is answered with a signed response. -/
  | challenge (slot : Nat) (nonce : List Byte)
  /-- GET_MEASUREMENTS (R489). SPDM GET_MEASUREMENTS returns the SHA-512 measurements of indices 1 to 7. -/
  | getMeasurements (index : Nat)
  /-- SPDM_UNSUPPORTED (R489). Any other SPDM request receives ERROR with UnsupportedRequest. -/
  | spdmUnsupported (code : Nat)
  /-- RESERVED_OPCODE (R229). An instruction with a reserved primary opcode raises ILLEGAL with cause OPCODE. -/
  | reservedOpcode (op : BitVec 7) (long : Bool)
  /-- IADD (R246). Integer add modulo 2^32, L64 form. -/
  | iadd (f : L64)
  /-- IADD_S32 (R246). Integer add, S32 form. -/
  | iaddS32 (f : S32)
  /-- IADD_C16 (R230). Integer add, compact form Gd = Gd + Gs. -/
  | iaddC16 (f : C16)
  /-- ISUB (R246). Integer subtract modulo 2^32, L64 form. -/
  | isub (f : L64)
  /-- ISUB_S32 (R246). Integer subtract, S32 form. -/
  | isubS32 (f : S32)
  /-- ISUB_C16 (R230). Integer subtract, compact form. -/
  | isubC16 (f : C16)
  /-- IADDI (R246). Integer add of a 32-bit immediate, K64 form. -/
  | iaddi (f : K64)
  /-- IADDI_I32 (R246). Integer add of an 11-bit immediate, I32 form. -/
  | iaddiI32 (f : I32)
  /-- IMUL (R246). Integer multiply low 32 bits, L64 form. -/
  | imul (f : L64)
  /-- IMUL_S32 (R246). Integer multiply, S32 form. -/
  | imulS32 (f : S32)
  /-- IMULH (R246). High 32 bits of the signed or unsigned product, L64 form. -/
  | imulh (f : L64)
  /-- IMULH_S32 (R246). High product, S32 form. -/
  | imulhS32 (f : S32)
  /-- IMAC (R248). Integer multiply-accumulate modulo 2^32. -/
  | imac (f : L64)
  /-- IMACW (R248). Two 16-bit products added to the accumulator. -/
  | imacw (f : L64)
  /-- IMIN (R246). Integer minimum, L64 form. -/
  | imin (f : L64)
  /-- IMIN_S32 (R246). Integer minimum, S32 form. -/
  | iminS32 (f : S32)
  /-- IMIN_C16 (R230). Signed integer minimum, compact form. -/
  | iminC16 (f : C16)
  /-- IMAX (R246). Integer maximum, L64 form. -/
  | imax (f : L64)
  /-- IMAX_S32 (R246). Integer maximum, S32 form. -/
  | imaxS32 (f : S32)
  /-- IMAX_C16 (R230). Signed integer maximum, compact form. -/
  | imaxC16 (f : C16)
  /-- IABS (R246). Integer absolute value, optionally saturating, L64 form. -/
  | iabs (f : L64)
  /-- IABS_S32 (R246). Integer absolute value, S32 form. -/
  | iabsS32 (f : S32)
  /-- AND (R246). Bitwise AND, L64 form. -/
  | and (f : L64)
  /-- AND_S32 (R246). Bitwise AND, S32 form. -/
  | andS32 (f : S32)
  /-- AND_C16 (R230). Bitwise AND, compact form. -/
  | andC16 (f : C16)
  /-- OR (R246). Bitwise OR, L64 form. -/
  | or (f : L64)
  /-- OR_S32 (R246). Bitwise OR, S32 form. -/
  | orS32 (f : S32)
  /-- OR_C16 (R230). Bitwise OR, compact form. -/
  | orC16 (f : C16)
  /-- XOR (R246). Bitwise XOR, L64 form. -/
  | xor (f : L64)
  /-- XOR_S32 (R246). Bitwise XOR, S32 form. -/
  | xorS32 (f : S32)
  /-- XOR_C16 (R230). Bitwise XOR, compact form. -/
  | xorC16 (f : C16)
  /-- LOGI (R249). Any two-input bit function from a 4-bit truth table, L64 form. -/
  | logi (f : L64)
  /-- LOGI_S32 (R249). Two-input bit function, S32 form. -/
  | logiS32 (f : S32)
  /-- SHL (R250). Shift left, L64 form. -/
  | shl (f : L64)
  /-- SHL_S32 (R250). Shift left, S32 form. -/
  | shlS32 (f : S32)
  /-- SHL_C16 (R230). Shift left, compact form. -/
  | shlC16 (f : C16)
  /-- SHR (R250). Logical or arithmetic shift right, L64 form. -/
  | shr (f : L64)
  /-- SHR_S32 (R250). Shift right, S32 form. -/
  | shrS32 (f : S32)
  /-- SHR_C16 (R230). Logical shift right, compact form. -/
  | shrC16 (f : C16)
  /-- FUNL (R250). Funnel shift of a 64-bit pair. -/
  | funl (f : L64)
  /-- BEXT (R251). Bit-field extract, L64 form. -/
  | bext (f : L64)
  /-- BEXT_S32 (R251). Bit-field extract, S32 form. -/
  | bextS32 (f : S32)
  /-- BINS (R251). Bit-field insert. -/
  | bins (f : L64)
  /-- BCNT (R246). Population count, L64 form. -/
  | bcnt (f : L64)
  /-- BCNT_S32 (R246). Population count, S32 form. -/
  | bcntS32 (f : S32)
  /-- BSCAN (R252). Leading or trailing bit scan, L64 form. -/
  | bscan (f : L64)
  /-- BSCAN_S32 (R252). Bit scan, S32 form. -/
  | bscanS32 (f : S32)
  /-- BREV (R246). Bit reversal, L64 form. -/
  | brev (f : L64)
  /-- BREV_S32 (R246). Bit reversal, S32 form. -/
  | brevS32 (f : S32)
  /-- BPERM (R252). Byte permutation, L64 form. -/
  | bperm (f : L64)
  /-- BPERM_S32 (R252). Byte permutation, S32 form. -/
  | bpermS32 (f : S32)
  /-- ICMP (R253). Integer compare into a predicate, optionally combined. -/
  | icmp (f : L64)
  /-- SEL (R254). Select between two registers by a predicate operand. -/
  | sel (f : L64)
  /-- ADDS (R247). Saturating add or subtract, L64 form. -/
  | adds (f : L64)
  /-- ADDS_S32 (R247). Saturating add or subtract, S32 form. -/
  | addsS32 (f : S32)
  /-- IDOT4 (R248). Four-way byte dot product with accumulate. -/
  | idot4 (f : L64)
  /-- FADD (R255). FP32 add with optional negations and rounding mode, L64 form. -/
  | fadd (f : L64)
  /-- FADD_S32 (R255). FP32 add, S32 form. -/
  | faddS32 (f : S32)
  /-- FADD_C16 (R230). FP32 add in RN, compact form. -/
  | faddC16 (f : C16)
  /-- FSUB_C16 (R230). FP32 subtract in RN (FADD with negate-B), compact form. -/
  | fsubC16 (f : C16)
  /-- FMUL (R255). FP32 multiply, L64 form. -/
  | fmul (f : L64)
  /-- FMUL_S32 (R255). FP32 multiply, S32 form. -/
  | fmulS32 (f : S32)
  /-- FMUL_C16 (R230). FP32 multiply in RN, compact form. -/
  | fmulC16 (f : C16)
  /-- FFMA (R255). Fused FP32 multiply-add rounded once. -/
  | ffma (f : L64)
  /-- FFMS (R255). Fused FP32 multiply-subtract rounded once. -/
  | ffms (f : L64)
  /-- FNMA (R255). Fused negated multiply plus addend, rounded once. -/
  | fnma (f : L64)
  /-- FMIN (R256). FP32 minimum, L64 form. -/
  | fmin (f : L64)
  /-- FMIN_S32 (R256). FP32 minimum, S32 form. -/
  | fminS32 (f : S32)
  /-- FMIN_C16 (R230). FP32 minimum, compact form. -/
  | fminC16 (f : C16)
  /-- FMAX (R256). FP32 maximum, L64 form. -/
  | fmax (f : L64)
  /-- FMAX_S32 (R256). FP32 maximum, S32 form. -/
  | fmaxS32 (f : S32)
  /-- FMAX_C16 (R230). FP32 maximum, compact form. -/
  | fmaxC16 (f : C16)
  /-- FCMP (R257). FP32 compare into a predicate. -/
  | fcmp (f : L64)
  /-- FCLASS (R258). Classify an FP32 pattern into a one-hot class word, L64 form. -/
  | fclass (f : L64)
  /-- FCLASS_S32 (R258). Classify an FP32 pattern, S32 form. -/
  | fclassS32 (f : S32)
  /-- SFN (R259). Correctly rounded special function, L64 form. -/
  | sfn (f : L64)
  /-- SFN_S32 (R259). Special function, S32 form. -/
  | sfnS32 (f : S32)
  /-- FINT (R260). Round to an integral FP32 value, L64 form. -/
  | fint (f : L64)
  /-- FINT_S32 (R260). Round to integral, S32 form. -/
  | fintS32 (f : S32)
  /-- FTOI (R261). FP32 to clamped integer, L64 form. -/
  | ftoi (f : L64)
  /-- FTOI_S32 (R261). FP32 to integer, S32 form. -/
  | ftoiS32 (f : S32)
  /-- ITOF (R261). Integer to FP32, L64 form. -/
  | itof (f : L64)
  /-- ITOF_S32 (R261). Integer to FP32, S32 form. -/
  | itofS32 (f : S32)
  /-- FSCALE (R262). Multiply by a power of two and round once, L64 form. -/
  | fscale (f : L64)
  /-- FSCALE_S32 (R262). Scale by a power of two, S32 form. -/
  | fscaleS32 (f : S32)
  /-- PADD (R263). BF16 or FP16 pair add, L64 form. -/
  | padd (f : L64)
  /-- PADD_S32 (R263). Pair add, S32 form. -/
  | paddS32 (f : S32)
  /-- PADD_C16 (R230). BF16 pair add in RN, compact form. -/
  | paddC16 (f : C16)
  /-- PMUL (R263). Pair multiply, L64 form. -/
  | pmul (f : L64)
  /-- PMUL_S32 (R263). Pair multiply, S32 form. -/
  | pmulS32 (f : S32)
  /-- PFMA (R263). BF16 pair fused multiply-add. -/
  | pfma (f : L64)
  /-- PMNX (R263). Pair minimum or maximum, L64 form. -/
  | pmnx (f : L64)
  /-- PMNX_S32 (R263). Pair minimum or maximum, S32 form. -/
  | pmnxS32 (f : S32)
  /-- CVT (R265). Counting conversion of one value between floating formats, L64 form. -/
  | cvt (f : L64)
  /-- CVT_S32 (R265). Conversion from FP32, S32 form. -/
  | cvtS32 (f : S32)
  /-- PACK (R266). Convert and pack values into a register, L64 form. -/
  | pack (f : L64)
  /-- PACK_S32 (R266). Pack, S32 form. -/
  | packS32 (f : S32)
  /-- UNPK (R267). Widen one packed element to FP32, L64 form. -/
  | unpk (f : L64)
  /-- UNPK_S32 (R267). Widen element 0, S32 form. -/
  | unpkS32 (f : S32)
  /-- QNT (R269). Quantise an issue group's values into one self-describing block, held like a store. -/
  | qnt (f : M64)
  /-- DQNT (R271). Read one block and write its scaled elements as FP32. -/
  | dqnt (f : M64)
  /-- PLOG (R272). Predicate logic from a truth table. -/
  | plog (f : L64)
  /-- PGET (R273). Copy the predicates into a register. -/
  | pget (f : L64)
  /-- PPUT (R274). Set one or all predicates from a register. -/
  | pput (f : L64)
  /-- CVOTE (R275). Crew vote over the effective mask, L64 form. -/
  | cvote (f : L64)
  /-- CVOTE_S32 (R275). Crew vote, S32 form. -/
  | cvoteS32 (f : S32)
  /-- LXCH (R276). Move values between lanes, L64 form. -/
  | lxch (f : L64)
  /-- LXCH_S32 (R276). Lane exchange, S32 form. -/
  | lxchS32 (f : S32)
  /-- LRED (R277). Reduction or scan across the participating lanes. -/
  | lred (f : L64)
  /-- LMATCH (R278). Mask of lanes holding equal values. -/
  | lmatch (f : L64)
  /-- PICK (R279). Gather from the lane holding a chosen set bit of a mask. -/
  | pick (f : L64)
  /-- MASK (R280). Write the participation or effective mask, L64 form. -/
  | maskLanes (f : L64)
  /-- MASK_S32 (R280). Write the mask, S32 form. -/
  | maskLanesS32 (f : S32)
  /-- MOV (R281). Register move, L64 form. -/
  | mov (f : L64)
  /-- MOV_S32 (R281). Register move, S32 form. -/
  | movS32 (f : S32)
  /-- MOV_C16 (R230). Register move, compact form. -/
  | movC16 (f : C16)
  /-- MOVI (R281). Write a 32-bit immediate, K64 form. -/
  | movi (f : K64)
  /-- MOVI_I32 (R281). Write an 11-bit sign-extended immediate, I32 form. -/
  | moviI32 (f : I32)
  /-- SREAD (R282). Read a special register, K64 form. -/
  | sread (f : K64)
  /-- SREAD_I32 (R282). Read a special register, I32 form. -/
  | sreadI32 (f : I32)
  /-- LOCQ (R283). Report where an address lives without faulting or touching data. -/
  | locq (f : M64)
  /-- BR (R287). Relative branch, K64 form. -/
  | br (f : K64)
  /-- BR_J32 (R287). Relative branch, J32 form. -/
  | brJ32 (f : J32)
  /-- JR (R287). Jump to the address in a register pair, L64 form. -/
  | jr (f : L64)
  /-- JR_S32 (R287). Jump register, S32 form. -/
  | jrS32 (f : S32)
  /-- CALL (R287). Relative call writing the return address to a link pair, K64 form. -/
  | call (f : K64)
  /-- CALL_J32 (R287). Relative call with link pair G30:G31, J32 form. -/
  | callJ32 (f : J32)
  /-- RET (R287). Return to the address in a pair, L64 form. -/
  | ret (f : L64)
  /-- RET_S32 (R287). Return, S32 form. -/
  | retS32 (f : S32)
  /-- RJOIN (R288). Hold threads until the threads of their rejoin mask arrive or exit, L64 form. -/
  | rjoin (f : L64)
  /-- RJOIN_S32 (R288). Rejoin, S32 form. -/
  | rjoinS32 (f : S32)
  /-- EXIT (R289). Move participating threads to EXITED, L64 form. -/
  | exitThread (f : L64)
  /-- NOP (R289). No operation, L64 form. -/
  | nop (f : L64)
  /-- PAUSE (R289). Move the turn pointer and pass the crew over for 8 cycles, L64 form. -/
  | pause (f : L64)
  /-- REGION (R289). Retire as a head and take a snapshot, L64 form. -/
  | region (f : L64)
  /-- TRY (R290). Open a lane or crew gambit with a code register and fail target. -/
  | tryGambit (f : K64)
  /-- COMMIT (R184). Hand buffered gambit stores to the region and leave the gambit, L64 form. -/
  | commit (f : L64)
  /-- ABORT (R291). Abort the in-gambit participating lanes with code 0x80 plus imm7. -/
  | abort (f : K64)
  /-- TRAP (R299). Raise SWTRAP with a code in each participating lane. -/
  | trap (f : K64)
  /-- BRK (R299). Raise BRK with a code, K64 form. -/
  | brk (f : K64)
  /-- BRK_I32 (R299). Raise BRK, I32 form. -/
  | brkI32 (f : I32)
  /-- TRET (R300). Return from a trap handler once every thread issues it, or terminate for a terminal class, L64 form. -/
  | tret (f : L64)
  /-- SYS_R (R301). Read a word of the side buffer or trap control space. -/
  | sysR (f : K64)
  /-- SYS_W (R301). Write a word of the side buffer, or terminate the context through CTRL, as a release point. -/
  | sysW (f : K64)
  /-- LD (R307). Load from any address form, optionally acquire. -/
  | ld (f : M64)
  /-- ST (R308). Held store of B to Q bytes, optionally release. -/
  | st (f : M64)
  /-- ST_BLK (R309). Held store of a 64-byte block with its descriptor. -/
  | stBlk (f : M64)
  /-- LDC (R310). Load-consume past L1 that taints its result and updates the consume signature. -/
  | ldc (f : M64)
  /-- LDA (R310). Advance load recording its bytes in a gambit. -/
  | lda (f : M64)
  /-- SLD (R311). Load from the group's scratchpad by offset. -/
  | sld (f : M64)
  /-- SST (R311). Held store to the group's scratchpad by offset. -/
  | sst (f : M64)
  /-- ATOM (R315). Returning atomic at the home, issued as a release point. -/
  | atom (f : M64)
  /-- ATOMN (R316). Non-returning held atomic. -/
  | atomn (f : M64)
  /-- SATOM (R317). Returning atomic on the group's scratchpad, issued as a release point. -/
  | satom (f : M64)
  /-- FENCE (R322). Order covered accesses at a scope and clear L1 when the scope is cluster or wider. -/
  | fence (f : M64)
  /-- CACHE (R323). Cache maintenance or prefetch on the lanes' lines. -/
  | cache (f : M64)
  /-- BARI (R326). Bind and initialise a barrier object, held. -/
  | bari (f : M64)
  /-- BARA (R327). Held barrier arrival of a count. -/
  | bara (f : M64)
  /-- BARX (R327). Held arrival that adds expected bytes. -/
  | barx (f : M64)
  /-- BARW (R329). Wait until the barrier's parity differs from the thread's. -/
  | barw (f : M64)
  /-- BART (R330). Read the barrier's phase count and parity. -/
  | bart (f : M64)
  /-- CPY (R342). Engine copy of a byte range on a copy timeline. -/
  | cpy (f : L64)
  /-- CPYT (R344). Engine copy of a strided tensor described by a shape record. -/
  | cpyt (f : L64)
  /-- CPYG (R346). Engine gather or scatter of indexed rows. -/
  | cpyg (f : L64)
  /-- TLWAIT (R348). Wait until a timeline counter reaches the thread's value. -/
  | tlwait (f : L64)
  /-- TMAC (R355). Tile-engine matrix multiply-accumulate into a tile. -/
  | tmac (f : L64)
  /-- TCONV (R357). Tile-engine convolution as an implicit matrix product. -/
  | tconv (f : L64)
  /-- TDRAIN (R359). Check, scale, convert and write a tile to memory. -/
  | tdrain (f : L64)
  /-- TCTL_ZERO (R361). Zero a tile and its checksum lines. -/
  | tctlZero (f : L64)
  /-- TCTL_LOAD (R361). Load a tile, optionally with checksum lines, from scratchpad. -/
  | tctlLoad (f : L64)
  /-- TCTL_STAT (R361). Read a tile's status word. -/
  | tctlStat (f : L64)
  /-- RACT (R365). Start activating a vault DRAM row in a bank. -/
  | ract (f : L64)
  /-- RCON (R368). Move an open row into the row latch or scratchpad. -/
  | rcon (f : L64)
  /-- RPRE (R370). Close a bank. -/
  | rpre (f : L64)
  /-- WOPEN (R372). Open, grant or close a scratchpad window, held. -/
  | wopen (f : L64)
  /-- SUBS_ON (R374). Bind a local range to a global range as a subscription. -/
  | subsOn (f : L64)
  /-- SUBS_OFF (R375). End a subscription. -/
  | subsOff (f : L64)
  /-- AMSG (R376). Send a 128-byte active message to a core's handler, as a release point. -/
  | amsg (f : L64)
  /-- CIRC_SETUP (R378). Reserve a circuit to a destination core. -/
  | circSetup (f : L64)
  /-- CIRC_SEND (R379). Write 128 bytes to the destination vault over a circuit. -/
  | circSend (f : L64)
  /-- CIRC_REL (R380). Release a circuit id, held. -/
  | circRel (f : L64)
  /-- XBLK_ACQ (R381). Acquire the extended register block for the crew, L64 form. -/
  | xblkAcq (f : L64)
  /-- XBLK_REL (R381). Release the extended register block, L64 form. -/
  | xblkRel (f : L64)
  /-- ISSUE_ARBITRATION (R207). Each cycle a sub-core picks a candidate crew, checks register-bank conflicts, and either issues its issue group or records a loser. Acts on core = sel.a, sub = sel.b. -/
  | issueArbitration
  /-- RECORD_START (R428). A slot-table record whose resources are free starts: resources are reserved together and the group takes a group slot. Acts on core = sel.a. -/
  | recordStart
  /-- REGION_RELEASE (R157). A region whose window has passed, whose predecessor released and whose tags are cleared releases its held side effects in program order. Acts on core = sel.a, sub = sel.b, slot = sel.c. -/
  | regionRelease
  /-- GROUP_COMPLETE (R23). A group whose crews, regions and timelines are all finished ends its subscriptions, windows and circuits, returns its resources and raises the launch counter. Acts on core = sel.a, gslot = sel.b. -/
  | groupComplete
  /-- HANDLER_CREW_START (R39). An inbound message entry whose launch has an idle handler crew starts that crew with the payload in G0. Acts on core = sel.a. -/
  | handlerCrewStart
  /-- TRAP_ENTRY (R296). Once pending release points and scoreboard slots have settled, the crew takes a head, writes its side buffer and starts the handler. Acts on core = sel.a, sub = sel.b, slot = sel.c. -/
  | trapEntry
  /-- CONTEXT_TERMINATE (R303). Context termination takes effect once the trap-entry head's region has released: TRAPPED and CONTEXT are recorded. Acts on core = sel.a, sub = sel.b, slot = sel.c. -/
  | contextTerminate
  /-- REDO_NOTICE_RECEIVE (R173). A redo notice restarts every crew that received a named tag in an unreleased region and makes engines re-read dependent data. Acts on core = sel.a. -/
  | redoNoticeReceive
  /-- CLEAR_SEND (R171). W cycles after serving a request without an event, a home sends the requester a clear naming its cell and serial. Acts on home = sel.a. -/
  | clearSend
  /-- CLEAR_RECEIVE (R171). A clear received by a requester clears every pending tag from that cell with a serial no greater than it. Acts on core = sel.a. -/
  | clearReceive
  /-- HOME_SERVE_READ (R81). A home receives a load, fill, walk or engine read and supplies the latest performed write with a pending tag. Acts on tx = sel.a. -/
  | homeServeRead
  /-- HOME_PERFORM_WRITE (R82). A home applies a released store, landing or write-back in its coherence order and acknowledges it. Acts on tx = sel.a. -/
  | homePerformWrite
  /-- HOME_PERFORM_ATOMIC (R315). A home performs an atomic as one indivisible read-modify-write, in lane order, consulting its exactly-once table. Acts on tx = sel.a. -/
  | homePerformAtomic
  /-- LOAD_VALUE_RETURN (R106). A load's value returns to the core, is written to the destination with taint, and the scoreboard slot clears. Acts on tx = sel.a. -/
  | loadValueReturn
  /-- WRITE_ACK_RECEIVE (R95). A home's acknowledgement of a global write sets the line's signature bits in the core's accumulators and may clear a scoreboard slot. Acts on tx = sel.a. -/
  | writeAckReceive
  /-- RELEASE_POINT_COMPLETE (R165). A returning release point receives its response and clear, writes its destination and retires head H2. Acts on core = sel.a, sub = sel.b, slot = sel.c. -/
  | releasePointComplete
  /-- ATOMIC_RESEND_TIMEOUT (R318). An atomic with no response within 2^16 cycles is resent with the same identifier, at most 3 times. Acts on tx = sel.a. -/
  | atomicResendTimeout
  /-- TRANSACTION_TIMEOUT (R474). A transaction without a response within 2^16 cycles, or NACKed, is resent at most 7 times, then ends in error. Acts on tx = sel.a. -/
  | transactionTimeout
  /-- LINK_RESEND (R473). 12 cycles after a failure the sender resends go-back-N from its link retry buffer. Acts on port = sel.a. -/
  | linkResend
  /-- LANE_REMAP_END (R476). The 256-cycle pause of a lane remap ends, and the port sends again. Acts on port = sel.a. -/
  | laneRemapEnd
  /-- L1_LEASE_EXPIRY (R84). An L1 copy is removed no later than 4096 cycles after its fill was requested. Acts on core = sel.a, line = sel.b. -/
  | l1LeaseExpiry
  /-- EPOCH_ROTATE (R95). Every 2048 cycles the epoch accumulators shift: E2 takes E1, E1 takes E0, and E0 is cleared. Acts on core = sel.a. -/
  | epochRotate
  /-- SUBSCRIPTION_UPDATE_SEND (R112). After a write's tag has cleared, the home multicasts the changed bytes of a range part with the next sequence number along legs. Acts on upd = sel.a. -/
  | subscriptionUpdateSend
  /-- SUBSCRIPTION_NACK_RESEND (R472). On a subscriber's NACK the home resends a unicast copy with the same sequence number. Acts on upd = sel.a. -/
  | subscriptionNackResend
  /-- WINDOW_TABLE_UPDATE (R373). A released WOPEN change reaches the window-table copies at all four cores of the cluster. Acts on cluster = sel.a. -/
  | windowTableUpdate
  /-- AMSG_ACCEPT (R376). A destination core accepts an active message into its inbound queue, or refuses it, answering the sender. Acts on tx = sel.a. -/
  | amsgAccept
  /-- XBLK_GRANT (R190). A freed extended block is granted to the crew waiting longest in XBLOCK on the sub-core. Acts on core = sel.a, sub = sel.b. -/
  | xblkGrant
  /-- ASYNC_TRAP_DUE (R304). An asynchronous cause becomes due and the crew takes it at its next instruction boundary, or holds or drops it. Acts on core = sel.a, sub = sel.b, slot = sel.c. -/
  | asyncTrapDue
  /-- BARRIER_TIMEOUT (R332). A thread in BARRIER for 2^e cycles raises BARRIER_TIMEOUT, sets the object's TO bit and writes the diagnostic record. Acts on core = sel.a, sub = sel.b, slot = sel.c. -/
  | barrierTimeout
  /-- ENGINE_OP_START (R337). A copy context or the tile engine starts its next accepted operation when the previous one has read its last source byte. Acts on core = sel.a, unit = sel.b. -/
  | engineOpStart
  /-- ENGINE_LAND (R167). A staged unit lands when its region has released, its read tags are cleared and W cycles have passed. Acts on core = sel.a, unit = sel.b. -/
  | engineLand
  /-- ACTIVATION_START (R366). A delayed row activation starts once the activation window and the refresh slot allow it. Acts on core = sel.a, bank = sel.b. -/
  | activationStart
  /-- ROW_READY (R364). At its ready cycle an OPENING bank becomes OPEN, releasing held RCON.W and waiting accesses. Acts on core = sel.a, bank = sel.b. -/
  | rowReady
  /-- REFRESH_SLOT_START (R367). A bank's refresh slot begins and an OPENING or OPEN bank becomes LOST. Acts on core = sel.a, bank = sel.b. -/
  | refreshSlotStart
  /-- CIRCUIT_IDLE_TEARDOWN (R380). A circuit idle for 512 cycles has its router reservations torn down. Acts on core = sel.a, id = sel.b. -/
  | circuitIdleTeardown
  /-- LAUNCH_READY (R423). A launch becomes ready when its graph may dispatch, and is shown to the Tempo cores of its partition. Acts on lslot = sel.a. -/
  | launchReady
  /-- CANCEL_COMPLETE (R30). Once every crew and engine operation of a cancelled level has drained, the level records CANCELLED. Acts on kind = sel.a (0 a launch, 1 a level), index = sel.b. -/
  | cancelComplete
  /-- NOP_COMMAND (R420). Queue command NOP has no effect. Acts on q = sel.a. -/
  | nopCommand
  /-- LAUNCH (R423). Queue command LAUNCH takes a launch-table entry, checks image and descriptor, decides placeability and enters the launch in its graph. Acts on q = sel.a. -/
  | launch
  /-- OPEN (R420). Queue command OPEN opens a graph, phase or job with its completion record. Acts on q = sel.a. -/
  | openLevel
  /-- CANCEL (R432). Queue command CANCEL cancels the open level named by REC and every level within it. Acts on q = sel.a. -/
  | cancelLevel
  /-- WRITE (R420). Queue command WRITE stores VALUE as a system-scope release and completes when performed. Acts on q = sel.a. -/
  | writeWord
  /-- NOTIFY (R420). Queue command NOTIFY raises interrupt VECTOR at the application cores. Acts on q = sel.a. -/
  | notifyCores
  /-- INVAL (R421). Admin command INVAL invalidates a context's translations, LD transposition entries and kept instructions over a range. Acts on q = sel.a. -/
  | inval
  /-- CTXSET (R412). Admin command CTXSET writes a context's ROOT, TRAPBASE, PART and flags. Acts on q = sel.a. -/
  | ctxset
  /-- WAIT_RECHECK_TIMER (R419). A queue engine re-reads the waits of a blocked command at least once every 2^16 cycles. Acts on q = sel.a. -/
  | waitRecheckTimer
  /-- QUEUE_TABLE_TIMEOUT (R422). A launch or level table that stays full for 2^20 cycles halts the queue with code TABLE. Acts on q = sel.a. -/
  | queueTableTimeout
  /-- STEAL_ATTEMPT (R430). Every 512 idle cycles a core steps its LFSR and sends a steal request to the chosen victim. Acts on core = sel.a. -/
  | stealAttempt
  /-- STEAL_REQUEST (R431). The victim's queue engine hands the last eligible unstarted record to the thief, which re-binds and starts it. Acts on victim = sel.a, thief = sel.b. -/
  | stealRequest
  /-- FRSTAT_READ (R438). A read of FRSTAT returns and clears the bit set by an ignored fault response. -/
  | frstatRead
  /-- PREEMPT_COMPLETE (R444). When the drain and landings finish, the images are written, resources freed and PSTAT written. Acts on die = sel.a. -/
  | preemptComplete
  /-- FENCE_EVACUATION_TIMEOUT (R440). Groups not pre-empted within 2^16 cycles of a fence are lost instead. Acts on core = sel.a. -/
  | fenceEvacuationTimeout
  /-- CLUSTER_RESET_END (R477). The cluster reset ends and requests held at the router for its vaults proceed. Acts on cluster = sel.a. -/
  | clusterResetEnd
  /-- SCRUB_WRITEBACK (R502). A scrub write-back of a corrected block is performed only if the version bit is unchanged. Acts on block = sel.a. -/
  | scrubWriteback
  /-- GET_VERSION (R489). SPDM GET_VERSION is answered by Plinth. -/
  | getVersion
  /-- GET_CAPABILITIES (R489). SPDM GET_CAPABILITIES is answered. -/
  | getCapabilities
  /-- GET_DIGESTS (R489). SPDM GET_DIGESTS returns the certificate digest of slot 0. -/
  | getDigests
  /-- RJOIN_RELEASE (R18). Held threads whose rejoin condition is met are released together and advance. Acts on core = sel.a, sub = sel.b, slot = sel.c. -/
  | rjoinRelease
  /-- SUBSCRIPTION_ACK_RECEIVE (R472). The home of a range part receives a subscriber's acknowledgement of an update, advancing the oldest unacknowledged number so that updates held beyond the 16-number window may be sent. Acts on upd = sel.a. -/
  | subscriptionAckReceive
  /-- REFRESH_SLOT_END (R367). A bank's refresh slot ends, and ordinary vault DRAM accesses that waited inside the slot are served. Acts on core = sel.a, bank = sel.b. -/
  | refreshSlotEnd
  /-- UNIT_COMPLETE_IN_STAGING (R167). An engine unit (a copy chunk, a k-step, a drained tile or a TCTL result) completes in its staging buffer once its reads have returned and its compute time has passed. Acts on core = sel.a, unit = sel.b. -/
  | unitCompleteInStaging
  /-- EXIT_S32 (R289). Exit, S32 form. Its register and modifier fields are fixed. -/
  | exitThreadS32
  /-- NOP_S32 (R289). No operation, S32 form. Its register and modifier fields are fixed. -/
  | nopS32
  /-- PAUSE_S32 (R289). Pause, S32 form. Its register and modifier fields are fixed. -/
  | pauseS32
  /-- REGION_S32 (R289). Region head, S32 form. Its register and modifier fields are fixed. -/
  | regionS32
  /-- COMMIT_S32 (R184). Commit, S32 form. Its register and modifier fields are fixed. -/
  | commitS32
  /-- TRET_S32 (R300). Trap return, S32 form. Its register and modifier fields are fixed. -/
  | tretS32
  /-- XBLK_ACQ_S32 (R381). Acquire the extended block, S32 form. Its register and modifier fields are fixed. -/
  | xblkAcqS32
  /-- XBLK_REL_S32 (R381). Release the extended block, S32 form. Its register and modifier fields are fixed. -/
  | xblkRelS32
  deriving DecidableEq, Repr

end Sys2Proof
end

