-- ==== Sys2Proof/WellFormed.lean ====
section
/-! DEFINITION. Which field values an instruction may hold (R223 to R225, R227 checks 2 to 5 as far as the
encoding alone decides them), and the expansion of the short forms (R222, R230). The first failing check
names the cause of ILLEGAL: FIELD before SELECTOR and REGGROUP, as R227 orders them. -/

namespace Sys2Proof

/-- The causes of ILLEGAL (R226). -/
inductive IllegalCause where
  | opcode
  | form
  | compact
  | field
  | selector
  | regGroup
  | priv
  | special
  | handler
  deriving DecidableEq, Repr

/-- The code of a cause (R226). -/
def IllegalCause.code : IllegalCause → Nat
  | .opcode => 1
  | .form => 2
  | .compact => 3
  | .field => 4
  | .selector => 5
  | .regGroup => 6
  | .priv => 7
  | .special => 8
  | .handler => 9

/-- The first cause of a list of checks (R227). -/
def firstCause : List (Option IllegalCause) → Option IllegalCause
  | [] => none
  | some c :: _ => some c
  | none :: rest => firstCause rest

/-- A check that fails with a cause unless its condition holds. -/
def need (ok : Bool) (c : IllegalCause) : Option IllegalCause := if ok then none else some c

/-- How an opcode uses one selector field (R223, R335). -/
inductive Use where
  /-- Not used: must be 67 (R224). -/
  | unused
  /-- A source: a register, a latch or zero. -/
  | src
  /-- A destination register or 67. -/
  | dst
  /-- A destination predicate, 0 to 31. -/
  | pdst
  /-- A source predicate, 0 to 31 (R272). -/
  | psrc
  /-- An even selector naming a pair (R225). -/
  | pair
  /-- A pair, or 67. -/
  | pairOrZero
  /-- A register 0 to 63 (R335). -/
  | reg
  /-- A register 0 to 63, or 67 (R335). -/
  | regOrZero
  /-- The register of a scratchpad offset in A of the memory format: 0 to 63, or 67 (R223). -/
  | offset
  deriving DecidableEq, Repr

/-- The FIELD part of a selector's check (R224): an unused field holds 67, and a field whose description
assigns only registers holds one. -/
def Use.fieldCheck (u : Use) (s : Nat) : Option IllegalCause :=
  match u with
  | .unused => need (s == 67) .field
  | .reg => need (s < 64 || 68 ≤ s) .field
  | .regOrZero => need (s < 64 || 67 ≤ s) .field
  | _ => none

/-- The SELECTOR and REGGROUP part of a selector's check (R223, R225). -/
def Use.selCheck (u : Use) (s : Nat) : Option IllegalCause :=
  match u with
  | .unused => none
  | .src => need (s ≤ 67) .selector
  | .dst | .offset => need (s < 64 || s == 67) .selector
  | .pdst | .psrc => need (s < 32) .selector
  | .pair => if s % 2 == 1 then some .regGroup else need (s < 64) .selector
  | .pairOrZero =>
    if s == 67 then none else if s % 2 == 1 then some .regGroup else need (s < 64) .selector
  | .reg | .regOrZero => need (s ≤ 67) .selector

/-- How an opcode of the register format uses its fields. creg is the use of C when it names a register;
cmod says which modifier values C may hold otherwise, and mxOk which values MX may hold. gdst is true when
HOLD and NWB may be used, bc when a broadcast may be. -/
structure Shape where
  d : Use
  a : Use
  b : Use
  creg : Option Use
  gdst : Bool
  bc : Bool
  deriving DecidableEq, Repr

/-- Two sources and a destination register. -/
def Shape.alu2 : Shape := ⟨.dst, .src, .src, none, true, true⟩
/-- One source and a destination register. -/
def Shape.alu1 : Shape := ⟨.dst, .src, .unused, none, true, true⟩
/-- Three sources and a destination register. -/
def Shape.alu3 : Shape := ⟨.dst, .src, .src, some .src, true, true⟩
/-- A destination register only. -/
def Shape.alu0 : Shape := ⟨.dst, .unused, .unused, none, true, true⟩
/-- Two sources and a destination predicate. -/
def Shape.cmp : Shape := ⟨.pdst, .src, .src, none, false, true⟩
/-- No operand. -/
def Shape.bare : Shape := ⟨.unused, .unused, .unused, none, false, true⟩

/-- Every check of the register format: common fields, modifiers, broadcast, then selectors. sbsOk is
false for an opcode that sets no slot (R348). -/
def L64.check (sh : Shape) (cOk mxOk : Nat → Bool) (f : L64) : Option IllegalCause :=
  firstCause [
    need (f.sbs.toNat ≤ 6) .field,
    need (mxOk f.mx.toNat) .field,
    need (sh.creg.isSome || cOk f.c.toNat) .field,
    sh.d.fieldCheck f.d.toNat,
    sh.a.fieldCheck f.a.toNat,
    sh.b.fieldCheck f.b.toNat,
    (sh.creg.getD .src).fieldCheck f.c.toNat,
    need (sh.gdst || (f.hold == 3 && f.nwb == 0)) .field,
    need (!(f.nwb == 1 && f.hold == 3)) .field,
    need (f.bln == 0 || f.bcm == 1 || f.bcm == 2) .field,
    need (f.bcm == 0 || sh.bc) .field,
    need (!(f.bcm == 1 || f.bcm == 3) || sh.a == .src) .field,
    need (!(f.bcm == 2) || sh.b == .src) .field,
    sh.d.selCheck f.d.toNat,
    sh.a.selCheck f.a.toNat,
    sh.b.selCheck f.b.toNat,
    match sh.creg with
    | some u => u.selCheck f.c.toNat
    | none => none]

/-- The neutral register-format instruction of an expansion (R222). -/
def L64.neutral : L64 :=
  { mx := 0, bln := 0, bcm := 0, sbw := 0, sbs := 0, nwb := 0, hold := 3, pn := 0, pred := 31,
    c := 0, b := 67, a := 67, d := 67 }

/-- A 6-bit register field as a selector; an unused field expands to 67 (R222). -/
def widen (u : Use) (g : BitVec 6) : BitVec 7 :=
  if u == .unused then 67 else g.setWidth 7

/-- The expansion of the 32-bit register format (R222). -/
def S32.expand (sh : Shape) (f : S32) : L64 :=
  { L64.neutral with
    d := widen sh.d f.gd, a := widen sh.a f.ga, b := widen sh.b f.gb,
    c := (f.mod.extractLsb' 2 3).setWidth 7, mx := f.mod.extractLsb' 0 2 }

/-- Unused register fields of the short format hold 0 (R224); the rest is the expansion's check. -/
def S32.check (sh : Shape) (cOk mxOk : Nat → Bool) (f : S32) : Option IllegalCause :=
  firstCause [
    need (sh.d != .unused || f.gd == 0) .field,
    need (sh.a != .unused || f.ga == 0) .field,
    need (sh.b != .unused || f.gb == 0) .field,
    L64.check sh cOk mxOk (f.expand sh)]

/-- The expansion of the compact format (R222, R230). MOV takes its source in A. -/
def C16.expand (isMov : Bool) (c : BitVec 7) (f : C16) : L64 :=
  { L64.neutral with
    d := f.gd.setWidth 7, c := c,
    a := if isMov then f.gs.setWidth 7 else f.gd.setWidth 7,
    b := if isMov then 67 else f.gs.setWidth 7 }

/-- The neutral immediate-format instruction (R222). -/
def K64.neutral : K64 := { imm := 0, sbs := 0, pn := 0, pred := 31, a := 67, d := 67 }

/-- The expansion of the 32-bit immediate format (R222). -/
def I32.expand (usesD usesA : Bool) (f : I32) : K64 :=
  { K64.neutral with
    d := if usesD then f.gd.setWidth 7 else 67,
    a := if usesA then f.ga.setWidth 7 else 67,
    imm := f.imm.signExtend 32 }

/-- The expansion of the branch format (R222); CALL takes D = 30 (R228). -/
def J32.expand (call : Bool) (f : J32) : K64 :=
  { K64.neutral with
    d := if call then 30 else 67, pn := f.pn, pred := f.pred,
    imm := (f.off ++ (0 : BitVec 1)).signExtend 32 }

/-- The checks of the immediate format. -/
def K64.check (d a : Use) (immOk : Nat → Bool) (f : K64) : Option IllegalCause :=
  firstCause [
    need (f.sbs.toNat ≤ 6) .field,
    need (immOk f.imm.toNat) .field,
    d.fieldCheck f.d.toNat,
    a.fieldCheck f.a.toNat,
    d.selCheck f.d.toNat,
    a.selCheck f.a.toNat]

/-- The numbers of the special registers (R239). -/
def specialNumbers : List Nat :=
  [0x000, 0x001, 0x002, 0x004, 0x005, 0x006, 0x008, 0x009, 0x00A, 0x00B, 0x010, 0x011, 0x014, 0x020,
   0x022, 0x024]

/-- The special registers that are 64 bits wide (R239). -/
def specialWide : List Nat := [0x020, 0x024]

/-- SREAD: bits [31:11] are zero (R238), a wide register needs a pair (R225), the number is listed. -/
def K64.checkSread (f : K64) : Option IllegalCause :=
  firstCause [
    K64.check .dst .unused (fun i => i < 2048) f,
    need (!(specialWide.contains f.imm.toNat) || f.d.toNat % 2 == 0) .regGroup,
    need (specialNumbers.contains f.imm.toNat) .special]

/-- Whether the table of SYS allows a space and index for reading or writing (R301). -/
def sysAllowed (write : Bool) (imm : Nat) : Bool :=
  let space := bits imm 23 16
  let ix := bits imm 15 0
  bits imm 30 24 == 0 && ix % 4 == 0 &&
  (if space == 0 then ix ≤ 0xFC && (!write || 0x40 ≤ ix)
   else if space == 1 then
     if write then ix == 0 || ix == 4 || ix == 0x14 || (0x18 ≤ ix && ix ≤ 0x2C) else ix ≤ 0x34
   else if space == 2 then
     if write then ix == 0 else ix == 4 || ix == 8 || ix == 0xC
   else false)

/-- The length in registers of a data group of a size (R225, R306). -/
def groupLen (sz : Nat) : Nat :=
  if sz ≤ 2 then 1 else if sz == 3 then 2 else if sz == 4 then 4 else 16

/-- A data register or group of the memory format: SELECTOR then REGGROUP (R223, R225). -/
def groupCheck (d align : Nat) : Option IllegalCause :=
  if d == 67 then none
  else if 64 ≤ d then some .selector
  else need (d % align == 0) .regGroup

/-- The checks of the memory format. szOk, ordScopeOk and hintOk say which values the description
assigns; sxOk is asked only when SX = 1. -/
def M64.check (szOk : Nat → Bool) (ordScopeOk : Nat → Nat → Nat → Bool) (hintOk : Nat → Bool)
    (sxOk : Nat → Bool) (a : Use) (dcheck : Option IllegalCause) (f : M64) : Option IllegalCause :=
  firstCause [
    need (f.sbs.toNat ≤ 6) .field,
    need (szOk f.sz.toNat) .field,
    need (ordScopeOk f.ord.toNat f.scope.toNat f.sz.toNat) .field,
    need (hintOk f.hint.toNat) .field,
    need (f.sx == 0 || sxOk f.sz.toNat) .field,
    a.fieldCheck f.a.toNat,
    a.selCheck f.a.toNat,
    dcheck]

/-- No ordered form: ORD and SCOPE are 0 (R224). -/
def plainOnly (o s _ : Nat) : Bool := o == 0 && s == 0

/-- The code and size of an atomic function (R314), and where TID must be zero (R313). -/
def atomFnOk (f : M64) (returning : Bool) : Bool :=
  let fn := bits f.off.toNat 7 0
  let tid := bits f.off.toNat 13 8
  let sz := f.sz.toNat
  bits f.off.toNat 15 14 == 0 && f.sx == 0 && f.hint == 0 &&
  (if fn ≤ 0x09 then (sz == 2 || sz == 3) && tid == 0 && (returning || fn != 9)
   else 0x10 ≤ fn && fn ≤ 0x12 && sz == 2)

/-- The data registers of an atomic: a word, a pair, or the two of CAS (R314). -/
def atomGroup (f : M64) : Nat :=
  let cas := bits f.off.toNat 7 0 == 9
  if f.sz.toNat == 3 then (if cas then 4 else 2) else (if cas then 2 else 1)

/-- The checks of an atomic; maxScope is 3 for global atomics and 1 for the scratchpad's (R313). -/
def M64.checkAtom (returning : Bool) (maxScope : Nat) (a : Use) (f : M64) : Option IllegalCause :=
  firstCause [
    need (f.sbs.toNat ≤ 6) .field,
    need (atomFnOk f returning) .field,
    need (if f.ord == 1 then f.scope.toNat ≤ maxScope else f.ord == 0 && f.scope == 0) .field,
    a.fieldCheck f.a.toNat,
    a.selCheck f.a.toNat,
    groupCheck f.d.toNat (atomGroup f)]

/-- A barrier instruction's address register: 0 to 63, or 67 (R223). -/
def M64.checkBar (hintOk : Nat → Bool) (dcheck : Option IllegalCause) (f : M64) : Option IllegalCause :=
  M64.check (· == 0) plainOnly hintOk (fun _ => false) .offset dcheck f

/-- The shape of PLOG (R228, R335). -/
def Shape.plog : Shape := ⟨.pdst, .psrc, .psrc, none, false, true⟩

/-- The shape of PPUT (R228, R335). -/
def Shape.pput : Shape := ⟨.pdst, .src, .unused, none, false, true⟩

/-- The shape of JR (R228, R335). -/
def Shape.jr : Shape := ⟨.unused, .pair, .unused, none, false, true⟩

/-- The shape of RET (R228, R335). -/
def Shape.ret : Shape := ⟨.unused, .pair, .unused, none, false, true⟩

/-- The shape of RJOIN (R228, R335). -/
def Shape.rjoin : Shape := ⟨.unused, .src, .unused, none, false, true⟩

/-- The shape of CPY (R228, R335). -/
def Shape.cpy : Shape := ⟨.pair, .pair, .reg, some .regOrZero, false, false⟩

/-- The shape of CPYT (R228, R335). -/
def Shape.cpyt : Shape := ⟨.pair, .pair, .reg, some .regOrZero, false, false⟩

/-- The shape of CPYG (R228, R335). -/
def Shape.cpyg : Shape := ⟨.pair, .pair, .reg, some .regOrZero, false, false⟩

/-- The shape of TLWAIT (R228, R335). -/
def Shape.tlwait : Shape := ⟨.unused, .pairOrZero, .unused, none, false, false⟩

/-- The shape of TMAC (R228, R335). -/
def Shape.tmac : Shape := ⟨.unused, .reg, .unused, none, false, false⟩

/-- The shape of TCONV (R228, R335). -/
def Shape.tconv : Shape := ⟨.unused, .reg, .unused, none, false, false⟩

/-- The shape of TDRAIN (R228, R335). -/
def Shape.tdrain : Shape := ⟨.unused, .reg, .unused, none, false, false⟩

/-- The shape of TCTL_ZERO (R228, R335). -/
def Shape.tctlZero : Shape := ⟨.unused, .unused, .unused, none, false, false⟩

/-- The shape of TCTL_LOAD (R228, R335). -/
def Shape.tctlLoad : Shape := ⟨.unused, .reg, .unused, none, false, false⟩

/-- The shape of TCTL_STAT (R228, R335). -/
def Shape.tctlStat : Shape := ⟨.dst, .unused, .unused, none, false, false⟩

/-- The shape of RACT (R228, R335). -/
def Shape.ract : Shape := ⟨.unused, .reg, .reg, none, false, false⟩

/-- The shape of RPRE (R228, R335). -/
def Shape.rpre : Shape := ⟨.unused, .reg, .unused, none, false, false⟩

/-- The shape of SUBS_ON (R228, R335). -/
def Shape.subsOn : Shape := ⟨.dst, .pair, .pair, some .reg, false, false⟩

/-- The shape of SUBS_OFF (R228, R335). -/
def Shape.subsOff : Shape := ⟨.unused, .reg, .unused, some .unused, false, false⟩

/-- The shape of AMSG (R228, R335). -/
def Shape.amsg : Shape := ⟨.unused, .reg, .reg, none, false, false⟩

/-- The shape of CIRC_SETUP (R228, R335). -/
def Shape.circSetup : Shape := ⟨.dst, .reg, .reg, some .unused, false, false⟩

/-- The shape of CIRC_SEND (R228, R335). -/
def Shape.circSend : Shape := ⟨.unused, .reg, .reg, some .pair, false, false⟩

/-- The shape of CIRC_REL (R228, R335). -/
def Shape.circRel : Shape := ⟨.unused, .reg, .unused, some .unused, false, false⟩

/-- The shape of XBLK_ACQ (R228, R335). -/
def Shape.xblkAcq : Shape := ⟨.unused, .unused, .unused, none, false, false⟩

/-- The shape of XBLK_REL (R228, R335). -/
def Shape.xblkRel : Shape := ⟨.unused, .unused, .unused, none, false, false⟩

/-- RCON: D is a register only with .ST, B only with .S (R335). -/
def checkRcon (f : L64) : Option IllegalCause :=
  L64.check ⟨if bit f.c.toNat 2 then .dst else .unused, .reg, if bit f.c.toNat 1 then .reg else .unused,
    none, false, false⟩ (· ≤ 7) (· == 0) f

/-- WOPEN: op 11 is not assigned, and B holds a grant word only for GRANT (R335). -/
def checkWopen (f : L64) : Option IllegalCause :=
  L64.check ⟨.pairOrZero, .reg, if f.mx == 2 then .reg else .unused, none, false, false⟩
    (· == 0) (· ≤ 2) f

/-- The first check of R227 that an instruction's encoding fails. The device's own steps and the acts of
outside parties have no encoding to check. -/
def Instr.illegal : Instr → Option IllegalCause
  | .powerOn _ => none
  | .issueArbitration => none
  | .recordStart => none
  | .regionRelease => none
  | .groupComplete => none
  | .handlerCrewStart => none
  | .trapEntry => none
  | .contextTerminate => none
  | .sensorEventCore _ _ => none
  | .sensorEventHome _ _ => none
  | .sensorEventRouterPort _ _ => none
  | .crossingSlip _ => none
  | .redoNoticeReceive => none
  | .clearSend => none
  | .clearReceive => none
  | .homeServeRead => none
  | .homePerformWrite => none
  | .homePerformAtomic => none
  | .loadValueReturn => none
  | .writeAckReceive => none
  | .releasePointComplete => none
  | .atomicResendTimeout => none
  | .transactionTimeout => none
  | .linkCrcFail _ _ => none
  | .linkResend => none
  | .laneRemap _ _ _ => none
  | .laneRemapEnd => none
  | .l1LeaseExpiry => none
  | .epochRotate => none
  | .subscriptionUpdateSend => none
  | .subscriptionUpdateApply _ _ => none
  | .subscriptionNackResend => none
  | .windowTableUpdate => none
  | .amsgAccept => none
  | .xblkGrant => none
  | .asyncTrapDue => none
  | .barrierTimeout => none
  | .engineOpStart => none
  | .engineLand => none
  | .activationStart => none
  | .rowReady => none
  | .refreshSlotStart => none
  | .circuitIdleTeardown => none
  | .uncorrectableStorageError _ => none
  | .launchReady => none
  | .cancelComplete => none
  | .doorbellWrite _ _ => none
  | .nopCommand => none
  | .launch => none
  | .openLevel => none
  | .cancelLevel => none
  | .writeWord => none
  | .notifyCores => none
  | .inval => none
  | .ctxset => none
  | .waitRecheckTimer => none
  | .queueTableTimeout => none
  | .bindRecordWrite _ _ => none
  | .restoreRecordWrite _ _ => none
  | .stealAttempt => none
  | .stealRequest => none
  | .logOverrunClear _ _ => none
  | .fqheadWrite _ => none
  | .faultrespReplay _ => none
  | .faultrespDecline _ => none
  | .faultrespTerminate _ => none
  | .frstatRead => none
  | .preemptRequest _ _ => none
  | .preemptComplete => none
  | .fenceUnit _ _ _ => none
  | .fenceEvacuationTimeout => none
  | .quiesce _ => none
  | .restoreCast _ => none
  | .runFieldTest _ => none
  | .iftctlStart _ _ => none
  | .iftComplete _ _ => none
  | .resetCluster _ => none
  | .clusterResetEnd => none
  | .clearCounters _ _ => none
  | .updateFirmware _ _ => none
  | .setPowerCap _ => none
  | .powerControlPeriod _ _ _ => none
  | .thermalThrottle _ _ => none
  | .thermalRelease _ _ => none
  | .scrubVisit _ _ => none
  | .scrubWriteback => none
  | .counterWrite _ _ _ => none
  | .thresholdWrite _ _ _ => none
  | .ellostClear _ => none
  | .lockRegion _ => none
  | .lockPart _ => none
  | .lockLmap _ => none
  | .lockSensors _ => none
  | .lockClock _ => none
  | .lockPhoac _ => none
  | .lockErrorClear _ => none
  | .registerWrite _ _ _ => none
  | .appCoreAccess _ _ => none
  | .pcieInboundRequest _ _ => none
  | .phoacRequest _ _ _ => none
  | .getVersion => none
  | .getCapabilities => none
  | .negotiateAlgorithms _ _ => none
  | .getDigests => none
  | .getCertificate _ _ _ => none
  | .challenge _ _ => none
  | .getMeasurements _ => none
  | .spdmUnsupported _ => none
  | .reservedOpcode _ _ => none
  | .rjoinRelease => none
  | .subscriptionAckReceive => none
  | .refreshSlotEnd => none
  | .unitCompleteInStaging => none
  | .iadd f => L64.check Shape.alu2 (· == 0) (· == 0) f
  | .iaddS32 f => S32.check Shape.alu2 (· == 0) (· == 0) f
  | .iaddC16 _ => none
  | .isub f => L64.check Shape.alu2 (· == 0) (· == 0) f
  | .isubS32 f => S32.check Shape.alu2 (· == 0) (· == 0) f
  | .isubC16 _ => none
  | .iaddi f => K64.check .dst .src (fun _ => true) f
  | .iaddiI32 f => firstCause [K64.check .dst .src (fun _ => true) (f.expand true true)]
  | .imul f => L64.check Shape.alu2 (· == 0) (· == 0) f
  | .imulS32 f => S32.check Shape.alu2 (· == 0) (· == 0) f
  | .imulh f => L64.check Shape.alu2 (· ≤ 1) (· == 0) f
  | .imulhS32 f => S32.check Shape.alu2 (· ≤ 1) (· == 0) f
  | .imac f => L64.check Shape.alu3 (fun _ => true) (· == 0) f
  | .imacw f => L64.check Shape.alu3 (fun _ => true) (· ≤ 1) f
  | .imin f => L64.check Shape.alu2 (· ≤ 1) (· == 0) f
  | .iminS32 f => S32.check Shape.alu2 (· ≤ 1) (· == 0) f
  | .iminC16 _ => none
  | .imax f => L64.check Shape.alu2 (· ≤ 1) (· == 0) f
  | .imaxS32 f => S32.check Shape.alu2 (· ≤ 1) (· == 0) f
  | .imaxC16 _ => none
  | .iabs f => L64.check Shape.alu1 (· ≤ 1) (· == 0) f
  | .iabsS32 f => S32.check Shape.alu1 (· ≤ 1) (· == 0) f
  | .and f => L64.check Shape.alu2 (· == 0) (· == 0) f
  | .andS32 f => S32.check Shape.alu2 (· == 0) (· == 0) f
  | .andC16 _ => none
  | .or f => L64.check Shape.alu2 (· == 0) (· == 0) f
  | .orS32 f => S32.check Shape.alu2 (· == 0) (· == 0) f
  | .orC16 _ => none
  | .xor f => L64.check Shape.alu2 (· == 0) (· == 0) f
  | .xorS32 f => S32.check Shape.alu2 (· == 0) (· == 0) f
  | .xorC16 _ => none
  | .logi f => L64.check Shape.alu2 (· ≤ 3) (fun _ => true) f
  | .logiS32 f => S32.check Shape.alu2 (· ≤ 3) (fun _ => true) f
  | .shl f => L64.check Shape.alu2 (· == 0) (· == 0) f
  | .shlS32 f => S32.check Shape.alu2 (· == 0) (· == 0) f
  | .shlC16 _ => none
  | .shr f => L64.check Shape.alu2 (· ≤ 1) (· == 0) f
  | .shrS32 f => S32.check Shape.alu2 (· ≤ 1) (· == 0) f
  | .shrC16 _ => none
  | .funl f => L64.check Shape.alu3 (fun _ => true) (· ≤ 1) f
  | .bext f => L64.check Shape.alu2 (· ≤ 1) (· == 0) f
  | .bextS32 f => S32.check Shape.alu2 (· ≤ 1) (· == 0) f
  | .bins f => L64.check Shape.alu3 (fun _ => true) (· == 0) f
  | .bcnt f => L64.check Shape.alu1 (· == 0) (· == 0) f
  | .bcntS32 f => S32.check Shape.alu1 (· == 0) (· == 0) f
  | .bscan f => L64.check Shape.alu1 (· ≤ 3) (· == 0) f
  | .bscanS32 f => S32.check Shape.alu1 (· ≤ 3) (· == 0) f
  | .brev f => L64.check Shape.alu1 (· == 0) (· == 0) f
  | .brevS32 f => S32.check Shape.alu1 (· == 0) (· == 0) f
  | .bperm f => L64.check Shape.alu2 (· == 0) (· == 0) f
  | .bpermS32 f => S32.check Shape.alu2 (· == 0) (· == 0) f
  | .icmp f => L64.check Shape.cmp (fun c => c < 16 && c % 8 ≤ 5) (· ≤ 2) f
  | .sel f => L64.check Shape.alu2 (· < 64) (· == 0) f
  | .adds f => L64.check Shape.alu2 (· ≤ 3) (· == 0) f
  | .addsS32 f => S32.check Shape.alu2 (· ≤ 3) (· == 0) f
  | .idot4 f => L64.check Shape.alu3 (fun _ => true) (fun _ => true) f
  | .fadd f => L64.check Shape.alu2 (· ≤ 3) (fun _ => true) f
  | .faddS32 f => S32.check Shape.alu2 (· ≤ 3) (fun _ => true) f
  | .faddC16 _ => none
  | .fsubC16 _ => none
  | .fmul f => L64.check Shape.alu2 (· ≤ 3) (fun _ => true) f
  | .fmulS32 f => S32.check Shape.alu2 (· ≤ 3) (fun _ => true) f
  | .fmulC16 _ => none
  | .ffma f => L64.check Shape.alu3 (fun _ => true) (fun _ => true) f
  | .ffms f => L64.check Shape.alu3 (fun _ => true) (fun _ => true) f
  | .fnma f => L64.check Shape.alu3 (fun _ => true) (fun _ => true) f
  | .fmin f => L64.check Shape.alu2 (· ≤ 1) (· == 0) f
  | .fminS32 f => S32.check Shape.alu2 (· ≤ 1) (· == 0) f
  | .fminC16 _ => none
  | .fmax f => L64.check Shape.alu2 (· ≤ 1) (· == 0) f
  | .fmaxS32 f => S32.check Shape.alu2 (· ≤ 1) (· == 0) f
  | .fmaxC16 _ => none
  | .fcmp f => L64.check Shape.cmp (· ≤ 7) (· ≤ 2) f
  | .fclass f => L64.check Shape.alu1 (· == 0) (· == 0) f
  | .fclassS32 f => S32.check Shape.alu1 (· == 0) (· == 0) f
  | .sfn f => L64.check Shape.alu1 (· ≤ 7) (· == 0) f
  | .sfnS32 f => S32.check Shape.alu1 (· ≤ 7) (· == 0) f
  | .fint f => L64.check Shape.alu1 (· == 0) (fun _ => true) f
  | .fintS32 f => S32.check Shape.alu1 (· == 0) (fun _ => true) f
  | .ftoi f => L64.check Shape.alu1 (· ≤ 1) (fun _ => true) f
  | .ftoiS32 f => S32.check Shape.alu1 (· ≤ 1) (fun _ => true) f
  | .itof f => L64.check Shape.alu1 (· ≤ 1) (fun _ => true) f
  | .itofS32 f => S32.check Shape.alu1 (· ≤ 1) (fun _ => true) f
  | .fscale f => L64.check Shape.alu2 (· == 0) (fun _ => true) f
  | .fscaleS32 f => S32.check Shape.alu2 (· == 0) (fun _ => true) f
  | .padd f => L64.check Shape.alu2 (· ≤ 3) (fun _ => true) f
  | .paddS32 f => S32.check Shape.alu2 (· ≤ 3) (fun _ => true) f
  | .paddC16 _ => none
  | .pmul f => L64.check Shape.alu2 (· ≤ 1) (fun _ => true) f
  | .pmulS32 f => S32.check Shape.alu2 (· ≤ 1) (fun _ => true) f
  | .pfma f => L64.check Shape.alu3 (fun _ => true) (fun _ => true) f
  | .pmnx f => L64.check Shape.alu2 (· ≤ 7) (· == 0) f
  | .pmnxS32 f => S32.check Shape.alu2 (· ≤ 7) (· == 0) f
  | .cvt f => L64.check Shape.alu2 (fun _ => true) (fun _ => true) f
  | .cvtS32 f => S32.check Shape.alu2 (fun _ => true) (fun _ => true) f
  | .pack f => L64.check Shape.alu2 (fun c => c < 16 && (c % 4 ≥ 2 || bits c 2 2 == 0)) (fun _ => true) f
  | .packS32 f => S32.check Shape.alu2 (fun c => c < 16 && (c % 4 ≥ 2 || bits c 2 2 == 0)) (fun _ => true) f
  | .unpk f => L64.check Shape.alu1 (fun c => c < 32 && c % 8 != 0 && (if c % 8 ≤ 2 then c / 8 ≤ 1 else c % 8 ≤ 4 || c / 8 == 0)) (· == 0) f
  | .unpkS32 f => S32.check Shape.alu1 (fun c => c < 32 && c % 8 != 0 && (if c % 8 ≤ 2 then c / 8 ≤ 1 else c % 8 ≤ 4 || c / 8 == 0)) (· == 0) f
  | .qnt f => M64.check (· == 5) plainOnly (· == 0) (fun _ => false) .pairOrZero (need (f.d.toNat % 4 == 0 && f.d.toNat ≤ 56) .regGroup) f
  | .dqnt f => M64.check (· == 5) plainOnly (· == 0) (fun _ => false) .pairOrZero (need (f.d.toNat % 4 == 0 && f.d.toNat ≤ 60) .regGroup) f
  | .plog f => L64.check Shape.plog (· ≤ 15) (· == 0) f
  | .pget f => L64.check Shape.alu0 (· == 0) (· == 0) f
  | .pput f => firstCause [need (!(f.c == 1) || f.d == 31) .field, L64.check Shape.pput (· ≤ 1) (· == 0) f]
  | .cvote f => L64.check Shape.alu1 (· ≤ 3) (· == 0) f
  | .cvoteS32 f => S32.check Shape.alu1 (· ≤ 3) (· == 0) f
  | .lxch f => L64.check Shape.alu2 (· ≤ 3) (· == 0) f
  | .lxchS32 f => S32.check Shape.alu2 (· ≤ 3) (· == 0) f
  | .lred f => L64.check Shape.alu1 (fun c => c < 64 && c / 16 ≤ 2 && (bits c 3 3 == 0 || c % 8 ≤ 2)) (· == 0) f
  | .lmatch f => L64.check Shape.alu1 (· ≤ 1) (· == 0) f
  | .pick f => L64.check Shape.alu3 (fun _ => true) (· == 0) f
  | .maskLanes f => L64.check Shape.alu0 (· ≤ 1) (· == 0) f
  | .maskLanesS32 f => S32.check Shape.alu0 (· ≤ 1) (· == 0) f
  | .mov f => L64.check Shape.alu1 (· == 0) (· == 0) f
  | .movS32 f => S32.check Shape.alu1 (· == 0) (· == 0) f
  | .movC16 _ => none
  | .movi f => K64.check .dst .unused (fun _ => true) f
  | .moviI32 f => firstCause [need (f.ga == 0) .field, K64.check .dst .unused (fun _ => true) (f.expand true false)]
  | .sread f => f.checkSread
  | .sreadI32 f => firstCause [need (f.ga == 0) .field, (f.expand true false).checkSread]
  | .locq f => M64.check (· == 0) plainOnly (· == 0) (fun _ => false) .pairOrZero (groupCheck f.d.toNat 1) f
  | .br f => K64.check .unused .unused (fun i => i % 2 == 0) f
  | .brJ32 f => K64.check .unused .unused (fun i => i % 2 == 0) (f.expand false)
  | .jr f => L64.check Shape.jr (· == 0) (· == 0) f
  | .jrS32 f => S32.check Shape.jr (· == 0) (· == 0) f
  | .call f => K64.check .pair .unused (fun i => i % 2 == 0) f
  | .callJ32 f => K64.check .pair .unused (fun i => i % 2 == 0) (f.expand true)
  | .ret f => L64.check Shape.ret (· == 0) (· == 0) f
  | .retS32 f => S32.check Shape.ret (· == 0) (· == 0) f
  | .rjoin f => L64.check Shape.rjoin (· == 0) (· == 0) f
  | .rjoinS32 f => S32.check Shape.rjoin (· == 0) (· == 0) f
  | .exitThread f => L64.check Shape.bare (· == 0) (· == 0) f
  | .exitThreadS32 => none
  | .nop f => L64.check Shape.bare (· == 0) (· == 0) f
  | .nopS32 => none
  | .pause f => L64.check Shape.bare (· == 0) (· == 0) f
  | .pauseS32 => none
  | .region f => L64.check Shape.bare (· == 0) (· == 0) f
  | .regionS32 => none
  | .tryGambit f => firstCause [K64.check .dst .unused (fun _ => true) f, need (f.d.toNat < 64) .selector]
  | .commit f => L64.check Shape.bare (· == 0) (· == 0) f
  | .commitS32 => none
  | .abort f => K64.check .unused .unused (· < 128) f
  | .trap f => K64.check .unused .unused (fun _ => true) f
  | .brk f => K64.check .unused .unused (fun _ => true) f
  | .brkI32 f => firstCause [need (f.gd == 0) .field, need (f.ga == 0) .field, K64.check .unused .unused (fun _ => true) (f.expand false false)]
  | .tret f => L64.check Shape.bare (· == 0) (· == 0) f
  | .tretS32 => none
  | .sysR f => K64.check .dst .unused (fun i => i < 2 ^ 31 && sysAllowed false i) f
  | .sysW f => K64.check .unused .src (fun i => 2 ^ 31 ≤ i && sysAllowed true (i % 2 ^ 31)) f
  | .ld f => M64.check (· ≤ 5) (fun o s z => (o == 0 && s == 0) || (o == 1 && z ≤ 3)) (· ≤ 2) (· ≤ 1) .pairOrZero (groupCheck f.d.toNat (groupLen f.sz.toNat)) f
  | .st f => M64.check (· ≤ 4) (fun o s z => (o == 0 && s == 0) || (o == 1 && z ≤ 3)) (fun h => h == 0 || h == 2) (fun _ => false) .pairOrZero (groupCheck f.d.toNat (groupLen f.sz.toNat)) f
  | .stBlk f => M64.check (· == 5) plainOnly (fun h => h == 0 || h == 2) (fun _ => false) .pairOrZero (groupCheck f.d.toNat (groupLen f.sz.toNat)) f
  | .ldc f => M64.check (· ≤ 3) (fun o _ _ => o == 0) (· == 0) (· ≤ 1) .pairOrZero (groupCheck f.d.toNat (groupLen f.sz.toNat)) f
  | .lda f => M64.check (· ≤ 4) plainOnly (· == 0) (· ≤ 1) .pairOrZero (groupCheck f.d.toNat (groupLen f.sz.toNat)) f
  | .sld f => M64.check (· ≤ 4) (fun o s _ => (o == 0 && s == 0) || (o == 1 && s ≤ 1)) (· == 0) (· ≤ 1) .offset (groupCheck f.d.toNat (groupLen f.sz.toNat)) f
  | .sst f => M64.check (· ≤ 4) (fun o s _ => (o == 0 && s == 0) || (o == 1 && s ≤ 1)) (· == 0) (fun _ => false) .offset (groupCheck f.d.toNat (groupLen f.sz.toNat)) f
  | .atom f => M64.checkAtom true 3 .pairOrZero f
  | .atomn f => M64.checkAtom false 3 .pairOrZero f
  | .satom f => M64.checkAtom true 1 .offset f
  | .fence f => firstCause [need (f.off == 0) .field, need (f.d == 67) .field, M64.check (· == 0) (fun o _ _ => o == 0) (· ≤ 1) (fun _ => false) .unused none f]
  | .cache f => firstCause [need (f.d == 67) .field, need (!(f.sx == 1) || f.hint.toNat ≤ 1) .field, need (!(f.sx == 0 && f.hint == 1) || (f.a == 67 && f.off == 0)) .field, M64.check (· == 0) plainOnly (fun _ => true) (fun _ => true) .pairOrZero none f]
  | .bari f => f.checkBar (· == 0) (groupCheck f.d.toNat 1)
  | .bara f => firstCause [need (f.hint == 0 || f.d == 67) .field, f.checkBar (· ≤ 2) (groupCheck f.d.toNat 1)]
  | .barx f => f.checkBar (· == 0) (groupCheck f.d.toNat 1)
  | .barw f => f.checkBar (· == 0) (groupCheck f.d.toNat 1)
  | .bart f => f.checkBar (· == 0) (groupCheck f.d.toNat 1)
  | .cpy f => L64.check Shape.cpy (fun _ => true) (fun _ => true) f
  | .cpyt f => L64.check Shape.cpyt (fun _ => true) (fun _ => true) f
  | .cpyg f => L64.check Shape.cpyg (fun _ => true) (fun _ => true) f
  | .tlwait f => firstCause [need (f.sbs == 0) .field, L64.check Shape.tlwait (· ≤ 4) (· == 0) f]
  | .tmac f => L64.check Shape.tmac (· == 0) (· == 0) f
  | .tconv f => L64.check Shape.tconv (· == 0) (· == 0) f
  | .tdrain f => L64.check Shape.tdrain (· == 0) (· == 0) f
  | .tctlZero f => L64.check Shape.tctlZero (fun c => c < 64 && c % 8 == 0) (· == 0) f
  | .tctlLoad f => L64.check Shape.tctlLoad (fun c => c < 64 && c % 4 == 1) (· == 0) f
  | .tctlStat f => L64.check Shape.tctlStat (fun c => c < 64 && c % 8 == 2) (· == 0) f
  | .ract f => L64.check Shape.ract (· == 0) (· == 0) f
  | .rcon f => checkRcon f
  | .rpre f => L64.check Shape.rpre (· == 0) (· == 0) f
  | .wopen f => checkWopen f
  | .subsOn f => L64.check Shape.subsOn (fun _ => true) (fun _ => true) f
  | .subsOff f => L64.check Shape.subsOff (fun _ => true) (· == 0) f
  | .amsg f => L64.check Shape.amsg (· ≤ 15) (· == 0) f
  | .circSetup f => L64.check Shape.circSetup (fun _ => true) (· == 0) f
  | .circSend f => L64.check Shape.circSend (fun _ => true) (· == 1) f
  | .circRel f => L64.check Shape.circRel (fun _ => true) (· == 2) f
  | .xblkAcq f => L64.check Shape.xblkAcq (· == 0) (· == 0) f
  | .xblkAcqS32 => none
  | .xblkRel f => L64.check Shape.xblkRel (· == 1) (· == 0) f
  | .xblkRelS32 => none

/-- No check of R227 that the encoding alone decides fails. -/
def Instr.wellFormed (i : Instr) : Bool := i.illegal.isNone

end Sys2Proof
end

