-- ==== Sys2Proof/Decode.lean ====
section
/-! DEFINITION. The decoder, total on any bytes, and the encoder, both from the layouts of R213 to R221, the
opcode map R228 and the compact codes R230. A pattern that is no instruction is rejected by its cause. -/

namespace Sys2Proof

/-- The length in bytes that the first half-word fixes (R213). -/
def instrLength (h : Nat) : Nat :=
  if h % 2 == 0 then 2 else if h % 4 == 1 then 4 else 8

/-- Bits of a word as a field. -/
def fieldAt {n : Nat} (w : BitVec n) (lo len : Nat) : BitVec len := w.extractLsb' lo len

/-- The compact layout (R215). -/
def C16.ofWord (w : BitVec 16) : C16 := { gs := fieldAt w 10 5, gd := fieldAt w 5 5 }

/-- The word of a compact instruction (R215). -/
def C16.toWord (cop : BitVec 4) (f : C16) : BitVec 16 := 0#1 ++ f.gs ++ f.gd ++ cop ++ 0#1

/-- The 32-bit register layout (R216). -/
def S32.ofWord (w : BitVec 32) : S32 :=
  { mod := fieldAt w 27 5, gb := fieldAt w 21 6, ga := fieldAt w 15 6, gd := fieldAt w 9 6 }

/-- The word of a 32-bit register instruction (R216). -/
def S32.toWord (op : BitVec 7) (f : S32) : BitVec 32 := f.mod ++ f.gb ++ f.ga ++ f.gd ++ op ++ 1#2

/-- The 32-bit immediate layout (R217). -/
def I32.ofWord (w : BitVec 32) : I32 :=
  { imm := fieldAt w 21 11, ga := fieldAt w 15 6, gd := fieldAt w 9 6 }

/-- The word of a 32-bit immediate instruction (R217). -/
def I32.toWord (op : BitVec 7) (f : I32) : BitVec 32 := f.imm ++ f.ga ++ f.gd ++ op ++ 1#2

/-- The branch layout (R218). -/
def J32.ofWord (w : BitVec 32) : J32 :=
  { off := fieldAt w 15 17, pn := fieldAt w 14 1, pred := fieldAt w 9 5 }

/-- The word of a branch (R218). -/
def J32.toWord (op : BitVec 7) (f : J32) : BitVec 32 := f.off ++ f.pn ++ f.pred ++ op ++ 1#2

/-- The 64-bit register layout (R219). -/
def L64.ofWord (w : BitVec 64) : L64 :=
  { mx := fieldAt w 62 2, bln := fieldAt w 57 5, bcm := fieldAt w 55 2, sbw := fieldAt w 49 6,
    sbs := fieldAt w 46 3, nwb := fieldAt w 45 1, hold := fieldAt w 43 2, pn := fieldAt w 42 1,
    pred := fieldAt w 37 5, c := fieldAt w 30 7, b := fieldAt w 23 7, a := fieldAt w 16 7,
    d := fieldAt w 9 7 }

/-- The word of a 64-bit register instruction (R219). -/
def L64.toWord (op : BitVec 7) (f : L64) : BitVec 64 :=
  f.mx ++ f.bln ++ f.bcm ++ f.sbw ++ f.sbs ++ f.nwb ++ f.hold ++ f.pn ++ f.pred ++ f.c ++ f.b ++ f.a ++
    f.d ++ op ++ 3#2

/-- The 64-bit immediate layout (R220). -/
def K64.ofWord (w : BitVec 64) : K64 :=
  { imm := fieldAt w 32 32, sbs := fieldAt w 29 3, pn := fieldAt w 28 1, pred := fieldAt w 23 5,
    a := fieldAt w 16 7, d := fieldAt w 9 7 }

/-- The word of a 64-bit immediate instruction (R220). -/
def K64.toWord (op : BitVec 7) (f : K64) : BitVec 64 :=
  f.imm ++ f.sbs ++ f.pn ++ f.pred ++ f.a ++ f.d ++ op ++ 3#2

/-- The memory layout (R221). -/
def M64.ofWord (w : BitVec 64) : M64 :=
  { off := fieldAt w 48 16, sx := fieldAt w 47 1, hint := fieldAt w 45 2, scope := fieldAt w 43 2,
    ord := fieldAt w 41 2, sz := fieldAt w 38 3, sbw := fieldAt w 32 6, sbs := fieldAt w 29 3,
    pn := fieldAt w 28 1, pred := fieldAt w 23 5, a := fieldAt w 16 7, d := fieldAt w 9 7 }

/-- The word of a memory instruction (R221). -/
def M64.toWord (op : BitVec 7) (f : M64) : BitVec 64 :=
  f.off ++ f.sx ++ f.hint ++ f.scope ++ f.ord ++ f.sz ++ f.sbw ++ f.sbs ++ f.pn ++ f.pred ++ f.a ++ f.d ++
    op ++ 3#2

/-- The 64-bit layout of an opcode, with the instruction it reads (R228). -/
inductive LongForm where
  | l (mk : L64 → Instr)
  | k (mk : K64 → Instr)
  | m (mk : M64 → Instr)

/-- The 32-bit layout of an opcode, if any (R228). -/
inductive ShortForm where
  | absent
  | s (mk : S32 → Instr)
  /-- No register field and no modifier but those MOD lists: every other value raises FIELD (R224). -/
  | bare (rows : List (BitVec 5 × Instr))
  | i (mk : I32 → Instr)
  | j (mk : J32 → Instr)

/-- A row of the opcode map (R228). -/
structure OpRow where
  op : Nat
  long : LongForm
  short : ShortForm

/-- Integer and logic, 0x00 to 0x1A (R228). -/
def intOps : List OpRow := [
  ⟨0x00, .l .iadd, .s .iaddS32⟩,
  ⟨0x01, .l .isub, .s .isubS32⟩,
  ⟨0x02, .k .iaddi, .i .iaddiI32⟩,
  ⟨0x03, .l .imul, .s .imulS32⟩,
  ⟨0x04, .l .imulh, .s .imulhS32⟩,
  ⟨0x05, .l .imac, .absent⟩,
  ⟨0x06, .l .imacw, .absent⟩,
  ⟨0x07, .l .imin, .s .iminS32⟩,
  ⟨0x08, .l .imax, .s .imaxS32⟩,
  ⟨0x09, .l .iabs, .s .iabsS32⟩,
  ⟨0x0A, .l .and, .s .andS32⟩,
  ⟨0x0B, .l .or, .s .orS32⟩,
  ⟨0x0C, .l .xor, .s .xorS32⟩,
  ⟨0x0D, .l .logi, .s .logiS32⟩,
  ⟨0x0E, .l .shl, .s .shlS32⟩,
  ⟨0x0F, .l .shr, .s .shrS32⟩,
  ⟨0x10, .l .funl, .absent⟩,
  ⟨0x11, .l .bext, .s .bextS32⟩,
  ⟨0x12, .l .bins, .absent⟩,
  ⟨0x13, .l .bcnt, .s .bcntS32⟩,
  ⟨0x14, .l .bscan, .s .bscanS32⟩,
  ⟨0x15, .l .brev, .s .brevS32⟩,
  ⟨0x16, .l .bperm, .s .bpermS32⟩,
  ⟨0x17, .l .icmp, .absent⟩,
  ⟨0x18, .l .sel, .absent⟩,
  ⟨0x19, .l .adds, .s .addsS32⟩,
  ⟨0x1A, .l .idot4, .absent⟩]

/-- Floating point, packed and conversion, 0x20 to 0x36 (R228). -/
def floatOps : List OpRow := [
  ⟨0x20, .l .fadd, .s .faddS32⟩,
  ⟨0x21, .l .fmul, .s .fmulS32⟩,
  ⟨0x22, .l .ffma, .absent⟩,
  ⟨0x23, .l .fmin, .s .fminS32⟩,
  ⟨0x24, .l .fmax, .s .fmaxS32⟩,
  ⟨0x25, .l .fcmp, .absent⟩,
  ⟨0x26, .l .fclass, .s .fclassS32⟩,
  ⟨0x27, .l .sfn, .s .sfnS32⟩,
  ⟨0x28, .l .fint, .s .fintS32⟩,
  ⟨0x29, .l .ftoi, .s .ftoiS32⟩,
  ⟨0x2A, .l .itof, .s .itofS32⟩,
  ⟨0x2B, .l .fscale, .s .fscaleS32⟩,
  ⟨0x2C, .l .padd, .s .paddS32⟩,
  ⟨0x2D, .l .pmul, .s .pmulS32⟩,
  ⟨0x2E, .l .pfma, .absent⟩,
  ⟨0x2F, .l .pmnx, .s .pmnxS32⟩,
  ⟨0x30, .l .cvt, .s .cvtS32⟩,
  ⟨0x31, .l .pack, .s .packS32⟩,
  ⟨0x32, .l .unpk, .s .unpkS32⟩,
  ⟨0x33, .m .qnt, .absent⟩,
  ⟨0x34, .m .dqnt, .absent⟩,
  ⟨0x35, .l .ffms, .absent⟩,
  ⟨0x36, .l .fnma, .absent⟩]

/-- Predicate, lane and move, 0x40 to 0x4C (R228). -/
def laneOps : List OpRow := [
  ⟨0x40, .l .plog, .absent⟩,
  ⟨0x41, .l .pget, .absent⟩,
  ⟨0x42, .l .pput, .absent⟩,
  ⟨0x43, .l .cvote, .s .cvoteS32⟩,
  ⟨0x44, .l .lxch, .s .lxchS32⟩,
  ⟨0x45, .l .lred, .absent⟩,
  ⟨0x46, .l .lmatch, .absent⟩,
  ⟨0x47, .l .pick, .absent⟩,
  ⟨0x48, .l .maskLanes, .s .maskLanesS32⟩,
  ⟨0x49, .l .mov, .s .movS32⟩,
  ⟨0x4A, .k .movi, .i .moviI32⟩,
  ⟨0x4B, .k .sread, .i .sreadI32⟩,
  ⟨0x4C, .m .locq, .absent⟩]

/-- Control and traps, 0x50 to 0x5F (R228). -/
def controlOps : List OpRow := [
  ⟨0x50, .k .br, .j .brJ32⟩,
  ⟨0x51, .l .jr, .s .jrS32⟩,
  ⟨0x52, .k .call, .j .callJ32⟩,
  ⟨0x53, .l .ret, .s .retS32⟩,
  ⟨0x54, .l .rjoin, .s .rjoinS32⟩,
  ⟨0x55, .l .exitThread, .bare [(0, .exitThreadS32)]⟩,
  ⟨0x56, .l .nop, .bare [(0, .nopS32)]⟩,
  ⟨0x57, .l .pause, .bare [(0, .pauseS32)]⟩,
  ⟨0x58, .l .region, .bare [(0, .regionS32)]⟩,
  ⟨0x59, .k .tryGambit, .absent⟩,
  ⟨0x5A, .l .commit, .bare [(0, .commitS32)]⟩,
  ⟨0x5B, .k .abort, .absent⟩,
  ⟨0x5C, .k .trap, .absent⟩,
  ⟨0x5D, .l .tret, .bare [(0, .tretS32)]⟩,
  ⟨0x5E, .k .brk, .i .brkI32⟩,
  ⟨0x5F, .k (fun f => if bit f.imm.toNat 31 then .sysW f else .sysR f), .absent⟩]

/-- Memory, atomics and barriers, 0x60 to 0x6F (R228). -/
def memoryOps : List OpRow := [
  ⟨0x60, .m .ld, .absent⟩,
  ⟨0x61, .m (fun f => if f.sz == 5 then .stBlk f else .st f), .absent⟩,
  ⟨0x62, .m .ldc, .absent⟩,
  ⟨0x63, .m .lda, .absent⟩,
  ⟨0x64, .m .sld, .absent⟩,
  ⟨0x65, .m .sst, .absent⟩,
  ⟨0x66, .m .atom, .absent⟩,
  ⟨0x67, .m .atomn, .absent⟩,
  ⟨0x68, .m .satom, .absent⟩,
  ⟨0x69, .m .fence, .absent⟩,
  ⟨0x6A, .m .cache, .absent⟩,
  ⟨0x6B, .m .bari, .absent⟩,
  ⟨0x6C, .m .bara, .absent⟩,
  ⟨0x6D, .m .barx, .absent⟩,
  ⟨0x6E, .m .barw, .absent⟩,
  ⟨0x6F, .m .bart, .absent⟩]

/-- Engines, windows, messages and blocks, 0x70 to 0x7F (R228). -/
def engineOps : List OpRow := [
  ⟨0x70, .l .cpy, .absent⟩,
  ⟨0x71, .l .cpyt, .absent⟩,
  ⟨0x72, .l .cpyg, .absent⟩,
  ⟨0x73, .l .tlwait, .absent⟩,
  ⟨0x74, .l .tmac, .absent⟩,
  ⟨0x75, .l .tconv, .absent⟩,
  ⟨0x76, .l .tdrain, .absent⟩,
  ⟨0x77, .l (fun f => if bits f.c.toNat 1 0 == 0 then .tctlZero f
      else if bits f.c.toNat 1 0 == 1 then .tctlLoad f else .tctlStat f), .absent⟩,
  ⟨0x78, .l .ract, .absent⟩,
  ⟨0x79, .l .rcon, .absent⟩,
  ⟨0x7A, .l .rpre, .absent⟩,
  ⟨0x7B, .l .wopen, .absent⟩,
  ⟨0x7C, .l (fun f => if f.b == 67 then .subsOff f else .subsOn f), .absent⟩,
  ⟨0x7D, .l .amsg, .absent⟩,
  ⟨0x7E, .l (fun f => if f.mx == 0 then .circSetup f else if f.mx == 1 then .circSend f else .circRel f), .absent⟩,
  ⟨0x7F, .l (fun f => if bit f.c.toNat 0 then .xblkRel f else .xblkAcq f), .bare [(0, .xblkAcqS32), (4, .xblkRelS32)]⟩]

/-- The primary opcode map (R228). -/
def opcodeMap : List OpRow := intOps ++ floatOps ++ laneOps ++ controlOps ++ memoryOps ++ engineOps

/-- The row of an opcode; none for a reserved one (R229). -/
def opRow (op : Nat) : Option OpRow := opcodeMap.find? (fun r => r.op == op)

/-- The compact codes, in the order of COP (R230). -/
def compactCodes : List (C16 → Instr) := [
  .movC16, .iaddC16, .isubC16, .andC16,
  .orC16, .xorC16, .iminC16, .imaxC16,
  .shlC16, .shrC16, .faddC16, .fsubC16,
  .fmulC16, .fminC16, .fmaxC16, .paddC16]

/-- A 16-bit instruction (R215, R230): bit 15 must be 0. -/
def decode16 (w : BitVec 16) : Except IllegalCause Instr :=
  if bit w.toNat 15 then .error .compact
  else match compactCodes[bits w.toNat 4 1]? with
    | some mk => .ok (mk (C16.ofWord w))
    | none => .error .compact

/-- An instruction without register fields: they must hold 0 (R224), and MOD chooses among its forms. -/
def bare32 (rows : List (BitVec 5 × Instr)) (f : S32) : Except IllegalCause Instr :=
  if f.gb == 0 && f.ga == 0 && f.gd == 0 then
    match rows.lookup f.mod with
    | some i => .ok i
    | none => .error .field
  else .error .field

/-- A 32-bit instruction (R216 to R218, R229). -/
def decode32 (w : BitVec 32) : Except IllegalCause Instr :=
  match opRow (bits w.toNat 8 2) with
  | none => .ok (.reservedOpcode (fieldAt w 2 7) false)
  | some r => match r.short with
    | .absent => .error .form
    | .s mk => .ok (mk (S32.ofWord w))
    | .bare rows => bare32 rows (S32.ofWord w)
    | .i mk => .ok (mk (I32.ofWord w))
    | .j mk => .ok (mk (J32.ofWord w))

/-- A 64-bit instruction (R219 to R221, R229). -/
def decode64 (w : BitVec 64) : Except IllegalCause Instr :=
  match opRow (bits w.toNat 8 2) with
  | none => .ok (.reservedOpcode (fieldAt w 2 7) true)
  | some r => match r.long with
    | .l mk => .ok (mk (L64.ofWord w))
    | .k mk => .ok (mk (K64.ofWord w))
    | .m mk => .ok (mk (M64.ofWord w))

/-- An instruction that passes the checks on its fields, or the cause of ILLEGAL (R227 checks 2 to 5). -/
def checked (len : Nat) : Except IllegalCause Instr → Except IllegalCause (Instr × Nat)
  | .error c => .error c
  | .ok i => match i.illegal with
    | some c => .error c
    | none => .ok (i, len)

/-- The instruction at the start of eight bytes, with its length (R213, R227). -/
def decode (bytes : List Byte) : Except IllegalCause (Instr × Nat) :=
  let w := ofBytes bytes
  if instrLength (w % 2 ^ 16) == 2 then checked 2 (decode16 (BitVec.ofNat 16 w))
  else if instrLength (w % 2 ^ 16) == 4 then checked 4 (decode32 (BitVec.ofNat 32 w))
  else checked 8 (decode64 (BitVec.ofNat 64 w))

/-- The opcodes without meaning (R229). -/
def reservedOp (op : BitVec 7) : Bool := (opRow op.toNat).isNone

/-- The length and the word of an instruction, from the same layouts and codes (R215 to R221, R228, R230);
none for the device's own steps and the acts of outside parties, which have no encoding. -/
def encode : Instr → Option (Nat × Nat)
  | .iadd f => some (8, (f.toWord 0x00).toNat)
  | .iaddS32 f => some (4, (f.toWord 0x00).toNat)
  | .iaddC16 f => some (2, (f.toWord 1).toNat)
  | .isub f => some (8, (f.toWord 0x01).toNat)
  | .isubS32 f => some (4, (f.toWord 0x01).toNat)
  | .isubC16 f => some (2, (f.toWord 2).toNat)
  | .iaddi f => some (8, (f.toWord 0x02).toNat)
  | .iaddiI32 f => some (4, (f.toWord 0x02).toNat)
  | .imul f => some (8, (f.toWord 0x03).toNat)
  | .imulS32 f => some (4, (f.toWord 0x03).toNat)
  | .imulh f => some (8, (f.toWord 0x04).toNat)
  | .imulhS32 f => some (4, (f.toWord 0x04).toNat)
  | .imac f => some (8, (f.toWord 0x05).toNat)
  | .imacw f => some (8, (f.toWord 0x06).toNat)
  | .imin f => some (8, (f.toWord 0x07).toNat)
  | .iminS32 f => some (4, (f.toWord 0x07).toNat)
  | .iminC16 f => some (2, (f.toWord 6).toNat)
  | .imax f => some (8, (f.toWord 0x08).toNat)
  | .imaxS32 f => some (4, (f.toWord 0x08).toNat)
  | .imaxC16 f => some (2, (f.toWord 7).toNat)
  | .iabs f => some (8, (f.toWord 0x09).toNat)
  | .iabsS32 f => some (4, (f.toWord 0x09).toNat)
  | .and f => some (8, (f.toWord 0x0A).toNat)
  | .andS32 f => some (4, (f.toWord 0x0A).toNat)
  | .andC16 f => some (2, (f.toWord 3).toNat)
  | .or f => some (8, (f.toWord 0x0B).toNat)
  | .orS32 f => some (4, (f.toWord 0x0B).toNat)
  | .orC16 f => some (2, (f.toWord 4).toNat)
  | .xor f => some (8, (f.toWord 0x0C).toNat)
  | .xorS32 f => some (4, (f.toWord 0x0C).toNat)
  | .xorC16 f => some (2, (f.toWord 5).toNat)
  | .logi f => some (8, (f.toWord 0x0D).toNat)
  | .logiS32 f => some (4, (f.toWord 0x0D).toNat)
  | .shl f => some (8, (f.toWord 0x0E).toNat)
  | .shlS32 f => some (4, (f.toWord 0x0E).toNat)
  | .shlC16 f => some (2, (f.toWord 8).toNat)
  | .shr f => some (8, (f.toWord 0x0F).toNat)
  | .shrS32 f => some (4, (f.toWord 0x0F).toNat)
  | .shrC16 f => some (2, (f.toWord 9).toNat)
  | .funl f => some (8, (f.toWord 0x10).toNat)
  | .bext f => some (8, (f.toWord 0x11).toNat)
  | .bextS32 f => some (4, (f.toWord 0x11).toNat)
  | .bins f => some (8, (f.toWord 0x12).toNat)
  | .bcnt f => some (8, (f.toWord 0x13).toNat)
  | .bcntS32 f => some (4, (f.toWord 0x13).toNat)
  | .bscan f => some (8, (f.toWord 0x14).toNat)
  | .bscanS32 f => some (4, (f.toWord 0x14).toNat)
  | .brev f => some (8, (f.toWord 0x15).toNat)
  | .brevS32 f => some (4, (f.toWord 0x15).toNat)
  | .bperm f => some (8, (f.toWord 0x16).toNat)
  | .bpermS32 f => some (4, (f.toWord 0x16).toNat)
  | .icmp f => some (8, (f.toWord 0x17).toNat)
  | .sel f => some (8, (f.toWord 0x18).toNat)
  | .adds f => some (8, (f.toWord 0x19).toNat)
  | .addsS32 f => some (4, (f.toWord 0x19).toNat)
  | .idot4 f => some (8, (f.toWord 0x1A).toNat)
  | .fadd f => some (8, (f.toWord 0x20).toNat)
  | .faddS32 f => some (4, (f.toWord 0x20).toNat)
  | .faddC16 f => some (2, (f.toWord 10).toNat)
  | .fsubC16 f => some (2, (f.toWord 11).toNat)
  | .fmul f => some (8, (f.toWord 0x21).toNat)
  | .fmulS32 f => some (4, (f.toWord 0x21).toNat)
  | .fmulC16 f => some (2, (f.toWord 12).toNat)
  | .ffma f => some (8, (f.toWord 0x22).toNat)
  | .ffms f => some (8, (f.toWord 0x35).toNat)
  | .fnma f => some (8, (f.toWord 0x36).toNat)
  | .fmin f => some (8, (f.toWord 0x23).toNat)
  | .fminS32 f => some (4, (f.toWord 0x23).toNat)
  | .fminC16 f => some (2, (f.toWord 13).toNat)
  | .fmax f => some (8, (f.toWord 0x24).toNat)
  | .fmaxS32 f => some (4, (f.toWord 0x24).toNat)
  | .fmaxC16 f => some (2, (f.toWord 14).toNat)
  | .fcmp f => some (8, (f.toWord 0x25).toNat)
  | .fclass f => some (8, (f.toWord 0x26).toNat)
  | .fclassS32 f => some (4, (f.toWord 0x26).toNat)
  | .sfn f => some (8, (f.toWord 0x27).toNat)
  | .sfnS32 f => some (4, (f.toWord 0x27).toNat)
  | .fint f => some (8, (f.toWord 0x28).toNat)
  | .fintS32 f => some (4, (f.toWord 0x28).toNat)
  | .ftoi f => some (8, (f.toWord 0x29).toNat)
  | .ftoiS32 f => some (4, (f.toWord 0x29).toNat)
  | .itof f => some (8, (f.toWord 0x2A).toNat)
  | .itofS32 f => some (4, (f.toWord 0x2A).toNat)
  | .fscale f => some (8, (f.toWord 0x2B).toNat)
  | .fscaleS32 f => some (4, (f.toWord 0x2B).toNat)
  | .padd f => some (8, (f.toWord 0x2C).toNat)
  | .paddS32 f => some (4, (f.toWord 0x2C).toNat)
  | .paddC16 f => some (2, (f.toWord 15).toNat)
  | .pmul f => some (8, (f.toWord 0x2D).toNat)
  | .pmulS32 f => some (4, (f.toWord 0x2D).toNat)
  | .pfma f => some (8, (f.toWord 0x2E).toNat)
  | .pmnx f => some (8, (f.toWord 0x2F).toNat)
  | .pmnxS32 f => some (4, (f.toWord 0x2F).toNat)
  | .cvt f => some (8, (f.toWord 0x30).toNat)
  | .cvtS32 f => some (4, (f.toWord 0x30).toNat)
  | .pack f => some (8, (f.toWord 0x31).toNat)
  | .packS32 f => some (4, (f.toWord 0x31).toNat)
  | .unpk f => some (8, (f.toWord 0x32).toNat)
  | .unpkS32 f => some (4, (f.toWord 0x32).toNat)
  | .qnt f => some (8, (f.toWord 0x33).toNat)
  | .dqnt f => some (8, (f.toWord 0x34).toNat)
  | .plog f => some (8, (f.toWord 0x40).toNat)
  | .pget f => some (8, (f.toWord 0x41).toNat)
  | .pput f => some (8, (f.toWord 0x42).toNat)
  | .cvote f => some (8, (f.toWord 0x43).toNat)
  | .cvoteS32 f => some (4, (f.toWord 0x43).toNat)
  | .lxch f => some (8, (f.toWord 0x44).toNat)
  | .lxchS32 f => some (4, (f.toWord 0x44).toNat)
  | .lred f => some (8, (f.toWord 0x45).toNat)
  | .lmatch f => some (8, (f.toWord 0x46).toNat)
  | .pick f => some (8, (f.toWord 0x47).toNat)
  | .maskLanes f => some (8, (f.toWord 0x48).toNat)
  | .maskLanesS32 f => some (4, (f.toWord 0x48).toNat)
  | .mov f => some (8, (f.toWord 0x49).toNat)
  | .movS32 f => some (4, (f.toWord 0x49).toNat)
  | .movC16 f => some (2, (f.toWord 0).toNat)
  | .movi f => some (8, (f.toWord 0x4A).toNat)
  | .moviI32 f => some (4, (f.toWord 0x4A).toNat)
  | .sread f => some (8, (f.toWord 0x4B).toNat)
  | .sreadI32 f => some (4, (f.toWord 0x4B).toNat)
  | .locq f => some (8, (f.toWord 0x4C).toNat)
  | .br f => some (8, (f.toWord 0x50).toNat)
  | .brJ32 f => some (4, (f.toWord 0x50).toNat)
  | .jr f => some (8, (f.toWord 0x51).toNat)
  | .jrS32 f => some (4, (f.toWord 0x51).toNat)
  | .call f => some (8, (f.toWord 0x52).toNat)
  | .callJ32 f => some (4, (f.toWord 0x52).toNat)
  | .ret f => some (8, (f.toWord 0x53).toNat)
  | .retS32 f => some (4, (f.toWord 0x53).toNat)
  | .rjoin f => some (8, (f.toWord 0x54).toNat)
  | .rjoinS32 f => some (4, (f.toWord 0x54).toNat)
  | .exitThread f => some (8, (f.toWord 0x55).toNat)
  | .exitThreadS32 => some (4, (S32.toWord 0x55 (.mk 0 0 0 0)).toNat)
  | .nop f => some (8, (f.toWord 0x56).toNat)
  | .nopS32 => some (4, (S32.toWord 0x56 (.mk 0 0 0 0)).toNat)
  | .pause f => some (8, (f.toWord 0x57).toNat)
  | .pauseS32 => some (4, (S32.toWord 0x57 (.mk 0 0 0 0)).toNat)
  | .region f => some (8, (f.toWord 0x58).toNat)
  | .regionS32 => some (4, (S32.toWord 0x58 (.mk 0 0 0 0)).toNat)
  | .tryGambit f => some (8, (f.toWord 0x59).toNat)
  | .commit f => some (8, (f.toWord 0x5A).toNat)
  | .commitS32 => some (4, (S32.toWord 0x5A (.mk 0 0 0 0)).toNat)
  | .abort f => some (8, (f.toWord 0x5B).toNat)
  | .trap f => some (8, (f.toWord 0x5C).toNat)
  | .brk f => some (8, (f.toWord 0x5E).toNat)
  | .brkI32 f => some (4, (f.toWord 0x5E).toNat)
  | .tret f => some (8, (f.toWord 0x5D).toNat)
  | .tretS32 => some (4, (S32.toWord 0x5D (.mk 0 0 0 0)).toNat)
  | .sysR f => some (8, (f.toWord 0x5F).toNat)
  | .sysW f => some (8, (f.toWord 0x5F).toNat)
  | .ld f => some (8, (f.toWord 0x60).toNat)
  | .st f => some (8, (f.toWord 0x61).toNat)
  | .stBlk f => some (8, (f.toWord 0x61).toNat)
  | .ldc f => some (8, (f.toWord 0x62).toNat)
  | .lda f => some (8, (f.toWord 0x63).toNat)
  | .sld f => some (8, (f.toWord 0x64).toNat)
  | .sst f => some (8, (f.toWord 0x65).toNat)
  | .atom f => some (8, (f.toWord 0x66).toNat)
  | .atomn f => some (8, (f.toWord 0x67).toNat)
  | .satom f => some (8, (f.toWord 0x68).toNat)
  | .fence f => some (8, (f.toWord 0x69).toNat)
  | .cache f => some (8, (f.toWord 0x6A).toNat)
  | .bari f => some (8, (f.toWord 0x6B).toNat)
  | .bara f => some (8, (f.toWord 0x6C).toNat)
  | .barx f => some (8, (f.toWord 0x6D).toNat)
  | .barw f => some (8, (f.toWord 0x6E).toNat)
  | .bart f => some (8, (f.toWord 0x6F).toNat)
  | .cpy f => some (8, (f.toWord 0x70).toNat)
  | .cpyt f => some (8, (f.toWord 0x71).toNat)
  | .cpyg f => some (8, (f.toWord 0x72).toNat)
  | .tlwait f => some (8, (f.toWord 0x73).toNat)
  | .tmac f => some (8, (f.toWord 0x74).toNat)
  | .tconv f => some (8, (f.toWord 0x75).toNat)
  | .tdrain f => some (8, (f.toWord 0x76).toNat)
  | .tctlZero f => some (8, (f.toWord 0x77).toNat)
  | .tctlLoad f => some (8, (f.toWord 0x77).toNat)
  | .tctlStat f => some (8, (f.toWord 0x77).toNat)
  | .ract f => some (8, (f.toWord 0x78).toNat)
  | .rcon f => some (8, (f.toWord 0x79).toNat)
  | .rpre f => some (8, (f.toWord 0x7A).toNat)
  | .wopen f => some (8, (f.toWord 0x7B).toNat)
  | .subsOn f => some (8, (f.toWord 0x7C).toNat)
  | .subsOff f => some (8, (f.toWord 0x7C).toNat)
  | .amsg f => some (8, (f.toWord 0x7D).toNat)
  | .circSetup f => some (8, (f.toWord 0x7E).toNat)
  | .circSend f => some (8, (f.toWord 0x7E).toNat)
  | .circRel f => some (8, (f.toWord 0x7E).toNat)
  | .xblkAcq f => some (8, (f.toWord 0x7F).toNat)
  | .xblkAcqS32 => some (4, (S32.toWord 0x7F (.mk 0 0 0 0)).toNat)
  | .xblkRel f => some (8, (f.toWord 0x7F).toNat)
  | .xblkRelS32 => some (4, (S32.toWord 0x7F (.mk 4 0 0 0)).toNat)
  | .reservedOpcode op long =>
    if reservedOp op then
      some (if long then (8, ((0 : BitVec 55) ++ op ++ 3#2).toNat) else (4, ((0 : BitVec 23) ++ op ++ 1#2).toNat))
    else none
  | .powerOn _ => none
  | .issueArbitration => none
  | .recordStart => none
  | .regionRelease => none
  | .groupComplete => none
  | .handlerCrewStart => none
  | .trapEntry => none
  | .contextTerminate => none
  | .sensorEventCore _ _ => none
  | .sensorEventHome _ _ => none
  | .sensorEventRouterPort _ _ => none
  | .crossingSlip _ => none
  | .redoNoticeReceive => none
  | .clearSend => none
  | .clearReceive => none
  | .homeServeRead => none
  | .homePerformWrite => none
  | .homePerformAtomic => none
  | .loadValueReturn => none
  | .writeAckReceive => none
  | .releasePointComplete => none
  | .atomicResendTimeout => none
  | .transactionTimeout => none
  | .linkCrcFail _ _ => none
  | .linkResend => none
  | .laneRemap _ _ _ => none
  | .laneRemapEnd => none
  | .l1LeaseExpiry => none
  | .epochRotate => none
  | .subscriptionUpdateSend => none
  | .subscriptionUpdateApply _ _ => none
  | .subscriptionNackResend => none
  | .windowTableUpdate => none
  | .amsgAccept => none
  | .xblkGrant => none
  | .asyncTrapDue => none
  | .barrierTimeout => none
  | .engineOpStart => none
  | .engineLand => none
  | .activationStart => none
  | .rowReady => none
  | .refreshSlotStart => none
  | .circuitIdleTeardown => none
  | .uncorrectableStorageError _ => none
  | .launchReady => none
  | .cancelComplete => none
  | .doorbellWrite _ _ => none
  | .nopCommand => none
  | .launch => none
  | .openLevel => none
  | .cancelLevel => none
  | .writeWord => none
  | .notifyCores => none
  | .inval => none
  | .ctxset => none
  | .waitRecheckTimer => none
  | .queueTableTimeout => none
  | .bindRecordWrite _ _ => none
  | .restoreRecordWrite _ _ => none
  | .stealAttempt => none
  | .stealRequest => none
  | .logOverrunClear _ _ => none
  | .fqheadWrite _ => none
  | .faultrespReplay _ => none
  | .faultrespDecline _ => none
  | .faultrespTerminate _ => none
  | .frstatRead => none
  | .preemptRequest _ _ => none
  | .preemptComplete => none
  | .fenceUnit _ _ _ => none
  | .fenceEvacuationTimeout => none
  | .quiesce _ => none
  | .restoreCast _ => none
  | .runFieldTest _ => none
  | .iftctlStart _ _ => none
  | .iftComplete _ _ => none
  | .resetCluster _ => none
  | .clusterResetEnd => none
  | .clearCounters _ _ => none
  | .updateFirmware _ _ => none
  | .setPowerCap _ => none
  | .powerControlPeriod _ _ _ => none
  | .thermalThrottle _ _ => none
  | .thermalRelease _ _ => none
  | .scrubVisit _ _ => none
  | .scrubWriteback => none
  | .counterWrite _ _ _ => none
  | .thresholdWrite _ _ _ => none
  | .ellostClear _ => none
  | .lockRegion _ => none
  | .lockPart _ => none
  | .lockLmap _ => none
  | .lockSensors _ => none
  | .lockClock _ => none
  | .lockPhoac _ => none
  | .lockErrorClear _ => none
  | .registerWrite _ _ _ => none
  | .appCoreAccess _ _ => none
  | .pcieInboundRequest _ _ => none
  | .phoacRequest _ _ _ => none
  | .getVersion => none
  | .getCapabilities => none
  | .negotiateAlgorithms _ _ => none
  | .getDigests => none
  | .getCertificate _ _ _ => none
  | .challenge _ _ => none
  | .getMeasurements _ => none
  | .spdmUnsupported _ => none
  | .rjoinRelease => none
  | .subscriptionAckReceive => none
  | .refreshSlotEnd => none
  | .unitCompleteInStaging => none

/-- The instruction the decoder reads from the bits of a table row, zeros above them. -/
def decodeTableWord (nbits w : Nat) : Option Instr :=
  match decode (toBytes 8 (w % 2 ^ nbits)) with
  | .ok (i, _) => some i
  | .error _ => none

end Sys2Proof
end

