-- ==== Sys2Proof/Config.lean ====
section
/-! DEFINITION. What the BX-1024 fixes as numbers, and the values its manual leaves open: each open
value is an opaque constant with no body, so nothing can be proved about which value it is. -/

namespace Sys2Proof

/-- The quarantine window W, in cycles (R150). -/
def Config.window : Nat := 32

/-- Quarantine entries of a crew (R156). -/
def Config.quarantineEntries : Nat := 64

/-- Entries held at which an implicit head is taken (R153). -/
def Config.headEntries : Nat := 48

/-- Retired instructions after which an implicit head is taken (R153). -/
def Config.headRetired : Nat := 128

/-- Snapshots of a crew (R155). -/
def Config.snapshots : Nat := 4

/-- Checkpoint credits of a crew slot (R189, R196). -/
def Config.credits : Nat := 16

/-- Physical registers of a sub-core (R189). -/
def Config.physRegs : Nat := 512

/-- Issues after which the turn pointer moves (R15). -/
def Config.runLimit : Nat := 64

/-- Instructions a gambit may retire (R182). -/
def Config.gambitLimit : Nat := 256

/-- Entries of the gambit buffer and advance records (R179, R180). -/
def Config.gambitEntries : Nat := 32

/-- The longest life of an L1 copy and of a shared load (R84, R85). -/
def Config.lease : Nat := 4096

/-- Cycles between rotations of the epoch accumulators (R95). -/
def Config.epoch : Nat := 2048

/-- Commands an engine holds that have not started (R336). -/
def Config.engineQueue : Nat := 16

/-- Bytes of a copy chunk (R168). -/
def Config.chunk : Nat := 2048

/-- The period of the refresh slots, their spacing and their length (R367). -/
def Config.refreshPeriod : Nat := 4680
/-- Spacing of the banks' refresh slots (R367). -/
def Config.refreshStep : Nat := 146
/-- Length of a refresh slot (R367). -/
def Config.refreshLen : Nat := 140

/-- The activation window and how many activations it may hold (R366). -/
def Config.activationWindow : Nat := 128
/-- Activations of one vault that may start in the window (R366). -/
def Config.activations : Nat := 4

/-- Cycles after which a transaction with no response is resent (R318, R474). -/
def Config.resendAfter : Nat := 65536

/-- Where vault SRAM ends inside a vault (R60). -/
def Config.vaultSram : Nat := 0x200000
/-- Where a vault's storage ends (R60). -/
def Config.vaultLimit : Nat := 0x18200000
/-- The aperture of the vaults, and the span of each (R70). -/
def Config.vaultBase : Nat := 0x800000000000
/-- Span of one vault's aperture (R70). -/
def Config.vaultSpan : Nat := 0x20000000
/-- The end of bulk memory (R70). -/
def Config.bulkEnd : Nat := 0x10000000000
/-- The scratchpad of a core in bytes (R58). -/
def Config.scratchBytes : Nat := 393216

/-- The value a byte of memory or scratchpad reads as before anything has written it. DESIGN CHOICE
(log 1), unsafe: the manual gives no contents after power-on, only the descriptors (R72). -/
def Config.unwritten : Byte := 0

/-- The logarithm of the number of sets of an L2 slice, taken modulo 14: the manual gives its 8192 lines and that victims are
chosen within a set (R58, R67), and not how many sets there are. Log 31. -/
opaque Config.l2SetBits : Nat

/-- The staged units beside the first that an engine's staging buffer holds: the manual gives no size (R167). Log 41. -/
opaque Config.stagingMore : Nat

/-- A free number: the moment inside a round trip at which a home performs a request (R81). Log 5. -/
opaque Config.freePerform : Nat → Nat

/-- A free choice: which of two page-table entries an access uses between a change and the end of its
invalidation (R68), log 14, or of a kept instruction and the one in memory (R214), log 15. -/
opaque Config.freeEntry : Nat → Bool

/-- A free choice: the outcome of an engine byte that another access races with, or of an overlapping
copy (R109, R347), given the counter; true means the newer value. Log 9. -/
opaque Config.freeNewer : Nat → Bool

/-- A free byte: data that arrives from outside the package, from PCIe or another package (R493, R494), by the counter and
the byte's physical address. Log 10. -/
opaque Config.freeOutside : Nat → Nat → Byte

/-- A free number of cycles: what the crossing to PCIe or Phoac adds to a request's way, whose latency is not fixed (R479), by
the number of the request. Log 10. -/
opaque Config.freeCrossing : Nat → Nat

/-- A free choice: what a register read without its slot gives while a variable-latency result is due in it, for the counter
and the register: none is the old content of the whole register, some the new, whose lanes not yet known are as given
(R191). Log 8. -/
opaque Config.pendingRead : Nat → Nat → Option (List Word)

/-- A free number: the cycles after which Armature acts on a record of the log (R500). Log 55. -/
opaque Config.freeArmature : Nat → Nat

/-- Where Plinth's reserved save area begins in physical memory (R452): the manual does not place it. Log 27. -/
opaque Config.saveArea : Nat

/-- Whether a range of physical memory, by first byte and length, lies in the memory that Plinth assigns to Armature
(R443). Log 27. -/
opaque Config.armatureMemory : Nat → Nat → Bool

/-- The SHA-512 digest of bytes (R461, R486, R489). Log 28. -/
opaque Config.digest : List Byte → List Byte

/-- The device identity key's Ed25519ph signature over bytes (R461, R489). Log 28. -/
opaque Config.sign : List Byte → List Byte

/-- Whether a certificate chain reaches the Stanetik root and its key verifies a signature over bytes (R462). Log 28. -/
opaque Config.chainVerifies : List Byte → List Byte → List Byte → Bool

/-- Whether a signature over an image verifies under the Stanetik root key (R486). Log 28. -/
opaque Config.rootVerifies : List Byte → List Byte → Bool

/-- The device certificate chain (R455, R489). Log 28. -/
opaque Config.certificate : List Byte

/-- The 16-byte device identity (R456). Log 28. -/
opaque Config.identity : List Byte

/-- The bytes measured under an index whose image the device does not hold here: the boot ROM, Armature, the Tempo policy,
the application cores' image (R489). Log 28. -/
opaque Config.measured : Nat → List Byte

/-- The bytes with which Plinth answers a request of a protocol that the manual names only by its standard: the response's
code and the parameters that it rests on (R489). Log 29. -/
opaque Config.answer : Nat → List Byte → List Byte

/-- A free word: a result the manual leaves unspecified (R9). Log 4. -/
opaque Config.freeWord : Nat → Word

end Sys2Proof
end

