-- ==== Sys2Proof/Machine/CrewState.lean ====
section
/-! DEFINITION. The state of threads, crews and sub-cores as plain data: threads (R10), regions with their
held effects and snapshots (R153 to R157), gambits (R177 to R181), release points (R165), traps (R296 to
R298), the rename map and the transposition table (R189 to R202). -/

namespace Sys2Proof.Machine

/-- The 32 lanes of one physical register, lane 0 first (R189). -/
abbrev Content := List Word

/-- The content of a register that is zero in every lane. -/
def zeroContent : Content := List.replicate 32 0

/-- A physical register as a map entry holds it: its number, its content and its content name (R189, R193).
suffix 3 marks an unnamed register. -/
structure PhysReg where
  id : Nat
  hash : Nat
  suffix : Nat
  content : Content
  deriving DecidableEq, Repr

/-- The pending tag of a response: the home's cell and its serial (R171). -/
structure Tag where
  cell : Nat
  serial : Nat
  deriving DecidableEq, Repr

/-- A signature of 512 bits with its all marker (R95). -/
structure Sig where
  bits : BitVec 512
  all : Bool
  deriving DecidableEq, Repr

/-- The signature with no bit set. -/
def Sig.empty : Sig := ⟨0, false⟩

/-- A byte's place: a physical address, or an offset in a core's scratchpad (R70, R81). -/
inductive Loc where
  | mem (pa : Nat)
  | scratch (core off : Nat)
  deriving DecidableEq, Repr

/-- The attributes of the page an access goes through: ORD 0 release-consistent, 1 strongly ordered, 2
unordered; CACHE 0 L1 and L2, 1 L2 only, 2 none; THG; WPOL write-through; and EPRI (R66, R88). -/
structure Page where
  ord : Nat
  cache : Nat
  thg : Bool
  wthru : Bool
  epri : Nat
  deriving DecidableEq, Repr

/-- The page kind of scratchpad and own-vault window accesses: release-consistent, not cached (R62, R91). -/
def Page.window : Page := ⟨0, 2, false, false, 0⟩

/-- The attributes of an access that goes through no page: a page-table entry, a device's own write. -/
def Page.plain : Page := ⟨0, 0, false, false, 0⟩

/-- A crew slot of the device. -/
structure CrewRef where
  core : Nat
  sub : Nat
  slot : Nat
  deriving DecidableEq, Repr

/-- What a thread in state BARRIER waits for: a parity of an object, a number on a timeline, or, once its condition holds,
the cycle in which it goes on (R329, R348). since is the cycle the wait began (R332). -/
inductive Await where
  | parity (off : Nat) (par : Bool)
  | timeline (tl : Nat) (num : Nat)
  | returns (at_ : Nat)
  deriving DecidableEq, Repr

/-- What ends a wait in state RELEASE: a free snapshot (R155), free quarantine entries (R156), a free
credit (R197), the close of the gambit (R178), a fence's earlier accesses (R102), the older regions and the
response of a release point (R165), a held timeline command (R336), or a free credit for the code register of an abort
(R183, R197). -/
inductive Hold where
  | snapshot
  | entries (n : Nat)
  | credit (n : Nat)
  | gambit
  | fence
  | point
  | engine
  | code (k v : Nat)
  deriving DecidableEq, Repr

/-- The run state of a thread (R14), with what its wait needs. TRAP also covers the span from a trap to the
first instruction of its handler, and a thread that has issued TRET and waits for the others (R300). -/
inductive RunState where
  | ready
  | scoreboard (slots : BitVec 6) (setter : Nat) (lanes : Mask)
  | rejoin (mask : Mask) (len : Nat)
  | barrier (what : Await) (since : Nat)
  | release (why : Hold)
  | xblock
  | parked
  | trap (tret : Bool)
  | exited
  deriving DecidableEq, Repr

/-- A thread (R10). Its general registers lie in the crew's rename map, its mode in the crew (R297). -/
structure Thread where
  pc : Addr
  preds : BitVec 32
  taint : BitVec 64
  sb : List Nat
  run : RunState
  clockHi : Word
  consume : Sig
  deriving DecidableEq, Repr

/-- An addition to the statistics of a tensor: its identifier, the count's index and the amount (R142). -/
structure StatAdd where
  tid : Nat
  kind : Nat
  n : Nat
  deriving DecidableEq, Repr

/-- One lane's bytes of a store. -/
structure LaneWrite where
  lane : Nat
  loc : Loc
  bytes : List Byte
  page : Page
  deriving DecidableEq, Repr

/-- A held store (R308): its setter, its lanes' bytes, the descriptor a block store writes (R309), its
release scope, and the statistics it adds (R143). qnt marks a block of QNT, which counts as the store of
every lane in its lanes (R181). -/
structure StoreEff where
  setter : Nat
  writes : List LaneWrite
  desc : Option Nat
  rel : Option Nat
  stats : List StatAdd
  qnt : Bool
  lanes : Mask
  deriving DecidableEq, Repr

/-- One lane's operands of an atomic (R314), at its effective address (R298). -/
structure AtomLane where
  lane : Nat
  va : Addr
  loc : Loc
  page : Page
  v : Nat
  cmp : Nat
  deriving DecidableEq, Repr

/-- An atomic (R315): function code, size in bytes, tensor identifier, scope when ordered, its lanes. -/
structure AtomEff where
  setter : Nat
  fn : Nat
  size : Nat
  tid : Nat
  scope : Option Nat
  lanes : List AtomLane
  pc : Addr
  deriving DecidableEq, Repr

/-- A held side effect (R156, R164). -/
inductive Effect where
  | store (e : StoreEff)
  | atomn (e : AtomEff)
  /-- BARI of an object's offset with EXPECT and WCLASS (R326). -/
  | bari (off expect wclass : Nat)
  /-- An arrival of a count by the lanes of a mask (R111, R327). -/
  | bara (off count : Nat) (lanes : Mask)
  /-- BARX of a number of bytes by the lanes of a mask (R111, R327). -/
  | barx (off : Nat) (bytes : Word) (lanes : Mask)
  /-- WOPEN: operation, scratchpad offset of the window, grant word, setter (R372). -/
  | wopen (op off : Nat) (grant : Word) (setter : Nat)
  /-- SUBS.ON of the subscription with this index (R374). -/
  | subsOn (index : Nat)
  /-- SUBS.OFF of an index, with its setter (R375). -/
  | subsOff (index setter : Nat)
  /-- CIRC.REL of an identifier, with its setter (R380). -/
  | circRel (id setter : Nat)
  /-- An engine command becomes eligible to land: the unit and the command's identifier (R157). -/
  | engine (unit op : Nat)
  /-- The crew's extended block returns to the pool (R159). -/
  | freeBlock
  deriving DecidableEq, Repr

/-- One advance record: one LDA's lanes within one line, each lane with its bytes (R180). -/
structure AdvanceRecord where
  lanes : List (Nat × Loc × Nat)
  deriving DecidableEq, Repr

/-- An open gambit (R177): its kind, the lanes in it, their fail target and code register, the retired
count, the buffer (one entry for each store instruction and line, R179), the advance records, and the counts of its
conversions by lane (R143). -/
structure Gambit where
  crewKind : Bool
  lanes : Mask
  fail : Addr
  code : Nat
  count : Nat
  buffer : List StoreEff
  records : List AdvanceRecord
  counts : List (Nat × StatAdd)
  deriving DecidableEq, Repr

/-- One lane's part in a trap (R294, R298). -/
structure LaneTrap where
  lane : Nat
  cls : Nat
  code : Nat
  addr : Addr
  aux : Addr
  deriving DecidableEq, Repr

/-- A trap raised and not yet entered (R296). resume is the PC its trapped lanes resume at. -/
structure PendingTrap where
  cls : Nat
  lanes : List LaneTrap
  async : Bool
  tpc : Addr
  resume : Addr
  iword : Nat
  ilen : Nat
  pmask : Mask
  /-- Lanes parked on a declined fault, whose access is replayed (R438). -/
  parked : Mask
  /-- The entry head has retired (R296). -/
  headed : Bool
  deriving DecidableEq, Repr

/-- A lane record of the side buffer (R298). -/
structure LaneRecord where
  spc : Addr
  addr : Addr
  cause : Word
  state : Word
  saveG : List Word
  aux : Addr
  deriving DecidableEq, Repr

/-- The side buffer: the header of R297 and the lane records of R298. -/
structure SideBuffer where
  cls : Word
  cause : Word
  tpc : Addr
  iword : BitVec 64
  tmask : Word
  pmask : Word
  turn : Word
  seq : Word
  clock : BitVec 64
  launchId : Word
  group : Word
  flags : Word
  ilen : Word
  hscr : List Word
  lanes : List LaneRecord
  deriving DecidableEq, Repr

/-- The snapshot of a head (R154), with what a restart to it brings back of a trap: the mode, the handled
class, the side buffer, and, for a trap-entry head, the trap whose handler then starts again (R176). -/
structure Snapshot where
  map : List PhysReg
  ext : Bool
  preds : List (BitVec 32)
  taint : List (BitVec 64)
  /-- The consume signatures (R103): the manual does not name them; a restart brings them back with the taint (log 45). -/
  consume : List Sig
  pcs : List Addr
  runs : List RunState
  turn : Nat
  run : Nat
  gambit : Option Gambit
  trapMode : Bool
  handling : Option Nat
  side : SideBuffer
  entry : Option PendingTrap
  deriving DecidableEq, Repr

/-- A region of a crew (R153, R157): the cycle its head retired, the cycle the next head retired once it
has, held effects in program order, entries taken, pending tags, displaced registers that hold credits, each with the
number of its map entry (R196), registers of an extended block given up, which return at release (R159), statistics to add
at release (R143), and its head's snapshot. last marks the crew's last region. -/
structure Region where
  id : Nat
  head : Nat
  closed : Option Nat
  effects : List Effect
  entries : Nat
  tags : List Tag
  credits : List (Nat × PhysReg)
  freed : List PhysReg
  stats : List StatAdd
  snapshot : Snapshot
  last : Bool
  /-- A request of the region that leaves the package waits for its release (R175). -/
  holds : Bool := false
  deriving DecidableEq, Repr

/-- An instruction that raised scoreboard slots and has not finished: the slot (1 to 6, 0 for none), its
lanes, the parts still to finish (R211), and the cycle in which its result is written when that is known (R106). -/
structure Setter where
  id : Nat
  slot : Nat
  lanes : Mask
  left : Nat
  due : Option Nat := none
  deriving DecidableEq, Repr

/-- What a load does when it returns (R307, R310, R311). -/
inductive LoadKind where
  | plain
  | acquire (scope : Nat)
  | consume (scope : Nat)
  | scratch
  | scratchAcquire (scope : Nat)
  /-- DQNT of a block: the element count per lane is written as FP32 (R271). -/
  | dequant
  /-- A result computed at issue that arrives in a cycle (LRED, LMATCH, LOCQ, BART: R191, R283, R330, R383). -/
  | value (c : Content) (due : Nat)
  deriving DecidableEq, Repr

/-- One lane's part of a load: its address, its place, the bytes known so far, and the signature it received (R103). -/
structure LaneRead where
  lane : Nat
  va : Addr
  loc : Loc
  known : List (Option Byte)
  sig : Sig
  deriving DecidableEq, Repr

/-- A content name: 24 hash bits and the suffix (R193). -/
abbrev Name := Nat × Nat

/-- An entry of the transposition table (R199, R200). crew is the crew slot of an LD's key (R203). -/
structure XEntry where
  ctx : Nat
  word : Nat
  names : List Name
  mask : Mask
  prior : Option Name
  crew : Option Nat
  result : Name
  used : Nat
  expires : Nat
  deriving DecidableEq, Repr

/-- An outstanding load: its setter, its region, its destination group and the lanes still due in each of
its registers (R191), size, extension, taint of the result and the requests not yet returned. desc is the descriptor
of a block once known, descOk the lanes whose descriptor came from the core's own stores, badDesc and badData the lanes
that failed; the rest says where a late failure traps (R294). -/
structure LoadRec where
  setter : Nat
  region : Nat
  kind : LoadKind
  dst : List (Nat × Mask)
  size : Nat
  sx : Bool
  taint : Mask
  reads : List LaneRead
  desc : Option Nat
  descOk : Mask
  badDesc : Mask
  badData : Mask
  left : Nat
  /-- A home that tags its answers, or a tagged L1 line, serves it: its region waits for it (R157, R171, R173). -/
  tagged : Bool
  /-- The earliest cycle in which a part of it was performed (R85). -/
  performed : Option Nat
  pc : Addr
  iword : Nat
  ilen : Nat
  part : Mask
  /-- The lanes still due in each register at the snapshots taken since (R154). -/
  snaps : List (Nat × List (Nat × Mask))
  /-- The entry the transposition table takes when the value arrives, when it may (R203). -/
  memo : Option XEntry
  deriving DecidableEq, Repr

/-- The parameters of an AMSG, CIRC.SETUP or CIRC.SEND as formed at issue (R376, R378, R379). -/
structure MessageReq where
  dest : Nat
  index : Nat
  seq : Word
  payload : List Word
  addr : Nat
  deriving DecidableEq, Repr

/-- The kind of a release point (R164). -/
inductive PointKind where
  | atom (e : AtomEff) (dst : Nat) (returning : Bool)
  | amsg (m : MessageReq)
  | circSetup (m : MessageReq) (dst : Nat)
  | circSend (m : MessageReq)
  /-- SYS.W of a space and index, the value of each lane (R301). -/
  | sysWrite (space index : Nat) (values : Content)
  deriving DecidableEq, Repr

/-- A release point between its heads (R165): its setter and slot, kind, issue group and lanes, instruction, whether
its request has been sent, the lanes whose address is tainted, and the ordering scope that an acquire removes L1
copies at. Its answers lie in its transactions. -/
structure Point where
  setter : Nat
  kind : PointKind
  issue : Mask
  lanes : Mask
  pc : Addr
  next : Addr
  iword : Nat
  ilen : Nat
  sent : Bool
  taint : Mask
  deriving DecidableEq, Repr

/-- A crew parked on page faults (R69, R437): the instruction, its participants and the failing lanes; order
is its place among parked crews; listed once its entry is in the fault queue. -/
structure Parked where
  part : Mask
  pc : Addr
  iword : Nat
  ilen : Nat
  faults : List LaneTrap
  order : Nat
  listed : Bool
  deriving DecidableEq, Repr

/-- An asynchronous cause that is due or held (R304), with each lane's failing address and AUX word (R298). kept marks one
that comes from released work, which no restart discards (R160). -/
structure AsyncCause where
  cls : Nat
  code : Nat
  lanes : Mask
  addrs : List (Nat × Addr)
  auxs : List (Nat × Addr)
  kept : Bool
  held : Bool
  deriving DecidableEq, Repr

/-- Whose crew runs in a slot: its context, its launch slot, its group slot (none in a handler crew), its
index in the group or among the handler crews (R12, R39). -/
structure Owner where
  ctx : Nat
  lslot : Nat
  gslot : Option Nat
  index : Nat
  deriving DecidableEq, Repr

/-- A crew slot. -/
structure Crew where
  owner : Option Owner
  threads : List Thread
  trapMode : Bool
  map : List PhysReg
  ext : Bool
  pinned : BitVec 64
  turn : Nat
  run : Nat
  regions : List Region
  retired : Nat
  gambit : Option Gambit
  point : Option Point
  setters : List Setter
  loads : List LoadRec
  pendingTrap : Option PendingTrap
  async : List AsyncCause
  /-- The class of the trap whose handler runs (R296). -/
  handling : Option Nat
  /-- The region that the last trap-entry head closed (R303). -/
  entryClosed : Nat
  /-- The class that terminates the context once the region of entryClosed has released (R303). -/
  dying : Option Nat
  /-- The close of a gambit whose head still waits for a snapshot (R155, R184). -/
  headDue : Bool
  parked : Option Parked
  /-- Pre-emption or a cancel has stopped the crew's issue (R444, R30). -/
  stopped : Bool
  /-- The restart cycle, the PAUSE or the trap entry before which the crew does not issue (R160, R289,
  R296, R300). -/
  resumeAt : Nat
  pausedUntil : Nat
  lastIssue : Nat
  /-- The order of the XBLK.ACQ that waits (R190). -/
  xwait : Option Nat
  deriving DecidableEq, Repr

/-- What outlives the crews of a slot: the side buffer and the generation (R297, R438). -/
structure SlotKeep where
  side : SideBuffer
  generation : Nat
  deriving DecidableEq, Repr

/-- An operand latch (R208): its content and taint, the issue group it serves, the slots left, its producer
and the map entry and register that it wrote (R210). -/
structure Latch where
  content : Content
  taint : Mask
  slot : Nat
  part : Mask
  left : Nat
  pc : Addr
  dest : Option (Nat × PhysReg)
  deriving DecidableEq, Repr

/-- A locked run (R209): the crew slot, its group, the locked slots left, the consecutive slots so far and
the cycle of the last slot. -/
structure Locked where
  slot : Nat
  part : Mask
  left : Nat
  used : Nat
  since : Nat
  deriving DecidableEq, Repr

/-- An extended block of the pool: the group slot that reserved it, the crew slot that holds it, and whether its
release waits for a region (R190, R159). -/
structure Block where
  group : Option Nat
  holder : Option Nat
  freeing : Bool
  deriving DecidableEq, Repr

/-- An access that has claimed its bank in a cycle (R206, R207). -/
structure BankUse where
  bank : Nat
  cycle : Nat
  deriving DecidableEq, Repr

/-- A result in the write buffer: its physical register, the cycle it enters the buffer (0 when that is the present one),
and the cycle in which it takes its bank once forced (R206, R207). -/
structure BankWrite where
  id : Nat
  since : Nat
  takes : Option Nat
  deriving DecidableEq, Repr

/-- A sub-core (R3, R188 to R210). events counts the events of R205 and R508
that the core's counters have not yet taken. -/
structure Sub where
  crews : List Crew
  keep : List SlotKeep
  latches : List (Option Latch)
  locked : Option Locked
  loser : Option Nat
  claims : List BankUse
  writes : List BankWrite
  /-- A write has been forced while the present loser exists (R207). -/
  forced : Bool
  /-- The crew slot whose instruction reads a latch through its register and so issues one cycle later, with the cycle in
  which it could first have issued (R210). -/
  latchWait : Option (Nat × Nat)
  ready : List (Nat × Nat × Nat)
  /-- The cycle from which the SFN unit, then the unit of LRED and LMATCH, takes its next instruction (R383). -/
  unitFree : List Nat
  /-- The claims, the pending results and the busy units before the latest issue: what a group that waits instead of
  executing leaves (R14, R207). -/
  prior : List BankUse × List (Nat × Nat × Nat) × List Nat
  /-- The group chosen in this cycle turned out not to be ready: the sub-core chooses again in the same cycle (R14, R207). -/
  again : Bool
  xpos : List XEntry
  xclock : Nat
  blocks : List Block
  events : List Nat
  deriving DecidableEq, Repr

/-- An idle thread. -/
def Thread.idle : Thread :=
  { pc := 0, preds := 0, taint := 0, sb := [0, 0, 0, 0, 0, 0], run := .exited, clockHi := 0,
    consume := .empty }

/-- A crew slot that no crew holds. -/
def Crew.idle : Crew :=
  { owner := none, threads := List.replicate 32 Thread.idle, trapMode := false, map := [], ext := false,
    pinned := 0, turn := 0, run := 0, regions := [], retired := 0, gambit := none, point := none,
    setters := [], loads := [], pendingTrap := none, async := [], handling := none, entryClosed := 0, dying := none,
    headDue := false, parked := none, stopped := false, resumeAt := 0, pausedUntil := 0, lastIssue := 0, xwait := none }

/-- A lane record before any trap. -/
def LaneRecord.zero : LaneRecord :=
  { spc := 0, addr := 0, cause := 0, state := 0, saveG := [0, 0, 0, 0], aux := 0 }

/-- The side buffer before any trap. -/
def SideBuffer.zero : SideBuffer :=
  { cls := 0, cause := 0, tpc := 0, iword := 0, tmask := 0, pmask := 0, turn := 0, seq := 0, clock := 0,
    launchId := 0, group := 0, flags := 0, ilen := 0, hscr := List.replicate 48 0,
    lanes := List.replicate 32 LaneRecord.zero }

/-- What a crew slot keeps, at reset. -/
def SlotKeep.reset : SlotKeep := { side := .zero, generation := 0 }

/-- A sub-core at reset: 8 idle crew slots, every latch invalid, 4 free extended blocks (R3, R189). -/
def Sub.reset : Sub :=
  { crews := List.replicate 8 Crew.idle, keep := List.replicate 8 SlotKeep.reset,
    latches := [none, none, none], locked := none, loser := none, claims := [], writes := [],
    forced := false, latchWait := none, again := false, ready := [], unitFree := [0, 0],
    prior := ([], [], [0, 0]), xpos := [], xclock := 0, blocks := List.replicate 4 ⟨none, none, false⟩, events := List.replicate 17 0 }

end Sys2Proof.Machine
end

