-- ==== Sys2Proof/Machine/EngineState.lean ====
section
/-! DEFINITION. The state of a core's engines, tiles, row riser, windows, subscriptions and messages, and of
groups, as plain data (R167 to R170, R334 to R380). -/

namespace Sys2Proof.Machine

/-- A run of bytes that a copy moves: its source address, its resolved source and destination, and their pages (R338). -/
structure CopyRun where
  va : Nat
  src : Loc
  dst : Loc
  len : Nat
  srcPage : Page
  dstPage : Page
  deriving DecidableEq, Repr

/-- The parameter block of TMAC and TCONV, with the row-index vector as read at acceptance (R349, R354).
conv holds the convolution record's 64 bytes for TCONV (R356). -/
structure TileMul where
  aoff : Nat
  ald : Nat
  rows : Option (List Nat)
  boff : Option Nat
  bld : Nat
  m : Nat
  n : Nat
  k : Nat
  tile : Nat
  afmt : Nat
  bfmt : Nat
  chk : Bool
  sparse : Bool
  spoff : Nat
  saoff : Nat
  sboff : Nat
  g : Nat
  conv : Option (List Byte)
  deriving DecidableEq, Repr

/-- The drain block of TDRAIN (R358), with its destination rows resolved (R338). -/
structure TileDrain where
  rows : List (List (Loc × Page))
  tile : Nat
  ofmt : Nat
  add : Bool
  choose : Bool
  nsat : Bool
  mode : Nat
  zero : Bool
  tid : Nat
  m : Nat
  n : Nat
  oscale : Word
  se : Nat
  sf : Nat
  deriving DecidableEq, Repr

/-- What an engine command does. -/
inductive EngWork where
  /-- CPY, CPYT, CPYG: its runs in destination order and the barrier object credited (R342 to R347). -/
  | copy (runs : List CopyRun) (credit : Option Nat)
  | mul (p : TileMul)
  | drain (p : TileDrain)
  | tzero (k : Nat)
  /-- TCTL.LOAD of a tile from a scratchpad offset, with the checksum lines or without (R361). -/
  | tload (k off : Nat) (chk : Bool)
  /-- TCTL.STAT of a tile into a register of the lanes, with its setter (R361). -/
  | tstat (k dst : Nat) (lanes : Mask) (setter : Nat)
  /-- RCON of a row into the core's scratchpad at an offset, or into the latch (R368): the cycle its transfer began, the row's
  bytes and descriptor copies as moved, and the first block that failed as it moved with its DATAERR code: its place in the
  vault (R339). -/
  | rcon (dst : Option Nat) (start : Nat) (data : List Byte) (descs : List (Nat × Nat)) (bad : Option (Nat × Nat))
  /-- SUBS.ON: its number advances when every part's sequence 0 has been applied (R374). -/
  | subs (index : Nat)
  deriving DecidableEq, Repr

/-- A staged unit (R167): the bytes and descriptors it will write, the cycle it was complete, the tags of
the reads it depends on, the bytes it credits and the statistics it adds. -/
structure Staged where
  writes : List (Loc × List Byte)
  descs : List (Loc × Nat)
  done : Nat
  tags : List Tag
  credit : Nat
  stats : List StatAdd
  /-- An add-on-store in an output format: the words written are the tile's, to be multiplied and added (R360). -/
  add : Option Nat
  deriving DecidableEq, Repr

/-- What a saved group keeps of an accepted command (R460): its instruction word, the addresses of its pairs D and A and the
values of B and C in lane l0, and what it read at acceptance, followed by its index vector's entries. -/
structure EngImage where
  word : Nat
  dst : Nat
  src : Nat
  bval : Word
  cval : Word
  data : List Byte
  index : List Byte
  deriving DecidableEq, Repr

/-- The work has a part on a strongly ordered page (R91). -/
def EngWork.strong (w : EngWork) : Bool :=
  match w with
  | .copy runs _ => runs.any (fun x => x.srcPage.ord == 1 || x.dstPage.ord == 1)
  | .drain p => p.rows.any (fun r => r.any (fun x => x.2.ord == 1))
  | _ => false

/-- An accepted engine command (R336): its unit's number on its timeline, its group and issuing lane, its
region, whether that has released, the step it has reached, its staged units and the units landed. -/
structure EngOp where
  id : Nat
  tl : Nat
  num : Nat
  gslot : Nat
  crew : CrewRef
  region : Nat
  lane : Nat
  pc : Addr
  work : EngWork
  released : Bool
  started : Option Nat
  /-- The cycle in which its step completes. -/
  nextAt : Nat
  step : Nat
  total : Nat
  staged : List Staged
  landed : Nat
  /-- The cycle its last source byte is read (R337). -/
  readDone : Option Nat
  /-- Abandoned under R339. -/
  dead : Bool
  /-- Its last unit has landed; it settles when the earlier ones on its tile have (R169). -/
  done : Bool
  image : EngImage
  /-- A pre-emption or a cancel has stopped it at a step boundary (R341, R444). -/
  held : Bool
  /-- The step it was restored at (R450). -/
  first : Nat
  /-- The times that the reads of its present step have been sent again (R474). -/
  resends : Nat := 0
  deriving DecidableEq, Repr

/-- A 65 × 65 tile with its checksum row, column and corner, as FP32 words (R145). -/
abbrev Tile := List (List Word)

/-- The tile of zeros. -/
def zeroTile : Tile := List.replicate 65 (List.replicate 65 0)

/-- An architectural tile: its base and live tiles and its status (R169, R362). forked tells that the live
tile is not the base. -/
structure TileSlot where
  base : Tile
  live : Tile
  forked : Bool
  baseStatus : Word
  status : Word
  deriving DecidableEq, Repr

/-- A tile at group start: +0, checksum lines valid (R362). -/
def TileSlot.reset : TileSlot :=
  { base := zeroTile, live := zeroTile, forked := false, baseStatus := 1, status := 1 }

/-- A timeline of a group: counter, issue count, vacant numbers, and numbers landed above the counter (R22,
R162, R336). -/
structure Timeline where
  counter : Nat
  issued : Nat
  vacant : List Nat
  landed : List Nat
  deriving DecidableEq, Repr

/-- A timeline at group start (R22). -/
def Timeline.reset : Timeline := { counter := 0, issued := 0, vacant := [], landed := [] }

/-- A range part of a subscription: the lines that share a home, each with its local place, the next number to apply, and
whether its sequence 0 has been applied (R112, R113). -/
structure SubPart where
  home : HomeId
  lines : List (Nat × Loc)
  next : Nat
  started : Bool
  deriving DecidableEq, Repr

/-- A subscription a group holds (R374): its identifier, whether its SUBS.ON has released, its command. -/
structure Subscription where
  id : Nat
  released : Bool
  op : Nat
  parts : List SubPart
  vaultLocal : Bool
  /-- Its timeline, its length, and the local and global addresses of SUBS.ON (R374, R457). -/
  tl : Nat
  len : Nat
  lva : Nat
  gva : Nat
  deriving DecidableEq, Repr

/-- Who holds a circuit: a group, by its group slot, or a handler crew (R378). -/
inductive CircuitOwner where
  | group (gslot : Nat)
  | handler (crew : CrewRef)
  deriving DecidableEq, Repr

/-- A circuit (R378): its identifier, its owner, destination core, transfers left, whether the network
still reserves it, and the cycle of its last use. -/
structure Circuit where
  id : Nat
  owner : CircuitOwner
  dest : Nat
  left : Nat
  reserved : Bool
  lastUse : Nat
  deriving DecidableEq, Repr

/-- A window of the cluster's table (R52, R373): the owner's core and group slot, the scratchpad offset in
the owner's allocation, and the writer's core and group slot. -/
structure Window where
  core : Nat
  gslot : Nat
  off : Nat
  wcore : Nat
  wslot : Nat
  deriving DecidableEq, Repr

/-- A released WOPEN on its way to the copies of the cluster's table (R373, R116). -/
structure WindowChange where
  core : Nat
  gslot : Nat
  off : Nat
  /-- The new writer's core and group slot; none closes the window. -/
  writer : Option (Nat × Nat)
  due : Nat
  crew : CrewRef
  setter : Nat
  /-- Once it has reached the copies: the writer whose stores it still waits for (R116). -/
  applied : Option (Option (Nat × Nat))
  deriving DecidableEq, Repr

/-- A released barrier arrival that waits for earlier accesses of its threads (R111): the requests it waits for. -/
structure Arrival where
  crew : CrewRef
  gslot : Nat
  effect : Effect
  after : List Nat
  deriving DecidableEq, Repr

/-- The state of a riser bank (R364). An opening bank names its row, its activation's start and ready cycles in the owning
core's count, and whether the activation has started (R366). -/
inductive BankState where
  | closed
  | opening (row start ready : Nat) (began : Bool)
  | open_ (row : Nat)
  | lost
  deriving DecidableEq, Repr

/-- A riser bank: its state, the end of a transfer and of an ordinary access (R368, R371). -/
structure Bank where
  state : BankState
  transferEnd : Nat
  accessEnd : Nat
  deriving DecidableEq, Repr

/-- An inbound message (R376). -/
structure Message where
  lslot : Nat
  src : Nat
  handler : Nat
  seq : Nat
  payload : List Word
  sig : Sig
  deriving DecidableEq, Repr

/-- The handler crews a launch holds on a core: their crew slots as sub-core and slot, and the messages of
the launch accepted here (R38, R376). -/
structure HandlerSet where
  lslot : Nat
  crews : List (Nat × Nat)
  accepted : Nat
  deriving DecidableEq, Repr

/-- A group on its core (R22, R426). -/
structure Group where
  lslot : Nat
  ctx : Nat
  g : Nat
  scrBase : Nat
  scrLen : Nat
  crews : List (Nat × Nat)
  completed : Nat
  timelines : List Timeline
  tiles : List TileSlot
  barriers : List Nat
  barrierLimit : Nat
  subs : List Subscription
  pinCore : Bool
  xsub : Nat
  /-- It has released an ATOM, SATOM, ATOMN, AMSG or CIRC.SEND (R433, R457). -/
  atomic : Bool
  /-- A pre-emption or a cancel is draining the group (R444, R30). -/
  draining : Bool
  /-- It had met every condition of R23 when a cause that ends its launch was accepted, so that it still counts (R31). -/
  met : Bool
  deriving DecidableEq, Repr

/-- A group at its start, before its resources are named. -/
def Group.empty : Group :=
  { lslot := 0, ctx := 0, g := 0, scrBase := 0, scrLen := 0, crews := [], completed := 0,
    timelines := List.replicate 5 Timeline.reset, tiles := [], barriers := [], barrierLimit := 0,
    subs := [], pinCore := false, xsub := 0, atomic := false, draining := false, met := false }

/-- A line of the L1 (R84, R511): its line number (PA div 128), its 128 bytes, its two blocks' descriptor
copies, the cycles its fill was requested and served, the tag it keeps (R173), and the order of its last use. -/
structure L1Line where
  line : Nat
  data : List Byte
  descs : List (Nat × Nat)
  filled : Nat
  served : Nat
  tag : Option Tag
  used : Nat
  deriving DecidableEq, Repr

/-- A translation kept by a TLB (R68): the context, the page's number and size, the entry. -/
structure TlbEntry where
  ctx : Nat
  vpn : Nat
  size : Nat
  entry : Nat
  pte : Nat
  used : Nat
  deriving DecidableEq, Repr

/-- A slot-table record (R427): the bind record, the image to restore with its length (R449), and whether it has been
stolen (R431). -/
structure SlotRecord where
  bind : BindRecord
  restore : Option (Nat × Nat)
  stolen : Bool
  deriving DecidableEq, Repr

/-- The row latch (R363). -/
structure RowLatch where
  data : List Byte
  descs : List Nat
  owner : Option Nat
  deriving DecidableEq, Repr

/-- An engine unit: the copy contexts 0 to 3 and the tile engine 4, with accepted commands in acceptance
order. -/
structure Engine where
  ops : List EngOp
  /-- The cycle from which no copy of a tile's base occupies the engine (R170). -/
  freeAt : Nat
  deriving DecidableEq, Repr

/-- The accumulators of R95. -/
structure Accumulators where
  cluster : Sig
  device : Sig
  system : Sig
  e0 : Sig
  e1 : Sig
  e2 : Sig
  rotateAt : Nat
  deriving DecidableEq, Repr

/-- The performance counters of a core (R508): PMC, PMSEL and the counts of its events. -/
structure PerfState where
  pmc : List (BitVec 64)
  pmsel : List (BitVec 21)
  deriving DecidableEq, Repr

/-- A core (R3). scratch holds the scratchpad's written bytes, descs the blocks whose descriptor copies are
not zero. -/
structure Core where
  resetAt : Nat
  subs : List Sub
  scratch : List Host.Cell
  descs : List (Nat × Nat × Nat)
  l1 : List L1Line
  tlb : List TlbEntry
  useClock : Nat
  acc : Accumulators
  windows : List Window
  windowChanges : List WindowChange
  groups : List (Option Group)
  slots : List SlotRecord
  engines : List Engine
  latch : RowLatch
  banks : List Bank
  starts : List Nat
  inbound : List Message
  handlers : List HandlerSet
  circuits : List Circuit
  arrivals : List Arrival
  /-- The 16-bit serial of the core's next atomic request (R318). -/
  serial : Nat
  lfsr : BitVec 16
  /-- The cycle from which the core's present 512 cycles of idleness count (R430). -/
  idleSince : Nat
  /-- The context of the newest group the core has started (R430). -/
  newest : Option Nat
  /-- The victim that a steal request of the core has been sent to (R430). -/
  asked : Option Nat
  perf : PerfState
  fenced : Bool
  evacuating : Option Nat
  /-- Crews parked or waiting in XBLOCK are numbered in order (R190, R437). -/
  orders : Nat
  deriving DecidableEq, Repr

/-- The accumulators cleared. -/
def Accumulators.reset : Accumulators :=
  { cluster := .empty, device := .empty, system := .empty, e0 := .empty, e1 := .empty, e2 := .empty,
    rotateAt := 0 }

/-- A core at its reset (R364, R363, R22). -/
def Core.reset : Core :=
  { resetAt := 0, subs := List.replicate 4 Sub.reset, scratch := [], descs := [], l1 := [], tlb := [],
    useClock := 0, acc := .reset, windows := [], windowChanges := [], groups := List.replicate 32 none,
    slots := [], engines := List.replicate 5 ⟨[], 0⟩,
    latch := { data := List.replicate 2048 0, descs := List.replicate 32 0, owner := none },
    banks := List.replicate 32 ⟨.closed, 0, 0⟩, starts := [], inbound := [], handlers := [],
    circuits := [], arrivals := [], serial := 0, lfsr := 0, idleSince := 0, newest := none, asked := none,
    perf := { pmc := List.replicate 8 0, pmsel := List.replicate 8 0 }, fenced := false,
    evacuating := none, orders := 0 }

end Sys2Proof.Machine
end

