-- ==== Sys2Proof/Machine/NetState.lean ====
section
/-! DEFINITION. The state of homes and of the network between cells, as plain data: transactions in flight,
responses not yet cleared with their undo records, signature entries, exactly-once tables, range parts of
subscriptions (R81, R96, R112, R171, R172, R318, R472 to R475). -/

namespace Sys2Proof.Machine

/-- What a read is for: a load of a crew, or a fill that returns nothing (R323). -/
inductive ReadFor where
  | load (crew : CrewRef) (setter : Nat)
  | fill
  deriving DecidableEq, Repr

/-- A write at one home (R82): the bytes by place, in the order they take in the coherence order, the
descriptor written with whole blocks, the crew and setter to credit, the release scope (R94) and the page. -/
structure WriteReq where
  crew : CrewRef
  setter : Nat
  bytes : List (Loc × List Byte)
  descs : List (Loc × Nat)
  rel : Option Nat
  stats : List StatAdd
  page : Page := Page.plain
  /-- It crosses the torus on a reserved circuit (R379). -/
  circuit : Bool := false
  deriving DecidableEq, Repr

/-- A request that a unit sends to a home. -/
inductive Req where
  /-- A read of the 128-byte line that holds a place; past tells that it goes past L1, acq that the
  signature entry is returned (R97, R103). -/
  | read (line : Loc) (why : ReadFor) (install past acq : Bool)
  | write (w : WriteReq)
  /-- An atomic's lanes at this home; point tells that a release point waits for it (R315, R316). -/
  | atomic (e : AtomEff) (crew : CrewRef) (point : Bool) (ident : Nat × Nat) (resend : Bool)
  | message (m : MessageReq) (crew : CrewRef) (lslot : Nat) (handler : Nat)
  | setup (m : MessageReq) (crew : CrewRef)
  deriving DecidableEq, Repr

/-- What a home answered. -/
inductive Answer where
  /-- A line: its 128 bytes, its two blocks' descriptor copies, a damaged mark for each block, and the
  signature entry when asked for. -/
  | line (data : List Byte) (descs : List (Nat × Nat)) (bad : List Bool) (sig : Option Sig)
  | ack
  /-- The old values of an atomic's lanes, the entry of its line, the counts it adds, and the lanes whose data failed, each with
  its DATAERR code (R71, R76, R100, R143, R315). -/
  | olds (vals : List (Nat × Nat)) (sig : Option Sig) (stats : List StatAdd) (bad : List (Nat × Nat))
  /-- The exactly-once table does not know a resent request (R319). -/
  | unknown
  | accepted (ok : Bool)
  | circuit (id : Option Nat)
  | failed
  deriving DecidableEq, Repr

/-- A transaction (R318, R474): its requester, home and request, when it was sent, when the home takes it
and when its answer returns; the transactions to be acknowledged before it is performed (R89, R94); its
resends, the packet's loss, and the answer with its tag once given. crew, lanes and ord name the threads whose access
it is and the ordering kind of their page (R88); lslot is their launch's slot; page is the page it goes through; out tells
that the request has left its core. -/
structure Tx where
  id : Nat
  core : Nat
  crew : Option CrewRef
  lslot : Option Nat
  lanes : Mask
  ord : Nat
  page : Page
  home : HomeId
  req : Req
  sent : Nat
  serveAt : Nat
  dueAt : Nat
  after : List Nat
  out : Bool
  /-- The release signature it carries, formed as it was sent (R95). -/
  sig : Option Sig
  resends : Nat
  lost : Bool
  /-- The old low halves, the counts and the failed lanes once the first step of a pair sum has been applied (R315). -/
  lows : Option (List (Nat × Nat) × List StatAdd × List (Nat × Nat))
  answer : Option Answer
  tag : Option Tag
  /-- The region of its crew whose release it awaits, since it leaves the package (R175). -/
  hold : Option Nat := none
  deriving DecidableEq, Repr

/-- The bound signature entry of a flag line (R96): the line, its signature, the order of its last use. -/
structure SigEntry where
  line : Loc
  sig : Sig
  used : Nat
  deriving DecidableEq, Repr

/-- What an update of a home changed, for its reversal (R172): the old bytes and descriptor copies, latest
first, the signature entries before it and the subscription counters before it. -/
structure Undo where
  bytes : List (Loc × List Byte)
  descs : List (Loc × Nat × Nat)
  sigs : Option (List SigEntry)
  counters : List (Nat × Nat)
  deriving DecidableEq, Repr

/-- Nothing to reverse. -/
def Undo.none : Undo := ⟨[], [], Option.none, []⟩

/-- A response to an application core or a PCIe agent that waits until what it rests on has cleared (R175). -/
structure HeldReply where
  party : Party
  data : List Byte
  deriving DecidableEq, Repr

/-- A response whose clear the home has not sent (R171, R172): the transaction it answers (none for a page
walk, an engine's read or landing), the write performed where there is one, the cycle its value is due at the
requester, the stack controller's tag that it rests on (R174). tagged tells that a clear will be sent. The requester is a
core, or 1024 + n for slice n, which a stack controller answers. -/
structure Response where
  serial : Nat
  core : Nat
  tagged : Bool
  tx : Option Tx
  write : Option WriteReq
  undo : Undo
  served : Nat
  due : Nat
  fill : Option Tag
  updates : List Nat
  reply : Option HeldReply := none
  deriving DecidableEq, Repr

/-- A kept identifier of an atomic with its results (R318), or of a write (R475). -/
structure Kept where
  core : Nat
  serial : Nat
  vals : List (Nat × Nat)
  stats : List StatAdd := []
  bad : List (Nat × Nat) := []
  deriving DecidableEq, Repr

/-- A range part at its home (R112, R472): the subscriber, the first bytes of the part's lines, the number of the next
update and the oldest number not acknowledged. -/
structure RangePart where
  core : Nat
  gslot : Nat
  sub : Nat
  part : Nat
  lines : List Nat
  next : Nat
  oldest : Nat
  deriving DecidableEq, Repr

/-- A line of an L2 slice (R58, R67): its number, its dirty mark, its victim priority, the order of its last use, the tag of
the stack controller's answer that filled it, and of the acknowledgement of its write-back, each until cleared (R174).
leaving tells that the line goes once its write-back has cleared. -/
structure L2Line where
  line : Nat
  dirty : Bool
  prio : Nat
  used : Nat
  fill : Option Tag
  back : Option Tag
  leaving : Bool
  deriving DecidableEq, Repr

/-- A home (R81). -/
structure Home where
  serial : Nat
  responses : List Response
  sigs : List SigEntry
  sigClock : Nat
  atoms : List Kept
  writes : List Kept
  lost : List (Nat × Nat)
  parts : List RangePart
  /-- The lines present in a slice (R58, R67, R323), and the count of their uses. -/
  lines : List L2Line
  lineClock : Nat
  /-- The cycle from which it takes its next request (R390, R392), and the round-robin pointer over its inputs. -/
  freeAt : Nat
  turn : Nat
  /-- A vault controller's reset holds its requests until this cycle (R477). -/
  heldUntil : Nat
  deriving DecidableEq, Repr

/-- A home before any request. -/
def Home.reset : Home :=
  { serial := 0, responses := [], sigs := [], sigClock := 0, atoms := [], writes := [], lost := [],
    parts := [], lines := [], lineClock := 0, freeAt := 0, turn := 0, heldUntil := 0 }

/-- A clear or a redo notice on its way to a core (R171, R172). -/
structure Notice where
  core : Nat
  tag : Tag
  due : Nat
  deriving DecidableEq, Repr

/-- A subscription update (R112, R472): its home and range part, its number and runs of bytes, and the cycles that its path
through the subscribers before it adds; held until its write's tag has cleared, then sent; acknowledged. -/
structure Update where
  id : Nat
  home : HomeId
  core : Nat
  gslot : Nat
  sub : Nat
  part : Nat
  seq : Nat
  runs : List (Nat × List Byte)
  detour : Nat
  cleared : Bool
  sent : Bool
  due : Nat
  applied : Bool
  nacked : Bool
  deriving DecidableEq, Repr

/-- A link port (R473, R476): its spare lanes, remapped lanes, recent failures by lane, the end of a remap
pause, the cycle of a failure whose resend is due, and the flits that wait in the retry buffer. -/
structure LinkPort where
  spares : Nat
  remapped : List (Nat × Nat)
  failures : List (Nat × Nat)
  pausedUntil : Nat
  resendAt : Option Nat
  discarding : Bool
  /-- A Phoac port without a spare left runs on its 4 best lanes (R476). -/
  half : Bool := false
  deriving DecidableEq, Repr

/-- A packet in the torus (R467 to R470): the transaction it carries, whether it brings the answer, its class (0 request,
1 response, 2 message), its flits, the source on its router's local input, the router input it stands in, the outputs it
has still to take, the cycle from which it may leave its input, and the cycle it was sent and its hops. -/
structure Packet where
  tx : Nat
  reply : Bool
  cls : Nat
  flits : Nat
  src : Nat
  input : Nat
  route : List Nat
  readyAt : Nat
  sent : Nat
  dist : Nat
  deriving DecidableEq, Repr

/-- A router (R393, R465, R508): the flits forwarded by each of its five outputs, its injection stalls and circuit cycles,
the round-robin pointers of its outputs and of its local input, and the cycles to come in which an output carries a circuit's
flit (R471). -/
structure Router where
  forwarded : List Nat
  stalls : Nat
  circuit : Nat
  turns : List Nat
  source : Nat
  flits : List (Nat × Nat)
  deriving DecidableEq, Repr

/-- A router at reset. -/
def Router.reset : Router :=
  { forwarded := List.replicate 5 0, stalls := 0, circuit := 0, turns := List.replicate 5 0, source := 0, flits := [] }

/-- A cluster's second-level TLB (R68). -/
structure ClusterTlb where
  entries : List TlbEntry
  clock : Nat
  deriving DecidableEq, Repr

/-- A byte that an unsettled engine operation reads and that its group has written since (R109, R347): the operation's group
and identifier, the place, and what the operation read there before. -/
structure Raced where
  core : Nat
  gslot : Nat
  op : Nat
  loc : Loc
  old : Byte
  deriving DecidableEq, Repr

/-- The network and the homes. Homes, ports, routers and clusters' TLBs are sparse tables. -/
structure Net where
  txs : List Tx
  homes : List (HomeId × Home)
  clears : List Notice
  redos : List Notice
  updates : List Update
  ports : List (Nat × LinkPort)
  /-- Circuit reservations of routers: (router, core, circuit) (R471). -/
  circuits : List (Nat × Nat × Nat)
  packets : List Packet
  routers : List (Nat × Router)
  tlbs : List (Nat × ClusterTlb)
  raced : List Raced
  deriving DecidableEq, Repr

/-- The network at reset. -/
def Net.reset : Net :=
  { txs := [], homes := [], clears := [], redos := [], updates := [], ports := [], circuits := [],
    packets := [], routers := [], tlbs := [], raced := [] }

end Sys2Proof.Machine
end

