-- ==== Sys2Proof/Machine/SchedState.lean ====
section
/-! DEFINITION. The state of contexts, queues, launches, levels and the quiesce, as plain data (R412 to
R433, R436 to R463). -/

namespace Sys2Proof.Machine

/-- A context (R412). -/
structure Context where
  root : Addr
  trapBase : Addr
  part : Nat
  steal : Bool
  valid : Bool
  deriving DecidableEq, Repr

/-- A context at reset: every field zero (R412). -/
def Context.reset : Context := { root := 0, trapBase := 0, part := 0, steal := false, valid := false }

/-- A partition: masks of logical cores and logical vaults (R413). -/
structure Partition where
  cores : BitVec 1024
  vaults : BitVec 1024
  deriving DecidableEq, Repr

/-- A launch descriptor (R46). -/
structure Descriptor where
  image : Addr
  args : Addr
  nx : Nat
  ny : Nat
  nz : Nat
  maxGroups : Nat
  countAddr : Nat
  doneRec : Nat
  stats : Nat
  diag : Nat
  privBase : Nat
  lflags : Nat
  launchId : Word
  toexp : Nat
  deriving DecidableEq, Repr

/-- A kernel image header (R44). -/
structure ImageHeader where
  flags : Nat
  codeSize : Nat
  entry : Nat
  gx : Nat
  gy : Nat
  gz : Nat
  regs : Nat
  barriers : Nat
  scratch : Nat
  priv : Nat
  tiles : Nat
  hcrews : Nat
  toexp : Nat
  hvalid : Nat
  swtraph : Nat
  brkh : Nat
  handlers : List Nat
  deriving DecidableEq, Repr

/-- What a level's record address names: a physical address, or a virtual address of a context (R420). -/
inductive RecAddr where
  | phys (a : Nat)
  | virt (ctx a : Nat)
  deriving DecidableEq, Repr

/-- The status and cause of a level (R28): code and CAUSE. -/
abbrev Status := Nat × Nat

/-- A saved group of a pre-empted launch (R445 to R451): its number, the physical address and length of its image, its core
and group slot, the record it ran under, with the handler crews of its launch there, and whether a quiesce saved it, so
that it is restored in place (R452). -/
structure SavedGroup where
  g : Nat
  image : Nat
  len : Nat
  core : Nat
  gslot : Nat
  bind : BindRecord
  inPlace : Bool
  deriving DecidableEq, Repr

/-- A launch-table entry (R423). waitsGraph holds the launch back until its graph may dispatch; ready tells
that it has been shown to Tempo (R423). status is the cause accepted, once one is (R31). -/
structure Launch where
  ctx : Nat
  /-- The descriptor's address (R459). -/
  descAddr : Nat
  desc : Descriptor
  header : ImageHeader
  prio : Nat
  graph : Option Nat
  recAddr : RecAddr
  groups : Nat × Nat × Nat
  fixed : Bool
  ready : Bool
  counter : Nat
  target : Nat
  discarded : Nat
  bound : List Nat
  done : List Nat
  lostOnce : List (Nat × Nat)
  saved : List SavedGroup
  status : Option Status
  stats : List (Nat × Nat)
  diagWritten : Bool
  /-- The lines of physical memory that its groups have stored to: code fetched from one is unspecified (R214). -/
  wrote : List Nat := []
  deriving DecidableEq, Repr

/-- An open graph, phase or job (R425): kind 2, 3 or 4; parent and order within it. -/
structure Level where
  kind : Nat
  ctx : Nat
  recAddr : RecAddr
  parent : Option Nat
  order : Nat
  target : Nat
  counter : Nat
  children : Nat
  status : Option Status
  deriving DecidableEq, Repr

/-- A queue whose doorbell has rung (R416 to R422): whether its engine is to look at it, the cycle it last found its command
blocked, and the cycle since which the command has waited for a full table. -/
structure QueueState where
  q : Nat
  look : Bool
  blockedAt : Nat
  fullSince : Option Nat
  deriving DecidableEq, Repr

/-- What a pre-emption is for: a request at the port (R442), a fence's evacuation (R440), a field test (R505), a quiesce
(R452). -/
inductive PreemptOrigin where
  | port
  | fence
  | test
  | quiesce
  deriving DecidableEq, Repr

/-- A pre-emption (R442): its request and origin, the group slots it drains (core and group slot, in the order of their
images) and the handler crews (core and launch slot). -/
structure PreemptJob where
  req : PreemptRequest
  origin : PreemptOrigin
  victims : List (Nat × Nat)
  handlers : List (Nat × Nat)
  deriving DecidableEq, Repr

/-- A die's bind and pre-emption ports, log and LFSR seed (R427, R429, R442, R443, R481). -/
structure DieState where
  bindStat : Nat
  pstat : Nat
  plen : Nat
  seed : BitVec 16
  logBase : BitVec 64
  logSize : BitVec 64
  overrun : Bool
  seq : Nat
  /-- The pre-emption that runs, and those that wait (R442). -/
  preempt : Option PreemptJob
  waiting : List PreemptJob
  /-- A device error stops the start of bind records (R501). -/
  dispatchStopped : Bool
  deriving DecidableEq, Repr

/-- A die's ports at reset. -/
def DieState.reset : DieState :=
  { bindStat := 0, pstat := 0, plen := 0, seed := 0, logBase := 0, logSize := 0, overrun := false,
    seq := 0, preempt := none, waiting := [], dispatchStopped := false }

/-- The fault queue (R436, R438). -/
structure FaultQueue where
  base : BitVec 64
  head : BitVec 32
  tail : BitVec 32
  vec : BitVec 16
  stat : Bool
  seq : Nat
  parkOrder : Nat
  deriving DecidableEq, Repr

/-- The stages of a quiesce (R452): none, the drain of groups, the drain of the network, the halt. -/
inductive QuiesceStage where
  | none
  | draining
  | network
  | halted
  deriving DecidableEq, Repr

/-- The quiesce (R452, R456): its stage and request, the acts held since the cut, where the next image goes in Plinth's save
area, the records of the last cast and the number of casts emitted. -/
structure QuiesceState where
  stage : QuiesceStage
  request : Option QuiesceRequest
  held : List Instr
  saveAt : Nat
  cast : List CastRecord
  casts : Nat
  deriving DecidableEq, Repr

/-- An instruction that the device keeps for a context by its virtual address (R214). -/
structure KeptCode where
  ctx : Nat
  va : Nat
  word : Nat
  deriving DecidableEq, Repr

/-- Everything that schedules work. kept lists the instructions fetched since their context's last INVAL over them. -/
structure Sched where
  contexts : List (Nat × Context)
  parts : List (Nat × Partition)
  qtbase : BitVec 64
  queues : List QueueState
  robin : List (Nat × Nat)
  launches : List (Nat × Launch)
  levels : List (Nat × Level)
  dies : List (Nat × DieState)
  fq : FaultQueue
  /-- Interrupt vectors raised at the application cores, oldest first (R420, R436, R503). -/
  interrupts : List Nat
  quiesce : QuiesceState
  kept : List KeptCode
  deriving DecidableEq, Repr

/-- Scheduling state at reset. -/
def Sched.reset : Sched :=
  { contexts := [], parts := [], qtbase := 0, queues := [], robin := [], launches := [], levels := [],
    dies := [], fq := { base := 0, head := 0, tail := 0, vec := 0, stat := false, seq := 0, parkOrder := 0 },
    interrupts := [],
    quiesce := { stage := .none, request := none, held := [], saveAt := 0, cast := [], casts := 0 }, kept := [] }

end Sys2Proof.Machine
end

