-- ==== Sys2Proof/Machine/PackageState.lean ====
section
/-! DEFINITION. The state of the package and of fleet operation, as plain data: device registers, maps, boot,
power, cell counters, error log, in-field test, scrubbing (R464 to R510). -/

namespace Sys2Proof.Machine

/-- A cell's counter record (R498): STRIKE, DROOP, CLOCK, RECOVER, CE, UE, TCORR, LANES in order. -/
abbrev CellCounters := List Nat

/-- A threshold register with its windowed counts (R499): LIMIT, WEXP. -/
structure Threshold where
  limit : Nat
  wexp : Nat
  deriving DecidableEq, Repr

/-- The events of one cell and counter in the current window, and whether the window has been recorded. -/
structure WindowCount where
  cell : Nat
  index : Nat
  window : Nat
  count : Nat
  recorded : Bool
  deriving DecidableEq, Repr

/-- The error log (R503). -/
structure ErrorLog where
  base : BitVec 64
  head : BitVec 32
  tail : BitVec 32
  vec : BitVec 16
  lost : BitVec 32
  seq : Nat
  deriving DecidableEq, Repr

/-- The in-field test of a die (R505): the running cluster and its start, waiting starts, the status register
and, for each cluster, its mark and seen mask. -/
structure FieldTest where
  die : Nat
  running : Option (Nat × Nat)
  waiting : List Nat
  stat : Nat
  deriving DecidableEq, Repr

/-- A cluster's mark and seen mask (R505), the stop of binding for a test, and its reset (R477). -/
structure ClusterMark where
  cluster : Nat
  mark : Nat
  seen : List Nat
  stopped : Bool
  testing : Bool
  resetUntil : Option Nat
  deriving DecidableEq, Repr

/-- Power control (R496, R497): PWRCAP, the measured watts, each die's duty and thermal throttle, TLIMIT. -/
structure Power where
  cap : BitVec 64
  watts : Nat
  duty : List Nat
  hot : List Nat
  tlimit : BitVec 64
  deriving DecidableEq, Repr

/-- The duty D of a die: the controller's, or 8 while its temperature forces it (R496, R497). -/
def Power.dutyOf (p : Power) (die : Nat) : Nat := if p.hot.contains die then 8 else p.duty.getD die 64

/-- The boot stages (R486, R487). -/
inductive BootStage where
  | off
  | recovery
  | running
  deriving DecidableEq, Repr

/-- Boot state (R486): the stage, the flash slots, the fused counter, and the digests measured. -/
structure Boot where
  stage : BootStage
  slotA : FirmwareImage
  slotB : FirmwareImage
  active : Nat
  fused : Nat
  algorithms : Bool
  phoacPorts : BitVec 12
  pciePorts : BitVec 4
  rails : List Nat
  towersOff : List Nat
  /-- Records of bring-up that wait for the log to be set up: type, cell and detail (R507). -/
  unlogged : List (Nat × Nat × List Byte) := []
  /-- The router, port and stack cells that Armature has written to the boot configuration, to be fenced by the next bring-up
  (R500). -/
  marks : List Nat := []
  deriving DecidableEq, Repr

/-- The device registers of R481 and the maps behind them. -/
structure Regs where
  lock : BitVec 64
  pkgid : BitVec 64
  adminq : BitVec 64
  regions : List (BitVec 256)
  sliceMask : BitVec 256
  lmap : List (BitVec 32)
  phase : List (BitVec 64)
  pcie : List (BitVec 256)
  phoac : List (BitVec 64)
  /-- The physical clusters whose queue engines work, in ascending order (R415). -/
  engines : List Nat
  bulkMask : BitVec 8
  deriving DecidableEq, Repr

/-- The package and fleet state. cells and descriptors are sparse. -/
structure Package where
  regs : Regs
  boot : Boot
  power : Power
  cells : List (Nat × CellCounters)
  thresholds : List (Nat × Threshold)
  windowCounts : List WindowCount
  log : ErrorLog
  tests : List FieldTest
  clusters : List ClusterMark
  scrub : BitVec 64
  /-- A scrub read whose write-back is due: the block, its version bit and the corrected bytes (R502). -/
  scrubRead : Option (Nat × Bool × List Byte)
  routerDrops : List (Nat × Nat)
  deriving DecidableEq, Repr

/-- A firmware slot that holds no image. -/
def blankImage : FirmwareImage := { data := [], signature := [], version := 0 }

/-- The package at reset (R482, R483, R496, R502, R503). -/
def Package.reset : Package :=
  { regs := { lock := 0, pkgid := 0, adminq := 0, regions := List.replicate 64 0, sliceMask := 0,
              lmap := List.replicate 1024 0, phase := [], pcie := List.replicate 64 0,
              phoac := List.replicate 16 0, engines := [], bulkMask := 0 },
    boot := { stage := .off, slotA := blankImage, slotB := blankImage, active := 0, fused := 0,
              algorithms := false, phoacPorts := 0, pciePorts := 0, rails := [], towersOff := [] },
    power := { cap := 0, watts := 0, duty := List.replicate 8 64, hot := [], tlimit := 0 },
    cells := [], thresholds := [], windowCounts := [],
    log := { base := 0, head := 0, tail := 0, vec := 0, lost := 0, seq := 0 },
    tests := [], clusters := [], scrub := 40, scrubRead := none, routerDrops := [] }

end Sys2Proof.Machine
end

