-- ==== Sys2Proof/Machine/State.lean ====
section
/-! DEFINITION. The whole state of the device, the reasons a step can stop, and the state after reset. -/

namespace Sys2Proof.Machine

/-- The issue group a sub-core has chosen and not yet run (R15, R207). len is the length of the instruction
once it has been fetched, word its encoding. -/
structure Issue where
  core : Nat
  sub : Nat
  slot : Nat
  part : Mask
  pc : Addr
  len : Nat
  word : Nat
  deriving DecidableEq, Repr

/-- A step that is to be taken: the row and the unit it acts on. -/
structure Act where
  row : Instr
  sel : Sel
  deriving DecidableEq, Repr

/-- An act of an outside party, or a step in an order of its choosing: taken once the device's cycle count has reached its
time (log 3). -/
structure Input where
  time : Nat
  act : Act
  deriving DecidableEq, Repr

/-- An answer given to an outside party, or raised at it (R489, R492 to R494). -/
structure HostReply where
  party : Party
  data : List Byte
  ok : Bool
  /-- The physical address of a write that leaves the package (R480). -/
  addr : Option Nat := none
  deriving DecidableEq, Repr

/-- Physical memory (R70): bytes in canonical form; blocks whose descriptor copies are not both zero (R72);
blocks whose version bit is set, and poisoned blocks (R502). -/
structure Memory where
  cells : List Host.Cell
  descs : List (Nat × Nat × Nat)
  versions : List Nat
  poisoned : List Nat
  deriving DecidableEq, Repr

/-- The state of the device. inputs are the acts of outside parties, and steps in an order of their own
choosing, each taken in the cycle of its time after the steps that are due (log 3); issue is the issue group to be run next; sel is the
unit of the device's own step being taken; arb is the sub-core that arbitrates next; freeCtr counts free
values (log 4); nextId numbers requests, regions and commands. -/
structure State where
  cycle : Nat
  inputs : List Input
  issue : Option Issue
  sel : Sel
  arb : Nat
  freeCtr : Nat
  nextId : Nat
  cores : List (Nat × Core)
  net : Net
  mem : Memory
  sched : Sched
  pkg : Package
  hostOut : List HostReply
  deriving DecidableEq, Repr

/-- Why the machine stops. -/
inductive Fault where
  /-- Raised by the meaning of every instruction when the state holds no issue group for it: no sub-core has
  chosen one, so there is nothing to execute (R15). No step raises it. Safe: the device has no such step. -/
  | noIssueGroup
  deriving DecidableEq, Repr

/-- Why the model gives a row no meaning. -/
inductive Refusal where
  /-- Raised for a row that has no meaning yet. Safe: nothing follows from it. -/
  | notModelled (mnemonic : String)
  deriving DecidableEq, Repr

/-- Memory at reset: nothing listed (log 1), every descriptor 0x0000 (R72). -/
def Memory.reset : Memory := { cells := [], descs := [], versions := [], poisoned := [] }

/-- The state after reset: before power-on's bring-up (R487) nothing runs. A register whose value after reset the manual
does not give holds 0 (DESIGN CHOICE, unsafe, log 2). -/
def State.reset : State :=
  { cycle := 0, inputs := [], issue := none, sel := ⟨0, 0, 0⟩, arb := 0, freeCtr := 0, nextId := 1,
    cores := [], net := .reset, mem := .reset, sched := .reset, pkg := .reset, hostOut := [] }

end Sys2Proof.Machine
end

