-- ==== Sys2Proof/Machine/Table.lean ====
section
/-! DEFINITION. Sparse tables with a default, and the paths through the state to a core, a sub-core, a crew
slot, a group, a home: one reader and one writer for each. -/

namespace Sys2Proof.Machine

/-- The entry of a sparse table, or the default. -/
def tget {α : Type} (d : α) : List (Nat × α) → Nat → α
  | [], _ => d
  | (k, v) :: r, i => if k == i then v else tget d r i

/-- The table with an entry set; keys rise. -/
def tset {α : Type} : List (Nat × α) → Nat → α → List (Nat × α)
  | [], i, x => [(i, x)]
  | (k, v) :: r, i, x =>
    if k == i then (k, x) :: r else if i < k then (i, x) :: (k, v) :: r else (k, v) :: tset r i x

/-- The table without an entry. -/
def tdel {α : Type} : List (Nat × α) → Nat → List (Nat × α)
  | [], _ => []
  | (k, v) :: r, i => if k == i then r else (k, v) :: tdel r i

/-- The entry of a sparse table when it is listed. -/
def tfind {α : Type} : List (Nat × α) → Nat → Option α
  | [], _ => none
  | (k, v) :: r, i => if k == i then some v else tfind r i

/-- A list with its n-th element changed. -/
def modifyAt {α : Type} : List α → Nat → (α → α) → List α
  | [], _, _ => []
  | x :: r, 0, f => f x :: r
  | x :: r, n + 1, f => x :: modifyAt r n f

/-- The numbers below n. -/
def upTo (n : Nat) : List Nat := List.range n

/-- The core of a logical number. -/
def State.core (s : State) (c : Nat) : Core := tget Core.reset s.cores c

/-- The state with a core changed. -/
def State.modCore (s : State) (c : Nat) (f : Core → Core) : State :=
  { s with cores := tset s.cores c (f (s.core c)) }

/-- A sub-core of a core. -/
def Core.sub (k : Core) (b : Nat) : Sub := k.subs.getD b Sub.reset

/-- A sub-core. -/
def State.sub (s : State) (c b : Nat) : Sub := (s.core c).sub b

/-- The state with a sub-core changed. -/
def State.modSub (s : State) (c b : Nat) (f : Sub → Sub) : State :=
  s.modCore c (fun k => { k with subs := modifyAt k.subs b f })

/-- A crew slot of a sub-core. -/
def Sub.crew (b : Sub) (k : Nat) : Crew := b.crews.getD k Crew.idle

/-- A crew slot. -/
def State.crew (s : State) (r : CrewRef) : Crew := (s.sub r.core r.sub).crew r.slot

/-- The state with a crew slot changed. -/
def State.modCrew (s : State) (r : CrewRef) (f : Crew → Crew) : State :=
  s.modSub r.core r.sub (fun b => { b with crews := modifyAt b.crews r.slot f })

/-- What a crew slot keeps. -/
def State.keep (s : State) (r : CrewRef) : SlotKeep :=
  (s.sub r.core r.sub).keep.getD r.slot SlotKeep.reset

/-- The state with what a crew slot keeps changed. -/
def State.modKeep (s : State) (r : CrewRef) (f : SlotKeep → SlotKeep) : State :=
  s.modSub r.core r.sub (fun b => { b with keep := modifyAt b.keep r.slot f })

/-- A thread of a crew. -/
def Crew.thread (w : Crew) (l : Nat) : Thread := w.threads.getD l Thread.idle

/-- The crew with a thread changed. -/
def Crew.modThread (w : Crew) (l : Nat) (f : Thread → Thread) : Crew :=
  { w with threads := modifyAt w.threads l f }

/-- Each thread with its lane, changed where the lane is in the mask. -/
def mapLanes (m : Mask) (f : Nat → Thread → Thread) : Nat → List Thread → List Thread
  | _, [] => []
  | l, t :: r => (if m.getLsbD l then f l t else t) :: mapLanes m f (l + 1) r

/-- The crew with the threads of a mask changed. -/
def Crew.modLanes (w : Crew) (m : Mask) (f : Nat → Thread → Thread) : Crew :=
  { w with threads := mapLanes m f 0 w.threads }

/-- The group in a group slot. -/
def State.group (s : State) (c g : Nat) : Option Group := ((s.core c).groups.getD g none)

/-- The state with a group changed. -/
def State.modGroup (s : State) (c g : Nat) (f : Group → Group) : State :=
  s.modCore c (fun k => { k with groups := modifyAt k.groups g (Option.map f) })

/-- The home of a name. -/
def State.home (s : State) (h : HomeId) : Home :=
  match s.net.homes.find? (fun p => p.1 == h) with
  | some p => p.2
  | none => Home.reset

/-- The table of homes with one set. -/
def setHome (h : HomeId) (x : Home) : List (HomeId × Home) → List (HomeId × Home)
  | [] => [(h, x)]
  | p :: r => if p.1 == h then (h, x) :: r else p :: setHome h x r

/-- The state with a home changed. -/
def State.modHome (s : State) (h : HomeId) (f : Home → Home) : State :=
  { s with net := { s.net with homes := setHome h (f (s.home h)) s.net.homes } }

/-- A transaction in flight. -/
def State.tx (s : State) (id : Nat) : Option Tx := s.net.txs.find? (fun t => t.id == id)

/-- The state with a transaction changed. -/
def State.modTx (s : State) (id : Nat) (f : Tx → Tx) : State :=
  { s with net := { s.net with txs := s.net.txs.map (fun t => if t.id == id then f t else t) } }

/-- The state without a transaction. -/
def State.dropTx (s : State) (id : Nat) : State :=
  { s with net := { s.net with txs := s.net.txs.filter (fun t => t.id != id) } }

/-- A context (R412). -/
def State.context (s : State) (c : Nat) : Context := tget Context.reset s.sched.contexts c

/-- A launch-table entry. -/
def State.launch? (s : State) (l : Nat) : Option Launch := tfind s.sched.launches l

/-- The state with a launch changed. -/
def State.modLaunch (s : State) (l : Nat) (f : Launch → Launch) : State :=
  match s.launch? l with
  | some x => { s with sched := { s.sched with launches := tset s.sched.launches l (f x) } }
  | none => s

/-- A die's ports. -/
def State.die (s : State) (d : Nat) : DieState := tget DieState.reset s.sched.dies d

/-- The state with a die's ports changed. -/
def State.modDie (s : State) (d : Nat) (f : DieState → DieState) : State :=
  { s with sched := { s.sched with dies := tset s.sched.dies d (f (s.die d)) } }

/-- A fresh number for a request, a region or a command. -/
def State.fresh (s : State) : Nat × State := (s.nextId, { s with nextId := s.nextId + 1 })

/-- The state after a free value has been used (log 4). -/
def State.spend (s : State) : State := { s with freeCtr := s.freeCtr + 1 }

/-- The cycle counter of a core (R240, R395). -/
def State.clock (s : State) (c : Nat) : Nat := s.cycle - (s.core c).resetAt

end Sys2Proof.Machine
end

