-- ==== Sys2Proof/Machine/Arith.lean ====
section
/-! DEFINITION. Number formats and exact arithmetic with one rounding: decoding, sums, products, rounding in
the four modes, conversion with saturation, block scales (R118 to R140). -/

namespace Sys2Proof.Machine

/-- A floating-point format (R118): exponent and fraction bits, bias, whether it has infinities, and the NaN
code of a format that has NaN and no infinity (R120). -/
structure Fmt where
  eb : Nat
  fb : Nat
  bias : Nat
  inf : Bool
  nan : Option Nat
  deriving DecidableEq, Repr

/-- FP32 (R118). -/
def fp32 : Fmt := ⟨8, 23, 127, true, none⟩
/-- BF16 (R118). -/
def bf16 : Fmt := ⟨8, 7, 127, true, none⟩
/-- FP16 (R118). -/
def fp16 : Fmt := ⟨5, 10, 15, true, none⟩
/-- E5M2 (R118). -/
def e5m2 : Fmt := ⟨5, 2, 15, true, none⟩
/-- E4M3 (R118, R120). -/
def e4m3 : Fmt := ⟨4, 3, 7, false, some 0x7F⟩
/-- E3M2 (R118). -/
def e3m2 : Fmt := ⟨3, 2, 3, false, none⟩
/-- E2M3 (R118). -/
def e2m3 : Fmt := ⟨2, 3, 1, false, none⟩
/-- E2M1 (R118). -/
def e2m1 : Fmt := ⟨2, 1, 1, false, none⟩

/-- The format of a 3-bit code (R264). -/
def fmtOfCode (c : Nat) : Fmt :=
  match c with
  | 0 => fp32
  | 1 => bf16
  | 2 => fp16
  | 3 => e5m2
  | 4 => e4m3
  | 5 => e3m2
  | 6 => e2m3
  | _ => e2m1

/-- The width of a format in bits. -/
def Fmt.width (f : Fmt) : Nat := 1 + f.eb + f.fb

/-- The magnitude bits of a format. -/
def Fmt.magBits (f : Fmt) : Nat := f.eb + f.fb

/-- The code of the largest finite magnitude (R120). -/
def Fmt.maxCode (f : Fmt) : Nat :=
  if f.inf then (2 ^ f.eb - 1) * 2 ^ f.fb - 1
  else match f.nan with
    | some n => n - 1
    | none => 2 ^ f.magBits - 1

/-- The code of infinity's magnitude (R120). -/
def Fmt.infCode (f : Fmt) : Nat := (2 ^ f.eb - 1) * 2 ^ f.fb

/-- The canonical NaN; 0 for a format without NaN (R120, R137). -/
def Fmt.nanCode (f : Fmt) : Nat :=
  if f.inf then f.infCode + 2 ^ (f.fb - 1) else f.nan.getD 0

/-- A code with its sign bit. -/
def Fmt.signed (f : Fmt) (neg : Bool) (mag : Nat) : Nat := if neg then 2 ^ f.magBits + mag else mag

/-- An exact value: NaN, an infinity, or a finite number ±n × 2^e, whose sign a zero keeps (R119, R122). -/
inductive FVal where
  | nan
  | inf (neg : Bool)
  | fin (neg : Bool) (n : Nat) (e : Int)
  deriving DecidableEq, Repr

/-- The value of an encoding (R119, R120). -/
def Fmt.decode (f : Fmt) (x : Nat) : FVal :=
  let neg := bit x f.magBits
  let mag := x % 2 ^ f.magBits
  let e := mag / 2 ^ f.fb
  let m := mag % 2 ^ f.fb
  if f.maxCode < mag then
    if f.inf && mag == f.infCode then .inf neg else .nan
  else if e == 0 then .fin neg m (1 - (f.bias : Int) - f.fb)
  else .fin neg (2 ^ f.fb + m) ((e : Int) - f.bias - f.fb)

/-- The rounding modes of R129. -/
inductive Mode where
  | rn
  | rz
  | ru
  | rd
  deriving DecidableEq, Repr

/-- The mode of a 2-bit code (R129). -/
def modeOf (c : Nat) : Mode :=
  match c % 4 with
  | 0 => .rn
  | 1 => .rz
  | 2 => .ru
  | _ => .rd

/-- A quotient t with remainder r of divisor d rounds away from zero (R129). -/
def Mode.up (m : Mode) (neg : Bool) (t r d : Nat) : Bool :=
  match m with
  | .rn => decide (d < 2 * r) || (2 * r == d && t % 2 == 1)
  | .rz => false
  | .ru => r != 0 && !neg
  | .rd => r != 0 && neg

/-- A number n × 2^e over d as one fraction of naturals. -/
def fracOf (n d : Nat) (e : Int) : Nat × Nat :=
  if 0 ≤ e then (n * 2 ^ e.toNat, d) else (n, d * 2 ^ (-e).toNat)

/-- ⌊log2 (n / d)⌋ for positive n and d. -/
def floorLog (n d : Nat) : Int :=
  let k : Int := (Nat.log2 n : Int) - (Nat.log2 d : Int)
  let ok : Bool := if 0 ≤ k then decide (d * 2 ^ k.toNat ≤ n) else decide (d ≤ n * 2 ^ (-k).toNat)
  if ok then k else k - 1

/-- A positive number n × 2^e / d rounded to a format's precision with an unbounded exponent above, as a
magnitude code that may pass the largest (R130, R135). -/
def Fmt.roundMag (f : Fmt) (m : Mode) (neg : Bool) (n d : Nat) (e : Int) : Nat :=
  if n == 0 then 0
  else
    let k := floorLog n d + e
    let q : Int := max k (1 - (f.bias : Int)) - f.fb
    let p := fracOf n d (e - q)
    let t := p.1 / p.2
    let r := p.1 % p.2
    (q + f.fb + f.bias - 1).toNat * 2 ^ f.fb + (if m.up neg t r p.2 then t + 1 else t)

/-- Whether an overflow gives infinity (R130). -/
def Mode.toInf (m : Mode) (neg : Bool) : Bool :=
  match m with
  | .rn => true
  | .rz => false
  | .ru => !neg
  | .rd => neg

/-- A value rounded once to a format, under R130. -/
def Fmt.round (f : Fmt) (m : Mode) (v : FVal) : Nat :=
  match v with
  | .nan => f.nanCode
  | .inf neg => f.signed neg (if f.inf then f.infCode else f.maxCode)
  | .fin neg n e =>
    let c := f.roundMag m neg n 1 e
    if f.maxCode < c then f.signed neg (if f.inf && m.toInf neg then f.infCode else f.maxCode)
    else f.signed neg c

/-- The value with its sign flipped. -/
def FVal.neg (v : FVal) : FVal :=
  match v with
  | .nan => .nan
  | .inf s => .inf (!s)
  | .fin s n e => .fin (!s) n e

/-- A finite number as an integer at an exponent no greater than its own. -/
def atExp (neg : Bool) (n : Nat) (e k : Int) : Int :=
  let x : Int := (n * 2 ^ (e - k).toNat : Nat)
  if neg then -x else x

/-- The exact sum of two values; a zero from opposite signs is −0 only towards −∞ (R130). -/
def FVal.add (m : Mode) (a b : FVal) : FVal :=
  match a, b with
  | .nan, _ => .nan
  | _, .nan => .nan
  | .inf s, .inf t => if s == t then .inf s else .nan
  | .inf s, .fin _ _ _ => .inf s
  | .fin _ _ _, .inf t => .inf t
  | .fin s n e, .fin t k g =>
    let x := min e g
    let z := atExp s n e x + atExp t k g x
    if z == 0 then .fin (if n == 0 && k == 0 && s == t then s else m == .rd) 0 x
    else .fin (decide (z < 0)) z.natAbs x

/-- The exact product of two values; 0 × ∞ is NaN (R130). -/
def FVal.mul (a b : FVal) : FVal :=
  match a, b with
  | .nan, _ => .nan
  | _, .nan => .nan
  | .inf s, .inf t => .inf (s != t)
  | .inf s, .fin t n _ => if n == 0 then .nan else .inf (s != t)
  | .fin s n _, .inf t => if n == 0 then .nan else .inf (s != t)
  | .fin s n e, .fin t k g => .fin (s != t) (n * k) (e + g)

/-- An integer as a value. -/
def FVal.ofInt (x : Int) : FVal := .fin (decide (x < 0)) x.natAbs 0

/-- The value is NaN. -/
def FVal.isNan (v : FVal) : Bool := v == .nan

/-- The value is finite. -/
def FVal.isFin (v : FVal) : Bool :=
  match v with
  | .fin _ _ _ => true
  | _ => false

/-- The exact sum of finite values as an integer at an exponent. -/
def sumAt (k : Int) : List FVal → Int
  | [] => 0
  | .fin s n e :: r => atExp s n e k + sumAt k r
  | _ :: r => sumAt k r

/-- The least exponent of the finite values of a list. -/
def leastExp : List FVal → Int
  | [] => 0
  | .fin _ _ e :: r => min e (leastExp r)
  | _ :: r => leastExp r

/-- The exact sum of values as one k-step forms it (R132, R277): NaN on a NaN or on both infinities, an
infinity when one occurs, −0 only when every value is −0. -/
def kSum (l : List FVal) : FVal :=
  if l.any FVal.isNan || (l.contains (.inf true) && l.contains (.inf false)) then .nan
  else if l.contains (.inf true) then .inf true
  else if l.contains (.inf false) then .inf false
  else
    let k := leastExp l
    let z := sumAt k l
    if z == 0 then
      .fin (!l.isEmpty && l.all (fun v => match v with
        | .fin s n _ => s && n == 0
        | _ => false)) 0 k
    else .fin (decide (z < 0)) z.natAbs k

/-- n × 2^e ≤ k × 2^g. -/
def dyLe (n : Nat) (e : Int) (k : Nat) (g : Int) : Bool :=
  let x := min e g
  decide (n * 2 ^ (e - x).toNat ≤ k * 2 ^ (g - x).toNat)

/-- The order of two patterns of a format as numbers, −0 below +0 (R256). -/
def Fmt.key (f : Fmt) (x : Nat) : Int :=
  let mag : Int := (x % 2 ^ f.magBits : Nat)
  if bit x f.magBits then -mag - 1 else mag

/-- The order of two patterns of a format as numbers, with equal zeros (R122). -/
def Fmt.rank (f : Fmt) (x : Nat) : Int :=
  let mag : Int := (x % 2 ^ f.magBits : Nat)
  if bit x f.magBits then -mag else mag

/-- A pattern is a NaN (R120). -/
def Fmt.isNan (f : Fmt) (x : Nat) : Bool := (f.decode x).isNan

/-- A pattern with its sign flipped; a NaN stays a NaN (R255). -/
def Fmt.negate (f : Fmt) (x : Nat) : Nat :=
  if bit x f.magBits then x - 2 ^ f.magBits else x + 2 ^ f.magBits

/-- The counters of R142. -/
def statNan : Nat := 0
/-- The INF counter (R142). -/
def statInf : Nat := 1
/-- The SAT counter (R142). -/
def statSat : Nat := 2
/-- The FTZ counter (R142). -/
def statFtz : Nat := 3

/-- A positive or zero finite number n × 2^e / d converted to a narrower format (R135, R136), with the counter
it adds to (R142). -/
def Fmt.narrow (f : Fmt) (m : Mode) (nsat neg : Bool) (n d : Nat) (e : Int) : Nat × Option Nat :=
  let c := f.roundMag m neg n d e
  if f.maxCode < c then
    if nsat && f.inf && m.toInf neg then (f.signed neg f.infCode, some statInf)
    else if nsat && f.nan.isSome && m.toInf neg then (f.signed neg f.nanCode, some statNan)
    else (f.signed neg f.maxCode, some statSat)
  else (f.signed neg c, if c == 0 && n != 0 then some statFtz else none)

/-- A value over a divisor d × 2^g converted to a narrower format (R135 to R137), with the counter it adds to
(R142). -/
def Fmt.convert (f : Fmt) (m : Mode) (nsat : Bool) (d : Nat) (g : Int) (v : FVal) : Nat × Option Nat :=
  match v with
  | .nan => (f.nanCode, some statNan)
  | .inf neg =>
    if nsat && f.inf then (f.signed neg f.infCode, some statInf)
    else if nsat && f.nan.isSome then (f.signed neg f.nanCode, some statNan)
    else (f.signed neg f.maxCode, some statSat)
  | .fin neg n e => f.narrow m nsat neg n d (e - g)

/-- The exponent of a format's largest magnitudes. -/
def Fmt.topExp (f : Fmt) : Int :=
  (2 ^ f.eb - 1 - (if f.inf then 1 else 0) : Nat) - (f.bias : Int)

/-- Every finite value and infinity of the source is exact in the destination (R265). -/
def widening (src dst : Fmt) : Bool :=
  src == dst ||
  (decide (src.fb ≤ dst.fb) && decide (src.topExp ≤ dst.topExp) &&
    decide ((1 : Int) - dst.bias - dst.fb ≤ 1 - src.bias - src.fb) && (!src.inf || dst.inf))

/-- One value converted between two formats in a register (R265). -/
def convertReg (src dst : Fmt) (m : Mode) (nsat : Bool) (x : Nat) : Nat × Option Nat :=
  let v := src.decode (x % 2 ^ src.width)
  if widening src dst then
    if v.isNan then (dst.nanCode, some statNan) else (dst.round m v, none)
  else dst.convert m nsat 1 0 v

/-- The exact scale of an S9 descriptor field as (2 + SF) × 2^(SE − 128) (R123): multiplier and exponent. -/
def s9 (se sf : Nat) : Nat × Int := (2 + sf, (se : Int) - 128)

/-- The largest finite value of a format, as n × 2^e. -/
def Fmt.maxVal (f : Fmt) : Nat × Int :=
  match f.decode f.maxCode with
  | .fin _ n e => (n, e)
  | _ => (0, 0)

/-- The larger of two magnitudes n × 2^e. -/
def maxMag (a b : Nat × Int) : Nat × Int := if dyLe a.1 a.2 b.1 b.2 then b else a

/-- The largest magnitude among the finite values of a list. -/
def maxFinite : List FVal → Nat × Int
  | [] => (0, 0)
  | .fin _ n e :: r => maxMag (n, e) (maxFinite r)
  | _ :: r => maxFinite r

/-- The S9 scale chosen for values and an element format (R138), as SE and SF. -/
def chooseScale (f : Fmt) (vs : List FVal) : Nat × Nat :=
  let a := maxFinite vs
  if a.1 == 0 then (127, 0)
  else
    let top := f.maxVal
    match (upTo 510).find? (fun c => dyLe a.1 a.2 ((s9 (c / 2) (c % 2)).1 * top.1) ((s9 (c / 2) (c % 2)).2 + top.2)) with
    | some c => (c / 2, c % 2)
    | none => (254, 1)

/-- A magnitude n × 2^e rounded to an integer (R260, R261). -/
def roundInt (m : Mode) (neg : Bool) (n : Nat) (e : Int) : Nat :=
  let p := fracOf n 1 e
  let t := p.1 / p.2
  if m.up neg t (p.1 % p.2) p.2 then t + 1 else t

/-- An integer value over a scale converted to an asymmetric integer of n bits (R140), with the counter it adds
to. A scale that is zero, negative, infinite or NaN gives the zero point. What the zero result of the FTZ counter is, the
manual does not say: the model takes the rounded quotient 0, whose code is the zero point (R142, log 18). -/
def toAsym (m : Mode) (bits_ zp : Nat) (s v : FVal) : Nat × Option Nat :=
  let top : Int := (2 ^ bits_ - 1 : Nat)
  match s, v with
  | .fin false sn se, .fin neg n e =>
    if sn == 0 then (zp, some statNan)
    else
      let p := fracOf n sn (e - se)
      let t := p.1 / p.2
      let q : Nat := if m.up neg t (p.1 % p.2) p.2 then t + 1 else t
      let x : Int := (if neg then -(q : Int) else q) + zp
      if x < 0 then (0, some statSat) else if top < x then (top.toNat, some statSat)
      else (x.toNat, if q == 0 && n != 0 then some statFtz else none)
  | .fin false sn _, .inf neg =>
    if sn == 0 then (zp, some statNan) else if neg then (0, some statSat) else (top.toNat, some statSat)
  | _, _ => (zp, some statNan)

/-- The FP32 value of a word. -/
def fval (w : Word) : FVal := fp32.decode w.toNat

/-- The FP32 word of a value rounded in a mode. -/
def fword (m : Mode) (v : FVal) : Word := BitVec.ofNat 32 (fp32.round m v)

/-- The FP32 sum of two words rounded to nearest, as accumulators add (R132, R141). -/
def faddRN (a b : Word) : Word := fword .rn (FVal.add .rn (fval a) (fval b))

end Sys2Proof.Machine
end

