-- ==== Sys2Proof/Machine/Mem.lean ====
section
/-! DEFINITION. Memory in its one canonical form: bytes by address, block descriptors by block (R7, R72, R73). -/

namespace Sys2Proof.Machine

/-- The byte at an address (R7); a byte nothing has written reads as Config.unwritten (log 1). -/
def cellGet : List Host.Cell → Nat → Byte
  | [], _ => Config.unwritten
  | (a, v) :: r, i => if a == i then v else if i < a then Config.unwritten else cellGet r i

/-- The cells with a byte written. Writing what an unlisted address reads as removes the entry. -/
def cellPut : List Host.Cell → Nat → Byte → List Host.Cell
  | [], i, x => if x == Config.unwritten then [] else [(i, x)]
  | (a, v) :: r, i, x =>
    if a == i then (if x == Config.unwritten then r else (i, x) :: r)
    else if i < a then (if x == Config.unwritten then (a, v) :: r else (i, x) :: (a, v) :: r)
    else (a, v) :: cellPut r i x

/-- The canonical form: addresses strictly rise, and no entry equals what an unlisted address reads as. -/
def cellsWf : List Host.Cell → Bool
  | [] => true
  | [(_, v)] => v != Config.unwritten
  | (a, v) :: (b, w) :: r => v != Config.unwritten && decide (a < b) && cellsWf ((b, w) :: r)

/-- The bytes from an address on. -/
def cellsRead (m : List Host.Cell) (a : Nat) : Nat → List Byte
  | 0 => []
  | n + 1 => cellGet m a :: cellsRead m (a + 1) n

/-- The cells with bytes written from an address on. -/
def cellsWrite : List Host.Cell → Nat → List Byte → List Host.Cell
  | m, _, [] => m
  | m, a, b :: r => cellsWrite (cellPut m a b) (a + 1) r

/-- The two descriptor copies of a block (R73); 0x0000 where nothing is listed (R72). -/
def descGet : List (Nat × Nat × Nat) → Nat → Nat × Nat
  | [], _ => (0, 0)
  | (k, c) :: r, i => if k == i then c else descGet r i

/-- The descriptor table with a block's copies written. -/
def descPut : List (Nat × Nat × Nat) → Nat → Nat × Nat → List (Nat × Nat × Nat)
  | [], i, x => if x == (0, 0) then [] else [(i, x)]
  | (k, c) :: r, i, x =>
    if k == i then (if x == (0, 0) then r else (i, x) :: r)
    else if i < k then (if x == (0, 0) then (k, c) :: r else (i, x) :: (k, c) :: r)
    else (k, c) :: descPut r i x

/-- The form of the descriptor table: blocks strictly rise, and no entry is both copies zero. -/
def descsWf : List (Nat × Nat × Nat) → Bool
  | [] => true
  | [(_, c)] => c != (0, 0)
  | (a, c) :: (b, d) :: r => c != (0, 0) && decide (a < b) && descsWf ((b, d) :: r)

/-- A number's membership in a strictly rising list, changed. -/
def toggle : List Nat → Nat → List Nat
  | [], i => [i]
  | a :: r, i => if a == i then r else if i < a then i :: a :: r else a :: toggle r i

/-- A strictly rising list with a number added. -/
def insertUp : List Nat → Nat → List Nat
  | [], i => [i]
  | a :: r, i => if a == i then a :: r else if i < a then i :: a :: r else a :: insertUp r i

/-- Memory is in canonical form. -/
def Memory.wf (m : Memory) : Bool := cellsWf m.cells && descsWf m.descs

/-- The place n bytes further on. -/
def Loc.plus (p : Loc) (n : Nat) : Loc :=
  match p with
  | .mem a => .mem (a + n)
  | .scratch c o => .scratch c (o + n)

/-- The number of a place within its storage. -/
def Loc.num (p : Loc) : Nat :=
  match p with
  | .mem a => a
  | .scratch _ o => o

/-- The first byte of the aligned unit of n bytes that holds a place. -/
def Loc.align (p : Loc) (n : Nat) : Loc :=
  match p with
  | .mem a => .mem (a - a % n)
  | .scratch c o => .scratch c (o - o % n)

/-- The 128-byte line that holds a place. -/
def Loc.line (p : Loc) : Loc := p.align 128

/-- The 64-byte block that holds a place. -/
def Loc.block (p : Loc) : Loc := p.align 64

/-- Two places of n and k bytes share a byte. -/
def Loc.overlaps (p : Loc) (n : Nat) (q : Loc) (k : Nat) : Bool :=
  match p, q with
  | .mem a, .mem b => decide (a < b + k) && decide (b < a + n)
  | .scratch c a, .scratch d b => c == d && decide (a < b + k) && decide (b < a + n)
  | _, _ => false

/-- The bytes at a place, as its home holds them. -/
def State.bytesAt (s : State) (p : Loc) (n : Nat) : List Byte :=
  match p with
  | .mem a => cellsRead s.mem.cells a n
  | .scratch c o => cellsRead (s.core c).scratch o n

/-- The number whose little-endian bytes lie at a place (R7). -/
def State.numAt (s : State) (p : Loc) (n : Nat) : Nat := ofBytes (s.bytesAt p n)

/-- The descriptor copies of the block at a place. -/
def State.descAt (s : State) (p : Loc) : Nat × Nat :=
  match p with
  | .mem a => descGet s.mem.descs (a / 64)
  | .scratch c o => descGet (s.core c).descs (o / 64)

/-- The block at a place is marked poisoned (R502). -/
def State.poisoned (s : State) (p : Loc) : Bool :=
  match p with
  | .mem a => s.mem.poisoned.contains (a / 64)
  | .scratch _ _ => false

/-- The blocks that n bytes from an address touch. -/
def blocksOf (a n : Nat) : List Nat :=
  (upTo ((a + n - 1) / 64 - a / 64 + 1)).map (fun i => a / 64 + i)

/-- The state with bytes written at their home; the version bit of each block written flips (R502). -/
def State.putBytes (s : State) (p : Loc) (bs : List Byte) : State :=
  match p with
  | .mem a =>
    if bs.isEmpty then s
    else
      { s with mem := { s.mem with
          cells := cellsWrite s.mem.cells a bs
          versions := (blocksOf a bs.length).foldl toggle s.mem.versions } }
  | .scratch c o => s.modCore c (fun k => { k with scratch := cellsWrite k.scratch o bs })

/-- The state with both descriptor copies of a block written (R73). -/
def State.putDesc (s : State) (p : Loc) (d : Nat × Nat) : State :=
  match p with
  | .mem a => { s with mem := { s.mem with descs := descPut s.mem.descs (a / 64) d } }
  | .scratch c o => s.modCore c (fun k => { k with descs := descPut k.descs (o / 64) d })

end Sys2Proof.Machine
end

