-- ==== Sys2Proof/Machine/Map.lean ====
section
/-! DEFINITION. Where addresses lie: the region table, the logical map, homes, cells, routers and the latency
of each path (R60, R63, R70, R78 to R81, R384, R464 to R467, R480, R485). -/

namespace Sys2Proof.Machine

/-- The physical core of a logical core (R485). -/
def State.physCore (s : State) (c : Nat) : Nat :=
  bits ((s.pkg.regs.lmap.getD c 0).toNat) 9 0

/-- Logical core c and its vault work (R485). -/
def State.coreWorks (s : State) (c : Nat) : Bool :=
  c < 1024 && bit ((s.pkg.regs.lmap.getD c 0).toNat) 31

/-- The logical core on a physical core, if any. -/
def State.logicalCore (s : State) (p : Nat) : Option Nat :=
  (s.pkg.regs.lmap.take 1024).findIdx? (fun w => bit w.toNat 31 && bits w.toNat 9 0 == p)

/-- The die of a logical core (R4). On a part whose map is not the identity R4 does not say whether its formula takes the
logical number or the physical core that the map gives it (R485); the model takes the physical core (log 11). -/
def State.dieOf (s : State) (c : Nat) : Nat := s.physCore c / 128

/-- The physical cluster of a logical core: die × 32 + cluster, of its physical core (R4, log 11). -/
def State.clusterOf (s : State) (c : Nat) : Nat := s.physCore c / 4

/-- The logical core with a number within a cluster (R52). -/
def State.coreInCluster (s : State) (cluster n : Nat) : Option Nat := s.logicalCore (4 * cluster + n)

/-- The router of a cluster (R464). -/
def routerOfCluster (cl : Nat) : Nat :=
  let d := cl / 32
  let c := cl % 32
  16 * (8 * (d / 4) + c / 4) + (4 * (d % 4) + c % 4)

/-- The router of a logical core. -/
def State.routerOf (s : State) (c : Nat) : Nat := routerOfCluster (s.clusterOf c)

/-- Torus distance along one ring of 16 (R80). -/
def ringDist (a b : Nat) : Nat :=
  let d := if a ≤ b then b - a else a - b
  min d (16 - d)

/-- HOPS between routers (R80, R467). -/
def hops (a b : Nat) : Nat := ringDist (a % 16) (b % 16) + ringDist (a / 16) (b / 16)

/-- An entry of the region table, read (R483). -/
structure RegionEntry where
  base : Nat
  limit : Nat
  sockets : List Nat
  strideLog : Nat
  hm : Nat
  localBase : Nat
  deriving DecidableEq, Repr

/-- The fields of a region-table entry; none when it is not valid (R483). -/
def regionEntry (e : BitVec 256) : Option RegionEntry :=
  let x := e.toNat
  if bit x 0 then
    some { base := bits x 47 12 * 4096, limit := bits x 111 76 * 4096,
           sockets := (upTo (bits x 159 156)).map (fun i => 8 + bits x (160 + 4 * i + 3) (160 + 4 * i)),
           strideLog := bits x 155 151, hm := bits x 150 149, localBase := bits x 227 192 * 4096 }
  else none

/-- The region that holds a bulk address (R78). -/
def regionOf : List (BitVec 256) → Nat → Option RegionEntry
  | [], _ => none
  | e :: r, pa =>
    match regionEntry e with
    | some g => if decide (g.base ≤ pa) && decide (pa < g.limit) then some g else regionOf r pa
    | none => regionOf r pa

/-- The exclusive or of the n-bit pieces of a number, over at most fuel pieces (R78, R79). -/
def foldPieces (n : Nat) : Nat → Nat → Nat
  | 0, _ => 0
  | fuel + 1, x => if x == 0 then 0 else (x % 2 ^ n) ^^^ foldPieces n fuel (x / 2 ^ n)

/-- The socket of a bulk address and its byte within the socket (R78, R483). -/
def RegionEntry.place (g : RegionEntry) (pa : Nat) : Nat × Nat :=
  let off := pa - g.base
  let stride := 2 ^ g.strideLog
  let i := off / stride
  let k := 4 * g.hm
  let i' := if k == 0 then i else i ^^^ foldPieces k 64 (i / 2 ^ k)
  let n := g.sockets.length
  (g.sockets.getD (i' % n) 8, g.localBase + (i' / n) * stride + off % stride)

/-- The working slices in ascending order (R79, R485). -/
def State.slices (s : State) : List Nat :=
  (upTo 256).filter (fun n => s.pkg.regs.sliceMask.getLsbD n)

/-- The home slice of a bulk address (R79). -/
def State.homeSlice (s : State) (pa : Nat) (thg : Bool) : Nat :=
  let f := foldPieces 16 4 (pa / (if thg then 16384 else 128))
  let l := s.slices
  l.getD (f % l.length) 0

/-- What lies behind a physical address (R70, R480). -/
inductive Storage where
  | bulk
  | vaultSram (core : Nat)
  | vaultDram (core : Nat)
  | pcie (port : Nat)
  | package (k : Nat)
  deriving DecidableEq, Repr

/-- The storage a core or an engine reaches at a physical address; none is NOMAP (R70, R481, R494). -/
def State.storageAt (s : State) (pa : Nat) : Option Storage :=
  if pa < Config.bulkEnd then (regionOf s.pkg.regs.regions pa).map (fun _ => .bulk)
  else if 0x500000000000 ≤ pa && pa < 0x600000000000 then
    if (pa - 0x500000000000) / 0x40000000000 < 4 then some (.pcie ((pa - 0x500000000000) / 0x40000000000))
    else none
  else if 0x600000000000 ≤ pa && pa < 0x700000000000 then
    let k := (pa - 0x600000000000) / 0x10000000000
    if k == bits s.pkg.regs.pkgid.toNat 3 0 then none
    else if bits (s.pkg.regs.phoac.getD k 0).toNat 11 0 == 0 then none
    else some (.package k)
  else if Config.vaultBase ≤ pa && pa < Config.vaultBase + 1024 * Config.vaultSpan then
    let c := (pa - Config.vaultBase) / Config.vaultSpan
    let v := (pa - Config.vaultBase) % Config.vaultSpan
    if s.coreWorks c then
      if v < Config.vaultSram then some (.vaultSram c)
      else if v < Config.vaultLimit then some (.vaultDram c) else none
    else none
  else none

/-- The physical address of a vault offset (R70). -/
def vaultAddr (core v : Nat) : Nat := Config.vaultBase + core * Config.vaultSpan + v

/-- The bank and row of a vault DRAM address (R63). -/
def bankRow (pa : Nat) : Nat × Nat :=
  let d := (pa - Config.vaultBase) % Config.vaultSpan - Config.vaultSram
  (d / 2048 % 32, d / 2048 / 32)

/-- The Phoac port that carries a line to a package: the lines are striped over the ports of its route, taken here in
ascending order (R494, log 10). -/
def State.phoacPort (s : State) (k pa : Nat) : Nat :=
  let ports := (upTo 12).filter (fun j => bit (s.pkg.regs.phoac.getD k 0).toNat j)
  ports.getD (pa / 128 % ports.length) 0

/-- The home of a place (R81, R59). -/
def State.homeOf (s : State) (p : Loc) (thg : Bool) : HomeId :=
  match p with
  | .scratch c _ => .port c
  | .mem pa =>
    match s.storageAt pa with
    | some (.vaultSram c) => .vault c
    | some (.vaultDram c) => .vault c
    | some (.pcie r) => .outside r
    | some (.package k) => .outside (4 + 16 * s.phoacPort k pa + k)
    | _ => .slice (s.homeSlice pa thg)

/-- The cell of a home (R150); outside parties have none. -/
def State.cellOf (s : State) (h : HomeId) : Nat :=
  match h with
  | .slice n => 1024 + n
  | .vault c => s.physCore c
  | .port c => s.physCore c
  | .stack j => 1792 + j
  | .outside _ => 4095

/-- The I/O die, 0 or 1, through which an outside party is reached: root port r is 2 i + p and Phoac port j is 6 i + p of die
i (R466, R480). -/
def outsideDie (n : Nat) : Nat := if n < 4 then n / 2 else (n - 4) / 16 / 6

/-- The router of a home; of an outside party, the first that its I/O die attaches to (R465). -/
def State.homeRouter (s : State) (h : HomeId) : Nat :=
  match h with
  | .slice n => n
  | .vault c => s.routerOf c
  | .port c => s.routerOf c
  | .stack j => 16 * (15 * (j / 4)) + 4 * (j % 4)
  | .outside n => if outsideDie n == 0 then 112 else 136

/-- The routers that an I/O die attaches to (R465). -/
def dieRouters (die : Nat) : List Nat := (upTo 8).map (fun k => if die == 0 then 112 + k else 136 + k)

/-- The router at which a core's traffic with a home leaves the torus: the home's, or of an I/O die the attachment router in
the core's column, else the nearest, the lower x on a tie. R465 says so of the requests that the die sends; that both ways of
a core's access to an outside party take this router is the model's choice (log 10). -/
def State.endRouter (s : State) (core : Nat) (h : HomeId) : Nat :=
  match h with
  | .outside n =>
    let l := dieRouters (outsideDie n)
    let a := s.routerOf core
    (l.find? (fun r => r % 16 == a % 16)).getD
      (l.foldl (fun m r => if hops a r < hops a m then r else m) (l.getD 0 0))
  | _ => s.homeRouter h

/-- What the crossing to an outside party adds to a way of the next request: a free number of cycles (R479, log 10). -/
def State.crossing (s : State) (h : HomeId) : Nat :=
  match h with
  | .outside _ => Config.freeCrossing s.nextId
  | _ => 0

/-- Bytes as a party reads them now; an outside party's are free values (log 10). -/
def State.peek (s : State) (p : Loc) (n : Nat) : List Byte :=
  match s.homeOf p false with
  | .outside _ => (upTo n).map (fun i => Config.freeOutside s.freeCtr (p.num + i))
  | _ => s.bytesAt p n

/-- Whether a home tags its answers to a requester: every home but the core's own port and vault controller, a stack
controller to the slice it answers (R171), and no outside party (R175), nor a requester that is neither. -/
def taggedFor (h : HomeId) (core : Nat) : Bool :=
  match h with
  | .port c => decide (core < 1024) && c != core
  | .vault c => decide (core < 1024) && c != core
  | .slice _ => decide (core < 1024)
  | .stack _ => decide (1024 ≤ core) && decide (core < 1280)
  | .outside _ => false

/-- The home that holds the count of serials of a cell: a core's port and its vault controller share their cell's (R171). -/
def serialHome (h : HomeId) : HomeId :=
  match h with
  | .vault c => .port c
  | x => x

/-- Whether the row riser of a vault holds the row of an address open (R64). -/
def State.riserOpen (s : State) (core pa : Nat) : Bool :=
  match ((s.core core).banks.getD (bankRow pa).1 ⟨.closed, 0, 0⟩).state with
  | .open_ r => r == (bankRow pa).2
  | _ => false

/-- The round trip of a load from a core to the home of a place (R384). That of an outside party is not fixed (R479). -/
def State.loadLatency (s : State) (core : Nat) (p : Loc) (h : HomeId) : Nat :=
  let d := hops (s.routerOf core) (s.endRouter core h)
  match p with
  | .scratch c _ => if c == core then 24 else 40
  | .mem pa =>
    match s.storageAt pa with
    | some (.vaultSram c) => 48 + (if c == core then 0 else 16 + 6 * d)
    | some (.vaultDram c) =>
      (if s.riserOpen c pa then 60 else 110) + (if c == core then 0 else 16 + 6 * d)
    | some .bulk => if (s.home h).lines.any (fun l => l.line == pa / 128) then 78 + 6 * d else 420 + 6 * d
    | _ => 6 * d + 2 * s.crossing h

/-- The cycles from a write's release to its performing at a home (R386). That of an outside party is not fixed (R479). -/
def State.storeLatency (s : State) (core : Nat) (h : HomeId) : Nat :=
  8 + 3 * hops (s.routerOf core) (s.endRouter core h) + s.crossing h

end Sys2Proof.Machine
end

