-- ==== Sys2Proof/Machine/Translate.lean ====
section
/-! DEFINITION. Address forms, windows, the page walk and the checks of an access in the order of R71 (R50 to
R57, R62, R65 to R71). -/

namespace Sys2Proof.Machine

/-- The kinds of access; an engine's operands are checked as engine reads or writes (R71, R338). -/
inductive AccessKind where
  | load
  | store
  | atomic
  | fetch
  | engineRead
  | engineWrite
  deriving DecidableEq, Repr

/-- The access reads its bytes. -/
def AccessKind.reads : AccessKind → Bool
  | .load | .atomic | .engineRead => true
  | _ => false

/-- The access writes its bytes. -/
def AccessKind.writes : AccessKind → Bool
  | .store | .atomic | .engineWrite => true
  | _ => false

/-- The PAGEFAULT code of a kind (R295). -/
def AccessKind.faultCode : AccessKind → Nat
  | .load => 1
  | .store => 2
  | .atomic => 3
  | .fetch => 4
  | _ => 5

/-- A trap class with a cause code (R292, R295). -/
abbrev Cause := Nat × Nat

/-- MEMFAULT causes (R71). -/
def causeNoncanon : Cause := (1, 1)
/-- MEMFAULT WINDOW (R71). -/
def causeWindow : Cause := (1, 2)
/-- MEMFAULT BOUNDS (R71). -/
def causeBounds : Cause := (1, 3)
/-- MEMFAULT NOWINDOW (R71). -/
def causeNowindow : Cause := (1, 4)
/-- MEMFAULT NOWRITE (R71). -/
def causeNowrite : Cause := (1, 5)
/-- MEMFAULT VAULTOFF (R71). -/
def causeVaultoff : Cause := (1, 6)
/-- MEMFAULT BADPTE (R71). -/
def causeBadpte : Cause := (1, 7)
/-- MEMFAULT PERM (R71). -/
def causePerm : Cause := (1, 8)
/-- MEMFAULT NOMAP (R71). -/
def causeNomap : Cause := (1, 9)

/-- A completed walk (R65): where the leaf entry lies, the entry, the log of the page size, the physical
address, the addresses of the entries read, and what answered it: 0 the core's TLB, 1 its cluster's, 2 the walker (R68). -/
structure Walk where
  pteAddr : Nat
  pte : Nat
  shift : Nat
  pa : Nat
  read : List Nat
  level : Nat := 2
  deriving DecidableEq, Repr

/-- The page of a leaf entry (R66). -/
def pageOf (e : Nat) : Page :=
  { ord := bits e 9 8, cache := bits e 11 10, thg := bit e 51, wthru := bit e 12, epri := bits e 50 49 }

/-- A valid entry that R66 calls malformed at a level. -/
def malformed (level e : Nat) : Bool :=
  bits e 63 52 != 0 ||
  (if bit e 1 then
    level == 1 || bits e 11 10 == 3 || bits e 9 8 == 3 ||
      (level == 4 && bits e 15 13 != 0) || (level == 3 && bits e 25 13 != 0) ||
      (level == 2 && bits e 35 13 != 0)
  else level == 4 || bits e 51 48 != 0 || bits e 12 2 != 0)

/-- A page-table entry can be read at an address: it lies in a region or a working vault (R65). -/
def State.walkable (s : State) (pa : Nat) : Bool :=
  match s.storageAt pa with
  | some .bulk => true
  | some (.vaultSram _) => true
  | some (.vaultDram _) => true
  | _ => false

/-- The walk from a table on through the remaining levels (R65). -/
def State.walkFrom (s : State) (va code : Nat) : List Nat → Nat → List Nat → Except Cause Walk
  | [], _, _ => .error causeBadpte
  | k :: levels, tbl, seen =>
    let at_ := tbl + bits va (65 - 10 * k) (56 - 10 * k) * 8
    if !s.walkable at_ then .error causeNomap
    else
      let e := s.numAt (.mem at_) 8
      if !bit e 0 then .error (2, code)
      else if malformed k e then .error causeBadpte
      else if bit e 1 then
        let shift := 56 - 10 * k
        .ok { pteAddr := at_, pte := e, shift := shift,
              pa := bits e 47 13 * 8192 + va % 2 ^ shift, read := seen ++ [at_] }
      else s.walkFrom va code levels (bits e 47 13 * 8192) (seen ++ [at_])

/-- The walk of a context's page table (R65). code is the PAGEFAULT code of the access. -/
def State.walk (s : State) (ctx va code : Nat) : Except Cause Walk :=
  s.walkFrom va code [1, 2, 3, 4] (s.context ctx).root.toNat []

/-- The entry that a TLB keeps for an address. -/
def tlbFind (l : List TlbEntry) (ctx va : Nat) : Option TlbEntry :=
  l.find? (fun t => t.ctx == ctx && va / 2 ^ t.size == t.vpn)

/-- A cluster's second-level TLB (R68). -/
def State.clusterTlb (s : State) (cl : Nat) : ClusterTlb := tget ⟨[], 0⟩ s.net.tlbs cl

/-- What a core's TLB, else its cluster's, keeps for an address, with the level that holds it (R68). -/
def State.tlbHit (s : State) (core ctx va : Nat) : Option (TlbEntry × Nat) :=
  ((tlbFind (s.core core).tlb ctx va).map (fun t => (t, 0))).or
    ((tlbFind (s.clusterTlb (s.clusterOf core)).entries ctx va).map (fun t => (t, 1)))

/-- The translation an access uses. Where a TLB's entry and the table differ, either may be used, chosen
for each access (R68, log 14). read is empty when a TLB answers. -/
def State.translate (s : State) (core ctx va code : Nat) : Except Cause Walk :=
  match s.tlbHit core ctx va with
  | none => s.walk ctx va code
  | some (t, level) =>
    let kept : Walk :=
      { pteAddr := t.entry, pte := t.pte, shift := t.size,
        pa := bits t.pte 47 13 * 8192 + va % 2 ^ t.size, read := [], level := level }
    match s.walk ctx va code with
    | .ok w =>
      if w.pteAddr == t.entry && w.pte ||| 0xC0 == t.pte ||| 0xC0 then .ok kept
      else if Config.freeEntry (s.freeCtr + va) then .ok w else .ok kept
    | .error c => if Config.freeEntry (s.freeCtr + va) then .error c else .ok kept

/-- A resolved access: its place, its page, and the walk of a global address (R71). -/
structure Target where
  loc : Loc
  page : Page
  walk : Option Walk
  ownVault : Bool
  deriving DecidableEq, Repr

/-- The group of a crew, if it is no handler crew. -/
def State.groupOf (s : State) (r : CrewRef) : Option Group :=
  match (s.crew r).owner with
  | some o => match o.gslot with
    | some g => s.group r.core g
    | none => none
  | none => none

/-- The group slot of a crew, if it is no handler crew. -/
def State.gslotOf (s : State) (r : CrewRef) : Option Nat := (s.crew r).owner.bind (fun o => o.gslot)

/-- The context of a crew. -/
def State.ctxOf (s : State) (r : CrewRef) : Nat := ((s.crew r).owner.map (fun o => o.ctx)).getD 0

/-- The launch slot of a crew. -/
def State.lslotOf (s : State) (r : CrewRef) : Option Nat := (s.crew r).owner.map (fun o => o.lslot)

/-- The launch of a crew. -/
def State.launchOf (s : State) (r : CrewRef) : Option Launch :=
  match (s.crew r).owner with
  | some o => s.launch? o.lslot
  | none => none

/-- The threads of a group, T = GX × GY × GZ (R49). -/
def Launch.threads (l : Launch) : Nat := l.header.gx * l.header.gy * l.header.gz

/-- The global alias of a private offset (R49, R55). -/
def State.privAlias (s : State) (r : CrewRef) (lane off : Nat) : Option Nat :=
  match s.launchOf r, s.groupOf r, (s.crew r).owner with
  | some l, some g, some o =>
    some ((l.desc.privBase + (g.g * l.threads + (32 * o.index + lane)) * l.header.priv + off) % 2 ^ 64)
  | _, _, _ => none

/-- The vault mask of a context's partition includes a vault (R62, R413). -/
def State.vaultOn (s : State) (ctx core : Nat) : Bool :=
  match tfind s.sched.parts (s.context ctx).part with
  | some p => p.vaults.getLsbD core
  | none => false

/-- A window of the cluster's table, as a core's copy holds it (R52, R116). -/
def State.windowAt (s : State) (core owner gslot off : Nat) : Option Window :=
  (s.core core).windows.find? (fun w => w.core == owner && w.gslot == gslot && w.off == off - off % 128)

/-- Steps 4 to 6 of R71 for a global address: translation, permission, placement. -/
def State.resolveGlobal (s : State) (r : CrewRef) (kind : AccessKind) (va : Nat) : Except Cause Target :=
  match s.translate r.core (s.ctxOf r) va kind.faultCode with
  | .error c => .error c
  | .ok w =>
    if (kind.reads && !bit w.pte 2) || (kind.writes && !bit w.pte 3) || (kind == .fetch && !bit w.pte 4) ||
        (!(s.crew r).trapMode && !bit w.pte 5) then .error causePerm
    else if (s.storageAt w.pa).isNone then .error causeNomap
    else .ok { loc := .mem w.pa, page := pageOf w.pte, walk := some w, ownVault := false }

/-- The scratchpad of the crew's group from an offset on (R51, R52): BOUNDS, then NOWRITE where a peer
writes the window. -/
def State.resolveScratch (s : State) (r : CrewRef) (kind : AccessKind) (off size : Nat) :
    Except Cause Target :=
  match s.groupOf r, s.gslotOf r with
  | some g, some slot =>
    if g.scrLen < off + size then .error causeBounds
    else
      match (if kind.writes then s.windowAt r.core r.core slot off else none) with
      | some w =>
        if w.wcore == r.core && w.wslot == slot then
          .ok { loc := .scratch r.core (g.scrBase + off), page := .window, walk := none, ownVault := false }
        else .error causeNowrite
      | none =>
        .ok { loc := .scratch r.core (g.scrBase + off), page := .window, walk := none, ownVault := false }
  | _, _ => .error causeBounds

/-- A peer's scratchpad through the cluster window (R52). -/
def State.resolveCluster (s : State) (r : CrewRef) (kind : AccessKind) (off size : Nat) :
    Except Cause Target :=
  if bits off 40 19 != 0 then .error causeBounds
  else
    let ofs := bits off 18 0
    match s.coreInCluster (s.clusterOf r.core) (bits off 47 46) with
    | none => .error causeNowindow
    | some owner =>
      match s.group owner (bits off 45 41), s.windowAt r.core owner (bits off 45 41) ofs with
      | some g, some w =>
        if 128 < ofs % 128 + size then .error causeNowindow
        else if kind.writes && !(w.wcore == r.core && some w.wslot == s.gslotOf r) then .error causeNowrite
        else .ok { loc := .scratch owner (g.scrBase + ofs), page := .window, walk := none, ownVault := false }
      | _, _ => .error causeNowindow

/-- Steps 2 to 6 of R71 for one access of a lane. -/
def State.resolve (s : State) (r : CrewRef) (lane : Nat) (kind : AccessKind) (va size : Nat) :
    Except Cause Target :=
  if bits va 63 56 == 0 then s.resolveGlobal r kind va
  else if bits va 63 56 != 0xFF then .error causeNoncanon
  else
    let sel := bits va 55 48
    let off := bits va 47 0
    if sel == 0xFF then s.resolveScratch r kind off size
    else if sel == 0xFE then s.resolveCluster r kind off size
    else if sel == 0xFD then
      match s.launchOf r, s.privAlias r lane off with
      | some l, some a =>
        if l.header.priv < off + size then .error causeBounds
        else if bits a 63 56 != 0 then .error causeNoncanon
        else s.resolveGlobal r kind a
      | _, _ => .error causeBounds
    else if sel == 0xFC then
      if !s.vaultOn (s.ctxOf r) r.core then .error causeVaultoff
      else if Config.vaultLimit < off + size then .error causeBounds
      else .ok { loc := .mem (vaultAddr r.core off), page := .window, walk := none, ownVault := true }
    else .error causeWindow

/-- The fault of one lane's access: alignment first (R53), then the rest of R71. -/
def State.access (s : State) (r : CrewRef) (lane : Nat) (kind : AccessKind) (va size align : Nat) :
    Except Cause Target :=
  if va % align != 0 then .error (3, 1) else s.resolve r lane kind va size

end Sys2Proof.Machine
end

