-- ==== Sys2Proof/Machine/Crc.lean ====
section
/-! DEFINITION. CRC-32C, and the signatures formed with it (R95, R193, R454). -/

namespace Sys2Proof.Machine

/-- The reflected polynomial of CRC-32C. -/
def crcPoly : Nat := 0x82F63B78

/-- One bit of the CRC's register. -/
def crcBit (x : Nat) : Nat := if x % 2 == 1 then (x / 2) ^^^ crcPoly else x / 2

/-- One byte of the CRC. -/
def crcByte (x : Nat) (b : Byte) : Nat :=
  crcBit (crcBit (crcBit (crcBit (crcBit (crcBit (crcBit (crcBit (x ^^^ b.toNat))))))))

/-- The CRC register over bytes. -/
def crcFold : Nat → List Byte → Nat
  | x, [] => x
  | x, b :: r => crcFold (crcByte x b) r

/-- CRC-32C of bytes. -/
def crc32c (bs : List Byte) : Nat := crcFold 0xFFFFFFFF bs ^^^ 0xFFFFFFFF

/-- The three bit positions of a line (R95). -/
def sigPositions (pa : Nat) : List Nat :=
  let c := crc32c (toBytes 8 (pa / 128))
  [bits c 8 0, bits c 17 9, bits c 26 18]

/-- The bits of a line as a signature (R95). -/
def sigOfLine (pa : Nat) : Sig :=
  ⟨(sigPositions pa).foldl (fun b i => b ||| BitVec.ofNat 512 (2 ^ i)) 0, false⟩

/-- Two signatures together; invalidate-all absorbs (R95, R96, R98). -/
def Sig.or (a b : Sig) : Sig := ⟨a.bits ||| b.bits, a.all || b.all⟩

/-- A line matches a signature: all three of its bits are set, or it is invalidate-all (R97, R105). -/
def Sig.hits (g : Sig) (pa : Nat) : Bool := g.all || (sigPositions pa).all (fun i => g.bits.getLsbD i)

/-- The signature invalidate-all (R95). -/
def Sig.invalidateAll : Sig := ⟨0, true⟩

/-- The bits set in a signature (R96). -/
def Sig.count (g : Sig) : Nat := ((upTo 512).filter (fun i => g.bits.getLsbD i)).length

end Sys2Proof.Machine
end

