-- ==== Sys2Proof/Machine/Regs.lean ====
section
/-! DEFINITION. The register file: lanes of a register, content names and the name directory, the rename map
with its checkpoint credits, and outstanding results (R188 to R198). -/

namespace Sys2Proof.Machine

/-- A lane of a register's content. -/
def lane (c : Content) (l : Nat) : Word := c.getD l 0

/-- The content whose lanes a function gives. -/
def contentOf (f : Nat → Word) : Content := allLanes.map f

/-- The content with the lanes of a mask replaced (R192). -/
def mergeLanes (m : Mask) (new old : Content) : Content :=
  contentOf (fun l => if m.getLsbD l then lane new l else lane old l)

/-- The 128 bytes of a content, lane 0 first (R189, R193). -/
def contentBytes (c : Content) : List Byte := allLanes.flatMap (fun l => toBytes 4 (lane c l).toNat)

/-- The 24 hash bits of a content (R193). -/
def contentHash (c : Content) : Nat := crc32c (contentBytes c) % 2 ^ 24

/-- The register of an entry that no crew holds. -/
def PhysReg.none_ : PhysReg := { id := Config.physRegs, hash := 0, suffix := 3, content := zeroContent }

/-- The physical register of Gk (R191). -/
def Crew.reg (w : Crew) (k : Nat) : PhysReg := w.map.getD k PhysReg.none_

/-- The registers that a crew's map entries, its credits and the blocks it has given up but not yet returned reference
(R159, R195). -/
def Crew.live (w : Crew) : List PhysReg :=
  w.map ++ w.regions.flatMap (fun g => g.credits.map (fun c => c.2) ++ g.freed)

/-- The live registers of a sub-core (R194, R195). -/
def Sub.live (b : Sub) : List PhysReg := b.crews.flatMap Crew.live

/-- The lowest register number from i on that no live register has. The manual says only that the register is free; that
it is the lowest-numbered free one, which fixes its bank, is the model's choice (R194, R206, log 47). -/
def lowestFree (used : List PhysReg) : Nat → Nat → Nat
  | 0, i => i
  | fuel + 1, i => if used.any (fun p => p.id == i) then lowestFree used fuel (i + 1) else i

/-- The register a result is stored in: a live one of equal content, or a free one with the lowest free
suffix of its hash (R194). The second part tells that it is shared. -/
def Sub.register (b : Sub) (c : Content) : PhysReg × Bool :=
  let h := contentHash c
  let live := b.live
  match live.find? (fun p => p.hash == h && p.suffix != 3 && p.content == c) with
  | some p => (p, true)
  | none =>
    let taken := live.filter (fun p => p.hash == h)
    let suffix := (([0, 1, 2]).find? (fun x => taken.all (fun p => p.suffix != x))).getD 3
    ({ id := lowestFree live Config.physRegs 0, hash := h, suffix := suffix, content := c }, false)

/-- The register that replaces another in a map entry. With every register in use the one displaced gives way: without its
last reference it is free in the same cycle (R195, R198). -/
def Sub.replacement (b : Sub) (old : PhysReg) (c : Content) : PhysReg × Bool :=
  let p := b.register c
  (if p.1.id < Config.physRegs then p.1 else { p.1 with id := old.id }, p.2)

/-- The current region of a crew: the last of its list (R153). -/
def Crew.region (w : Crew) : Option Region := w.regions.getLast?

/-- The crew with its current region changed. -/
def Crew.modRegion (w : Crew) (f : Region → Region) : Crew :=
  { w with regions := modifyAt w.regions (w.regions.length - 1) f }

/-- The credits in use (R196). -/
def Crew.creditsUsed (w : Crew) : Nat := (w.regions.map (fun g => g.credits.length)).sum

/-- The credits a write of registers needs (R196): one for each distinct pinned entry. -/
def Crew.creditsFor (w : Crew) (ks : List Nat) : Nat :=
  ((ks.eraseDups).filter (fun k => w.pinned.getLsbD k)).length

/-- The crew after a register's credit has been taken, if its entry is pinned (R196). -/
def Crew.takeCredit (w : Crew) (k : Nat) : Crew :=
  if w.pinned.getLsbD k then
    { w.modRegion (fun g => { g with credits := g.credits ++ [(k, w.reg k)] }) with
      pinned := w.pinned &&& ~~~ (BitVec.ofNat 64 (2 ^ k)) }
  else w

/-- Lanes in which an older result due in a register is overtaken by a younger write (R191). Program order is each
thread's own, and a partial write leaves the other lanes their results (R192), so a result is overtaken lane by lane
(DEDUCED, log 8). -/
def LoadRec.overtake (k : Nat) (m : Mask) (q : LoadRec) : LoadRec :=
  { q with dst := q.dst.map (fun d => if d.1 == k then (d.1, d.2 &&& ~~~ m) else d) }

/-- The taint of a register in each lane, as a mask. -/
def Crew.taintOf (w : Crew) (k : Nat) : Mask := Mask.ofFn (fun l => (w.thread l).taint.getLsbD k)

/-- The crew with the taint of a register set in the lanes of a mask. -/
def Crew.setTaint (w : Crew) (k : Nat) (m t : Mask) : Crew :=
  w.modLanes m (fun l th =>
    { th with taint := if t.getLsbD l then th.taint ||| BitVec.ofNat 64 (2 ^ k)
                       else th.taint &&& ~~~ (BitVec.ofNat 64 (2 ^ k)) })

/-- Threads in which nothing is tainted have no consume signature (R103). -/
def Crew.clearConsume (w : Crew) (m : Mask) : Crew :=
  w.modLanes m (fun _ th => if th.taint == 0 then { th with consume := .empty } else th)

/-- The entries of the transposition table without those that name a register that has died (R195). -/
def Sub.purge (b : Sub) : Sub :=
  let live := b.live
  let alive := fun (n : Name) => live.any (fun p => p.hash == n.1 && p.suffix == n.2)
  { b with xpos := b.xpos.filter (fun e =>
      e.names.all alive && (e.prior.map alive).getD true && alive e.result) }

/-- The sub-core after a register may have died. -/
def Sub.purgeOne (b : Sub) (p : PhysReg) : Sub :=
  if b.live.contains p then b
  else
    let n := (p.hash, p.suffix)
    { b with xpos := b.xpos.filter (fun e => !(e.names.contains n) && e.prior != some n && e.result != n) }

/-- The sub-core with n performance events counted (R205, R508): 0 XPOS_HIT, 1 XPOS_MISS, 2 XPOS_FILL, 3 XPOS_EVICT,
4 NAME_SHARE, 5 NAME_UNNAMED, 6 CREDIT_WAIT, 7 BANK_LOSS, 8 ISSUE, 9 RELEASE_WAIT, 10 GAMBIT_ABORT, 11 XDIE_REQ,
12 XDIE_HOPS, 13 LOCAL_REQ, 14 QUEUE_OCC, 15 ENGINE_BUSY, 16 ROW_RETRY. -/
def Sub.countN (b : Sub) (i n : Nat) : Sub := { b with events := modifyAt b.events i (· + n) }

/-- The sub-core with one performance event counted. -/
def Sub.count (b : Sub) (i : Nat) : Sub := b.countN i 1

/-- The cycle in which a fixed-latency result of a register enters the write buffer; 0 is the present one, as for a result
that has just arrived (R206, R383). -/
def Sub.resultAt (b : Sub) (slot k : Nat) : Nat :=
  ((b.ready.find? (fun x => x.1 == slot && x.2.1 == k)).map (fun x => x.2.2)).getD 0

/-- A map entry replaced by a content, in a crew slot of a sub-core (R194): a content that no live register shares goes to
storage through the write buffer (R206). -/
def Sub.store (b : Sub) (slot k : Nat) (c : Content) : Sub :=
  let old := (b.crew slot).reg k
  let p := b.replacement old c
  let b1 : Sub := { b with
    crews := modifyAt b.crews slot (fun w => { w with map := modifyAt w.map k (fun _ => p.1) })
    writes := if p.2 then b.writes else b.writes ++ [{ id := p.1.id, since := b.resultAt slot k, takes := none }] }
  b1.purgeOne old

/-- The events of a write-back of a content (R205): it is shared, or its register is unnamed. -/
def Sub.countStore (b : Sub) (c : Content) : Sub :=
  let p := b.register c
  if p.2 then b.count 4 else if p.1.suffix == 3 then b.count 5 else b

/-- A register written in the lanes of a mask: its content (R192, R194), its taint, and the older results
overtaken (R191). Credits have been taken before. back: the write is a write-back, and not a transposition hit (R205). -/
def Sub.writeReg (b : Sub) (slot k : Nat) (m : Mask) (c : Content) (taint : Mask) (back : Bool := true) : Sub :=
  let x := mergeLanes m c ((b.crew slot).reg k).content
  let b1 := (if back then b.countStore x else b).store slot k x
  { b1 with crews := modifyAt b1.crews slot (fun w =>
      (({ w with loads := w.loads.map (LoadRec.overtake k m) }).setTaint k m taint).clearConsume m) }

/-- A register written by an instruction as it retires: takes a credit when its entry is pinned (R196). -/
def State.writeReg (s : State) (r : CrewRef) (k : Nat) (m : Mask) (c : Content) (taint : Mask) (back : Bool := true) :
    State :=
  (s.modCrew r (fun w => w.takeCredit k)).modSub r.core r.sub (fun b => b.writeReg r.slot k m c taint back)

/-- A destination selector written: 67 discards (R223). -/
def State.writeDst (s : State) (r : CrewRef) (d : Nat) (m : Mask) (c : Content) (taint : Mask) (back : Bool := true) :
    State :=
  if d < 64 then s.writeReg r d m c taint back else s

/-- A variable-latency result is due in a register and lane (R191). -/
def Crew.due (w : Crew) (k l : Nat) : Bool :=
  w.loads.any (fun q => q.dst.any (fun d => d.1 == k && d.2.getLsbD l))

/-- A variable-latency result is due in a register (R191). -/
def Crew.dueIn (w : Crew) (k : Nat) : Bool := w.loads.any (fun q => q.dst.any (fun d => d.1 == k && d.2 != 0))

/-- The word that a result due in a register and lane will give: the computed one, and otherwise the given one. -/
def Crew.dueWord (w : Crew) (k l : Nat) (x : Word) : Word :=
  match w.loads.reverse.find? (fun q => q.dst.any (fun d => d.1 == k && d.2.getLsbD l)) with
  | some q => (match q.kind with
    | .value c _ => lane c l
    | _ => x)
  | none => x

/-- A register as a lane reads it: where a result is due in it and no slot was waited for, either the old or the new
content of the whole register, by a free choice (R191, log 8). -/
def Crew.read (w : Crew) (ctr k l : Nat) : Word :=
  if w.dueIn k then
    match Config.pendingRead ctr k with
    | some c => if w.due k l then w.dueWord k l (lane c l) else lane (w.reg k).content l
    | none => lane (w.reg k).content l
  else lane (w.reg k).content l

/-- A whole register as an instruction reads it. -/
def Crew.readAll (w : Crew) (ctr k : Nat) : Content :=
  if w.loads.isEmpty then (w.reg k).content else contentOf (fun l => w.read ctr k l)

/-- A source selector that names no latch: a register, or zero for 67 (R223). -/
def Crew.source (w : Crew) (ctr sel : Nat) : Content :=
  if sel < 64 then w.readAll ctr sel else zeroContent

/-- The taint of a source selector that names no latch. -/
def Crew.sourceTaint (w : Crew) (sel : Nat) : Mask := if sel < 64 then w.taintOf sel else 0

/-- The 64-bit value of a pair in a lane; 67 is zero (R50, R223). -/
def Crew.pair (w : Crew) (ctr sel l : Nat) : Nat :=
  if sel < 64 then (w.read ctr sel l).toNat + 2 ^ 32 * (w.read ctr (sel + 1) l).toNat else 0

/-- Either register of a pair is tainted in a lane (R105). -/
def Crew.pairTaint (w : Crew) (sel : Nat) : Mask :=
  if sel < 64 then w.taintOf sel ||| w.taintOf (sel + 1) else 0

/-- The predicate of a lane; P31 reads as 1 (R10). -/
def Thread.pred (t : Thread) (n : Nat) : Bool := n == 31 || t.preds.getLsbD n

/-- The effective mask: participants whose predicate is true (R192). -/
def Crew.effective (w : Crew) (part : Mask) (pred : Nat) (pn : Bool) : Mask :=
  part &&& Mask.ofFn (fun l => (w.thread l).pred pred != pn)

/-- A predicate written in the lanes of a mask; a write to P31 is discarded (R10). -/
def Crew.setPred (w : Crew) (n : Nat) (m v : Mask) : Crew :=
  if n == 31 then w
  else w.modLanes m (fun l th =>
    { th with preds := if v.getLsbD l then th.preds ||| BitVec.ofNat 32 (2 ^ n)
                       else th.preds &&& ~~~ (BitVec.ofNat 32 (2 ^ n)) })

end Sys2Proof.Machine
end

