-- ==== Sys2Proof/Machine/Crews.lean ====
section
/-! DEFINITION. Crews: scoreboard setters, heads and snapshots, entries, the source of a thread's own
unreleased bytes, and the rollback of gambit lanes (R83, R153 to R156, R177 to R184, R211). -/

namespace Sys2Proof.Machine

/-- A scoreboard slot raised by one in the lanes of a mask (R211). slot 0 names none. -/
def Crew.raise (w : Crew) (slot : Nat) (m : Mask) : Crew :=
  if slot == 0 then w else w.modLanes m (fun _ t => { t with sb := modifyAt t.sb (slot - 1) (· + 1) })

/-- A scoreboard slot lowered by one in the lanes of a mask (R106). -/
def Crew.lower (w : Crew) (slot : Nat) (m : Mask) : Crew :=
  if slot == 0 then w else w.modLanes m (fun _ t => { t with sb := modifyAt t.sb (slot - 1) (· - 1) })

/-- The crew with a setter whose result is written in a known cycle (R106, R211). slot 0 names none. -/
def Crew.addTimed (w : Crew) (id slot : Nat) (m : Mask) (due : Nat) : Crew :=
  if slot == 0 then w
  else { w.raise slot m with setters := w.setters ++ [{ id := id, slot := slot, lanes := m, left := 1, due := some due }] }

/-- The crew with a setter of some unfinished parts; its slot is raised (R211). -/
def Crew.addSetter (w : Crew) (id slot : Nat) (m : Mask) (left : Nat) : Crew :=
  if left == 0 then w
  else { w.raise slot m with setters := w.setters ++ [{ id := id, slot := slot, lanes := m, left := left }] }

/-- The crew after n parts of a setter have finished; the slot clears with the last (R106). -/
def Crew.finish (w : Crew) (id n : Nat) : Crew :=
  match w.setters.find? (fun q => q.id == id) with
  | none => w
  | some q =>
    if q.left ≤ n then
      { w.lower q.slot q.lanes with setters := w.setters.filter (fun x => x.id != id) }
    else
      { w with setters := w.setters.map (fun x => if x.id == id then { x with left := x.left - n } else x) }

/-- The crew after the setters whose results have been written (R106). -/
def Crew.settersDue (w : Crew) (now : Nat) : Crew :=
  (w.setters.filter (fun q => match q.due with
    | some t => decide (t ≤ now)
    | none => false)).foldl (fun v q => v.finish q.id 1) w

/-- Every slot of a mask is 0 in every thread of a group (R211). -/
def Crew.slotsClear (w : Crew) (slots : BitVec 6) (m : Mask) : Bool :=
  m.lanes.all (fun l => (upTo 6).all (fun i => !slots.getLsbD i || (w.thread l).sb.getD i 0 == 0))

/-- A slot that one more setter would raise to 8 in some thread (R211). -/
def Crew.slotFull (w : Crew) (slot : Nat) (m : Mask) : Bool :=
  slot != 0 && m.lanes.any (fun l => 7 ≤ (w.thread l).sb.getD (slot - 1) 0)

/-- Every slot of every thread is 0 (R296). -/
def Crew.slotsZero (w : Crew) : Bool := w.threads.all (fun t => t.sb.all (· == 0))

/-- The quarantine entries in use (R156). -/
def Crew.entriesUsed (w : Crew) : Nat := (w.regions.map (fun g => g.entries)).sum

/-- The crew has room for one more snapshot (R155). -/
def Crew.canHead (w : Crew) : Bool := w.regions.length < Config.snapshots

/-- Nothing the crew has done is held, due or answered for: every region but its current, empty one has released (R444). -/
def Crew.drained (w : Crew) : Bool :=
  w.owner.isNone ||
    (w.regions.length ≤ 1 && w.regions.all (fun g => g.effects.isEmpty && g.entries == 0) && w.slotsZero &&
      w.loads.isEmpty && w.point.isNone && w.pendingTrap.isNone && w.dying.isNone && w.retired == 0 && !w.headDue)

/-- The lanes in gambit. -/
def Crew.inGambit (w : Crew) : Mask := (w.gambit.map (fun g => g.lanes)).getD 0

/-- The lanes whose thread is in state READY. -/
def Crew.readyLanes (w : Crew) : Mask := Mask.ofFn (fun l => (w.thread l).run == .ready)

/-- The lanes whose thread has not exited. -/
def Crew.aliveLanes (w : Crew) : Mask := Mask.ofFn (fun l => (w.thread l).run != .exited)

/-- The crew with the run state of the lanes of a mask set. -/
def Crew.setRun (w : Crew) (m : Mask) (q : RunState) : Crew := w.modLanes m (fun _ t => { t with run := q })

/-- The snapshot of the crew's present state (R154). -/
def Crew.snapshot (w : Crew) (side : SideBuffer) : Snapshot :=
  { map := w.map, ext := w.ext, preds := w.threads.map (fun t => t.preds),
    taint := w.threads.map (fun t => t.taint), consume := w.threads.map (fun t => t.consume), pcs := w.threads.map (fun t => t.pc),
    runs := w.threads.map (fun t => t.run), turn := w.turn, run := w.run, gambit := w.gambit,
    trapMode := w.trapMode, handling := w.handling, side := side, entry := none }

/-- A region that a head opens. -/
def Region.open_ (id cycle : Nat) (n : Snapshot) : Region :=
  { id := id, head := cycle, closed := none, effects := [], entries := 0, tags := [], credits := [], freed := [],
    stats := [], snapshot := n, last := false }

/-- The crew after a head has retired (R153, R154, R196): the current region closes, a snapshot is taken, every
map entry is pinned, and results still due are noted for the snapshot. -/
def Crew.head (w : Crew) (id cycle : Nat) (side : SideBuffer) : Crew :=
  let w1 := w.modRegion (fun g => { g with closed := some cycle })
  { w1 with
    regions := w1.regions ++ [Region.open_ id cycle (w.snapshot side)]
    pinned := BitVec.allOnes 64
    retired := 0
    loads := w.loads.map (fun q => { q with snaps := q.snaps ++ [(id, q.dst)] }) }

/-- The state after a crew has taken a head. -/
def State.head (s : State) (r : CrewRef) : State :=
  (s.fresh.2).modCrew r (fun w => w.head s.fresh.1 s.cycle (s.keep r).side)

/-- The crew with a held effect of some entries in its current region (R156). -/
def Crew.hold (w : Crew) (e : Effect) (n : Nat) : Crew :=
  w.modRegion (fun g => { g with effects := g.effects ++ [e], entries := g.entries + n })

/-- The crew with a pending tag in its current region (R157, R171). -/
def Crew.addTags (w : Crew) (ts : List Tag) : Crew :=
  if ts.isEmpty then w else w.modRegion (fun g => { g with tags := g.tags ++ ts })

/-- The crew with pending tags in a region, or in its oldest when that is gone. -/
def Crew.addTagsTo (w : Crew) (id : Nat) (ts : List Tag) : Crew :=
  { w with regions := w.regions.map (fun g => if g.id == id then { g with tags := g.tags ++ ts } else g) }

/-- The byte that one lane's write puts at a place, if it does. -/
def LaneWrite.byteAt (x : LaneWrite) (p : Loc) : Option Byte :=
  match x.loc, p with
  | .mem a, .mem b => if a ≤ b then x.bytes[b - a]? else none
  | .scratch c a, .scratch d b => if c == d && a ≤ b then x.bytes[b - a]? else none
  | _, _ => none

/-- The byte a store holds for a lane at a place: a lane's own write, or the block of a QNT that counts as its
own (R181). -/
def StoreEff.byteFor (e : StoreEff) (l : Nat) (p : Loc) : Option Byte :=
  (e.writes.filter (fun x => x.lane == l || (e.qnt && e.lanes.getLsbD l))).foldl
    (fun acc x => (x.byteAt p).or acc) none

/-- The stores a crew has not released, oldest first: held, then buffered in the gambit. -/
def Crew.unreleased (w : Crew) : List StoreEff :=
  w.regions.flatMap (fun g => g.effects.filterMap (fun e => match e with
    | .store x => some x
    | _ => none)) ++ (w.gambit.map (fun g => g.buffer)).getD []

/-- The youngest store of a thread to a byte among stores in program order. -/
def youngestByte (es : List StoreEff) (l : Nat) (p : Loc) : Option Byte := es.foldl (fun acc e => (e.byteFor l p).or acc) none

/-- The descriptor that a thread's youngest block store gives a block, among stores in program order. -/
def youngestDesc (es : List StoreEff) (l : Nat) (p : Loc) : Option Nat :=
  es.foldl (fun acc e => match e.desc with
    | some d => if (e.writes.any (fun x => (x.lane == l || (e.qnt && e.lanes.getLsbD l)) && x.loc == p.block))
        then some d else acc
    | none => acc) none

/-- Source 1 of R83: the youngest unreleased store of the same thread to a byte. -/
def Crew.ownByte (w : Crew) (l : Nat) (p : Loc) : Option Byte := youngestByte w.unreleased l p

/-- The unreleased stores that precede an engine command in program order; none is left once its region has released
(R108). -/
def Crew.storesBefore (w : Crew) (op : Nat) : List StoreEff :=
  let effects := w.regions.flatMap (fun g => g.effects)
  let mine := fun (e : Effect) => match e with
    | .engine _ k => k == op
    | _ => false
  if effects.any mine then
    (effects.takeWhile (fun e => !mine e)).filterMap (fun e => match e with
      | .store x => some x
      | _ => none)
  else []

/-- The lanes that abort together: those given, every in-gambit lane of a crew gambit, and the lanes recorded
with them in a buffered QNT (R181, R182). -/
def abortClosure (g : Gambit) : Nat → Mask → Mask
  | 0, ab => ab
  | n + 1, ab =>
    if g.crewKind then (if ab == 0 then 0 else g.lanes)
    else
      abortClosure g n
        (g.buffer.foldl (fun m e => if e.qnt && (e.lanes &&& m) != 0 then m ||| (e.lanes &&& g.lanes) else m)
          ab)

/-- A store without the bytes of the lanes of a mask. -/
def StoreEff.without (e : StoreEff) (ab : Mask) : StoreEff :=
  { e with writes := e.writes.filter (fun x => !(ab.getLsbD x.lane)), lanes := e.lanes &&& ~~~ ab }

/-- The gambit without the lanes of a mask: entries and records left with no lanes are freed (R183). -/
def Gambit.without (g : Gambit) (ab : Mask) : Gambit :=
  { g with
    lanes := g.lanes &&& ~~~ ab
    buffer := (g.buffer.map (fun e => if e.qnt then (if (e.lanes &&& ab) != 0 then { e with lanes := 0 } else e)
      else e.without ab)).filter (fun e => e.lanes != 0)
    records := (g.records.map (fun a => { a with lanes := a.lanes.filter (fun x => !(ab.getLsbD x.1)) })).filter
      (fun a => !a.lanes.isEmpty)
    counts := g.counts.filter (fun c => !(ab.getLsbD c.1)) }

/-- A result due in lanes that have been rolled back is discarded (R183). -/
def LoadRec.drop (ab : Mask) (q : LoadRec) : LoadRec :=
  { q with dst := q.dst.map (fun d => (d.1, d.2 &&& ~~~ ab)) }

/-- The registers in which two maps differ. -/
def changedRegs (now was : List PhysReg) : List Nat :=
  (upTo now.length).filter (fun k => now[k]? != was[k]?)

/-- The registers of lanes rolled back to a snapshot (R183). No credit is taken: the entries have been written
since (R196). -/
def Sub.rollback (b : Sub) (slot : Nat) (ab : Mask) (was : List PhysReg) : List Nat → Sub
  | [] => b
  | k :: ks =>
    Sub.rollback (b.store slot k (mergeLanes ab ((was.getD k PhysReg.none_).content) ((b.crew slot).reg k).content))
      slot ab was ks

/-- The code of an abort written to the code register (R183). When the entry is pinned and no credit is free, the lanes wait
for one in state RELEASE first (R197; that this write waits as any other does is DEDUCED, log 37). -/
def State.abortCode (s : State) (r : CrewRef) (ab : Mask) (k code : Nat) : State :=
  let w := s.crew r
  if w.pinned.getLsbD k && Config.credits ≤ w.creditsUsed then s.modCrew r (fun w => w.setRun ab (.release (.code k code)))
  else s.writeReg r k ab (contentOf (fun _ => BitVec.ofNat 32 code)) 0

/-- The lanes of a mask abort their gambit with a code (R183). The close of the gambit is a head (R184): it is
taken here when a snapshot is free, and else is due. -/
def State.abortLanes (s : State) (r : CrewRef) (lanes : Mask) (code : Nat) : State :=
  let w := s.crew r
  match w.gambit, w.region with
  | some g, some reg =>
    let ab := abortClosure g 32 (lanes &&& g.lanes)
    if ab == 0 then s
    else
      let snap := reg.snapshot
      let s1 := s.modSub r.core r.sub (fun b => b.rollback r.slot ab snap.map (changedRegs w.map snap.map))
      let s2 := s1.modCrew r (fun w =>
        { w.modLanes ab (fun l t =>
            { t with preds := snap.preds.getD l 0, taint := snap.taint.getD l 0, sb := [0, 0, 0, 0, 0, 0],
                     pc := g.fail, run := .ready }) with
          setters := w.setters.map (fun q => { q with lanes := q.lanes &&& ~~~ ab })
          loads := w.loads.map (LoadRec.drop ab)
          gambit := some (g.without ab) })
      let s3 := (s2.modSub r.core r.sub (fun b => b.countN 10 ab.lanes.length)).abortCode r ab g.code code
      if ((g.without ab).lanes) == 0 then
        let s5 := s3.modCrew r (fun w => { w with gambit := none })
        if (s5.crew r).canHead then s5.head r else s5.modCrew r (fun w => { w with headDue := true })
      else s3
  | _, _ => s

end Sys2Proof.Machine
end

