-- ==== Sys2Proof/Machine/Network.lean ====
section
/-! DEFINITION. The torus: routes, packets and their flits, the buffers of router inputs, the bubble rule, round-robin
grants, and the routers' counters (R393, R394, R464 to R470, R508). The order in which a cycle serves the outputs is the
model's (log 32). -/

namespace Sys2Proof.Machine

/-- The router outputs along one ring from a coordinate, in steps of one direction (R467). An output is 4 times its router
plus its direction: 0 to greater x, 1 to smaller x, 2 to greater y, 3 to smaller y. -/
def ringSteps (at_ : Nat → Nat) (up : Bool) : Nat → Nat → List Nat
  | 0, _ => []
  | n + 1, x => (at_ x + (if up then 0 else 1)) :: ringSteps at_ up n (if up then (x + 1) % 16 else (x + 15) % 16)

/-- The shorter direction along a ring, the increasing one when both are 8 hops long (R467). -/
def ringUp (a b : Nat) : Bool := (b + 16 - a) % 16 ≤ 8

/-- The router outputs on the route between two routers: along the row ring, then along the column ring (R467). -/
def routeOutputs (a b : Nat) : List Nat :=
  ringSteps (fun x => 4 * (16 * (a / 16) + x)) (ringUp (a % 16) (b % 16)) (ringDist (a % 16) (b % 16)) (a % 16) ++
  ringSteps (fun y => 4 * (16 * y + b % 16) + 2) (ringUp (a / 16) (b / 16)) (ringDist (a / 16) (b / 16)) (a / 16)

/-- The router that an output leads to: the rings are closed (R467). -/
def nextRouter (o : Nat) : Nat :=
  let r := o / 4
  let x := r % 16
  let y := r / 16
  match o % 4 with
  | 0 => 16 * y + (x + 1) % 16
  | 1 => 16 * y + (x + 15) % 16
  | 2 => 16 * ((y + 1) % 16) + x
  | _ => 16 * ((y + 15) % 16) + x

/-- A router input: 5 times the router, plus 0 for its local input (R465) or 1 + the direction of the ring it ends. -/
def Packet.router (p : Packet) : Nat := p.input / 5

/-- The packet waits at its router's local input: it has not entered a ring. -/
def Packet.isLocal (p : Packet) : Bool := p.input % 5 == 0

/-- The router output a packet takes next, with the output to its router's own units as the fifth (R508). -/
def Packet.wants (p : Packet) : Nat :=
  match p.route with
  | o :: _ => 5 * (o / 4) + o % 4
  | [] => 5 * p.router + 4

/-- The input a packet moves to. -/
def Packet.target (p : Packet) : Nat :=
  match p.route with
  | o :: _ => 5 * nextRouter o + 1 + o % 4
  | [] => 0

/-- The packet enters a ring with its next hop, by injection or by a turn, and does not merely continue in one (R469). -/
def Packet.enters (p : Packet) : Bool :=
  match p.route with
  | o :: _ => p.input % 5 != 1 + o % 4
  | [] => false

/-- The flits of a class that a router input holds (R469). -/
def flitsAt (l : List Packet) (input cls : Nat) : Nat :=
  (l.filter (fun p => p.input == input && p.cls == cls)).foldl (fun n p => n + p.flits) 0

/-- The downstream input has room: of its 8 flits 6 free to enter a ring, 3 to continue in it (R469). -/
def Packet.room (p : Packet) (l : List Packet) : Bool :=
  p.route.isEmpty || flitsAt l p.target p.cls + (if p.enters then 6 else 3) ≤ 8

/-- A port of Phoac: six on each I/O die (R466). -/
def isPhoacPort (port : Nat) : Bool := decide (80 ≤ port) && decide (port < 92)

/-- A link port, with its spare lanes unused (R476). -/
def State.port (s : State) (n : Nat) : LinkPort :=
  tget { spares := if isPhoacPort n then 1 else 4, remapped := [], failures := [], pausedUntil := 0, resendAt := none,
         discarding := false } s.net.ports n

/-- The cycle until which a port sends nothing: a remap's pause, or the resend after a failure (R473, R476). -/
def LinkPort.until (p : LinkPort) : Nat := max p.pausedUntil (p.resendAt.getD 0)

/-- The port between a router and the units of its compute die (R465, R466). -/
def diePort (router : Nat) : Nat := 8 * (router / 128 * 4 + router % 16 / 4) + router / 16 % 8

/-- The port between a router and a transaction's end: its home's, or its core's. An outside party's is that of its I/O die. -/
def Tx.port (t : Tx) (atHome : Bool) (router : Nat) : Nat :=
  match atHome, t.home with
  | true, .outside _ => if router / 16 == 7 then 72 else 73
  | _, _ => diePort router

/-- The port that a packet crosses: on its way into its first router, or out of its last. -/
def State.packetPort (s : State) (p : Packet) : Option Nat :=
  (s.tx p.tx).bind (fun t =>
    if p.isLocal then some (t.port p.reply p.router)
    else if p.route.isEmpty then some (t.port (!p.reply) p.router) else none)

/-- A packet is held by a port that sends nothing (R473, R476). -/
def State.portHolds (s : State) (p : Packet) : Bool :=
  ((s.packetPort p).map (fun n => decide (s.cycle < (s.port n).until))).getD false

/-- Two packets wait in one queue: the same router input and class and, at a local input, the same source (R465, R470). -/
def Packet.sameQueue (p q : Packet) : Bool := p.input == q.input && p.cls == q.cls && (!p.isLocal || p.src == q.src)

/-- The heads of the queues (R470). -/
def queueHeads : List Packet → List Packet → List Packet
  | _, [] => []
  | seen, p :: r => if seen.any (fun q => q.sameQueue p) then queueHeads (p :: seen) r else p :: queueHeads (p :: seen) r

/-- The packet may leave its input in the step that ends a cycle: a hop starts in the cycle, an ejection is complete in the
next. -/
def Packet.ready (p : Packet) (t : Nat) : Bool := if p.route.isEmpty then p.readyAt ≤ t + 1 else p.readyAt ≤ t

/-- A router. -/
def Net.router (n : Net) (r : Nat) : Router := tget Router.reset n.routers r

/-- The network with a router changed. -/
def Net.modRouter (n : Net) (r : Nat) (f : Router → Router) : Net := { n with routers := tset n.routers r (f (n.router r)) }

/-- The first packet at or after a place in round-robin order (R393, R465). -/
def roundRobin (place : Packet → Nat) (size turn : Nat) (l : List Packet) : Option Packet :=
  l.foldl (fun m p => match m with
    | some q => if (place p + size - turn % size) % size < (place q + size - turn % size) % size then some p else m
    | none => some p) none

/-- The packet that an output grants: round-robin among the router's inputs, and at the local input among its sources
(R393, R465). -/
def Router.grant (x : Router) (o : Nat) (l : List Packet) : Option Packet :=
  match roundRobin (fun p => p.input % 5) 5 (x.turns.getD (o % 5) 0) l with
  | none => none
  | some p => if p.isLocal then roundRobin (fun q => q.src) 8 x.source (l.filter Packet.isLocal) else some p

/-- A packet a hop further: 3 cycles later it may leave the next input (R467). -/
def Packet.hop (p : Packet) (t : Nat) : Packet := { p with input := p.target, route := p.route.drop 1, readyAt := t + 3 }

/-- A router that has granted an output to a packet. -/
def Router.granted (x : Router) (o : Nat) (p : Packet) : Router :=
  { x with
    forwarded := modifyAt x.forwarded (o % 5) (· + p.flits)
    turns := modifyAt x.turns (o % 5) (fun _ => (p.input % 5 + 1) % 5)
    source := if p.isLocal then (p.src + 1) % 8 else x.source }

/-- One output's grant at the end of a cycle, unless it carries a circuit's flit (R471): the packet takes its hop, or leaves the
network. -/
def Net.serveOutput (n : Net) (t o : Nat) (heads : List Packet) : List Packet × Net :=
  let busy := (n.router (o / 5)).flits.any (fun x => x == (o % 5, t))
  let mine := heads.filter (fun p => !busy && p.wants == o && p.ready t && p.room n.packets)
  match (n.router (o / 5)).grant o mine with
  | none => ([], n)
  | some p =>
    let n1 := n.modRouter (o / 5) (fun x => x.granted o p)
    if p.route.isEmpty then ([p], { n1 with packets := n1.packets.filter (fun q => q != p) })
    else ([], { n1 with packets := (n1.packets.filter (fun q => q != p)) ++ [p.hop t] })

/-- The routers whose local input holds a packet that the bubble rule keeps from its ring (R394, R469). -/
def stalledRouters (heads all : List Packet) (t : Nat) : List Nat :=
  ((heads.filter (fun p => p.isLocal && p.ready t && !p.room all)).map Packet.router).eraseDups

/-- A cycle of the torus: each output that a queue's head wants grants once; the answer also holds the packets that have
left the network. Packets that a port holds stay. -/
def Net.advance (n : Net) (t : Nat) (held : Packet → Bool) : List Packet × Net :=
  let heads := (queueHeads [] n.packets).filter (fun p => !held p)
  let n1 := (stalledRouters heads n.packets t).foldl (fun m r => m.modRouter r (fun x => { x with stalls := x.stalls + 1 })) n
  ((heads.map Packet.wants).eraseDups).foldl (fun acc o =>
    let q := acc.2.serveOutput t o heads
    (acc.1 ++ q.1, q.2)) ([], n1)

/-- A packet's transaction once it has left the network: what it lost on the way beyond 3 cycles a hop delays it. -/
def Packet.deliver (p : Packet) (now : Nat) (t : Tx) : Tx :=
  let late := now - (p.sent + 3 * p.dist)
  if p.reply then { t with dueAt := t.dueAt + late } else { t with serveAt := t.serveAt + late, dueAt := t.dueAt + late }

/-- The network at the end of a cycle. -/
def State.netTick (s : State) : State :=
  if s.net.packets.isEmpty then s
  else
    let q := s.net.advance s.cycle s.portHolds
    let s1 : State := { s with net := q.2 }
    q.1.foldl (fun st p => st.modTx p.tx (p.deliver (s.cycle + 1))) s1

/-- A message request. -/
def Req.isMessage (q : Req) : Bool :=
  match q with
  | .message _ _ _ _ => true
  | _ => false

/-- The flits of n bytes of data behind a header flit: at most two (R469). -/
def dataFlits (n : Nat) : Nat := 1 + min 2 ((n + 63) / 64)

/-- The flits of a request's packet (R469). -/
def Req.flits (q : Req) : Nat :=
  match q with
  | .read _ _ _ _ _ => 1
  | .write w => dataFlits (w.bytes.foldl (fun n b => n + b.2.length) 0)
  | .atomic e _ _ _ _ => dataFlits (e.lanes.length * e.size)
  | .message m _ _ _ => dataFlits (4 * m.payload.length)
  | .setup _ _ => 1

/-- The flits of an answer's packet (R469). -/
def Answer.flits (a : Answer) : Nat :=
  match a with
  | .line d _ _ _ => dataFlits d.length
  | .olds v _ _ _ => dataFlits (8 * v.length)
  | _ => 1

/-- The source on its router's local input that a core's packets come from (R465): its place in its cluster. -/
def State.sourceOf (s : State) (core : Nat) : Nat := s.physCore core % 4

/-- The source on its router's local input that a home's packets come from: 4 for the slice, 5 for a passenger. -/
def State.homeSource (s : State) (h : HomeId) : Nat :=
  match h with
  | .slice _ => 4
  | .vault c => s.sourceOf c
  | .port c => s.sourceOf c
  | _ => 5

/-- A packet put at its source's local input; between units of one router there is none. -/
def State.inject (s : State) (t : Tx) (reply : Bool) (flits : Nat) : State :=
  let a := s.routerOf t.core
  let b := s.endRouter t.core t.home
  let route := if reply then routeOutputs b a else routeOutputs a b
  if route.isEmpty then s
  else
    let p : Packet :=
      { tx := t.id, reply := reply, cls := if t.req.isMessage then 2 else if reply then 1 else 0, flits := flits,
        src := if reply then s.homeSource t.home else s.sourceOf t.core
        input := 5 * (if reply then b else a), route := route, readyAt := s.cycle, sent := s.cycle, dist := route.length }
    { s with net := { s.net with packets := s.net.packets ++ [p] } }

/-- The outputs that a circuit from one router to another takes, with the last router's to its own units, in the numbering
of Packet.wants (R471, log 40). -/
def circuitOutputs (a b : Nat) : List Nat := (routeOutputs a b).map (fun o => 5 * (o / 4) + o % 4) ++ [5 * b + 4]

/-- The cycles in which the flits of a transfer that starts in a cycle leave the k-th output of their circuit: each hop takes 1
cycle, and an output carries a circuit's flit in at most one cycle of two (R379, R471). -/
def flitCycles (start k flits : Nat) : List Nat := (upTo flits).map (fun j => start + k + 2 * j)

/-- An output has its cycles free for a transfer's flits (R471). -/
def Router.fits (x : Router) (o : Nat) (cycles : List Nat) : Bool :=
  cycles.all (fun c => !x.flits.any (fun y => y.1 == o && decide (c < y.2 + 2) && decide (y.2 < c + 2)))

/-- A circuit's flits cross its routers (R379, R471, R508). The answer holds the cycles that they wait for flits of another
transfer on an output they share. -/
def Net.crossCircuit (n : Net) (a b flits now : Nat) : Nat × Net :=
  let outs := circuitOutputs a b
  let late := ((upTo 1024).find? (fun d => (upTo outs.length).all (fun k =>
    let o := outs.getD k 0
    (n.router (o / 5)).fits (o % 5) (flitCycles (now + d) k flits)))).getD 1024
  (late, (upTo outs.length).foldl (fun (m : Net) k =>
    let o := outs.getD k 0
    m.modRouter (o / 5) (fun x =>
      { x with
        forwarded := modifyAt x.forwarded (o % 5) (· + flits), circuit := x.circuit + flits
        flits := x.flits.filter (fun y => decide (now < y.2 + 2)) ++ (flitCycles (now + late) k flits).map (fun c => (o % 5, c)) })) n)

/-- The request of a transaction is still on its way through the torus. -/
def State.travels (s : State) (t : Tx) (reply : Bool) : Bool := s.net.packets.any (fun p => p.tx == t.id && p.reply == reply)

/-- The requests that wait at the local input of a core's router (R508). -/
def State.queueOcc (s : State) (core : Nat) : Nat :=
  if s.net.packets.isEmpty then 0
  else (s.net.packets.filter (fun p => p.isLocal && p.cls == 0 && p.router == s.routerOf core)).length

/-- An answer given to a transaction, and its packet sent back (R81). -/
def State.answerTx (s : State) (t : Tx) (a : Answer) (f : Tx → Tx) : State :=
  (s.modTx t.id (fun x => { f x with answer := some a })).inject t true a.flits

end Sys2Proof.Machine
end

