-- ==== Sys2Proof/Machine/Homes.lean ====
section
/-! DEFINITION. Homes: what serving a read, applying a write and applying an atomic do at the unit that owns the
bytes, with tags, undo records, signature entries, exactly-once tables and subscriptions; the L1 copies and the
outgoing writes of a core (R81 to R86, R94 to R100, R112, R171, R172, R314 to R320, R475). -/

namespace Sys2Proof.Machine

/-- A refresh slot of a bank contains a cycle of the owning core's counter (R367). -/
def inRefresh (bank t : Nat) : Bool :=
  decide (Config.refreshStep * bank ≤ t % Config.refreshPeriod) &&
  decide (t % Config.refreshPeriod < Config.refreshStep * bank + Config.refreshLen)

/-- The first cycle after a refresh slot that contains a cycle (R367). -/
def afterRefresh (bank t : Nat) : Nat :=
  if inRefresh bank t then t - t % Config.refreshPeriod + Config.refreshStep * bank + Config.refreshLen else t

/-- The earliest start of an activation from a cycle on: after the earlier starts, outside the bank's refresh slot,
and with at most 3 starts in the 127 cycles before it (R365 to R367). -/
def activationStart (starts : List Nat) (bank : Nat) : Nat → Nat → Nat
  | 0, t => t
  | fuel + 1, t =>
    let t1 := afterRefresh bank t
    let held := starts.filter (fun x => decide (x ≤ t1) && decide (t1 < x + Config.activationWindow))
    if held.length < Config.activations then t1
    else activationStart starts bank fuel (held.foldl min t1 + Config.activationWindow)

/-- The starts of a vault's activations, made and planned. -/
def Core.activations (k : Core) : List Nat :=
  k.starts ++ k.banks.filterMap (fun b => match b.state with
    | .opening _ start _ false => some start
    | _ => none)

/-- A bank after an ordinary access to a row (R64, R371). now is the owning core's counter; an activation that has not
started starts once the access has released the bank. -/
def Bank.touch (b : Bank) (bank row now : Nat) (starts : List Nat) : Bank :=
  match b.state with
  | .open_ r => if r == row then b else { b with state := .lost, accessEnd := now + 24 }
  | .opening r start ready began =>
    if r == row then b
    else if !began then
      let s := activationStart (starts.erase start) bank 8 (max start (now + 24))
      { b with state := .opening r s (s + (ready - start)) false, accessEnd := now + 24 }
    else { b with state := .lost, accessEnd := now + 24 }
  | _ => { b with accessEnd := now + 24 }

/-- The state after an ordinary access to an address that lies in vault DRAM (R64). -/
def State.touchVault (s : State) (pa : Nat) : State :=
  match s.storageAt pa with
  | some (.vaultDram c) =>
    s.modCore c (fun k =>
      { k with banks := modifyAt k.banks (bankRow pa).1 (fun b =>
          b.touch (bankRow pa).1 (bankRow pa).2 (s.clock c) k.activations) })
  | _ => s

/-- An ordinary access to an address must wait: for the refresh slot, a transfer, the opening of its row, or, unless the riser
holds its row open, an ordinary access that holds the bank (R64, R367, R371, R392). -/
def State.vaultBusy (s : State) (pa : Nat) : Bool :=
  match s.storageAt pa with
  | some (.vaultDram c) =>
    let b := (s.core c).banks.getD (bankRow pa).1 ⟨.closed, 0, 0⟩
    inRefresh (bankRow pa).1 (s.clock c) || decide (s.clock c < b.transferEnd) ||
      (match b.state with
       | .opening r _ ready _ => r == (bankRow pa).2 && decide (s.clock c < ready) || decide (s.clock c < b.accessEnd)
       | .open_ r => r != (bankRow pa).2 && decide (s.clock c < b.accessEnd)
       | _ => decide (s.clock c < b.accessEnd))
  | _ => false

/-- The line of a place is in L1 (R84). Only memory is cached. -/
def Core.l1Line (k : Core) (p : Loc) : Option L1Line :=
  match p with
  | .mem a => k.l1.find? (fun x => x.line == a / 128)
  | .scratch _ _ => none

/-- The L1 without the lines that a test names; fills in flight for them are not installed (R84). -/
def State.l1Remove (s : State) (c : Nat) (hit : Nat → Bool) : State :=
  let s1 := s.modCore c (fun k => { k with l1 := k.l1.filter (fun x => !(hit x.line)) })
  { s1 with net := { s1.net with txs := s1.net.txs.map (fun t =>
      match t.req with
      | .read (.mem a) why inst past acq =>
        if t.core == c && inst && hit (a / 128) then { t with req := .read (.mem a) why false past acq } else t
      | _ => t) } }

/-- A line installed in L1; the least recently used line of a full set goes (R84, R511). -/
def State.l1Install (s : State) (c : Nat) (x : L1Line) : State :=
  s.modCore c (fun k =>
    let rest := k.l1.filter (fun y => y.line != x.line)
    let set := rest.filter (fun y => y.line % 128 == x.line % 128)
    let victim := set.foldl (fun (v : Option L1Line) y => match v with
      | none => some y
      | some z => if y.used < z.used then some y else some z) none
    let kept := if set.length < 8 then rest else rest.filter (fun y => some y.line != victim.map (fun v => v.line))
    { k with l1 := kept ++ [{ x with used := k.useClock }], useClock := k.useClock + 1 })

/-- Bytes of a line with a run of bytes put in at a place. -/
def overlay (line : Nat) (data : List Byte) (p : Loc) (bs : List Byte) : List Byte :=
  match p with
  | .mem a => (upTo 128).map (fun i =>
      if a ≤ 128 * line + i then (bs[128 * line + i - a]?).getD (data.getD i 0) else data.getD i 0)
  | .scratch _ _ => data

/-- A released store updates the core's L1 copy (R84, R86); it counts as a use (R511). -/
def State.l1Store (s : State) (c : Nat) (p : Loc) (bs : List Byte) : State :=
  match p with
  | .scratch _ _ => s
  | .mem a =>
    if (s.core c).l1.any (fun x => decide (128 * x.line < a + bs.length) && decide (a < 128 * x.line + 128)) then
      s.modCore c (fun k => { k with
        l1 := k.l1.map (fun x =>
          if decide (128 * x.line < a + bs.length) && decide (a < 128 * x.line + 128) then
            { x with data := overlay x.line x.data p bs, used := k.useClock } else x)
        useClock := k.useClock + 1 })
    else s

/-- A released descriptor-writing store updates the copy of the descriptors in L1 (R72, R86). -/
def State.l1Desc (s : State) (c : Nat) (p : Loc) (d : Nat) : State :=
  match p with
  | .scratch _ _ => s
  | .mem a => s.modCore c (fun k => { k with l1 := k.l1.map (fun x =>
      if x.line == a / 128 then { x with descs := modifyAt x.descs (a / 64 % 2) (fun _ => (d, d)) } else x) })

/-- The byte at a place in a list of runs, the later run first (R83). -/
def runByte (runs : List (Loc × List Byte)) (p : Loc) : Option Byte :=
  runs.foldl (fun acc x => (LaneWrite.byteAt ⟨0, x.1, x.2, Page.window⟩ p).or acc) none

/-- Source 2 of R83: the byte of the core's youngest outgoing write. -/
def State.outByte (s : State) (c : Nat) (p : Loc) : Option Byte :=
  s.net.txs.foldl (fun acc t => match t.req with
    | .write w => if t.core == c then (runByte w.bytes p).or acc else acc
    | _ => acc) none

/-- The core's youngest write to a byte that has left it and that its home has not performed (R108). -/
def State.goingByte (s : State) (c : Nat) (p : Loc) : Option Byte :=
  s.net.txs.foldl (fun acc t => match t.req with
    | .write w => if t.core == c && t.answer.isNone then (runByte w.bytes p).or acc else acc
    | _ => acc) none

/-- The descriptor of that core's youngest such write to a block. -/
def State.goingDesc (s : State) (c : Nat) (p : Loc) : Option Nat :=
  s.net.txs.foldl (fun acc t => match t.req with
    | .write w =>
      if t.core == c && t.answer.isNone then ((w.descs.find? (fun d => d.1 == p.block)).map (fun d => d.2)).or acc else acc
    | _ => acc) none

/-- The descriptor that the core's youngest outgoing descriptor-writing store gives a block. -/
def State.outDesc (s : State) (c : Nat) (p : Loc) : Option Nat :=
  s.net.txs.foldl (fun acc t => match t.req with
    | .write w => if t.core == c then ((w.descs.find? (fun d => d.1 == p.block)).map (fun d => d.2)).or acc else acc
    | _ => acc) none

/-- The descriptor that a thread's own youngest unreleased block store gives a block. -/
def Crew.ownDesc (w : Crew) (l : Nat) (p : Loc) : Option Nat := youngestDesc w.unreleased l p

/-- The signature entry of a line at its home; none is invalidate-all (R96). -/
def Home.entry (h : Home) (line : Loc) : Sig :=
  ((h.sigs.find? (fun e => e.line == line)).map (fun e => e.sig)).getD .invalidateAll

/-- The home after a release has brought a signature to a line (R96). What counts as a use of an entry the manual does not
say: the model counts the releases to it, and not an acquire's read (log 12). -/
def Home.release (h : Home) (line : Loc) (g : Sig) : Home :=
  let rest := h.sigs.filter (fun e => e.line != line)
  let joined := match h.sigs.find? (fun e => e.line == line) with
    | some e => e.sig.or g
    | none => g
  if joined.all || 256 < joined.count then { h with sigs := rest }
  else
    let oldest := rest.foldl (fun (m : Nat) e => min m e.used) h.sigClock
    let kept := if rest.length < 64 then rest else rest.filter (fun e => e.used != oldest)
    { h with sigs := kept ++ [{ line := line, sig := joined, used := h.sigClock }], sigClock := h.sigClock + 1 }

/-- The signature a core sends at a scope: 1 cluster, 2 device, 3 system (R95). -/
def Accumulators.signature (a : Accumulators) (scope : Nat) : Sig :=
  let i := if scope == 1 then a.cluster else if scope == 2 then a.device else a.system
  let j := i.or (a.e0.or (a.e1.or a.e2))
  if j.all then .invalidateAll else j

/-- The accumulators with the interval of a scope cleared (R95). -/
def Accumulators.clearScope (a : Accumulators) (scope : Nat) : Accumulators :=
  if scope == 1 then { a with cluster := .empty }
  else if scope == 2 then { a with device := .empty } else { a with system := .empty }

/-- A signature ORed into the interval accumulators and E0 (R95, R98). -/
def Accumulators.put (a : Accumulators) (g : Sig) : Accumulators :=
  { a with cluster := a.cluster.or g, device := a.device.or g, system := a.system.or g, e0 := a.e0.or g }

/-- What invalidate-all or a fence sets: the all marks of the interval accumulators and of E0 (R98). -/
def Accumulators.receive (a : Accumulators) (g : Sig) : Accumulators :=
  if g.all then a.put ⟨0, true⟩ else a.put g

/-- A core's accumulators after the acknowledgement of a write to a place (R95): scratchpad sets nothing. -/
def State.acked (s : State) (c : Nat) (p : Loc) : State :=
  match p with
  | .mem a => s.modCore c (fun k => { k with acc := k.acc.put (sigOfLine a) })
  | .scratch _ _ => s

/-- A response recorded at a home, with its pending tag where the requester gets one (R171, R172). -/
def State.respond (s : State) (h : HomeId) (x : Response) : Option Tag × State :=
  match h with
  | .outside _ => (none, s)
  | _ =>
    let n := (s.home (serialHome h)).serial
    let tagged := taggedFor h x.core
    (if tagged then some ⟨s.cellOf h, n⟩ else none,
     (s.modHome (serialHome h) (fun y => { y with serial := (n + 1) % 2 ^ 20 })).modHome h (fun y => { y with
       responses := y.responses ++ [{ x with serial := n, tagged := tagged, served := s.cycle }] }))

/-- A response before its home fills in its serial and time. -/
def Response.for_ (core due : Nat) (u : Undo) : Response :=
  { serial := 0, core := core, tagged := false, tx := none, write := none, undo := u, served := 0, due := due,
    fill := none, updates := [] }

/-! ### Lines of a slice -/

/-- The sets of an L2 slice (log 31). -/
def l2Sets : Nat := 2 ^ (Config.l2SetBits % 14)

/-- The ways of a set: 1 MiB is 8192 lines (R58). -/
def l2Ways : Nat := 8192 / l2Sets

/-- The bulk stack that holds a line (R78). -/
def State.stackOf (s : State) (line : Nat) : Option Nat :=
  (regionOf s.pkg.regs.regions (128 * line)).map (fun g => (g.place (128 * line)).1 - 8)

/-- A stack controller's answer to a slice, with its tag (R171). -/
def State.stackAnswer (s : State) (slice line : Nat) : Option Tag × State :=
  match s.stackOf line with
  | some j => s.respond (.stack j) (Response.for_ (1024 + slice) s.cycle .none)
  | none => (none, s)

/-- The slice with a line changed. -/
def State.modLine (s : State) (slice line : Nat) (f : L2Line → L2Line) : State :=
  s.modHome (.slice slice) (fun h => { h with lines := h.lines.map (fun x => if x.line == line then f x else x) })

/-- A line leaves its slice, and with it its signature entry (R96). -/
def State.l2Drop (s : State) (slice line : Nat) : State :=
  s.modHome (.slice slice) (fun h =>
    { h with lines := h.lines.filter (fun x => x.line != line), sigs := h.sigs.filter (fun e => e.line != .mem (128 * line)) })

/-- A slice writes a line back to its stack (R174, R323): it keeps the line until the controller's clear, after which one that
is leaving goes. -/
def State.l2WriteBack (s : State) (slice line : Nat) (leave : Bool) : State :=
  let q := s.stackAnswer slice line
  q.2.modLine slice line (fun x => { x with dirty := false, back := q.1, leaving := x.leaving || leave })

/-- The line of a set that gives way: of the lowest priority, the least recently used (R67). -/
def l2Victim (l : List L2Line) : Option L2Line :=
  l.foldl (fun m x => match m with
    | some y => if x.prio < y.prio || (x.prio == y.prio && x.used < y.used) then some x else m
    | none => some x) none

/-- Room made in the set of a line (R58, R67): a dirty victim is written back first. -/
def State.l2Evict (s : State) (slice line : Nat) : State :=
  let set := (s.home (.slice slice)).lines.filter (fun x => x.line % l2Sets == line % l2Sets && !x.leaving)
  if set.isEmpty || decide (set.length < l2Ways) then s
  else
    match l2Victim set with
    | some v =>
      if v.dirty then s.l2WriteBack slice v.line true
      else if v.back.isSome then s.modLine slice v.line (fun x => { x with leaving := true })
      else s.l2Drop slice v.line
    | none => s

/-- A slice's use of a bulk line by an access through a page (R66, R67, R312): a line it lacks is fetched from its stack, and
kept where the page lets L2 hold it; a write makes it dirty, or is written through. The answer is the stack's tag that the
slice's own response rests on (R174). -/
def State.l2Use (s : State) (h : HomeId) (p : Loc) (page : Page) (write : Bool) : Option Tag × State :=
  match h, p with
  | .slice n, .mem a =>
    let line := a / 128
    let through := write && (page.wthru || page.cache == 2)
    match (s.home h).lines.find? (fun x => x.line == line) with
    | some x =>
      let s1 := (s.modLine n line (fun y =>
        { y with dirty := y.dirty || (write && !through), prio := if write then page.epri else y.prio,
                 used := (s.home h).lineClock })).modHome h (fun y => { y with lineClock := y.lineClock + 1 })
      (x.fill, if through then s1.l2WriteBack n line false else s1)
    | none =>
      let q := s.stackAnswer n line
      if page.cache == 2 then q
      else
        let s1 := (q.2.l2Evict n line).modHome h (fun y =>
          { y with lineClock := y.lineClock + 1
                   lines := y.lines ++ [{ line := line, dirty := write && !through, prio := page.epri, used := y.lineClock,
                                          fill := q.1, back := none, leaving := false }] })
        (q.1, if through then s1.l2WriteBack n line false else s1)
  | _, _ => (none, s)

/-- The stack's tag that a line of a slice still rests on (R174). -/
def State.fillTag (s : State) (h : HomeId) (p : Loc) : Option Tag :=
  match p with
  | .mem a => ((s.home h).lines.find? (fun x => x.line == a / 128)).bind (fun x => x.fill)
  | .scratch _ _ => none

/-- What an ordinary access does at a place's home beside its bytes (R64, R67): vault rows and lines of a slice. -/
def State.reach (s : State) (h : HomeId) (p : Loc) (page : Page) (write : Bool) : Option Tag × State :=
  match p with
  | .mem a => (s.touchVault a).l2Use h p page write
  | .scratch _ _ => (none, s)

/-! ### Writes -/

/-- The groups of a core. -/
def State.groupsOf (s : State) (core : Nat) : List Group := (s.core core).groups.filterMap id

/-- Bytes at a place touch a bound barrier object (R311, R331). -/
def State.touchesObject (s : State) (p : Loc) (n : Nat) : Bool :=
  match p with
  | .mem _ => false
  | .scratch c off => (s.groupsOf c).any (fun g => g.barriers.any (fun b =>
      Loc.overlaps (.scratch c off) n (.scratch c (g.scrBase + b)) 16))

/-- A run of bytes without those of bound barrier objects (R324, R331), cut into runs. -/
def State.outsideObjects (s : State) (p : Loc) (bs : List Byte) : List (Loc × List Byte) :=
  if s.touchesObject p bs.length then
    ((upTo bs.length).filter (fun k => !s.touchesObject (p.plus k) 1)).map (fun k => (p.plus k, (bs.drop k).take 1))
  else [(p, bs)]

/-- The crews of a core whose gambit holds an advance record in a line of scratchpad, other than a given crew, abort
the lanes that hold it (R180). -/
def State.scratchConflict (s : State) (core off len : Nat) (by_ : CrewRef) : State :=
  let hit := fun (p : Loc) => match p with
    | .scratch c o => c == core && decide (o / 128 * 128 < off + len) && decide (off < o / 128 * 128 + 128)
    | .mem _ => false
  let refs := (upTo 4).flatMap (fun b => (upTo 8).map (fun k => (⟨core, b, k⟩ : CrewRef)))
  refs.foldl (fun st r =>
    if r == by_ then st
    else match (st.crew r).gambit with
      | some g =>
        let m := g.records.foldl (fun (m : Mask) a =>
          if a.lanes.any (fun x => hit x.2.1) then m ||| Mask.ofFn (fun l => a.lanes.any (fun x => x.1 == l)) else m)
          (0 : Mask)
        if m == 0 then st else st.abortLanes r m 8
      | none => st) s

/-- The bytes of a run that lie in lines of a range part. -/
def RangePart.shared (p : RangePart) (a : Nat) (bs : List Byte) : List (Nat × List Byte) :=
  p.lines.filterMap (fun l =>
    let lo := max a l
    let hi := min (a + bs.length) (l + 128)
    if lo < hi then some (lo, (bs.drop (lo - a)).take (hi - lo)) else none)

/-- The range parts of a home that a run of bytes touches, with the shared bytes (R112). -/
def Home.touched (h : Home) (a : Nat) (bs : List Byte) : List (Nat × List (Nat × List Byte)) :=
  (upTo h.parts.length).filterMap (fun i => (h.parts[i]?).bind (fun p =>
    if (p.shared a bs).isEmpty then none else some (i, p.shared a bs)))

/-- The hops of an update's packet from its home to a subscriber, by way of the subscribers whose routers follow the home's
before it (R472). -/
def State.legHops (s : State) (h : HomeId) (core : Nat) (all : List Nat) : Nat :=
  let o := s.homeRouter h
  ((upTo ((s.routerOf core + 256 - o) % 256 + 1)).foldl (fun (x : Nat × Nat) k =>
    let r := (o + k) % 256
    if all.any (fun c => s.routerOf c == r) then (r, x.2 + hops x.1 r) else x) (o, 0)).2

/-- The updates that a performed write makes for the subscribers of its home (R112): each takes the next number of
its part. One packet brings them, along its legs (R472, log 48). -/
def State.publish (s : State) (h : HomeId) (p : Loc) (bs : List Byte) : List Nat × State :=
  match p with
  | .scratch _ _ => ([], s)
  | .mem a =>
    let hit := (s.home h).touched a bs
    let all := hit.filterMap (fun t => ((s.home h).parts[t.1]?).map (fun q => q.core))
    hit.foldl (fun acc t =>
      let st := acc.2
      match (st.home h).parts[t.1]? with
      | none => acc
      | some q =>
        let u : Update :=
          { id := st.nextId, home := h, core := q.core, gslot := q.gslot, sub := q.sub, part := q.part,
            seq := q.next, runs := t.2, cleared := false, sent := false, due := 0
            detour := 3 * (s.legHops h q.core all - hops (s.homeRouter h) (s.routerOf q.core)), applied := false, nacked := false }
        let st1 := (st.fresh).2.modHome h (fun x =>
          { x with parts := modifyAt x.parts t.1 (fun y => { y with next := (y.next + 1) % 2 ^ 32 }) })
        (acc.1 ++ [u.id], { st1 with net := { st1.net with updates := st1.net.updates ++ [u] } })) ([], s)

/-- The counters of a home's range parts. -/
def Home.counters (h : Home) : List (Nat × Nat) :=
  (upTo h.parts.length).map (fun i => (i, ((h.parts[i]?).map (fun p => p.next)).getD 0))

/-- What raced an operation that has ended, or a group's, is needed no longer. -/
def State.forgetRaced (s : State) (p : Raced → Bool) : State :=
  { s with net := { s.net with raced := s.net.raced.filter (fun x => !p x) } }

/-- A write by a party outside its group settles what an engine operation reads at the bytes: the present ones (R108). -/
def State.settleRaced (s : State) (by_ : CrewRef) (p : Loc) (n : Nat) : State :=
  { s with net := { s.net with raced := s.net.raced.filter (fun x =>
      (x.core == by_.core && s.gslotOf by_ == some x.gslot) || !Loc.overlaps p n x.loc 1) } }

/-- One run of bytes applied at its home, with what it changed (R82): vault rows, lines of a slice, other crews' advance
records and subscriptions follow. Bytes of a bound barrier object stay (R324). -/
def State.putRun (s : State) (h : HomeId) (by_ : CrewRef) (page : Page) (p : Loc) (bs : List Byte) : List Nat × State :=
  let s1 := (match p with
    | .mem _ => ((s.putBytes p bs).reach h p page true).2
    | .scratch c o =>
      ((s.outsideObjects p bs).foldl (fun (st : State) (x : Loc × List Byte) => st.putBytes x.1 x.2) s).scratchConflict c o bs.length by_)
  (s1.settleRaced by_ p bs.length).publish h p bs

/-- A write that leaves the package (R175, R493, R494). -/
def State.sendOut (s : State) (p : Loc) (bs : List Byte) : State :=
  { s.spend with hostOut := s.hostOut ++ [{ party := .other, data := bs, ok := true, addr := some p.num }] }

/-- A write applied at its home (R82, R94, R96): its runs in order, its descriptors, and the signature it brings to
the line of its first byte. The answer holds what it changed and the updates it made. -/
def State.applyWrite (s : State) (h : HomeId) (w : WriteReq) (sig : Option Sig) : Undo × List Nat × State :=
  match h with
  | .outside _ => (.none, [], w.bytes.foldl (fun st b => st.sendOut b.1 b.2) s)
  | _ =>
    let before := s.home h
    let oldB := (w.bytes.map (fun b => (b.1, s.bytesAt b.1 b.2.length)))
    let oldD := w.descs.map (fun d => (d.1, s.descAt d.1))
    let r1 := w.bytes.foldl (fun (acc : List Nat × State) b =>
      let r := acc.2.putRun h w.crew w.page b.1 b.2
      (acc.1 ++ r.1, r.2)) ([], s)
    let s2 := w.descs.foldl (fun (st : State) d => st.putDesc d.1 (d.2, d.2)) r1.2
    let s3 := match sig, w.bytes.head? with
      | some g, some b => s2.modHome h (fun x => x.release b.1.line g)
      | _, _ => s2
    ({ bytes := oldB.reverse, descs := oldD.reverse, sigs := some before.sigs, counters := before.counters },
     r1.1, s3)

/-- A write performed at once and recorded with its undo record and the answer that rests on it: outside parties (R175,
R492). -/
def State.writeFor (s : State) (h : HomeId) (w : WriteReq) (reply : Option HeldReply) : State :=
  let r := s.applyWrite h w none
  (r.2.2.respond h { Response.for_ w.crew.core (s.cycle + 8) r.1 with
    write := some w, updates := r.2.1, fill := (w.bytes.head?).bind (fun b => r.2.2.fillTag h b.1), reply := reply }).2

/-- A write performed at once and recorded with its undo record: engine landings and queue engines (R108, R492). -/
def State.writeNow (s : State) (h : HomeId) (w : WriteReq) : State := s.writeFor h w none

/-- The function of an atomic on an old value of size bytes (R314); none is a comparison that fails. -/
def atomNew (fn size old v cmp : Nat) : Option Nat :=
  let n := 8 * size
  let m := 2 ^ n
  let lt : Bool := decide (signed n old < signed n v)
  match fn with
  | 0x00 => some ((old + v) % m)
  | 0x01 => some (if lt then old else v)
  | 0x02 => some (min old v)
  | 0x03 => some (if lt then v else old)
  | 0x04 => some (max old v)
  | 0x05 => some (old &&& v)
  | 0x06 => some (old ||| v)
  | 0x07 => some (old ^^^ v)
  | 0x08 => some v
  | 0x09 => if old == cmp then some v else none
  | 0x10 => some (fp32.round .rn (FVal.add .rn (fp32.decode old) (fp32.decode v)))
  | _ => some v

/-- The format of a pair sum (R314). -/
def pairFmt (fn : Nat) : Fmt := if fn == 0x11 then bf16 else fp16

/-- The function code is a pair sum, applied in two steps (R315). -/
def isPair (fn : Nat) : Bool := fn == 0x11 || fn == 0x12

/-- The counter that an FP sum adds to (R141, R142). -/
def sumStat (f : Fmt) (x : Nat) : Option Nat :=
  match f.decode x with
  | .nan => some statNan
  | .inf _ => some statInf
  | .fin _ _ _ => none

/-- The sum of one half of a pair (R131, R141). -/
def halfSum (fn x v : Nat) : Nat :=
  let f := pairFmt fn
  f.round .rn (FVal.add .rn (f.decode x) (f.decode v))

/-- One lane's step of an atomic at its home: 0 the whole word, 1 the low half of a pair, 2 the high half. The answer
holds the old value read, the new value if one is written, and the counts. -/
def atomStep (fn size tid step old v cmp : Nat) : Option Nat × List StatAdd :=
  let add := fun (k : Option Nat) => (k.map (fun i => (⟨tid, i, 1⟩ : StatAdd))).toList
  if step == 1 then
    let lo := halfSum fn (old % 65536) (v % 65536)
    (some (old / 65536 * 65536 + lo), add (sumStat (pairFmt fn) lo))
  else if step == 2 then
    let hi := halfSum fn (old / 65536) (v / 65536)
    (some (hi * 65536 + old % 65536), add (sumStat (pairFmt fn) hi))
  else
    let n := atomNew fn size old v cmp
    (n, if fn == 0x10 then add (sumStat fp32 (n.getD 0)) else [])

/-- What a read of a block with its descriptor copies fails on, as a DATAERR code: the copies differ, or it is damaged (R73,
R76, R339). -/
def State.blockFault (s : State) (descs : Nat × Nat) (p : Loc) : Option Nat :=
  if descs.1 != descs.2 then some 1 else if s.poisoned p then some 4 else none

/-- What an atomic's lanes have done at their home: old values, failed lanes, counts, old bytes latest first, updates. -/
structure AtomDone where
  olds : List (Nat × Nat)
  bad : List (Nat × Nat)
  stats : List StatAdd
  runs : List (Loc × List Byte)
  updates : List Nat
  state : State

/-- A lane's atomic writes a value at its home, and the requesting core's own L1 copy (R59); what an outside party holds
leaves the package. The answer holds the updates it made. -/
def State.atomWrite (s : State) (h : HomeId) (by_ : CrewRef) (page : Page) (p : Loc) (bs : List Byte) : List Nat × State :=
  match h with
  | .outside _ => ([], s.sendOut p bs)
  | _ =>
    let r := s.putRun h by_ page p bs
    (r.1, r.2.l1Store by_.core p bs)

/-- The lanes of an atomic applied at a home in ascending lane order (R315). A lane whose block cannot be read fails and
changes nothing (R71 step 7, log 44). -/
def State.atomLanes (s : State) (h : HomeId) (e : AtomEff) (by_ : CrewRef) (step : Nat) : List AtomLane → AtomDone
  | [] => ⟨[], [], [], [], [], s⟩
  | x :: r =>
    match s.blockFault (s.descAt x.loc.block) x.loc.block with
    | some c =>
      let rest := State.atomLanes (s.reach h x.loc x.page false).2 h e by_ step r
      { rest with bad := (x.lane, c) :: rest.bad }
    | none =>
      let old := ofBytes (s.peek x.loc e.size)
      let n := atomStep e.fn e.size e.tid step old x.v x.cmp
      let w := match n.1 with
        | some v => s.atomWrite h by_ x.page x.loc (toBytes e.size v)
        | none => ([], (s.reach h x.loc x.page false).2)
      let rest := State.atomLanes w.2 h e by_ step r
      { rest with
        olds := (x.lane, old) :: rest.olds, stats := n.2 ++ rest.stats, runs := rest.runs ++ [(x.loc, s.bytesAt x.loc e.size)]
        updates := w.1 ++ rest.updates }

/-- The kept results of a requester's last 64 requests with one more (R318, R475). -/
def keepLast (l : List Kept) (x : Kept) : List Kept :=
  let mine := l.filter (fun k => k.core == x.core)
  (if mine.length < 64 then l
   else match mine.head? with
     | some o => l.erase o
     | none => l) ++ [x]

/-- A home's lost mark of a core counted down by one performed atomic (R319). -/
def lostStep (core : Nat) (l : List (Nat × Nat)) : List (Nat × Nat) :=
  (l.map (fun x => if x.1 == core then (x.1, x.2 - 1) else x)).filter (fun x => x.2 != 0)

/-- A home's tables of R318 and R475 are lost (R319, R475, R477). -/
def Home.lose (h : Home) : Home :=
  { h with atoms := [], writes := [], lost := (upTo 1024).map (fun c => (c, 64)) }

/-- The table is marked lost for a requester (R319). -/
def Home.isLost (h : Home) (core : Nat) : Bool := h.lost.any (fun x => x.1 == core)

/-- The signature part of an ordered atomic at its home: it receives the entry of its line and releases to it the signature
it carries (R100). The answer holds the entry when it acquires. -/
def State.atomSig (s : State) (h : HomeId) (e : AtomEff) (sig : Option Sig) (returning : Bool) : Option Sig × State :=
  match sig, e.lanes.head? with
  | some g, some x =>
    (if returning then some ((s.home h).entry x.loc.line) else none, s.modHome h (fun y => y.release x.loc.line g))
  | _, _ => (none, s)

/-- The undo record of a home's update from the state before it. -/
def State.undoOf (s : State) (h : HomeId) (runs : List (Loc × List Byte)) : Undo :=
  { bytes := runs, descs := [], sigs := some (s.home h).sigs, counters := (s.home h).counters }

/-- An update reversed (R172). The updates it had made for subscribers go. -/
def State.revert (s : State) (h : HomeId) (x : Response) : State :=
  let s1 := x.undo.bytes.foldl (fun (st : State) b => st.putBytes b.1 b.2) s
  let s2 := x.undo.descs.foldl (fun (st : State) d => st.putDesc d.1 d.2) s1
  let s3 := s2.modHome h (fun y => { y with
    sigs := x.undo.sigs.getD y.sigs
    parts := x.undo.counters.foldl (fun ps c => modifyAt ps c.1 (fun p => { p with next := c.2 })) y.parts })
  { s3 with net := { s3.net with updates := s3.net.updates.filter (fun u => !(x.updates.contains u.id)) } }

/-- The data of the line at a place as its home holds it; an outside party's data is a free value (log 10). -/
def State.lineData (s : State) (h : HomeId) (p : Loc) : List Byte × State :=
  match h with
  | .outside _ => (s.peek p.line 128, s.spend)
  | _ => (s.bytesAt p.line 128, s)

/-- A home supplies the line of a place (R81): data, both blocks' descriptor copies, poison marks. -/
def State.lineAnswer (s : State) (h : HomeId) (p : Loc) (acq : Bool) : Answer × State :=
  let d := s.lineData h p
  let l := p.line
  (.line d.1 [s.descAt l, s.descAt (l.plus 64)] [s.poisoned l, s.poisoned (l.plus 64)]
     (if acq then some ((s.home h).entry l) else none), d.2)

/-- A line with the core's outgoing writes to it that their homes have not applied: bytes, then descriptors (R83, R84). -/
def State.withOutgoing (s : State) (core line : Nat) (l : List Byte × List (Nat × Nat)) : List Byte × List (Nat × Nat) :=
  s.net.txs.foldl (fun (d : List Byte × List (Nat × Nat)) u => match u.req with
    | .write w =>
      if u.core == core && u.answer.isNone then
        (w.bytes.foldl (fun x b => overlay line x b.1 b.2) d.1,
         w.descs.foldl (fun x e => match e.1 with
           | .mem a => if a / 128 == line then modifyAt x (a / 64 % 2) (fun _ => (e.2, e.2)) else x
           | .scratch _ _ => x) d.2)
      else d
    | _ => d) l

/-- The copy of a line that the L1 of a core takes, brought up to date with the core's later stores (R84). -/
def State.l1Fill (s : State) (core line sent : Nat) (data : List Byte) (descs : List (Nat × Nat)) (tag : Option Tag) : State :=
  let d := s.withOutgoing core line (data, descs)
  s.l1Install core { line := line, data := d.1, descs := d.2, filled := sent, served := s.cycle, tag := tag, used := 0 }

/-- The cycle in which the answer of a request served now is due: as much later as the home took it late. -/
def Tx.answerAt (t : Tx) (now : Nat) : Nat := t.dueAt + (now - t.serveAt)

/-- A transaction served as a read (R81, R171): its answer, its tag, and the copy that L1 takes. A load past L1 replaces a
copy that L1 holds by then (R84). -/
def State.serveRead (s : State) (t : Tx) (p : Loc) (install past acq : Bool) : State :=
  let a := s.lineAnswer t.home p acq
  let u := a.2.reach t.home p t.page false
  let due := t.answerAt s.cycle
  let r := u.2.respond t.home { Response.for_ t.core due .none with tx := some t, fill := u.1 }
  let s2 := r.2.answerTx t a.1 (fun x => { x with tag := r.1, serveAt := s.cycle, dueAt := due })
  match p, a.1 with
  | .mem x, .line data descs _ _ =>
    if install || (past && ((s.core t.core).l1Line p).isSome) then s2.l1Fill t.core (x / 128) t.sent data descs r.1 else s2
  | _, _ => s2

/-- A transaction served as a write (R82, R475): a kept identifier is acknowledged only. -/
def State.serveWrite (s : State) (t : Tx) (w : WriteReq) : State :=
  let due := t.answerAt s.cycle
  if (s.home t.home).writes.any (fun k => k.core == t.core && k.serial == t.id) then
    s.answerTx t .ack (fun x => { x with dueAt := due })
  else if t.resends != 0 && (s.home t.home).isLost t.core then
    s.answerTx t .failed (fun x => { x with dueAt := due })
  else
    let r := s.applyWrite t.home w t.sig
    let s1 := r.2.2.modHome t.home (fun x => { x with writes := keepLast x.writes ⟨t.core, t.id, [], [], []⟩ })
    let q := s1.respond t.home
      { Response.for_ t.core due r.1 with
        tx := some t, write := some w, updates := r.2.1, fill := (w.bytes.head?).bind (fun b => s1.fillTag t.home b.1) }
    q.2.answerTx t .ack (fun x => { x with tag := q.1, dueAt := due })

/-- The old values of a pair sum put together from its two steps (R315). -/
def joinPair (low high : List (Nat × Nat)) : List (Nat × Nat) :=
  (high.zip low).map (fun x => (x.1.1, x.1.2 / 65536 * 65536 + x.2.2 % 65536))

/-- The copy in L1 of a line that a returning atomic has read past L1: the line it read replaces it (R83, R84). -/
def State.l1Atomic (s : State) (t : Tx) (e : AtomEff) (tag : Option Tag) : State :=
  match (e.lanes.head?).map (fun x => x.loc.line) with
  | some (Loc.mem a) =>
    if ((s.core t.core).l1Line (.mem a)).isSome then
      s.l1Fill t.core (a / 128) t.sent (s.bytesAt (.mem a) 128) [s.descAt (.mem a), s.descAt (.mem (a + 64))] tag
    else s
  | _ => s

/-- A transaction served as an atomic (R315, R318 to R320). A pair sum takes two steps, between which the home may
serve other requests. A core's own port keeps no table (R318). A kept result answers an acquire with invalidate-all, which
every entry allows (R96). -/
def State.serveAtomic (s : State) (t : Tx) (e : AtomEff) (crew : CrewRef) (point : Bool) (ident : Nat × Nat)
    (resend : Bool) : State :=
  let due := t.answerAt s.cycle
  let home := s.home t.home
  let own := t.home == .port t.core
  match (if own then none else home.atoms.find? (fun k => k.core == ident.1 && k.serial == ident.2)) with
  | some k =>
    s.answerTx t (.olds k.vals (if point && t.sig.isSome then some .invalidateAll else none) k.stats k.bad)
      (fun x => { x with dueAt := due })
  | none =>
    if resend && home.isLost ident.1 then
      s.answerTx t .unknown (fun x => { x with dueAt := due })
    else
      let step := if isPair e.fn then (if t.lows.isNone then 1 else 2) else 0
      let failed := ((t.lows.map (fun lo => lo.2.2)).getD [])
      let r := s.atomLanes t.home e crew step (e.lanes.filter (fun x => !failed.any (fun b => b.1 == x.lane)))
      let s1 := r.state
      let answer : Response :=
        { Response.for_ t.core due (s.undoOf t.home r.runs) with
          tx := some t, updates := r.updates, fill := (e.lanes.head?).bind (fun x => s1.fillTag t.home x.loc) }
      if step == 1 then
        ((s1.respond t.home answer).2.spend).modTx t.id (fun x =>
          { x with lows := some (r.olds, r.stats, r.bad), serveAt := s.cycle + Config.freePerform s.freeCtr % 4, dueAt := due })
      else
        let olds := match t.lows with
          | some lo => joinPair lo.1 r.olds
          | none => r.olds
        let counts := ((t.lows.map (fun lo => lo.2.1)).getD []) ++ r.stats
        let bad := failed ++ r.bad
        let g := s1.atomSig t.home e t.sig point
        let s2 := g.2.modHome t.home (fun x => { x with
          atoms := if own then x.atoms else keepLast x.atoms ⟨ident.1, ident.2, olds, counts, bad⟩, lost := lostStep ident.1 x.lost })
        let q := s2.respond t.home answer
        (if point then q.2.l1Atomic t e q.1 else q.2).answerTx t (.olds olds g.1 counts bad)
          (fun x => { x with tag := q.1, dueAt := due })

/-- A transaction served at its home; a pair sum takes one of its steps. -/
def State.serveTx (s : State) (t : Tx) : State :=
  match t.req with
  | .read p _ install past acq => s.serveRead t p install past acq
  | .write w => s.serveWrite t w
  | .atomic e crew point ident resend => s.serveAtomic t e crew point ident resend
  | _ => s

/-- The lines that a request touches. -/
def Req.lines (q : Req) : List Loc :=
  match q with
  | .read p _ _ _ _ => [p.line]
  | .write w => (w.bytes.map (fun b => b.1.line)).eraseDups
  | .atomic e _ _ _ _ => (e.lanes.map (fun x => x.loc.line)).eraseDups
  | _ => []

/-- A write of a home performed again in its place after an undo, with the signature it brought (R172). Its acknowledgement
is not sent again. -/
def State.redoWrite (s : State) (h : HomeId) (x : Response) (w : WriteReq) : State :=
  let r := s.applyWrite h w (x.tx.bind (fun t => t.sig))
  (r.2.2.respond h { Response.for_ x.core x.due r.1 with
    tx := x.tx, write := some w, updates := r.2.1, reply := x.reply
    fill := (w.bytes.head?).bind (fun b => r.2.2.fillTag h b.1) }).2

/-- A line of a slice that rested on a stack's tag rests on the tag of the answer sent in its place (R174). -/
def State.refill (s : State) (slice : Nat) (old new : Option Tag) : State :=
  s.modHome (.slice slice) (fun h => { h with lines := h.lines.map (fun x => if x.fill == old then { x with fill := new } else x) })

/-- One recorded request performed again, in its place, with a fresh response (R172, R321). -/
def State.redoOne (s : State) (h : HomeId) (x : Response) : State :=
  match x.tx, x.write with
  | _, some w => s.redoWrite h x w
  | some t, none =>
    let fresh := { t with
      serveAt := s.cycle, dueAt := s.cycle + max (x.due - x.served) (9 + 3 * hops (s.routerOf x.core) (s.homeRouter h)) }
    (match t.req with
     | .read p _ _ _ acq => s.serveRead fresh p false false acq
     | .atomic e crew point ident _ =>
       let s1 := s.modHome h (fun y => { y with
         atoms := y.atoms.filter (fun k => !(k.core == ident.1 && k.serial == ident.2)) })
       s1.serveAtomic fresh e crew point ident false
     | .write _ => s
     | _ =>
       let q := s.respond h { Response.for_ x.core fresh.dueAt .none with tx := some t }
       q.2.modTx t.id (fun y => { y with tag := q.1, dueAt := fresh.dueAt }))
  | none, none =>
    let q := s.respond h { Response.for_ x.core s.cycle .none with reply := x.reply, fill := x.fill }
    if 1024 ≤ x.core && x.core < 1280 then q.2.refill (x.core - 1024) (some ⟨s.cellOf h, x.serial⟩) q.1 else q.2

/-- The requesters that hold a response of a home with a serial not yet cleared (R172). -/
def Home.holders (h : Home) : List Nat :=
  ((h.responses.filter (fun x => x.tagged)).map (fun x => x.core)).eraseDups

/-- The router of a requester: a core's, or slice n's for 1024 + n. -/
def State.requesterRouter (s : State) (core : Nat) : Nat := if core < 1024 then s.routerOf core else core - 1024

/-- The cycle in which a redo notice sent now reaches a requester: the way of the responses that it names, which it does
not overtake (R172). -/
def State.noticeAt (s : State) (h : HomeId) (core : Nat) : Nat :=
  (s.home h).responses.foldl (fun m x => if x.core == core && x.tagged then max m (s.cycle + (x.due - x.served)) else m)
    (s.cycle + 8 + 3 * hops (s.requesterRouter core) (s.homeRouter h))

/-- A home's uncleared updates from the n-th on undone in reverse order, redo notices sent, and the requests performed again
in their order (R172). -/
def State.undoFrom (s : State) (h : HomeId) (n : Nat) : State :=
  let all := (s.home h).responses
  let gone := all.drop n
  let s1 := gone.reverse.foldl (fun st x => st.revert h x) s
  let s2 := s1.modHome h (fun y => { y with responses := all.take n })
  let tagged := gone.filter (fun x => x.tagged)
  let s3 := match tagged.head? with
    | some x =>
      { s2 with net := { s2.net with redos := s2.net.redos ++ ((tagged.map (fun y => y.core)).eraseDups).map (fun c =>
          { core := c, tag := ⟨s.cellOf h, x.serial⟩, due := s.noticeAt h c }) } }
    | none => s2
  gone.foldl (fun st x => st.redoOne h x) s3

/-- An event covers a home: every update it has not cleared is undone (R172). -/
def State.undoHome (s : State) (h : HomeId) : State := s.undoFrom h 0

end Sys2Proof.Machine
end

