-- ==== Sys2Proof/Machine/Ops.lean ====
section
/-! DEFINITION. The shared operations of an issue: what a group needs before it may execute, how it waits, how it
retires (R15, R153, R155, R156, R182, R185, R197, R208 to R211, R227), and taking an exception and returning from
one (R292 to R304, R437). -/

namespace Sys2Proof.Machine

/-- A MEMFAULT, ILLEGAL or other cause as a word (R295). -/
def causeWord (c : Cause) : Word := BitVec.ofNat 32 (0x80000000 + 256 * c.1 + c.2)

/-- RESOURCE NOXBLK (R295). -/
def causeNoxblk : Cause := (11, 1)
/-- RESOURCE CREDITS (R295). -/
def causeCredits : Cause := (11, 2)
/-- RESOURCE HANDLER (R295). -/
def causeHandler : Cause := (11, 3)
/-- RESOURCE BAROBJ (R295). -/
def causeBarobj : Cause := (11, 4)
/-- ILLEGAL FIELD (R226). -/
def causeField : Cause := (0, 4)
/-- ILLEGAL PRIV (R226). -/
def causePriv : Cause := (0, 7)
/-- DATAERR DESC, FORMAT, UNCORR (R295). -/
def causeDesc : Cause := (6, 1)
/-- DATAERR FORMAT (R295). -/
def causeFormat : Cause := (6, 2)
/-- DATAERR UNCORR (R295). -/
def causeUncorr : Cause := (6, 4)
/-- ALIGN of a control-transfer target (R295). -/
def causeTarget : Cause := (3, 2)

/-- The crew slot of an issue group. -/
def Issue.ref (i : Issue) : CrewRef := ⟨i.core, i.sub, i.slot⟩

/-- The state with no issue group chosen. -/
def State.drop (s : State) : State := { s with issue := none }

/-- A sub-core whose locked run has broken: its latches are invalid; what they may still be read from stays (R209,
R210). -/
def Sub.breakRun (b : Sub) : Sub :=
  { b with locked := none, latches := b.latches.map (Option.map (fun x => { x with left := 0 })) }

/-- A sub-core whose latest issue did not execute, since its group was not ready (R14): its operand reads, its result and its
unit are as before it, and it chooses again in the same cycle. -/
def Sub.notIssued (b : Sub) : Sub :=
  { b with again := true, loser := none, claims := b.prior.1, ready := b.prior.2.1, unitFree := b.prior.2.2 }

/-- The state in which the issue group waits in a run state and its instruction will issue again; in a release point it has
issued. A locked run of the crew breaks (R209). -/
def State.waitIn (s : State) (i : Issue) (m : Mask) (q : RunState) : State :=
  (s.modSub i.core i.sub (fun b =>
    let b1 := if (b.locked.map (fun x => x.slot)) == some i.slot then b.breakRun else b
    let b2 := if q == .release .point then { b1 with loser := none } else b1.notIssued
    { b2 with crews := modifyAt b2.crews i.slot (fun w => w.setRun m q) })).drop

/-- The issue group waits in state RELEASE. -/
def State.waitFor (s : State) (i : Issue) (h : Hold) : State := s.waitIn i i.part (.release h)

/-- The crew's current region holds at least one quarantine entry (R153), or a request that leaves the package once the
region has released (R175; that a group which waits for it takes the head too is DEDUCED, log 53). -/
def Crew.regionHolds (w : Crew) : Bool := (w.region.map (fun g => g.entries != 0 || g.holds)).getD false

/-- An instruction that blocks lanes outside any gambit: an implicit head comes first when the current region holds an
entry (R153), and while other lanes are in gambit they wait for its close (R178). The answer is the state to block in, or
the state in which the group waits for a snapshot or the gambit. -/
def State.blockHead (s : State) (i : Issue) : Except State State :=
  let w := s.crew i.ref
  if w.regionHolds then
    if w.gambit.isSome then .error (s.waitIn i (i.part &&& ~~~ w.inGambit) (.release .gambit))
    else if w.canHead then .ok (s.head i.ref)
    else .error (s.waitFor i .snapshot)
  else .ok s

/-- The issue group blocks in a run state: its lanes in gambit take no implicit head (R185), the others go by R153 and
R178. -/
def State.block (s : State) (i : Issue) (q : RunState) : State :=
  let mine := i.part &&& (s.crew i.ref).inGambit
  if mine == i.part then s.waitIn i mine q
  else
    match s.blockHead i with
    | .ok t => t.waitIn i i.part q
    | .error t => if mine == 0 then t else t.waitIn i mine q

/-- The first lane at or after a lane, in cyclic order, that a test holds for (R15). -/
def firstFrom (turn : Nat) (p : Nat → Bool) : Option Nat :=
  ((upTo 32).map (fun k => (turn + k) % 32)).find? p

/-- The last lane of a mask in cyclic order from a lane (R15). -/
def lastFrom (turn : Nat) (m : Mask) : Nat :=
  (((upTo 32).map (fun k => (turn + k) % 32)).reverse.find? (fun l => m.getLsbD l)).getD turn

/-- The turn pointer and run counter after an issue (R15). -/
def Crew.turned (w : Crew) (part : Mask) (moves : Bool) : Crew :=
  if moves || Config.runLimit ≤ w.run + 1 then
    match firstFrom w.turn (fun l => (w.thread l).run == .ready && !part.getLsbD l) with
    | some q => { w with turn := q, run := 0 }
    | none => { w with turn := (lastFrom w.turn part + 1) % 32, run := 0 }
  else { w with run := w.run + 1 }

/-- The threads of a mask advance by a number of bytes. -/
def Crew.advance (w : Crew) (m : Mask) (n : Nat) : Crew :=
  w.modLanes m (fun _ t => { t with pc := t.pc + BitVec.ofNat 64 n })

/-- The locked run of a sub-core after a slot of a group, in which an instruction may have captured its result in a
latch (R208, R209): a run ends when its slots have issued, and a capture starts one or extends it, up to 8 slots; a crew
asked to stop starts and extends none. A result captured is usable 3 cycles after issue (a hit's sooner: Sub.hitReady). -/
def Sub.slotIssued (b : Sub) (i : Issue) (cycle : Nat) (cap : Option (Nat × Latch)) : Sub :=
  let mine := (b.locked.map (fun x => x.slot == i.slot && x.part == i.part)).getD false
  let b0 := if mine then
      { b with latches := b.latches.map (Option.map (fun y => { y with left := y.left - 1 })) }
    else b.breakRun
  let used := if mine then (b.locked.map (fun x => x.used + 1)).getD 0 else 0
  let left := if mine then (b.locked.map (fun x => x.left - 1)).getD 0 else 0
  let slots := if cap.isSome && !(b.crew i.slot).stopped then min 2 (8 - used) else 0
  let b1 := match cap with
    | some c => { b0 with latches := modifyAt b0.latches c.1 (fun _ => some { c.2 with left := slots })
                          ready := b0.ready ++ [(i.slot, 64 + c.1, cycle + 3)] }
    | none => b0
  if max left slots == 0 then (if mine || cap.isSome then b1.breakRun else b1)
  else { b1 with
    locked := some { slot := i.slot, part := i.part, left := max left slots, used := used, since := cycle } }

/-- The issue group has retired its instruction: its counters, the gambit's count, the locked run and the turn
pointer (R15, R153, R182, R209); the threads' PCs have been set. -/
def State.retiredWith (s : State) (i : Issue) (moves : Bool) (cap : Option (Nat × Latch)) : State :=
  let s1 := s.modSub i.core i.sub (fun b =>
    let b1 := (b.slotIssued i s.cycle cap).count 8
    { b1 with loser := none, latchWait := none, crews := modifyAt b1.crews i.slot (fun w =>
        { w.turned i.part moves with
          retired := w.retired + 1
          lastIssue := s.cycle
          gambit := w.gambit.map (fun g => if g.lanes &&& i.part != 0 then { g with count := g.count + 1 } else g) }) })
  (s1.spend).drop

/-- The issue group has retired an instruction that set its threads' PCs. -/
def State.retired (s : State) (i : Issue) (moves : Bool) : State := s.retiredWith i moves none

/-- The issue group advances past its instruction and retires it. -/
def State.retire (s : State) (i : Issue) (moves : Bool) : State :=
  (s.modCrew i.ref (fun w => w.advance i.part i.len)).retired i moves

/-- Registers the crew slot may still write with credits (R196). -/
def Crew.creditsFree (w : Crew) : Nat := Config.credits - w.creditsUsed

/-- Every credit in use was taken in the crew's current region (R197). -/
def Crew.creditsStuck (w : Crew) : Bool :=
  (w.regions.dropLast).all (fun g => g.credits.isEmpty)

/-- The launch of a crew has a fault queue to put page faults in (R437). -/
def State.faultQueueOn (s : State) : Bool := bits s.sched.fq.base.toNat 3 0 != 0

/-- Each lane's own failure of one instruction, as a trap not yet entered (R294). parked lanes are replayed. -/
def trapOf (i : Issue) (fs : List LaneTrap) (after : Bool) (parked : Mask) : PendingTrap :=
  let cls := (fs.filter (fun f => f.cls != 2)).foldl (fun m f => min m f.cls) 13
  { cls := if cls == 13 then 2 else cls, lanes := fs, async := false, tpc := i.pc,
    resume := if after then i.pc + BitVec.ofNat 64 i.len else i.pc, iword := i.word, ilen := i.len,
    pmask := i.part, parked := parked, headed := false }

/-- The crew stops for a context termination, which takes effect once the region that the trap-entry head closed has
released (R302, R303). -/
def Crew.die (w : Crew) (cls : Nat) : Crew := { w with dying := some cls, pendingTrap := none, async := [] }

/-- A trap raised in a crew (R296); in a handler it terminates the context instead (R302). -/
def State.raiseTrap (s : State) (r : CrewRef) (p : PendingTrap) : State :=
  s.modCrew r (fun w => if w.handling.isSome then w.die p.cls else { w with pendingTrap := some p })

/-- The issue group has issued an instruction that does not retire: it counts as an issue of its crew (R15, R508). -/
def State.issued (s : State) (i : Issue) (moves : Bool) : State :=
  s.modSub i.core i.sub (fun b =>
    { b.count 8 with loser := none, crews := modifyAt b.crews i.slot (fun w =>
        { w.turned i.part moves with lastIssue := s.cycle }) })

/-- The mask of the lanes of failures. -/
def failLanes (fs : List LaneTrap) : Mask := Mask.ofFn (fun l => fs.any (fun f => f.lane == l))

/-- A crew parks on the page faults of an instruction (R69, R437): the threads of a mask of the issue group, which its abort
has not taken out of it, are PARKED. With no fault queue the faults are declined at once. -/
def State.park (s : State) (i : Issue) (m : Mask) (fs : List LaneTrap) : State :=
  if !s.faultQueueOn then s.raiseTrap i.ref (trapOf i fs false m)
  else
    let s1 := (s.waitIn i m .parked).modCrew i.ref (fun w =>
      { w with parked := some { part := m, pc := i.pc, iword := i.word, ilen := i.len, faults := fs,
                                order := s.sched.fq.parkOrder, listed := false } })
    { s1 with sched := { s1.sched with fq := { s1.sched.fq with parkOrder := s1.sched.fq.parkOrder + 1 } } }

/-- Failures of one instruction's lanes (R294): in-gambit lanes abort with code 0x04 (R182); of the others, page
faults alone park the crew, and anything else is a trap, whose entry head the lanes outside a gambit await the close of the
gambit for (R178). after: the trapped lanes resume past the instruction. The instruction has issued (R15). -/
def State.failWith (s : State) (i : Issue) (fs : List LaneTrap) (after moves : Bool) : State :=
  let g := (s.crew i.ref).inGambit
  let s1 := s.abortLanes i.ref (failLanes fs) 4
  let rest := fs.filter (fun f => !g.getLsbD f.lane)
  let still := (s1.crew i.ref).inGambit
  let left := i.part &&& ~~~ (g &&& ~~~ still)
  let s2 := (s1.modSub i.core i.sub (fun b =>
    if (b.locked.map (fun x => x.slot)) == some i.slot then b.breakRun else b)).drop
  if rest.isEmpty then s2.issued i moves
  else if rest.all (fun f => f.cls == 2) then
    match s2.blockHead i with
    | .ok t => (t.park i left rest).issued i moves
    | .error t => t
  else if still != 0 then s2.waitIn i (left &&& ~~~ still) (.release .gambit)
  else (s2.raiseTrap i.ref (trapOf i rest after 0)).issued i moves

/-- Failures of one instruction's lanes, which resume at the instruction (R294). -/
def State.fail (s : State) (i : Issue) (fs : List LaneTrap) : State := s.failWith i fs false false

/-- One cause in every lane of a mask. -/
def sameCause (m : Mask) (c : Cause) : List LaneTrap := m.lanes.map (fun l => ⟨l, c.1, c.2, 0, 0⟩)

/-- One cause raised in every lane of a mask. -/
def State.failAll (s : State) (i : Issue) (m : Mask) (c : Cause) : State := s.fail i (sameCause m c)

/-- What an instruction needs before it may act: the slots it waits on and the slot it sets (0 none), its predicate,
the general registers it names, those it writes in its effective lanes, a cause that decoding found (R227 step 5),
whether in-gambit effective lanes abort it (R185), whether it is a head (R153), whether it opens a gambit (R178). -/
structure Needs where
  sbw : BitVec 6
  sbs : Nat
  pred : Nat
  pn : Bool
  names : List Nat
  writes : List Nat
  early : Option Cause
  bare : Bool
  head : Bool
  opens : Bool
  deriving DecidableEq, Repr

/-- An instruction that names no register, waits on no slot and always acts. -/
def Needs.none : Needs :=
  { sbw := 0, sbs := 0, pred := 31, pn := false, names := [], writes := [], early := Option.none, bare := false,
    head := false, opens := false }

/-- The effective mask of the issue group (R192). -/
def State.part (s : State) (i : Issue) (n : Needs) : Mask := (s.crew i.ref).effective i.part n.pred n.pn

/-- The traps that do not depend on the predicate: R227 steps 5 and 6. -/
def State.gateTraps (s : State) (i : Issue) (n : Needs) : Option Cause :=
  n.early.or (if !(s.crew i.ref).ext && n.names.any (fun k => 32 ≤ k && k < 64) then some causeNoxblk else none)

/-- The waits for scoreboard slots (R211): those named by SBW, then a slot that SBS would raise to 8. -/
def State.gateSlots (s : State) (i : Issue) (n : Needs) : Option RunState :=
  let w := s.crew i.ref
  if !w.slotsClear n.sbw i.part then some (.scoreboard n.sbw 0 i.part)
  else if w.slotFull n.sbs i.part then some (.scoreboard 0 n.sbs i.part) else none

/-- The implicit heads of R153 before an instruction: after 128 instructions, and with 48 entries held. Lanes outside an
open gambit wait for it to close (R178); those in it, which take no implicit head (R185), then issue without them. -/
def State.gateHead (s : State) (i : Issue) : Except State State :=
  let w := s.crew i.ref
  if w.headDue then .error (s.waitFor i .snapshot)
  else if Config.headRetired ≤ w.retired || Config.headEntries ≤ w.entriesUsed then
    if w.gambit.isSome then
      if i.part &&& ~~~ w.inGambit == 0 then .ok s
      else .error (s.waitIn i (i.part &&& ~~~ w.inGambit) (.release .gambit))
    else if w.retired == 0 && !w.regionHolds then .ok s
    else if w.canHead then .ok (s.head i.ref) else .error (s.waitFor i .snapshot)
  else .ok s

/-- The in-gambit lanes of an issue group, which a head of its other lanes does not concern, go past it; the others wait
in RELEASE until the gambit closes (R178). -/
def State.passGambit (s : State) (i : Issue) (mine : Mask) : State :=
  (s.modCrew i.ref (fun w =>
    { w.advance mine i.len with gambit := w.gambit.map (fun g => { g with count := g.count + 1 }) })).waitIn i
      (i.part &&& ~~~ mine) (.release .gambit)

/-- The lanes that an instruction which no in-gambit lane may execute aborts: those that take part, and for TRY those of
its issue group (R178, R185). -/
def State.bareLanes (s : State) (i : Issue) (n : Needs) : Mask :=
  if n.opens && (s.part i n) != 0 then i.part else s.part i n

/-- The gambit's part (R178, R182, R185): the 257th instruction aborts every lane in gambit with code 0x03; lanes that may
not execute the instruction abort with 0x07; a head of lanes outside the gambit waits for its close. -/
def State.gateGambit (s : State) (i : Issue) (n : Needs) : Option State :=
  let w := s.crew i.ref
  match w.gambit with
  | none => none
  | some g =>
    let mine := i.part &&& g.lanes
    if mine != 0 && Config.gambitLimit ≤ g.count then some (s.abortLanes i.ref g.lanes 3).drop
    else if n.bare && (s.bareLanes i n) &&& g.lanes != 0 then
      some (s.abortLanes i.ref ((s.bareLanes i n) &&& g.lanes) 7).drop
    else if n.head && (s.part i n) != 0 && (s.part i n) &&& g.lanes == 0 then
      some (if mine == 0 then s.waitFor i .gambit else s.passGambit i mine)
    else none

/-- The credits that the register writes need (R197). -/
def State.gateCredits (s : State) (i : Issue) (n : Needs) : Option State :=
  let w := s.crew i.ref
  if (s.part i n) == 0 then none
  else
    let need := w.creditsFor n.writes
    if need ≤ w.creditsFree then none
    else if w.creditsStuck then some (s.failAll i (s.part i n) causeCredits)
    else some ((s.modSub i.core i.sub (fun b => b.count 6)).waitFor i (.credit need))

/-- Everything before an instruction acts: the answer is the state to act in, or the state after a wait, an abort or a
trap that took the instruction's place. -/
def State.gate (s : State) (i : Issue) (n : Needs) : Except State State :=
  match s.gateTraps i n with
  | some c => .error (s.failAll i i.part c)
  | none =>
    match s.gateSlots i n with
    | some q => .error (s.block i q)
    | none =>
      match s.gateHead i with
      | .error t => .error t
      | .ok t =>
        match t.gateGambit i n with
        | some u => .error u
        | none =>
          if n.head && !(t.crew i.ref).canHead && (i.part &&& (t.crew i.ref).inGambit) == 0 &&
              (t.part i n) != 0 then
            .error (t.waitFor i .snapshot)
          else
            match t.gateCredits i n with
            | some u => .error u
            | none => .ok t

/-- An instruction executed for the issue group that the state holds: what it needs first, then its own effect. -/
def State.issueWith (s : State) (n : Needs) (body : Issue → State → State) : Host.Outcome State Fault Refusal :=
  match s.issue with
  | none => .fault .noIssueGroup
  | some i =>
    match s.gate i n with
    | .error t => .next t
    | .ok t => .next (body i t)

/-- A fresh setter of an instruction: its slot rises in the issue group (R211). -/
def State.setter (s : State) (i : Issue) (slot parts : Nat) : Nat × State :=
  (s.nextId, (s.fresh.2).modCrew i.ref (fun w => w.addSetter s.nextId slot i.part parts))

/-- A scoreboard slot raised in a mask of an issue group by an instruction whose result is written a fixed number of cycles
later, which lowers it (R106, R211). -/
def State.sets (s : State) (i : Issue) (slot : Nat) (m : Mask) (delay : Nat) : State :=
  if slot == 0 || m == 0 then s
  else (s.fresh.2).modCrew i.ref (fun w => w.addTimed s.nextId slot i.part (s.cycle + delay))

/-! ### Taking an exception and returning from one -/

/-- The address of a kernel image's byte (R44). -/
def Launch.imageAt (l : Launch) (off : Nat) : Addr := l.desc.image + BitVec.ofNat 64 off

/-- The handler of a trap class (R293): its address and whether it runs in trap mode. -/
def State.handlerOf (s : State) (r : CrewRef) (cls : Nat) : Option (Addr × Bool) :=
  let tb := (s.context (s.ctxOf r)).trapBase
  let vectored : Option (Addr × Bool) := if tb == 0 then none else some (tb + BitVec.ofNat 64 (64 * cls), true)
  match s.launchOf r with
  | none => vectored
  | some l =>
    if cls == 8 && l.header.swtraph != 0 then some (l.imageAt l.header.swtraph, false)
    else if cls == 9 && l.header.brkh != 0 then some (l.imageAt l.header.brkh, false)
    else vectored

/-- The classes that always end in termination (R292). -/
def terminalClass (cls : Nat) : Bool := cls == 5 || cls == 7 || cls == 12

/-- The resume PC of a thread at trap entry (R296). -/
def resumePc (p : PendingTrap) (l : Nat) (t : Thread) : Addr :=
  if p.lanes.any (fun f => f.lane == l) && !p.async then p.resume else t.pc

/-- The lane record of a thread at trap entry (R298). A thread that a late trap finds PARKED replays its access (R296). -/
def laneRecord (w : Crew) (p : PendingTrap) (l : Nat) : LaneRecord :=
  let t := w.thread l
  let f := p.lanes.find? (fun f => f.lane == l)
  let taint := (upTo 4).foldl (fun acc k => acc + (if t.taint.getLsbD k then 2 ^ (28 + k) else 0)) 0
  let preds := (upTo 4).foldl (fun acc k => acc + (if t.preds.getLsbD k then 2 ^ (24 + k) else 0)) 0
  { spc := resumePc p l t,
    addr := (f.map (fun x => x.addr)).getD 0,
    cause := (f.map (fun x => causeWord (x.cls, x.code))).getD 0,
    state := BitVec.ofNat 32 (taint + preds + (if p.parked.getLsbD l || t.run == .parked then 4 else 0) +
      (if p.pmask.getLsbD l then 2 else 0)),
    saveG := (upTo 4).map (fun k => lane (w.reg k).content l),
    aux := (f.map (fun x => x.aux)).getD 0 }

/-- The side buffer written at trap entry (R296, R297). -/
def State.sideAt (s : State) (r : CrewRef) (p : PendingTrap) : SideBuffer :=
  let w := s.crew r
  let old := (s.keep r).side
  let first := p.lanes.find? (fun f => f.cls == p.cls)
  { cls := BitVec.ofNat 32 p.cls
    cause := (first.map (fun f => causeWord (f.cls, f.code))).getD 0
    tpc := if p.async then 0 else p.tpc
    iword := if p.async then 0 else BitVec.ofNat 64 p.iword
    tmask := failLanes p.lanes
    pmask := if p.async then 0 else p.pmask
    turn := BitVec.ofNat 32 (w.turn + 256 * w.run)
    seq := old.seq + 1
    clock := BitVec.ofNat 64 (s.clock r.core)
    launchId := ((s.launchOf r).map (fun l => l.desc.launchId)).getD 0
    group := BitVec.ofNat 32 (((s.groupOf r).map (fun g => g.g)).getD 0xFFFFFFFF)
    flags := BitVec.ofNat 32 ((if (s.gslotOf r).isNone then 1 else 0) + (if w.trapMode then 2 else 0) +
      (if terminalClass p.cls then 4 else 0) + (if p.async then 8 else 0))
    ilen := if p.async then 0 else BitVec.ofNat 32 p.ilen
    hscr := List.replicate 48 0
    lanes := (upTo 32).map (fun l =>
      if (w.thread l).run == .exited then { old.lanes.getD l .zero with state := BitVec.ofNat 32 1 }
      else laneRecord w p l) }

/-- The content that trap entry writes to G0, G1, or G2 and G3 (R296). -/
def trapArg (p : PendingTrap) (k : Nat) : Content :=
  contentOf (fun l =>
    let f := p.lanes.find? (fun f => f.lane == l)
    if k == 0 then (f.map (fun x => causeWord (x.cls, x.code))).getD 0
    else if k == 1 then BitVec.ofNat 32 p.cls
    else
      let a := (f.map (fun x => x.addr)).getD 0
      if k == 2 then a.setWidth 32 else (a >>> 32).setWidth 32)

/-- The predicate word of a thread as a handler starts: P0 tells that it trapped, P1 to P3 are 0 (R296). -/
def trapPreds (p : PendingTrap) (l : Nat) (x : BitVec 32) : BitVec 32 :=
  (x &&& ~~~ (0xF#32)) ||| (if p.lanes.any (fun f => f.lane == l) then 1#32 else 0#32)

/-- TRAP ENTRY: the entry head has retired and four credits are free. The side buffer takes the header and the lane
records; G0 to G3, their taint and P0 to P3 are set; every thread that has not exited goes to the handler, READY;
the mode changes; the first instruction issues 32 cycles later (R296). -/
def State.enterHandler (s : State) (r : CrewRef) (p : PendingTrap) (h : Addr × Bool) : State :=
  let m := (s.crew r).aliveLanes
  let side := s.sideAt r p
  let s1 := (s.modKeep r (fun k => { k with side := side }))
  let s2 := (upTo 4).foldl (fun (st : State) k => st.writeReg r k m (trapArg p k) 0) s1
  s2.modCrew r (fun w =>
    { w.modLanes m (fun l t => { t with preds := trapPreds p l t.preds, pc := h.1, run := .ready }) with
      trapMode := h.2, turn := 0, run := 0, handling := some p.cls, pendingTrap := none,
      resumeAt := s.cycle + 32, xwait := none, parked := none })

/-- Whether the entry head of a pending trap may retire: no release point between its heads, every scoreboard slot 0
(R296), no lane in gambit (R178), a snapshot free (R155). -/
def Crew.entrySettled (w : Crew) : Bool := w.point.isNone && w.slotsZero && w.gambit.isNone && !w.headDue && w.canHead

/-- The entry head of a trap (R176, R296): it closes the region that R303 names. A trap with no handler terminates the
context instead of starting one (R293). -/
def State.entryHead (s : State) (r : CrewRef) (p : PendingTrap) : State :=
  let closed := ((s.crew r).region.map (fun g => g.id)).getD 0
  let s1 := (s.head r).modCrew r (fun w =>
    { w with entryClosed := closed, async := w.async.map (fun c => { c with held := true }) })
  match s.handlerOf r p.cls with
  | none => s1.modCrew r (fun w => w.die p.cls)
  | some _ =>
    s1.modCrew r (fun w =>
      { w.modRegion (fun g => { g with snapshot := { g.snapshot with entry := some { p with headed := true } } }) with
        pendingTrap := some { p with headed := true } })

/-- One step of taking a pending trap: its head, then, with four credits free, the handler's start (R296). -/
def State.takeTrap (s : State) (r : CrewRef) : State :=
  let w := s.crew r
  match w.pendingTrap with
  | none => s
  | some p =>
    if !p.headed then (if w.entrySettled then s.entryHead r p else s)
    else if w.creditsFor [0, 1, 2, 3] ≤ w.creditsFree then
      match s.handlerOf r p.cls with
      | some h => s.enterHandler r p h
      | none => s.modCrew r (fun w => w.die p.cls)
    else s

/-- RETURN FROM AN EXCEPTION: every thread that has not exited takes G0 to G3, their taint, P0 to P3 and its PC from its
lane record; turn pointer, run counter and mode come from the header; the crew leaves the handler (R300). An odd SPC
is a trap inside the handler. The return is a head, after which the threads issue 16 cycles later. -/
def State.leaveHandler (s : State) (r : CrewRef) : State :=
  let w := s.crew r
  let side := (s.keep r).side
  let m := w.aliveLanes
  let rec_ := fun l => side.lanes.getD l .zero
  if m.lanes.any (fun l => (rec_ l).spc.getLsbD 0) then s.modCrew r (fun w => w.die 3)
  else
    let s1 := (upTo 4).foldl (fun (st : State) k =>
      st.writeReg r k m (contentOf (fun l => (rec_ l).saveG.getD k 0))
        (Mask.ofFn (fun l => (rec_ l).state.getLsbD (28 + k)))) s
    let s2 := s1.modCrew r (fun w =>
      { w.modLanes m (fun l t =>
          { t with preds := (t.preds &&& ~~~ (0xF#32)) ||| (((rec_ l).state >>> 24) &&& 0xF#32),
                   pc := (rec_ l).spc, run := .ready }) with
        turn := side.turn.toNat % 32, run := side.turn.toNat / 256 % 128,
        trapMode := side.flags.getLsbD 1, handling := none, resumeAt := s.cycle + 16,
        async := w.async.map (fun c => { c with held := false }) })
    s2.head r

/-! ### Waking -/

/-- The threads whose instruction waits for something that now holds issue it again (R14): scoreboard slots, a
snapshot, entries, credits, the close of a gambit. Those whose wait has returned go past its instruction, 8 bytes long. -/
def Crew.wake (w : Crew) (now : Nat) : Crew :=
  { w with threads := w.threads.map (fun t => match t.run with
      | .scoreboard slots setter lanes =>
        if w.slotsClear slots lanes && !w.slotFull setter lanes then { t with run := .ready } else t
      | .release .snapshot => if w.canHead && !w.headDue then { t with run := .ready } else t
      | .release (.entries n) =>
        if w.entriesUsed + n ≤ Config.quarantineEntries then { t with run := .ready } else t
      | .release (.credit n) => if n ≤ w.creditsFree || w.creditsStuck then { t with run := .ready } else t
      | .barrier (.returns at_) _ => if at_ ≤ now then { t with pc := t.pc + 8, run := .ready } else t
      | .release .gambit => if w.gambit.isNone && !w.headDue then { t with run := .ready } else t
      | .release .fence => { t with run := .ready }
      | .release .engine => { t with run := .ready }
      | _ => t) }

end Sys2Proof.Machine
end

