-- ==== Sys2Proof/Machine/Operands.lean ====
section
/-! DEFINITION. Every operand form: selectors and latches, broadcasts, immediates, address pairs and offsets, the
result's destination, and the transposition table around eligible instructions (R191 to R212, R222, R223, R285). -/

namespace Sys2Proof.Machine

/-- The sources of an instruction: the content of each with its taint, the effective mask and the issue group. -/
structure Srcs where
  a : Content
  b : Content
  c : Content
  ta : Mask
  tb : Mask
  tc : Mask
  part : Mask
  group : Mask
  deriving DecidableEq, Repr

/-- The scoreboard slot an SBS field names: 0 none, 1 to 6 for SB0 to SB5 (R211). An instruction that has no result to wait
for raises none (DEDUCED, log 46). -/
def slotOf (sbs : BitVec 3) : Nat := sbs.toNat

/-- Registers that selectors name. -/
def namesOf (l : List Nat) : List Nat := l.filter (fun k => k < 64)

/-- A source selector: a register, zero, or a latch. A latch that is not valid for the group is read from the register
its producer wrote while that entry still names it, and raises LATCH otherwise (R208, R210, R223). The error is
the cause and the producer's PC. -/
def State.operand (s : State) (i : Issue) (sel : Nat) : Except (Cause × Addr) (Content × Mask) :=
  let w := s.crew i.ref
  if 64 ≤ sel && sel ≤ 66 then
    match ((s.sub i.core i.sub).latches.getD (sel - 64) none) with
    | none => .error ((10, sel), 0)
    | some x =>
      if x.left != 0 && x.slot == i.slot && x.part == i.part then .ok (x.content, x.taint)
      else
        match x.dest with
        | some d =>
          if x.slot == i.slot && w.reg d.1 == d.2 then .ok (w.readAll s.freeCtr d.1, w.taintOf d.1)
          else .error ((10, sel), x.pc)
        | none => .error ((10, sel), x.pc)
  else .ok (w.source s.freeCtr sel, w.sourceTaint sel)

/-- An operand that the instruction uses; an unused one is zero. -/
def State.operandIf (s : State) (i : Issue) (use : Bool) (sel : Nat) : Except (Cause × Addr) (Content × Mask) :=
  if use then s.operand i sel else .ok (zeroContent, 0)

/-- One lane's value in every lane, with its taint in every lane (R212, R104). -/
def broadcast (l : Nat) (x : Content × Mask) : Content × Mask :=
  (contentOf (fun _ => lane x.1 l), if x.2.getLsbD l then BitVec.allOnes 32 else 0)

/-- The broadcast of source A (R212). -/
def castA (f : L64) (part : Mask) (x : Content × Mask) : Content × Mask :=
  if f.bcm == 1 then broadcast f.bln.toNat x else if f.bcm == 3 then broadcast (Mask.lowest part) x else x

/-- The broadcast of source B (R212). -/
def castB (f : L64) (x : Content × Mask) : Content × Mask := if f.bcm == 2 then broadcast f.bln.toNat x else x

/-- The sources of a 64-bit register instruction (R212, R223). -/
def State.sources (s : State) (i : Issue) (f : L64) (ua ub uc : Bool) : Except (Cause × Addr) Srcs :=
  let part := (s.crew i.ref).effective i.part f.pred.toNat (f.pn == 1)
  match s.operandIf i ua f.a.toNat, s.operandIf i ub f.b.toNat, s.operandIf i uc f.c.toNat with
  | .ok x, .ok y, .ok z =>
    let x' := castA f part x
    let y' := castB f y
    .ok { a := x'.1, b := y'.1, c := z.1, ta := x'.2, tb := y'.2, tc := z.2, part := part, group := i.part }
  | .error e, _, _ => .error e
  | _, .error e, _ => .error e
  | _, _, .error e => .error e

/-- The needs of a 64-bit register instruction that names some general registers and writes some. -/
def lNeeds (f : L64) (names writes : List Nat) : Needs :=
  { Needs.none with sbw := f.sbw, sbs := slotOf f.sbs, pred := f.pred.toNat, pn := f.pn == 1,
                    names := namesOf names, writes := namesOf writes }

/-- The needs of a 64-bit immediate instruction. -/
def kNeeds (f : K64) (names writes : List Nat) : Needs :=
  { Needs.none with sbs := slotOf f.sbs, pred := f.pred.toNat, pn := f.pn == 1,
                    names := namesOf names, writes := namesOf writes }

/-- The needs of a memory instruction. -/
def mNeeds (f : M64) (names writes : List Nat) : Needs :=
  { Needs.none with sbw := f.sbw, sbs := slotOf f.sbs, pred := f.pred.toNat, pn := f.pn == 1,
                    names := namesOf names, writes := namesOf writes }

/-- LATCH raised in the effective lanes of an instruction (R210). -/
def State.failLatch (s : State) (i : Issue) (m : Mask) (e : Cause × Addr) : State :=
  s.fail i (m.lanes.map (fun l => ⟨l, e.1.1, e.1.2, 0, e.2⟩))

/-- The result of an instruction written to its destination and its latch (R192, R208): the destination's lanes outside
the effective mask keep their content. hit: it comes from the transposition table, and is no write-back (R202, R205). -/
def State.produce (s : State) (i : Issue) (f : L64) (part : Mask) (res : Content × Mask) (hit : Bool := false) : State :=
  let w := s.crew i.ref
  let d := f.d.toNat
  let prior := w.source s.freeCtr d
  let merged := mergeLanes part res.1 prior
  let taint := (res.2 &&& part) ||| (w.sourceTaint d &&& ~~~ part)
  let s1 := if f.nwb == 1 || part == 0 then s else s.writeDst i.ref d part res.1 (res.2 &&& part) (!hit)
  let dest := if f.nwb == 1 || 64 ≤ d then none else some (d, (s1.crew i.ref).reg d)
  let cap := if f.hold == 3 then none
    else some (f.hold.toNat, ({ content := merged, taint := taint, slot := i.slot, part := i.part, left := 2,
                                pc := i.pc, dest := dest } : Latch))
  (s1.modCrew i.ref (fun w => w.advance i.part i.len)).retiredWith i false cap

/-- A content that gives a word for each lane's sources; it is tainted where a source is (R104). -/
def perLane (g : Word → Word → Word → Word) (x : Srcs) : Content × Mask :=
  (contentOf (fun l => g (lane x.a l) (lane x.b l) (lane x.c l)), x.ta ||| x.tb ||| x.tc)

/-! ### The transposition table -/

/-- The name of a register; none for an unnamed one (R193). -/
def PhysReg.name (p : PhysReg) : Option Name := if p.suffix == 3 then none else some (p.hash, p.suffix)

/-- The source names of a key: none when one is unnamed (R200, R201). -/
def Crew.keyNames (w : Crew) : List Nat → Option (List Name)
  | [] => some []
  | k :: r => if 64 ≤ k then w.keyNames r
    else match (w.reg k).name, w.keyNames r with
      | some n, some ns => some (n :: ns)
      | _, _ => none

/-- The opcode word of a key: the encoding without the destination, HOLD, NWB, SBS, SBW and the selectors of general
registers (R200). -/
def lKeyWord (op : BitVec 7) (f : L64) (ua ub uc : Bool) : Nat :=
  let z := fun (u : Bool) (x : BitVec 7) => if u && x.toNat < 64 then 0#7 else x
  (L64.toWord op { f with d := 0, hold := 0, nwb := 0, sbs := 0, sbw := 0, a := z ua f.a, b := z ub f.b,
                          c := z uc f.c }).toNat

/-- The opcode word of a key in the immediate layout (R200). -/
def kKeyWord (op : BitVec 7) (f : K64) (ua : Bool) : Nat :=
  (K64.toWord op { f with d := 0, sbs := 0, a := if ua && f.a.toNat < 64 then 0 else f.a }).toNat

/-- A source whose free reading is the new content of a result still due in it (R191): its name tells nothing of it. -/
def Crew.readsNew (w : Crew) (ctr k : Nat) : Bool :=
  decide (k < 64) && w.dueIn k && (Config.pendingRead ctr k).isSome

/-- The key of an instruction as an entry without its result (R200), when it is looked up at all (R201). -/
def State.memoKey (s : State) (i : Issue) (word : Nat) (srcs : List Nat) (d : Nat) (part : Mask)
    (crew : Option Nat) : Option XEntry :=
  let w := s.crew i.ref
  if part == 0 || 64 ≤ d || srcs.any (fun k => (64 ≤ k && k ≤ 66) || w.readsNew s.freeCtr k) then none
  else
    match w.keyNames srcs, (if part == BitVec.allOnes 32 then some none else (w.reg d).name.map some) with
    | some ns, some prior =>
      some { ctx := s.ctxOf i.ref, word := word, names := ns, mask := part, prior := prior, crew := crew,
             result := (0, 3), used := 0, expires := 0 }
    | _, _ => none

/-- Two entries have the same key (R200). -/
def XEntry.sameKey (x y : XEntry) : Bool :=
  x.ctx == y.ctx && x.word == y.word && x.names == y.names && x.mask == y.mask && x.prior == y.prior &&
    x.crew == y.crew

/-- The set of an entry (R199); a pair source, which only an LD has, counts by its even register. -/
def XEntry.set (x : XEntry) : Nat := (if x.crew.isSome then x.names.take 1 else x.names).foldl (fun a n => a ^^^ (n.1 % 64)) (x.word / 4 % 64)

/-- The content that a hit gives (R202): that of the live register the entry names. -/
def Sub.hit (b : Sub) (key : XEntry) (now : Nat) : Option Content :=
  match b.xpos.find? (fun e => e.sameKey key && (e.crew.isNone || decide (now < e.expires))) with
  | some e => (b.live.find? (fun p => p.hash == e.result.1 && p.suffix == e.result.2)).map (fun p => p.content)
  | none => none

/-- The table after a use of an entry. -/
def Sub.touchKey (b : Sub) (key : XEntry) : Sub :=
  { b with xpos := b.xpos.map (fun e => if e.sameKey key then { e with used := b.xclock } else e),
           xclock := b.xclock + 1 }

/-- The result of a hit is usable 2 cycles after issue, in each of the places that take it: a register, and a latch as
64 + its number (R202, R383). -/
def Sub.hitReady (b : Sub) (slot : Nat) (ds : List Nat) (cycle : Nat) : Sub :=
  { b with ready := b.ready.filter (fun x => !(x.1 == slot && ds.contains x.2.1)) ++ ds.map (fun d => (slot, d, cycle + 2)) }

/-- The table with an entry inserted; the least recently used way of a full set goes (R199). -/
def Sub.insert (b : Sub) (e : XEntry) : Sub :=
  let rest := b.xpos.filter (fun x => !(x.sameKey e))
  let set := rest.filter (fun x => x.set == e.set)
  let old := set.foldl (fun m x => min m x.used) b.xclock
  let b1 := if set.length < 4 then { b with xpos := rest }
    else ({ b with xpos := rest.filter (fun x => !(x.set == e.set && x.used == old)) }).count 3
  ({ b1 with xpos := b1.xpos ++ [{ e with used := b.xclock }], xclock := b.xclock + 1 }).count 2

/-- The content an eligible instruction gives, from the table on a hit and computed on a miss (R202). -/
def State.memoized (s : State) (i : Issue) (key : Option XEntry) (c : Content) : Content :=
  match key with
  | none => c
  | some k => ((s.sub i.core i.sub).hit k s.cycle).getD c

/-- The table after an eligible instruction has given its result to the places ds: its use on a hit; on a miss its
insertion when the result is a named register, d (R202). A key that names a register which died in the write goes in the
same cycle (R195). hit tells which it was. -/
def State.memoize (s : State) (i : Issue) (key : Option XEntry) (hit : Bool) (d : Option Nat) (ds : List Nat) : State :=
  match key with
  | none => s
  | some k =>
    s.modSub i.core i.sub (fun b =>
      if hit then ((b.touchKey k).hitReady i.slot ds s.cycle).count 0
      else
        match d.bind (fun x => ((b.crew i.slot).reg x).name) with
        | some n => ((b.count 1).insert { k with result := n }).purge
        | none => b.count 1)

/-- The places that an instruction of the 64-bit register format gives its result: its register and its latch (R208). -/
def resultPlaces (f : L64) : List Nat :=
  (if f.nwb == 1 then [] else [f.d.toNat]) ++ (if f.hold == 3 then [] else [64 + f.hold.toNat])

/-! ### Register instructions -/

/-- A register instruction: sources A, B and C as used, a result for the effective lanes, one destination (R243). op is
the opcode whose eligibility memo tells (R201); lat is its latency (R383), after which a slot that it sets clears (R106). -/
def State.alu (s : State) (op : BitVec 7) (f : L64) (ua ub uc memo : Bool) (g : Srcs → Content × Mask) (lat : Nat := 4) :
    Host.Outcome State Fault Refusal :=
  let srcs := (if ua then [f.a.toNat] else []) ++ (if ub then [f.b.toNat] else []) ++
    (if uc then [f.c.toNat] else [])
  s.issueWith (lNeeds f (f.d.toNat :: srcs) (if f.nwb == 1 then [] else [f.d.toNat])) (fun i t =>
    match t.sources i f ua ub uc with
    | .error e =>
      let part := (t.crew i.ref).effective i.part f.pred.toNat (f.pn == 1)
      if part == 0 then t.retire i false else t.failLatch i part e
    | .ok x =>
      let key := if memo then t.memoKey i (lKeyWord op f ua ub uc) srcs f.d.toNat x.part none else none
      let r := g x
      let hit := (key.bind (fun k => (t.sub i.core i.sub).hit k t.cycle)).isSome
      ((t.produce i f x.part (t.memoized i key r.1, r.2) hit).memoize i key hit
        (if f.nwb == 1 then none else some f.d.toNat) (resultPlaces f)).sets i (slotOf f.sbs) x.part (if hit then 2 else lat))

/-- A register instruction with one destination and an immediate (R220). -/
def State.aluK (s : State) (op : BitVec 7) (f : K64) (ua memo : Bool) (g : Word → Word) :
    Host.Outcome State Fault Refusal :=
  let srcs := if ua then [f.a.toNat] else []
  s.issueWith (kNeeds f (f.d.toNat :: srcs) [f.d.toNat]) (fun i t =>
    let w := t.crew i.ref
    let part := w.effective i.part f.pred.toNat (f.pn == 1)
    match t.operandIf i ua f.a.toNat with
    | .error e => if part == 0 then t.retire i false else t.failLatch i part e
    | .ok x =>
      let key := if memo then t.memoKey i (kKeyWord op f ua) srcs f.d.toNat part none else none
      let hit := (key.bind (fun k => (t.sub i.core i.sub).hit k t.cycle)).isSome
      let c := t.memoized i key (contentOf (fun l => g (lane x.1 l)))
      ((((if part == 0 then t else t.writeDst i.ref f.d.toNat part c (x.2 &&& part) (!hit)).retire i false).memoize i key
        hit (some f.d.toNat) [f.d.toNat]).sets i (slotOf f.sbs) part (if hit then 2 else 4)))

/-! ### Addresses -/

/-- The address of a lane of a memory instruction: the pair A plus the offset, sign-extended (R221, R285). -/
def State.addr (s : State) (i : Issue) (f : M64) (l : Nat) : Nat :=
  wrap 64 (((s.crew i.ref).pair s.freeCtr f.a.toNat l : Nat) + signed 16 f.off.toNat)

/-- The scratchpad offset of a lane: the register A plus the offset, sign-extended (R285). It lies in the 48 bits that
a window address offers only when it is not negative. -/
def State.offset (s : State) (i : Issue) (f : M64) (l : Nat) : Int :=
  ((lane ((s.crew i.ref).source s.freeCtr f.a.toNat) l).toNat : Int) + signed 16 f.off.toNat

end Sys2Proof.Machine
end

