-- ==== Sys2Proof/Machine/Flags.lean ====
section
/-! DEFINITION. Predicates are this machine's only flags: it keeps no exception flags (R122) and no condition
register. The conditions of ICMP and FCMP, their combination with a predicate, predicate logic and votes (R10, R253,
R257, R272, R275). -/

namespace Sys2Proof.Machine

/-- An integer condition (R253): EQ, NE, LT, LE, GT, GE of words taken unsigned or signed. -/
def intCond (cond : Nat) (sgn : Bool) (a b : Word) : Bool :=
  let lt := if sgn then a.slt b else a.ult b
  let gt := if sgn then b.slt a else b.ult a
  match cond with
  | 0 => a == b
  | 1 => a != b
  | 2 => lt
  | 3 => !gt
  | 4 => gt
  | _ => !lt

/-- A floating condition (R257): the six ordered relations, NE being true when unordered, NUM and UNO. -/
def floatCond (cond : Nat) (a b : Word) : Bool :=
  let uno := fp32.isNan a.toNat || fp32.isNan b.toNat
  let x := fp32.rank a.toNat
  let y := fp32.rank b.toNat
  match cond with
  | 0 => !uno && x == y
  | 1 => uno || x != y
  | 2 => !uno && decide (x < y)
  | 3 => !uno && decide (x ≤ y)
  | 4 => !uno && decide (y < x)
  | 5 => !uno && decide (y ≤ x)
  | 6 => !uno
  | _ => uno

/-- A condition combined with the predicate it writes (R253): replace, AND, OR. -/
def combine (mx : Nat) (old cond : Bool) : Bool :=
  if mx == 1 then old && cond else if mx == 2 then old || cond else cond

/-- The value of a predicate in every lane, as a mask (R10). -/
def Crew.predMask (w : Crew) (n : Nat) : Mask := Mask.ofFn (fun l => (w.thread l).pred n)

/-- A compare (R253, R257): the condition of each effective lane, combined, is written to the predicate. -/
def State.compare (s : State) (f : L64) (cond : Word → Word → Bool) : Host.Outcome State Fault Refusal :=
  s.issueWith (lNeeds f [f.a.toNat, f.b.toNat] []) (fun i t =>
    match t.sources i f true true false with
    | .error e =>
      let part := (t.crew i.ref).effective i.part f.pred.toNat (f.pn == 1)
      if part == 0 then t.retire i false else t.failLatch i part e
    | .ok x =>
      let n := f.d.toNat
      let v := Mask.ofFn (fun l =>
        combine f.mx.toNat (((t.crew i.ref).thread l).pred n) (cond (lane x.a l) (lane x.b l)))
      ((t.modCrew i.ref (fun w => w.setPred n x.part v)).retire i false).sets i (slotOf f.sbs) x.part 4)

/-- A table of four bits applied to two bits (R249, R272). -/
def truth (tt : Nat) (a b : Bool) : Bool := bit tt ((if a then 2 else 0) + (if b then 1 else 0))

end Sys2Proof.Machine
end

