-- ==== Sys2Proof/Machine/Integer.lean ====
section
/-! DEFINITION. Integer and logic instructions (R246 to R254). -/

namespace Sys2Proof.Machine

/-- A bit of the C-field modifiers of an opcode that names no register in C (R244). -/
def cbit (f : L64) (k : Nat) : Bool := f.c.getLsbD k

/-- IADD: (a + b) mod 2^32 (R246). -/
def iaddRes (_ : L64) : Srcs → Content × Mask := perLane (fun a b _ => a + b)

/-- ISUB: (a − b) mod 2^32 (R246). -/
def isubRes (_ : L64) : Srcs → Content × Mask := perLane (fun a b _ => a - b)

/-- IMUL: (a × b) mod 2^32 (R246). -/
def imulRes (_ : L64) : Srcs → Content × Mask := perLane (fun a b _ => a * b)

/-- Bits [63:32] of the exact product, unsigned or signed (R246). -/
def mulHigh (sgn : Bool) (a b : Word) : Word :=
  if sgn then BitVec.ofNat 32 (wrap 64 (a.toInt * b.toInt) / 2 ^ 32)
  else BitVec.ofNat 32 (a.toNat * b.toNat / 2 ^ 32)

/-- IMULH (R246). -/
def imulhRes (f : L64) : Srcs → Content × Mask := perLane (fun a b _ => mulHigh (cbit f 0) a b)

/-- IMIN: the smaller under the chosen interpretation (R246). -/
def iminRes (f : L64) : Srcs → Content × Mask :=
  perLane (fun a b _ => if intCond 2 (cbit f 0) b a then b else a)

/-- IMAX: the larger under the chosen interpretation (R246). -/
def imaxRes (f : L64) : Srcs → Content × Mask :=
  perLane (fun a b _ => if intCond 4 (cbit f 0) b a then b else a)

/-- |a|; the most negative number gives itself, or the largest number with .SAT (R246). -/
def iabsWord (sat : Bool) (a : Word) : Word :=
  if a == 0x80000000#32 then (if sat then 0x7FFFFFFF#32 else a) else if a.getLsbD 31 then -a else a

/-- IABS (R246). -/
def iabsRes (f : L64) : Srcs → Content × Mask := perLane (fun a _ _ => iabsWord (cbit f 0) a)

/-- AND (R246). -/
def andRes (_ : L64) : Srcs → Content × Mask := perLane (fun a b _ => a &&& b)

/-- OR (R246). -/
def orRes (_ : L64) : Srcs → Content × Mask := perLane (fun a b _ => a ||| b)

/-- XOR (R246). -/
def xorRes (_ : L64) : Srcs → Content × Mask := perLane (fun a b _ => a ^^^ b)

/-- The word whose bit i a function gives. -/
def wordOfBits (g : Nat → Bool) : Word := BitVec.ofNat 32 ((upTo 32).foldl (fun x i => if g i then x + 2 ^ i else x) 0)

/-- BCNT: the number of set bits (R246). -/
def bcntRes (_ : L64) : Srcs → Content × Mask :=
  perLane (fun a _ _ => BitVec.ofNat 32 ((upTo 32).filter (fun i => a.getLsbD i)).length)

/-- BREV: bit i of the result is bit 31 − i (R246). -/
def brevRes (_ : L64) : Srcs → Content × Mask := perLane (fun a _ _ => wordOfBits (fun i => a.getLsbD (31 - i)))

/-- An integer clamped to a range. -/
def clamp (lo hi x : Int) : Int := min (max x lo) hi

/-- ADDS: the exact sum or difference, clamped to the type's range (R247). -/
def addsWord (sgn sub : Bool) (a b : Word) : Word :=
  let x : Int := if sgn then a.toInt else a.toNat
  let y : Int := if sgn then b.toInt else b.toNat
  let r := if sub then x - y else x + y
  BitVec.ofInt 32 (if sgn then clamp (-0x80000000) 0x7FFFFFFF r else clamp 0 0xFFFFFFFF r)

/-- ADDS (R247). -/
def addsRes (f : L64) : Srcs → Content × Mask := perLane (fun a b _ => addsWord (cbit f 0) (cbit f 1) a b)

/-- IMAC: (a × b + c) mod 2^32 (R248). -/
def imacRes (_ : L64) : Srcs → Content × Mask := perLane (fun a b c => a * b + c)

/-- A field of n bits at bit lo of a word, read signed or unsigned. -/
def piece (sgn : Bool) (n lo : Nat) (a : Word) : Int :=
  if sgn then signed n (a.toNat / 2 ^ lo) else ((a.toNat / 2 ^ lo % 2 ^ n : Nat) : Int)

/-- IMACW: c plus the products of the halves, mod 2^32 (R248). -/
def imacwRes (f : L64) : Srcs → Content × Mask :=
  let sgn := f.mx.getLsbD 0
  perLane (fun a b c => BitVec.ofInt 32
    ((c.toNat : Int) + piece sgn 16 0 a * piece sgn 16 0 b + piece sgn 16 16 a * piece sgn 16 16 b))

/-- IDOT4: c plus the products of the bytes, mod 2^32 (R248). -/
def idot4Res (f : L64) : Srcs → Content × Mask :=
  perLane (fun a b c => BitVec.ofInt 32 ((upTo 4).foldl
    (fun x i => x + piece (f.mx.getLsbD 0) 8 (8 * i) a * piece (f.mx.getLsbD 1) 8 (8 * i) b) (c.toNat : Int)))

/-- LOGI: bit i of the result is tt[2 × a[i] + b[i]], tt[1:0] in MX and tt[3:2] in C[1:0] (R249). -/
def logiRes (f : L64) : Srcs → Content × Mask :=
  let tt := f.mx.toNat + 4 * (f.c.toNat % 4)
  perLane (fun a b _ => wordOfBits (fun i => truth tt (a.getLsbD i) (b.getLsbD i)))

/-- SHL: a count of 32 or more shifts every bit out (R250). -/
def shlRes (_ : L64) : Srcs → Content × Mask := perLane (fun a b _ => a <<< b.toNat)

/-- SHR, logical or arithmetic (R250). -/
def shrRes (f : L64) : Srcs → Content × Mask :=
  perLane (fun a b _ => if cbit f 0 then a.sshiftRight b.toNat else a >>> b.toNat)

/-- FUNL: the 64-bit value with b high, shifted by c[5:0]; .R takes the low word, .L the high word (R250). -/
def funlRes (f : L64) : Srcs → Content × Mask :=
  perLane (fun a b c =>
    let v : BitVec 64 := b ++ a
    let n := c.toNat % 64
    if f.mx.getLsbD 0 then (v <<< n).extractLsb' 32 32 else (v >>> n).extractLsb' 0 32)

/-- The position and length that b gives a field (R251). -/
def fieldSpec (b : Word) : Nat × Nat := (bits b.toNat 4 0, min (bits b.toNat 13 8) 32)

/-- BEXT (R251). -/
def bextWord (sgn : Bool) (a b : Word) : Word :=
  let x := a.toNat / 2 ^ (fieldSpec b).1
  let len := (fieldSpec b).2
  if len == 0 then 0
  else if sgn then BitVec.ofInt 32 (signed len x) else BitVec.ofNat 32 (x % 2 ^ len)

/-- BEXT (R251). -/
def bextRes (f : L64) : Srcs → Content × Mask := perLane (fun a b _ => bextWord (cbit f 0) a b)

/-- BINS: the low len bits of a at position pos of c (R251). -/
def binsWord (a b c : Word) : Word :=
  let pos := (fieldSpec b).1
  let m : Word := BitVec.ofNat 32 ((2 ^ (fieldSpec b).2 - 1) * 2 ^ pos)
  (c &&& ~~~ m) ||| ((a <<< pos) &&& m)

/-- BINS (R251). -/
def binsRes (_ : L64) : Srcs → Content × Mask := perLane binsWord

/-- BSCAN: leading zeros, trailing zeros, highest set bit, leading sign copies (R252). -/
def bscanWord (mode : Nat) (a : Word) : Word :=
  let top := (upTo 32).reverse.find? (fun i => a.getLsbD i)
  match mode with
  | 0 => BitVec.ofNat 32 (match top with
    | some i => 31 - i
    | none => 32)
  | 1 => BitVec.ofNat 32 (((upTo 32).find? (fun i => a.getLsbD i)).getD 32)
  | 2 => match top with
    | some i => BitVec.ofNat 32 i
    | none => 0xFFFFFFFF#32
  | _ =>
    match (upTo 31).reverse.find? (fun i => a.getLsbD i != a.getLsbD 31) with
    | some i => BitVec.ofNat 32 (30 - i)
    | none => 31#32

/-- BSCAN (R252). -/
def bscanRes (f : L64) : Srcs → Content × Mask := perLane (fun a _ _ => bscanWord (f.c.toNat % 4) a)

/-- BPERM: each byte is chosen, zeroed or sign-filled by its nibble of b (R252). -/
def bpermWord (a b : Word) : Word :=
  BitVec.ofNat 32 ((upTo 4).foldl (fun x i =>
    let sel := b.toNat / 2 ^ (4 * i) % 16
    let byte := a.toNat / 2 ^ (8 * (sel % 4)) % 256
    let v := if bit sel 2 then 0 else if bit sel 3 then (if bit byte 7 then 255 else 0) else byte
    x + v * 2 ^ (8 * i)) 0)

/-- BPERM (R252). -/
def bpermRes (_ : L64) : Srcs → Content × Mask := perLane (fun a b _ => bpermWord a b)

/-! ### Instructions -/

/-- IADD in the 64-bit form (R246). -/
def execIadd (f : L64) (s : State) : Host.Outcome State Fault Refusal :=
  s.alu 0x00 f true true false true (iaddRes f)

/-- IADD in the 32-bit form, by its expansion (R246, R222). -/
def execIaddS32 (f : S32) (s : State) : Host.Outcome State Fault Refusal :=
  s.alu 0x00 (f.expand Shape.alu2) true true false true (iaddRes (f.expand Shape.alu2))

/-- IADD in the compact form, by its expansion (R246, R230). -/
def execIaddC16 (f : C16) (s : State) : Host.Outcome State Fault Refusal :=
  s.alu 0x00 (f.expand false 0) true true false true (iaddRes (f.expand false 0))

/-- ISUB in the 64-bit form (R246). -/
def execIsub (f : L64) (s : State) : Host.Outcome State Fault Refusal :=
  s.alu 0x01 f true true false true (isubRes f)

/-- ISUB in the 32-bit form, by its expansion (R246, R222). -/
def execIsubS32 (f : S32) (s : State) : Host.Outcome State Fault Refusal :=
  s.alu 0x01 (f.expand Shape.alu2) true true false true (isubRes (f.expand Shape.alu2))

/-- ISUB in the compact form, by its expansion (R246, R230). -/
def execIsubC16 (f : C16) (s : State) : Host.Outcome State Fault Refusal :=
  s.alu 0x01 (f.expand false 0) true true false true (isubRes (f.expand false 0))

/-- IMUL in the 64-bit form (R246). -/
def execImul (f : L64) (s : State) : Host.Outcome State Fault Refusal :=
  s.alu 0x03 f true true false true (imulRes f)

/-- IMUL in the 32-bit form, by its expansion (R246, R222). -/
def execImulS32 (f : S32) (s : State) : Host.Outcome State Fault Refusal :=
  s.alu 0x03 (f.expand Shape.alu2) true true false true (imulRes (f.expand Shape.alu2))

/-- IMULH in the 64-bit form (R246). -/
def execImulh (f : L64) (s : State) : Host.Outcome State Fault Refusal :=
  s.alu 0x04 f true true false true (imulhRes f)

/-- IMULH in the 32-bit form, by its expansion (R246, R222). -/
def execImulhS32 (f : S32) (s : State) : Host.Outcome State Fault Refusal :=
  s.alu 0x04 (f.expand Shape.alu2) true true false true (imulhRes (f.expand Shape.alu2))

/-- IMAC in the 64-bit form (R248). -/
def execImac (f : L64) (s : State) : Host.Outcome State Fault Refusal :=
  s.alu 0x05 f true true true true (imacRes f)

/-- IMACW in the 64-bit form (R248). -/
def execImacw (f : L64) (s : State) : Host.Outcome State Fault Refusal :=
  s.alu 0x06 f true true true true (imacwRes f)

/-- IMIN in the 64-bit form (R246). -/
def execImin (f : L64) (s : State) : Host.Outcome State Fault Refusal :=
  s.alu 0x07 f true true false true (iminRes f)

/-- IMIN in the 32-bit form, by its expansion (R246, R222). -/
def execIminS32 (f : S32) (s : State) : Host.Outcome State Fault Refusal :=
  s.alu 0x07 (f.expand Shape.alu2) true true false true (iminRes (f.expand Shape.alu2))

/-- IMIN in the compact form, by its expansion (R246, R230). -/
def execIminC16 (f : C16) (s : State) : Host.Outcome State Fault Refusal :=
  s.alu 0x07 (f.expand false 1) true true false true (iminRes (f.expand false 1))

/-- IMAX in the 64-bit form (R246). -/
def execImax (f : L64) (s : State) : Host.Outcome State Fault Refusal :=
  s.alu 0x08 f true true false true (imaxRes f)

/-- IMAX in the 32-bit form, by its expansion (R246, R222). -/
def execImaxS32 (f : S32) (s : State) : Host.Outcome State Fault Refusal :=
  s.alu 0x08 (f.expand Shape.alu2) true true false true (imaxRes (f.expand Shape.alu2))

/-- IMAX in the compact form, by its expansion (R246, R230). -/
def execImaxC16 (f : C16) (s : State) : Host.Outcome State Fault Refusal :=
  s.alu 0x08 (f.expand false 1) true true false true (imaxRes (f.expand false 1))

/-- IABS in the 64-bit form (R246). -/
def execIabs (f : L64) (s : State) : Host.Outcome State Fault Refusal :=
  s.alu 0x09 f true false false true (iabsRes f)

/-- IABS in the 32-bit form, by its expansion (R246, R222). -/
def execIabsS32 (f : S32) (s : State) : Host.Outcome State Fault Refusal :=
  s.alu 0x09 (f.expand Shape.alu1) true false false true (iabsRes (f.expand Shape.alu1))

/-- AND in the 64-bit form (R246). -/
def execAnd (f : L64) (s : State) : Host.Outcome State Fault Refusal :=
  s.alu 0x0A f true true false true (andRes f)

/-- AND in the 32-bit form, by its expansion (R246, R222). -/
def execAndS32 (f : S32) (s : State) : Host.Outcome State Fault Refusal :=
  s.alu 0x0A (f.expand Shape.alu2) true true false true (andRes (f.expand Shape.alu2))

/-- AND in the compact form, by its expansion (R246, R230). -/
def execAndC16 (f : C16) (s : State) : Host.Outcome State Fault Refusal :=
  s.alu 0x0A (f.expand false 0) true true false true (andRes (f.expand false 0))

/-- OR in the 64-bit form (R246). -/
def execOr (f : L64) (s : State) : Host.Outcome State Fault Refusal :=
  s.alu 0x0B f true true false true (orRes f)

/-- OR in the 32-bit form, by its expansion (R246, R222). -/
def execOrS32 (f : S32) (s : State) : Host.Outcome State Fault Refusal :=
  s.alu 0x0B (f.expand Shape.alu2) true true false true (orRes (f.expand Shape.alu2))

/-- OR in the compact form, by its expansion (R246, R230). -/
def execOrC16 (f : C16) (s : State) : Host.Outcome State Fault Refusal :=
  s.alu 0x0B (f.expand false 0) true true false true (orRes (f.expand false 0))

/-- XOR in the 64-bit form (R246). -/
def execXor (f : L64) (s : State) : Host.Outcome State Fault Refusal :=
  s.alu 0x0C f true true false true (xorRes f)

/-- XOR in the 32-bit form, by its expansion (R246, R222). -/
def execXorS32 (f : S32) (s : State) : Host.Outcome State Fault Refusal :=
  s.alu 0x0C (f.expand Shape.alu2) true true false true (xorRes (f.expand Shape.alu2))

/-- XOR in the compact form, by its expansion (R246, R230). -/
def execXorC16 (f : C16) (s : State) : Host.Outcome State Fault Refusal :=
  s.alu 0x0C (f.expand false 0) true true false true (xorRes (f.expand false 0))

/-- LOGI in the 64-bit form (R249). -/
def execLogi (f : L64) (s : State) : Host.Outcome State Fault Refusal :=
  s.alu 0x0D f true true false true (logiRes f)

/-- LOGI in the 32-bit form, by its expansion (R249, R222). -/
def execLogiS32 (f : S32) (s : State) : Host.Outcome State Fault Refusal :=
  s.alu 0x0D (f.expand Shape.alu2) true true false true (logiRes (f.expand Shape.alu2))

/-- SHL in the 64-bit form (R250). -/
def execShl (f : L64) (s : State) : Host.Outcome State Fault Refusal :=
  s.alu 0x0E f true true false true (shlRes f)

/-- SHL in the 32-bit form, by its expansion (R250, R222). -/
def execShlS32 (f : S32) (s : State) : Host.Outcome State Fault Refusal :=
  s.alu 0x0E (f.expand Shape.alu2) true true false true (shlRes (f.expand Shape.alu2))

/-- SHL in the compact form, by its expansion (R250, R230). -/
def execShlC16 (f : C16) (s : State) : Host.Outcome State Fault Refusal :=
  s.alu 0x0E (f.expand false 0) true true false true (shlRes (f.expand false 0))

/-- SHR in the 64-bit form (R250). -/
def execShr (f : L64) (s : State) : Host.Outcome State Fault Refusal :=
  s.alu 0x0F f true true false true (shrRes f)

/-- SHR in the 32-bit form, by its expansion (R250, R222). -/
def execShrS32 (f : S32) (s : State) : Host.Outcome State Fault Refusal :=
  s.alu 0x0F (f.expand Shape.alu2) true true false true (shrRes (f.expand Shape.alu2))

/-- SHR in the compact form, by its expansion (R250, R230). -/
def execShrC16 (f : C16) (s : State) : Host.Outcome State Fault Refusal :=
  s.alu 0x0F (f.expand false 0) true true false true (shrRes (f.expand false 0))

/-- FUNL in the 64-bit form (R250). -/
def execFunl (f : L64) (s : State) : Host.Outcome State Fault Refusal :=
  s.alu 0x10 f true true true true (funlRes f)

/-- BEXT in the 64-bit form (R251). -/
def execBext (f : L64) (s : State) : Host.Outcome State Fault Refusal :=
  s.alu 0x11 f true true false true (bextRes f)

/-- BEXT in the 32-bit form, by its expansion (R251, R222). -/
def execBextS32 (f : S32) (s : State) : Host.Outcome State Fault Refusal :=
  s.alu 0x11 (f.expand Shape.alu2) true true false true (bextRes (f.expand Shape.alu2))

/-- BINS in the 64-bit form (R251). -/
def execBins (f : L64) (s : State) : Host.Outcome State Fault Refusal :=
  s.alu 0x12 f true true true true (binsRes f)

/-- BCNT in the 64-bit form (R246). -/
def execBcnt (f : L64) (s : State) : Host.Outcome State Fault Refusal :=
  s.alu 0x13 f true false false true (bcntRes f)

/-- BCNT in the 32-bit form, by its expansion (R246, R222). -/
def execBcntS32 (f : S32) (s : State) : Host.Outcome State Fault Refusal :=
  s.alu 0x13 (f.expand Shape.alu1) true false false true (bcntRes (f.expand Shape.alu1))

/-- BSCAN in the 64-bit form (R252). -/
def execBscan (f : L64) (s : State) : Host.Outcome State Fault Refusal :=
  s.alu 0x14 f true false false true (bscanRes f)

/-- BSCAN in the 32-bit form, by its expansion (R252, R222). -/
def execBscanS32 (f : S32) (s : State) : Host.Outcome State Fault Refusal :=
  s.alu 0x14 (f.expand Shape.alu1) true false false true (bscanRes (f.expand Shape.alu1))

/-- BREV in the 64-bit form (R246). -/
def execBrev (f : L64) (s : State) : Host.Outcome State Fault Refusal :=
  s.alu 0x15 f true false false true (brevRes f)

/-- BREV in the 32-bit form, by its expansion (R246, R222). -/
def execBrevS32 (f : S32) (s : State) : Host.Outcome State Fault Refusal :=
  s.alu 0x15 (f.expand Shape.alu1) true false false true (brevRes (f.expand Shape.alu1))

/-- BPERM in the 64-bit form (R252). -/
def execBperm (f : L64) (s : State) : Host.Outcome State Fault Refusal :=
  s.alu 0x16 f true true false true (bpermRes f)

/-- BPERM in the 32-bit form, by its expansion (R252, R222). -/
def execBpermS32 (f : S32) (s : State) : Host.Outcome State Fault Refusal :=
  s.alu 0x16 (f.expand Shape.alu2) true true false true (bpermRes (f.expand Shape.alu2))

/-- ADDS in the 64-bit form (R247). -/
def execAdds (f : L64) (s : State) : Host.Outcome State Fault Refusal :=
  s.alu 0x19 f true true false true (addsRes f)

/-- ADDS in the 32-bit form, by its expansion (R247, R222). -/
def execAddsS32 (f : S32) (s : State) : Host.Outcome State Fault Refusal :=
  s.alu 0x19 (f.expand Shape.alu2) true true false true (addsRes (f.expand Shape.alu2))

/-- IDOT4 in the 64-bit form (R248). -/
def execIdot4 (f : L64) (s : State) : Host.Outcome State Fault Refusal :=
  s.alu 0x1A f true true true true (idot4Res f)

/-- IADDI in the 64-bit form: (a + imm) mod 2^32 (R246). -/
def execIaddi (f : K64) (s : State) : Host.Outcome State Fault Refusal :=
  s.aluK 0x02 f true true (fun a => a + f.imm)

/-- IADDI in the 32-bit form, by its expansion (R246, R222). -/
def execIaddiI32 (f : I32) (s : State) : Host.Outcome State Fault Refusal :=
  s.aluK 0x02 (f.expand true true) true true (fun a => a + (f.expand true true).imm)

/-- ICMP: the condition in C[2:0], signed with C[3], combined with the predicate as MX says (R253). -/
def execIcmp (f : L64) (s : State) : Host.Outcome State Fault Refusal :=
  s.compare f (intCond (f.c.toNat % 8) (cbit f 3))

/-- SEL: a where the predicate C[4:0], negated by C[5], is 1, and b otherwise (R254). -/
def execSel (f : L64) (s : State) : Host.Outcome State Fault Refusal :=
  let n := f.c.toNat % 32
  let p := match s.issue with
    | some i => (s.crew i.ref).predMask n
    | none => 0
  s.alu 0x18 f true true false false (fun x =>
    (contentOf (fun l => if p.getLsbD l != cbit f 5 then lane x.a l else lane x.b l), x.ta ||| x.tb))

end Sys2Proof.Machine
end

