-- ==== Sys2Proof/Machine/Special.lean ====
section
/-! DEFINITION. The special functions of R259: integer fixed-point series wide enough that one rounding to FP32
gives the rounding of the exact value (log 20, UNVERIFIED: the width is not proved sufficient here). -/

namespace Sys2Proof.Machine

/-- Fraction bits of the fixed-point numbers. -/
def sfnBits : Nat := 480

/-- 1 in fixed point. -/
def sfnOne : Nat := 2 ^ sfnBits

/-- Σ x^(2k+1) / (2k+1) with sign s alternating (true) or not: atan or atanh of x = 1/n from the term p = x^(2k+1)
on. -/
def invSeries (alt : Bool) (n2 : Nat) : Nat → Nat → Nat → Int
  | 0, _, _ => 0
  | fuel + 1, k, p =>
    let t : Int := (p / (2 * k + 1) : Nat)
    (if alt && k % 2 == 1 then -t else t) + invSeries alt n2 fuel (k + 1) (p / n2)

/-- atan (1/n) in fixed point. -/
def atanInv (n : Nat) : Int := invSeries true (n * n) 220 0 (sfnOne / n)

/-- π/2 in fixed point: 2 × (4 atan (1/5) − atan (1/239)). -/
def halfPi : Nat := (8 * atanInv 5 - 2 * atanInv 239).toNat

/-- ln 2 in fixed point: 2 atanh (1/3). -/
def ln2 : Nat := (2 * invSeries false 9 160 0 (sfnOne / 3)).toNat

/-- Σ of r^n / n! for n of the parity of the first one given, with alternating signs when alt holds: sine, cosine
(step 2) and exponential (step 1). -/
def powSeries (alt : Bool) (step r : Nat) : Nat → Nat → Nat → Bool → Int
  | 0, _, _, _ => 0
  | fuel + 1, n, t, neg =>
    let nxt := if step == 2 then t * r / sfnOne / (n + 1) * r / sfnOne / (n + 2) else t * r / sfnOne / (n + 1)
    (if alt && neg then -(t : Int) else t) + powSeries alt step r fuel (n + step) nxt (!neg)

/-- sin r for r in fixed point below π/2. -/
def sinFix (r : Nat) : Nat := (powSeries true 2 r 60 1 r false).toNat

/-- cos r for r in fixed point below π/2. -/
def cosFix (r : Nat) : Nat := (powSeries true 2 r 60 0 sfnOne false).toNat

/-- e^r for r in fixed point below 1. -/
def expFix (r : Nat) : Nat := (powSeries false 1 r 110 0 sfnOne false).toNat

/-- atanh z for z in fixed point, at most 1/3. -/
def atanhFix (z : Nat) : Nat → Nat → Nat → Nat
  | 0, _, _ => 0
  | fuel + 1, k, p => p / (2 * k + 1) + atanhFix z fuel (k + 1) (p * z / sfnOne * z / sfnOne)

/-- A magnitude n × 2^e in fixed point. -/
def toFix (n : Nat) (e : Int) : Nat := (fracOf n 1 (e + sfnBits)).1 / (fracOf n 1 (e + sfnBits)).2

/-- A fixed-point magnitude rounded to FP32 to nearest. -/
def ofFix (neg : Bool) (v : Nat) (e : Int) : FVal := .fin neg v (e - sfnBits)

/-- ⌊√n⌋, one bit at a time from bit b down. -/
def isqrtFrom (n : Nat) : Nat → Nat → Nat
  | 0, t => t
  | b + 1, t =>
    let u := t + 2 ^ b
    isqrtFrom n b (if u * u ≤ n then u else t)

/-- ⌊√n⌋. -/
def isqrt (n : Nat) : Nat := isqrtFrom n (Nat.log2 n / 2 + 1) 0

/-- √ (n × 2^e) with the inexact part kept as a low bit, so that one rounding is exact. -/
def sqrtVal (n : Nat) (e : Int) : FVal :=
  let odd : Nat := (e % 2).toNat
  let x := n * 2 ^ (odd + 128)
  let t := isqrt x
  .fin false (2 * t + (if t * t == x then 0 else 1)) ((e - odd) / 2 - 64 - 1)

/-- 1 / √ (n × 2^e) with the inexact part kept as a low bit. -/
def rsqrtVal (n : Nat) (e : Int) : FVal :=
  let odd : Nat := (e % 2).toNat
  let k := n * 2 ^ odd
  let t := isqrt (2 ^ 256 / k)
  .fin false (2 * t + (if t * t * k == 2 ^ 256 then 0 else 1)) (-(e - odd) / 2 - 128 - 1)

/-- 2^x for x = ±n × 2^e (R259). -/
def exp2Val (neg : Bool) (n : Nat) (e : Int) : FVal :=
  if n == 0 then .fin false 1 0
  else if 9 ≤ floorLog n 1 + e then (if neg then .fin false 1 (-400) else .fin false 1 400)
  else
    let x : Int := if neg then -(toFix n e : Int) else toFix n e
    let i := x / (sfnOne : Int)
    let f := (x - i * sfnOne).toNat
    ofFix false (expFix (f * ln2 / sfnOne)) i

/-- log2 (n × 2^e) for n > 0 (R259). -/
def log2Val (n : Nat) (e : Int) : FVal :=
  let k := Nat.log2 n
  let m := toFix n (-(k : Int))
  let z := (m - sfnOne) * sfnOne / (m + sfnOne)
  let ln := 2 * atanhFix z 160 0 z
  let r : Int := (e + k) * (sfnOne : Int) + ((ln * sfnOne / ln2 : Nat) : Int)
  .fin (decide (r < 0)) r.natAbs (-(sfnBits : Int))

/-- tanh of the positive number n × 2^e (R259). -/
def tanhVal (neg : Bool) (n : Nat) (e : Int) : Nat :=
  if 4 ≤ floorLog n 1 + e then fp32.signed neg 0x3F800000
  else
    let y := 2 * toFix n e
    let i := y / ln2
    let x := expFix (y - i * ln2) * 2 ^ i
    fp32.signed neg (fp32.roundMag .rn neg (x - sfnOne) (x + sfnOne) 0)

/-- sin (quarter 0) or cos (quarter 1) of ±n × 2^e: the quadrant and the remainder choose the series. -/
def trigVal (cosine neg : Bool) (n : Nat) (e : Int) : FVal :=
  let x := toFix n e
  let k := x / halfPi
  let r := x - k * halfPi
  let q := (k + (if cosine then 1 else 0)) % 4
  let v := if q % 2 == 0 then sinFix r else cosFix r
  ofFix ((decide (2 ≤ q)) != (neg && !cosine)) v 0

/-- A special function of a word (R259). -/
def sfn (fn : Nat) (a : Word) : Word :=
  let out := fun v => fword .rn v
  match fval a with
  | .nan => out .nan
  | .inf neg =>
    match fn with
    | 0 => out (.fin neg 0 0)
    | 1 => if neg then out .nan else out (.fin false 0 0)
    | 2 => if neg then out .nan else out (.inf false)
    | 3 => if neg then out (.fin false 0 0) else out (.inf false)
    | 4 => if neg then out .nan else out (.inf false)
    | 7 => out (.fin neg 1 0)
    | _ => out .nan
  | .fin neg n e =>
    if n == 0 then
      match fn with
      | 0 => out (.inf neg)
      | 1 => out (.inf neg)
      | 2 => out (.fin neg 0 0)
      | 3 => out (.fin false 1 0)
      | 4 => out (.inf true)
      | 6 => out (.fin false 1 0)
      | _ => out (.fin neg 0 0)
    else
      match fn with
      | 0 =>
        let c := fp32.roundMag .rn neg 1 n (-e)
        BitVec.ofNat 32 (fp32.signed neg (if fp32.maxCode < c then fp32.infCode else c))
      | 1 => if neg then out .nan else out (rsqrtVal n e)
      | 2 => if neg then out .nan else out (sqrtVal n e)
      | 3 => out (exp2Val neg n e)
      | 4 => if neg then out .nan else out (log2Val n e)
      | 5 => out (trigVal false neg n e)
      | 6 => out (trigVal true neg n e)
      | _ => BitVec.ofNat 32 (tanhVal neg n e)

end Sys2Proof.Machine
end

