-- ==== Sys2Proof/Machine/Float.lean ====
section
/-! DEFINITION. FP32, pair and conversion instructions (R255 to R267). -/

namespace Sys2Proof.Machine

/-- The mode that MX carries (R129). -/
def mxMode (f : L64) : Mode := modeOf f.mx.toNat

/-- A word with its sign flipped when a modifier says so (R255). -/
def negIf (n : Bool) (w : Word) : FVal := if n then (fval w).neg else fval w

/-- FADD with C[0] negating b and C[1] negating a (R255, R130). -/
def faddRes (f : L64) : Srcs → Content × Mask :=
  perLane (fun a b _ => fword (mxMode f) (FVal.add (mxMode f) (negIf (cbit f 1) a) (negIf (cbit f 0) b)))

/-- FMUL with C[0] negating b and C[1] negating a (R255, R130). -/
def fmulRes (f : L64) : Srcs → Content × Mask :=
  perLane (fun a b _ => fword (mxMode f) (FVal.mul (negIf (cbit f 1) a) (negIf (cbit f 0) b)))

/-- FFMA: a × b + c rounded once (R255). -/
def ffmaRes (f : L64) : Srcs → Content × Mask :=
  perLane (fun a b c => fword (mxMode f) (FVal.add (mxMode f) (FVal.mul (fval a) (fval b)) (fval c)))

/-- FFMS: a × b − c rounded once (R255). -/
def ffmsRes (f : L64) : Srcs → Content × Mask :=
  perLane (fun a b c => fword (mxMode f) (FVal.add (mxMode f) (FVal.mul (fval a) (fval b)) (fval c).neg))

/-- FNMA: −(a × b) + c rounded once (R255). -/
def fnmaRes (f : L64) : Srcs → Content × Mask :=
  perLane (fun a b c => fword (mxMode f) (FVal.add (mxMode f) (FVal.mul (fval a) (fval b)).neg (fval c)))

/-- One operand's bits, the smaller or the larger, with −0 below +0 (R256): exactly one NaN gives the other operand,
or the canonical NaN under .NAN. -/
def minMax (g : Fmt) (larger nanMode : Bool) (a b : Nat) : Nat :=
  if g.isNan a && g.isNan b then g.nanCode
  else if g.isNan a then (if nanMode then g.nanCode else b)
  else if g.isNan b then (if nanMode then g.nanCode else a)
  else if larger then (if g.key a < g.key b then b else a) else (if g.key b < g.key a then b else a)

/-- FMIN (R256). -/
def fminRes (f : L64) : Srcs → Content × Mask :=
  perLane (fun a b _ => BitVec.ofNat 32 (minMax fp32 false (cbit f 0) a.toNat b.toNat))

/-- FMAX (R256). -/
def fmaxRes (f : L64) : Srcs → Content × Mask :=
  perLane (fun a b _ => BitVec.ofNat 32 (minMax fp32 true (cbit f 0) a.toNat b.toNat))

/-- The class bit of a pattern (R258). -/
def classBit (a : Word) : Nat :=
  let neg := a.getLsbD 31
  let e := bits a.toNat 30 23
  let m := bits a.toNat 22 0
  if e == 255 then
    if m == 0 then (if neg then 0 else 7) else if bit m 22 then 9 else 8
  else if e == 0 then
    if m == 0 then (if neg then 3 else 4) else if neg then 2 else 5
  else if neg then 1 else 6

/-- FCLASS: exactly one bit set (R258). -/
def fclassRes (_ : L64) : Srcs → Content × Mask := perLane (fun a _ _ => BitVec.ofNat 32 (2 ^ classBit a))

/-- SFN: the function in C[2:0], rounded once to nearest (R259). -/
def sfnRes (f : L64) : Srcs → Content × Mask := perLane (fun a _ _ => sfn (f.c.toNat % 8) a)

/-- FINT: an integral value in the mode; a zero result keeps its sign (R260). -/
def fintWord (m : Mode) (a : Word) : Word :=
  match fval a with
  | .fin neg n e => fword m (.fin neg (roundInt m neg n e) 0)
  | v => fword m v

/-- FINT (R260). -/
def fintRes (f : L64) : Srcs → Content × Mask := perLane (fun a _ _ => fintWord (mxMode f) a)

/-- FTOI: rounded in the mode and clamped; a NaN gives 0 (R261). -/
def ftoiWord (sgn : Bool) (m : Mode) (a : Word) : Word :=
  let lo : Int := if sgn then -0x80000000 else 0
  let hi : Int := if sgn then 0x7FFFFFFF else 0xFFFFFFFF
  match fval a with
  | .nan => 0
  | .inf neg => BitVec.ofInt 32 (if neg then lo else hi)
  | .fin neg n e =>
    let t := roundInt m neg n e
    BitVec.ofInt 32 (clamp lo hi (if neg then -(t : Int) else t))

/-- FTOI (R261). -/
def ftoiRes (f : L64) : Srcs → Content × Mask := perLane (fun a _ _ => ftoiWord (cbit f 0) (mxMode f) a)

/-- ITOF: the integer rounded once (R261). -/
def itofRes (f : L64) : Srcs → Content × Mask :=
  perLane (fun a _ _ => fword (mxMode f) (FVal.ofInt (if cbit f 0 then a.toInt else (a.toNat : Int))))

/-- FSCALE: a × 2^b rounded once, b a signed integer (R262). An exponent beyond 1024 either way rounds as 1024 does. -/
def fscaleWord (m : Mode) (a b : Word) : Word :=
  match fval a with
  | .fin neg n e => fword m (.fin neg n (e + clamp (-1024) 1024 b.toInt))
  | v => fword m v

/-- FSCALE (R262). -/
def fscaleRes (f : L64) : Srcs → Content × Mask := perLane (fun a b _ => fscaleWord (mxMode f) a b)

/-- A function of the halves of words, each on its own (R131, R263). -/
def halves (g : Nat → Nat → Nat → Nat) (a b c : Word) : Word :=
  BitVec.ofNat 32 (g (a.toNat % 65536) (b.toNat % 65536) (c.toNat % 65536) % 65536 +
    65536 * (g (a.toNat / 65536) (b.toNat / 65536) (c.toNat / 65536) % 65536))

/-- The pair format of C[0] (R263). -/
def pairOf (f : L64) : Fmt := if cbit f 0 then fp16 else bf16

/-- PADD: a + b, or a − b with C[1], per half (R263). -/
def paddRes (f : L64) : Srcs → Content × Mask :=
  let g := pairOf f
  perLane (halves (fun a b _ =>
    g.round (mxMode f) (FVal.add (mxMode f) (g.decode a) (if cbit f 1 then (g.decode b).neg else g.decode b))))

/-- PMUL (R263). -/
def pmulRes (f : L64) : Srcs → Content × Mask :=
  let g := pairOf f
  perLane (halves (fun a b _ => g.round (mxMode f) (FVal.mul (g.decode a) (g.decode b))))

/-- PFMA: BF16 halves, rounded once (R263). -/
def pfmaRes (f : L64) : Srcs → Content × Mask :=
  perLane (halves (fun a b c =>
    bf16.round (mxMode f) (FVal.add (mxMode f) (FVal.mul (bf16.decode a) (bf16.decode b)) (bf16.decode c))))

/-- PMNX: C[1] chooses the larger, C[2] the NaN rule, per half (R263, R256). -/
def pmnxRes (f : L64) : Srcs → Content × Mask :=
  perLane (halves (fun a b _ => minMax (pairOf f) (cbit f 1) (cbit f 2) a b))

/-- The destination and source formats of CVT (R265). -/
def cvtPair (f : L64) : Fmt × Fmt := (fmtOfCode (f.c.toNat % 8), fmtOfCode (f.c.toNat / 8 % 8))

/-- One lane of CVT: the result and the counter it adds to (R265, R142). -/
def cvtLane (f : L64) (a : Word) : Nat × Option Nat :=
  convertReg (cvtPair f).2 (cvtPair f).1 (mxMode f) (cbit f 6) a.toNat

/-- CVT's result (R265). -/
def cvtRes (f : L64) (x : Srcs) : Content × Mask :=
  (contentOf (fun l => BitVec.ofNat 32 (cvtLane f (lane x.a l)).1), x.ta ||| x.tb)

/-- The counts of CVT's effective lanes, each under the identifier in b[5:0] (R265, R142). -/
def cvtCounts (f : L64) (x : Srcs) : List (Nat × StatAdd) :=
  x.part.lanes.filterMap (fun l => ((cvtLane f (lane x.a l)).2).map (fun k =>
    (l, (⟨bits (lane x.b l).toNat 5 0, k, 1⟩ : StatAdd))))

/-- Counts held for release (R143): those of in-gambit lanes with the gambit, the others with the region. -/
def Crew.holdCounts (w : Crew) (cs : List (Nat × StatAdd)) : Crew :=
  let g := w.inGambit
  let mine := cs.filter (fun c => g.getLsbD c.1)
  let w1 := { w with gambit := w.gambit.map (fun (q : Gambit) => ({ q with counts := q.counts ++ mine } : Gambit)) }
  w1.modRegion (fun q => { q with stats := q.stats ++ (cs.filter (fun c => !(g.getLsbD c.1))).map (fun c => c.2) })

/-- CVT: converts one value per lane and counts (R265). -/
def State.cvtWith (s : State) (f : L64) : Host.Outcome State Fault Refusal :=
  s.issueWith (lNeeds f [f.d.toNat, f.a.toNat, f.b.toNat] (if f.nwb == 1 then [] else [f.d.toNat])) (fun i t =>
    match t.sources i f true true false with
    | .error e =>
      let part := (t.crew i.ref).effective i.part f.pred.toNat (f.pn == 1)
      if part == 0 then t.retire i false else t.failLatch i part e
    | .ok x =>
      ((t.modCrew i.ref (fun w => w.holdCounts (cvtCounts f x))).produce i f x.part (cvtRes f x)).sets i (slotOf f.sbs)
        x.part 4)

/-- PACK: FP32 sources to a pair, or pairs to four bytes (R266). -/
def packWord (f : L64) (a b : Word) : Word :=
  let dst := f.c.toNat % 4
  let m := mxMode f
  let n := cbit f 3
  if dst < 2 then
    let g := if dst == 0 then bf16 else fp16
    let one := fun (w : Word) => (g.convert m n 1 0 (fval w)).1
    BitVec.ofNat 32 (one a + 65536 * one b)
  else
    let g := if dst == 2 then e5m2 else e4m3
    let p := if cbit f 2 then fp16 else bf16
    let one := fun (x : Nat) => (g.convert m n 1 0 (p.decode x)).1
    BitVec.ofNat 32 (one (a.toNat % 65536) + 256 * one (a.toNat / 65536) +
      65536 * one (b.toNat % 65536) + 16777216 * one (b.toNat / 65536))

/-- PACK (R266). -/
def packRes (f : L64) : Srcs → Content × Mask := perLane (fun a b _ => packWord f a b)

/-- UNPK: element C[4:3] of a, of the format C[2:0], widened to FP32 (R267). -/
def unpkRes (f : L64) : Srcs → Content × Mask :=
  let g := fmtOfCode (f.c.toNat % 8)
  let n := f.c.toNat / 8 % 4
  let step := if g.width == 16 then 16 else 8
  perLane (fun a _ _ => fword .rn (g.decode (a.toNat / 2 ^ (step * n) % 2 ^ g.width)))

/-! ### Instructions -/

/-- FADD in the 64-bit form (R255). -/
def execFadd (f : L64) (s : State) : Host.Outcome State Fault Refusal :=
  s.alu 0x20 f true true false true (faddRes f)

/-- FADD in the 32-bit form, by its expansion (R255, R222). -/
def execFaddS32 (f : S32) (s : State) : Host.Outcome State Fault Refusal :=
  s.alu 0x20 (f.expand Shape.alu2) true true false true (faddRes (f.expand Shape.alu2))

/-- FADD in the compact form, by its expansion (R255, R230). -/
def execFaddC16 (f : C16) (s : State) : Host.Outcome State Fault Refusal :=
  s.alu 0x20 (f.expand false 0) true true false true (faddRes (f.expand false 0))

/-- FMUL in the 64-bit form (R255). -/
def execFmul (f : L64) (s : State) : Host.Outcome State Fault Refusal :=
  s.alu 0x21 f true true false true (fmulRes f)

/-- FMUL in the 32-bit form, by its expansion (R255, R222). -/
def execFmulS32 (f : S32) (s : State) : Host.Outcome State Fault Refusal :=
  s.alu 0x21 (f.expand Shape.alu2) true true false true (fmulRes (f.expand Shape.alu2))

/-- FMUL in the compact form, by its expansion (R255, R230). -/
def execFmulC16 (f : C16) (s : State) : Host.Outcome State Fault Refusal :=
  s.alu 0x21 (f.expand false 0) true true false true (fmulRes (f.expand false 0))

/-- FFMA in the 64-bit form (R255). -/
def execFfma (f : L64) (s : State) : Host.Outcome State Fault Refusal :=
  s.alu 0x22 f true true true true (ffmaRes f)

/-- FFMS in the 64-bit form (R255). -/
def execFfms (f : L64) (s : State) : Host.Outcome State Fault Refusal :=
  s.alu 0x35 f true true true true (ffmsRes f)

/-- FNMA in the 64-bit form (R255). -/
def execFnma (f : L64) (s : State) : Host.Outcome State Fault Refusal :=
  s.alu 0x36 f true true true true (fnmaRes f)

/-- FMIN in the 64-bit form (R256). -/
def execFmin (f : L64) (s : State) : Host.Outcome State Fault Refusal :=
  s.alu 0x23 f true true false true (fminRes f)

/-- FMIN in the 32-bit form, by its expansion (R256, R222). -/
def execFminS32 (f : S32) (s : State) : Host.Outcome State Fault Refusal :=
  s.alu 0x23 (f.expand Shape.alu2) true true false true (fminRes (f.expand Shape.alu2))

/-- FMIN in the compact form, by its expansion (R256, R230). -/
def execFminC16 (f : C16) (s : State) : Host.Outcome State Fault Refusal :=
  s.alu 0x23 (f.expand false 0) true true false true (fminRes (f.expand false 0))

/-- FMAX in the 64-bit form (R256). -/
def execFmax (f : L64) (s : State) : Host.Outcome State Fault Refusal :=
  s.alu 0x24 f true true false true (fmaxRes f)

/-- FMAX in the 32-bit form, by its expansion (R256, R222). -/
def execFmaxS32 (f : S32) (s : State) : Host.Outcome State Fault Refusal :=
  s.alu 0x24 (f.expand Shape.alu2) true true false true (fmaxRes (f.expand Shape.alu2))

/-- FMAX in the compact form, by its expansion (R256, R230). -/
def execFmaxC16 (f : C16) (s : State) : Host.Outcome State Fault Refusal :=
  s.alu 0x24 (f.expand false 0) true true false true (fmaxRes (f.expand false 0))

/-- FCLASS in the 64-bit form (R258). -/
def execFclass (f : L64) (s : State) : Host.Outcome State Fault Refusal :=
  s.alu 0x26 f true false false true (fclassRes f)

/-- FCLASS in the 32-bit form, by its expansion (R258, R222). -/
def execFclassS32 (f : S32) (s : State) : Host.Outcome State Fault Refusal :=
  s.alu 0x26 (f.expand Shape.alu1) true false false true (fclassRes (f.expand Shape.alu1))

/-- SFN in the 64-bit form (R259). -/
def execSfn (f : L64) (s : State) : Host.Outcome State Fault Refusal :=
  s.alu 0x27 f true false false true (sfnRes f) 12

/-- SFN in the 32-bit form, by its expansion (R259, R222). -/
def execSfnS32 (f : S32) (s : State) : Host.Outcome State Fault Refusal :=
  s.alu 0x27 (f.expand Shape.alu1) true false false true (sfnRes (f.expand Shape.alu1)) 12

/-- FINT in the 64-bit form (R260). -/
def execFint (f : L64) (s : State) : Host.Outcome State Fault Refusal :=
  s.alu 0x28 f true false false true (fintRes f)

/-- FINT in the 32-bit form, by its expansion (R260, R222). -/
def execFintS32 (f : S32) (s : State) : Host.Outcome State Fault Refusal :=
  s.alu 0x28 (f.expand Shape.alu1) true false false true (fintRes (f.expand Shape.alu1))

/-- FTOI in the 64-bit form (R261). -/
def execFtoi (f : L64) (s : State) : Host.Outcome State Fault Refusal :=
  s.alu 0x29 f true false false true (ftoiRes f)

/-- FTOI in the 32-bit form, by its expansion (R261, R222). -/
def execFtoiS32 (f : S32) (s : State) : Host.Outcome State Fault Refusal :=
  s.alu 0x29 (f.expand Shape.alu1) true false false true (ftoiRes (f.expand Shape.alu1))

/-- ITOF in the 64-bit form (R261). -/
def execItof (f : L64) (s : State) : Host.Outcome State Fault Refusal :=
  s.alu 0x2A f true false false true (itofRes f)

/-- ITOF in the 32-bit form, by its expansion (R261, R222). -/
def execItofS32 (f : S32) (s : State) : Host.Outcome State Fault Refusal :=
  s.alu 0x2A (f.expand Shape.alu1) true false false true (itofRes (f.expand Shape.alu1))

/-- FSCALE in the 64-bit form (R262). -/
def execFscale (f : L64) (s : State) : Host.Outcome State Fault Refusal :=
  s.alu 0x2B f true true false true (fscaleRes f)

/-- FSCALE in the 32-bit form, by its expansion (R262, R222). -/
def execFscaleS32 (f : S32) (s : State) : Host.Outcome State Fault Refusal :=
  s.alu 0x2B (f.expand Shape.alu2) true true false true (fscaleRes (f.expand Shape.alu2))

/-- PADD in the 64-bit form (R263). -/
def execPadd (f : L64) (s : State) : Host.Outcome State Fault Refusal :=
  s.alu 0x2C f true true false true (paddRes f)

/-- PADD in the 32-bit form, by its expansion (R263, R222). -/
def execPaddS32 (f : S32) (s : State) : Host.Outcome State Fault Refusal :=
  s.alu 0x2C (f.expand Shape.alu2) true true false true (paddRes (f.expand Shape.alu2))

/-- PADD in the compact form, by its expansion (R263, R230). -/
def execPaddC16 (f : C16) (s : State) : Host.Outcome State Fault Refusal :=
  s.alu 0x2C (f.expand false 0) true true false true (paddRes (f.expand false 0))

/-- PMUL in the 64-bit form (R263). -/
def execPmul (f : L64) (s : State) : Host.Outcome State Fault Refusal :=
  s.alu 0x2D f true true false true (pmulRes f)

/-- PMUL in the 32-bit form, by its expansion (R263, R222). -/
def execPmulS32 (f : S32) (s : State) : Host.Outcome State Fault Refusal :=
  s.alu 0x2D (f.expand Shape.alu2) true true false true (pmulRes (f.expand Shape.alu2))

/-- PFMA in the 64-bit form (R263). -/
def execPfma (f : L64) (s : State) : Host.Outcome State Fault Refusal :=
  s.alu 0x2E f true true true true (pfmaRes f)

/-- PMNX in the 64-bit form (R263). -/
def execPmnx (f : L64) (s : State) : Host.Outcome State Fault Refusal :=
  s.alu 0x2F f true true false true (pmnxRes f)

/-- PMNX in the 32-bit form, by its expansion (R263, R222). -/
def execPmnxS32 (f : S32) (s : State) : Host.Outcome State Fault Refusal :=
  s.alu 0x2F (f.expand Shape.alu2) true true false true (pmnxRes (f.expand Shape.alu2))

/-- PACK in the 64-bit form (R266). -/
def execPack (f : L64) (s : State) : Host.Outcome State Fault Refusal :=
  s.alu 0x31 f true true false true (packRes f)

/-- PACK in the 32-bit form, by its expansion (R266, R222). -/
def execPackS32 (f : S32) (s : State) : Host.Outcome State Fault Refusal :=
  s.alu 0x31 (f.expand Shape.alu2) true true false true (packRes (f.expand Shape.alu2))

/-- UNPK in the 64-bit form (R267). -/
def execUnpk (f : L64) (s : State) : Host.Outcome State Fault Refusal :=
  s.alu 0x32 f true false false true (unpkRes f)

/-- UNPK in the 32-bit form, by its expansion (R267, R222). -/
def execUnpkS32 (f : S32) (s : State) : Host.Outcome State Fault Refusal :=
  s.alu 0x32 (f.expand Shape.alu1) true false false true (unpkRes (f.expand Shape.alu1))

/-- FSUB in the compact form: FADD with the negate-B modifier (R230, R255). -/
def execFsubC16 (f : C16) (s : State) : Host.Outcome State Fault Refusal :=
  s.alu 0x20 (f.expand false 1) true true false true (faddRes (f.expand false 1))

/-- FCMP: the condition in C[2:0], combined with the predicate as MX says (R257). -/
def execFcmp (f : L64) (s : State) : Host.Outcome State Fault Refusal := s.compare f (floatCond (f.c.toNat % 8))

/-- CVT in the 64-bit form (R265). -/
def execCvt (f : L64) (s : State) : Host.Outcome State Fault Refusal := s.cvtWith f

/-- CVT in the 32-bit form, by its expansion (R265, R222). -/
def execCvtS32 (f : S32) (s : State) : Host.Outcome State Fault Refusal := s.cvtWith (f.expand Shape.alu2)

end Sys2Proof.Machine
end

