-- ==== Sys2Proof/Machine/Lanes.lean ====
section
/-! DEFINITION. Predicate, lane, move and special-register instructions (R272 to R282). -/

namespace Sys2Proof.Machine

/-- A lane's contributions taint it (R245): the taint of the lanes whose values it was computed from. -/
def anyTaint (m t : Mask) : Bool := m &&& t != 0

/-- CVOTE over the effective lanes: ballot, all, any, uniform (R275). -/
def cvoteRes (f : L64) (x : Srcs) : Content × Mask :=
  let set := Mask.ofFn (fun l => x.part.getLsbD l && lane x.a l != 0)
  let first := lane x.a (Mask.lowest x.part)
  let v : Word :=
    match f.c.toNat % 4 with
    | 0 => set
    | 1 => if set == x.part then 1 else 0
    | 2 => if set != 0 then 1 else 0
    | _ => if x.part.lanes.all (fun l => lane x.a l == first) then 1 else 0
  (contentOf (fun _ => v), if anyTaint x.part x.ta then BitVec.allOnes 32 else 0)

/-- The source lane of LXCH (R276); a lane that does not exist gives the lane itself. -/
def lxchLane (mode l : Nat) (k : Word) : Nat :=
  match mode with
  | 0 => k.toNat % 32
  | 1 => if k.toNat ≤ l then l - k.toNat else l
  | 2 => if l + k.toNat < 32 then l + k.toNat else l
  | _ => l ^^^ (k.toNat % 32)

/-- LXCH (R276). The lane is chosen by b, whose taint the result carries too. -/
def lxchRes (f : L64) (x : Srcs) : Content × Mask :=
  let j := fun l => lxchLane (f.c.toNat % 4) l (lane x.b l)
  (contentOf (fun l => lane x.a (j l)), Mask.ofFn (fun l => x.ta.getLsbD (j l) || x.tb.getLsbD l))

/-- PICK: the value of the lane that holds the k-th set bit of a mask (R279). -/
def pickLane (m k : Word) : Option Nat := ((upTo 32).filter (fun j => m.getLsbD j))[k.toNat % 32]?

/-- PICK (R279). -/
def pickRes (_ : L64) (x : Srcs) : Content × Mask :=
  let j := fun l => pickLane (lane x.b l) (lane x.c l)
  (contentOf (fun l => match j l with
    | some k => lane x.a k
    | none => 0),
   Mask.ofFn (fun l => x.tb.getLsbD l || x.tc.getLsbD l || (match j l with
    | some k => x.ta.getLsbD k
    | none => false)))

/-- MASK: the participation mask, or the effective mask with .EFF (R280). -/
def maskLanesRes (f : L64) (x : Srcs) : Content × Mask :=
  (contentOf (fun _ => if cbit f 0 then x.part else x.group), 0)

/-- MOV copies a (R281). -/
def movRes (_ : L64) : Srcs → Content × Mask := perLane (fun a _ _ => a)

/-- An integer operation of LRED on two values (R277). -/
def redOp (op : Nat) (a b : Word) : Word :=
  match op with
  | 0 => a + b
  | 1 => if a.slt b then a else b
  | 2 => if a.slt b then b else a
  | 3 => if a.ult b then a else b
  | 4 => if a.ult b then b else a
  | 5 => a &&& b
  | 6 => a ||| b
  | _ => a ^^^ b

/-- The identity of an integer operation (R277). -/
def redId (op : Nat) : Word :=
  match op with
  | 1 => 0x7FFFFFFF#32
  | 2 => 0x80000000#32
  | 3 => 0xFFFFFFFF#32
  | 5 => 0xFFFFFFFF#32
  | _ => 0

/-- A reduction over values (R277): integer operations in any order; FADD the exact sum rounded once; FMIN and FMAX
under the default of R256. -/
def reduce (isF : Bool) (op : Nat) (vs : List Word) : Word :=
  if isF then
    match op with
    | 0 => if vs.isEmpty then 0x80000000#32 else fword .rn (kSum (vs.map fval))
    | 1 => match vs with
      | [] => 0x7F800000#32
      | v :: r => r.foldl (fun a b => BitVec.ofNat 32 (minMax fp32 false false a.toNat b.toNat)) v
    | _ => match vs with
      | [] => 0xFF800000#32
      | v :: r => r.foldl (fun a b => BitVec.ofNat 32 (minMax fp32 true false a.toNat b.toNat)) v
  else vs.foldl (redOp op) (redId op)

/-- The lanes that contribute to a lane of LRED: all, those at or below it, those below it (R277). -/
def redLanes (shape l : Nat) (part : Mask) : Mask :=
  Mask.ofFn (fun j => part.getLsbD j && (shape == 0 || (shape == 1 && decide (j ≤ l)) || (shape == 2 && decide (j < l))))

/-- LRED (R277). A single NaN among FMIN or FMAX values is the canonical NaN. -/
def lredRes (f : L64) (x : Srcs) : Content × Mask :=
  let m := fun l => redLanes (f.c.toNat / 16 % 4) l x.part
  let canon := fun (w : Word) => if cbit f 3 && fp32.isNan w.toNat then BitVec.ofNat 32 fp32.nanCode else w
  (contentOf (fun l => canon (reduce (cbit f 3) (f.c.toNat % 8) ((m l).lanes.map (lane x.a)))),
   Mask.ofFn (fun l => anyTaint (m l) x.ta))

/-- LMATCH: the effective lanes that hold the same value (R278). -/
def lmatchRes (f : L64) (x : Srcs) : Content × Mask :=
  let same := fun v => Mask.ofFn (fun j => x.part.getLsbD j && lane x.a j == v)
  let all := same (lane x.a (Mask.lowest x.part)) == x.part
  (contentOf (fun l => if cbit f 0 then (if all then x.part else 0) else same (lane x.a l)),
   if anyTaint x.part x.ta then BitVec.allOnes 32 else 0)

/-- A result computed at issue that arrives some cycles later (R191, R196): its setter, its credits, the older results
overtaken. -/
def State.startValue (s : State) (i : Issue) (slot : Nat) (dst : List Nat) (part : Mask) (c : Content) (taint : Mask)
    (delay : Nat) : State :=
  let q := s.setter i slot 1
  let rec_ : LoadRec :=
    { setter := q.1, region := (((q.2.crew i.ref).region).map (fun g => g.id)).getD 0,
      kind := .value c (s.cycle + delay), dst := dst.map (fun k => (k, part)), size := 4, sx := false,
      taint := taint, reads := [], desc := none, descOk := 0, badDesc := 0, badData := 0, left := 0, tagged := false, performed := none, pc := i.pc,
      iword := i.word, ilen := i.len, part := i.part, snaps := [], memo := none }
  q.2.modCrew i.ref (fun w =>
    let w1 := dst.foldl (fun x k => x.takeCredit k) w
    { w1 with loads := (dst.foldl (fun ls k => ls.map (LoadRec.overtake k part)) w1.loads) ++ [rec_] })

/-- A lane operation of variable latency (R191, R277, R278): its result is due 10 cycles after issue; the slot it sets
clears as it is written. -/
def State.late (s : State) (f : L64) (g : Srcs → Content × Mask) : Host.Outcome State Fault Refusal :=
  s.issueWith (lNeeds f [f.d.toNat, f.a.toNat] (if f.nwb == 1 then [] else [f.d.toNat])) (fun i t =>
    match t.sources i f true false false with
    | .error e =>
      let part := (t.crew i.ref).effective i.part f.pred.toNat (f.pn == 1)
      if part == 0 then t.retire i false else t.failLatch i part e
    | .ok x =>
      let r := g x
      if x.part == 0 || f.nwb == 1 || 64 ≤ f.d.toNat then (t.produce i f x.part r).sets i (slotOf f.sbs) x.part 10
      else
        let u := t.startValue i (slotOf f.sbs) [f.d.toNat] x.part r.1 r.2 10
        if f.hold == 3 then u.retire i false
        else u.produce i { f with nwb := 1 } x.part r)

/-! ### Instructions -/

/-- CVOTE in the 64-bit form (R275). -/
def execCvote (f : L64) (s : State) : Host.Outcome State Fault Refusal :=
  s.alu 0x43 f true false false true (cvoteRes f)

/-- CVOTE in the 32-bit form, by its expansion (R275, R222). -/
def execCvoteS32 (f : S32) (s : State) : Host.Outcome State Fault Refusal :=
  s.alu 0x43 (f.expand Shape.alu1) true false false true (cvoteRes (f.expand Shape.alu1))

/-- LXCH in the 64-bit form (R276). -/
def execLxch (f : L64) (s : State) : Host.Outcome State Fault Refusal :=
  s.alu 0x44 f true true false true (lxchRes f)

/-- LXCH in the 32-bit form, by its expansion (R276, R222). -/
def execLxchS32 (f : S32) (s : State) : Host.Outcome State Fault Refusal :=
  s.alu 0x44 (f.expand Shape.alu2) true true false true (lxchRes (f.expand Shape.alu2))

/-- PICK in the 64-bit form (R279). -/
def execPick (f : L64) (s : State) : Host.Outcome State Fault Refusal :=
  s.alu 0x47 f true true true true (pickRes f)

/-- MASK in the 64-bit form (R280). -/
def execMaskLanes (f : L64) (s : State) : Host.Outcome State Fault Refusal :=
  s.alu 0x48 f false false false false (maskLanesRes f)

/-- MASK in the 32-bit form, by its expansion (R280, R222). -/
def execMaskLanesS32 (f : S32) (s : State) : Host.Outcome State Fault Refusal :=
  s.alu 0x48 (f.expand Shape.alu0) false false false false (maskLanesRes (f.expand Shape.alu0))

/-- MOV in the 64-bit form (R281). -/
def execMov (f : L64) (s : State) : Host.Outcome State Fault Refusal :=
  s.alu 0x49 f true false false true (movRes f)

/-- MOV in the 32-bit form, by its expansion (R281, R222). -/
def execMovS32 (f : S32) (s : State) : Host.Outcome State Fault Refusal :=
  s.alu 0x49 (f.expand Shape.alu1) true false false true (movRes (f.expand Shape.alu1))

/-- MOV in the compact form, by its expansion (R281, R230). -/
def execMovC16 (f : C16) (s : State) : Host.Outcome State Fault Refusal :=
  s.alu 0x49 (f.expand true 0) true false false true (movRes (f.expand true 0))

/-- LRED (R277). -/
def execLred (f : L64) (s : State) : Host.Outcome State Fault Refusal := s.late f (lredRes f)

/-- LMATCH (R278). -/
def execLmatch (f : L64) (s : State) : Host.Outcome State Fault Refusal := s.late f (lmatchRes f)

/-- PLOG: a table of two predicates (R272). -/
def execPlog (f : L64) (s : State) : Host.Outcome State Fault Refusal :=
  s.issueWith (lNeeds f [] []) (fun i t =>
    let w := t.crew i.ref
    let part := w.effective i.part f.pred.toNat (f.pn == 1)
    let v := Mask.ofFn (fun l =>
      truth (f.c.toNat % 16) ((w.thread l).pred f.a.toNat) ((w.thread l).pred f.b.toNat))
    ((t.modCrew i.ref (fun w => w.setPred f.d.toNat part v)).retire i false).sets i (slotOf f.sbs) part 4)

/-- PGET: the predicates of each lane as a word, bit 31 set (R273). -/
def execPget (f : L64) (s : State) : Host.Outcome State Fault Refusal :=
  let words := match s.issue with
    | some i => contentOf (fun l => (((s.crew i.ref).thread l).preds) ||| 0x80000000#32)
    | none => zeroContent
  s.alu 0x41 f false false false false (fun _ => (words, 0))

/-- PPUT: one predicate from a ≠ 0, or P0 to P30 from the bits of a (R274). -/
def execPput (f : L64) (s : State) : Host.Outcome State Fault Refusal :=
  s.issueWith (lNeeds f [f.a.toNat] []) (fun i t =>
    match t.sources i f true false false with
    | .error e =>
      let part := (t.crew i.ref).effective i.part f.pred.toNat (f.pn == 1)
      if part == 0 then t.retire i false else t.failLatch i part e
    | .ok x =>
      ((t.modCrew i.ref (fun w =>
        if cbit f 0 then
          w.modLanes x.part (fun l th => { th with preds := lane x.a l &&& 0x7FFFFFFF#32 })
        else w.setPred f.d.toNat x.part (Mask.ofFn (fun l => lane x.a l != 0)))).retire i false).sets i (slotOf f.sbs)
          x.part 4)

/-- MOVI in the 64-bit form (R281). -/
def execMovi (f : K64) (s : State) : Host.Outcome State Fault Refusal := s.aluK 0x4A f false true (fun _ => f.imm)

/-- MOVI in the 32-bit form, by its expansion (R281, R222). -/
def execMoviI32 (f : I32) (s : State) : Host.Outcome State Fault Refusal :=
  s.aluK 0x4A (f.expand true false) false true (fun _ => (f.expand true false).imm)

/-- The coordinates of a linear index in a shape (R12, R24). -/
def coord (nx ny t axis : Nat) : Nat :=
  match axis with
  | 0 => t % nx
  | 1 => t / nx % ny
  | _ => t / nx / ny

/-- A special register in a lane (R239): the low word and, for a 64-bit one, the high word. Handler crews read what R39
gives them. -/
def State.special (s : State) (r : CrewRef) (n l : Nat) : Word × Word :=
  let w := s.crew r
  let idx := (w.owner.map (fun o => o.index)).getD 0
  let g := s.groupOf r
  let la := s.launchOf r
  let h := (la.map (fun x => x.header))
  let handler := (s.gslotOf r).isNone
  let word := fun (x : Nat) => ((BitVec.ofNat 32 x, 0) : Word × Word)
  let wide := fun (x : Nat) => ((BitVec.ofNat 32 x, BitVec.ofNat 32 (x / 2 ^ 32)) : Word × Word)
  let tid := fun axis => if handler then (if axis == 0 then l else 0)
    else coord ((h.map (fun x => x.gx)).getD 1) ((h.map (fun x => x.gy)).getD 1) (32 * idx + l) axis
  let gid := fun axis => if handler then 0xFFFFFFFF
    else coord ((la.map (fun x => x.groups.1)).getD 1) ((la.map (fun x => x.groups.2.1)).getD 1)
      ((g.map (fun x => x.g)).getD 0) axis
  match n with
  | 0x000 => word (tid 0)
  | 0x001 => word (tid 1)
  | 0x002 => word (tid 2)
  | 0x004 => word (gid 0)
  | 0x005 => word (gid 1)
  | 0x006 => word (gid 2)
  | 0x008 => word l
  | 0x009 => word idx
  | 0x00A => word (if handler then (h.map (fun x => x.hcrews)).getD 0 else (g.map (fun x => x.crews.length)).getD 0)
  | 0x00B => word r.core
  | 0x010 => word (s.clock r.core)
  | 0x011 => ((w.thread l).clockHi, 0)
  | 0x014 => word ((g.bind (fun x => x.timelines[4]?)).map (fun t => t.counter) |>.getD 0)
  | 0x020 => wide ((s.privAlias r l 0).getD 0)
  | 0x022 => word ((g.map (fun x => x.scrBase)).getD 0)
  | 0x024 => wide ((la.map (fun x => x.desc.image.toNat)).getD 0)
  | _ => word 0

/-- SREAD of a special register (R238 to R240, R282): clock.lo latches the high half; a 64-bit register writes a
pair. -/
def State.sreadWith (s : State) (f : K64) : Host.Outcome State Fault Refusal :=
  let n := f.imm.toNat
  let wide := specialWide.contains n
  let dst := if wide && f.d.toNat < 64 then [f.d.toNat, f.d.toNat + 1] else [f.d.toNat]
  s.issueWith (kNeeds f dst dst) (fun i t =>
    let part := (t.crew i.ref).effective i.part f.pred.toNat (f.pn == 1)
    if part == 0 then t.retire i false
    else
      let lo := contentOf (fun l => (t.special i.ref n l).1)
      let hi := contentOf (fun l => (t.special i.ref n l).2)
      let t1 := t.writeDst i.ref f.d.toNat part lo 0
      let t2 := if wide && f.d.toNat < 64 then t1.writeReg i.ref (f.d.toNat + 1) part hi 0 else t1
      let t3 := if n == 0x010 then t2.modCrew i.ref (fun w => w.modLanes part (fun _ th =>
          { th with clockHi := BitVec.ofNat 32 (t.clock i.core / 2 ^ 32) })) else t2
      (t3.retire i false).sets i (slotOf f.sbs) part 4)

/-- SREAD in the 64-bit form (R282). -/
def execSread (f : K64) (s : State) : Host.Outcome State Fault Refusal := s.sreadWith f

/-- SREAD in the 32-bit form, by its expansion (R282, R222). -/
def execSreadI32 (f : I32) (s : State) : Host.Outcome State Fault Refusal := s.sreadWith (f.expand true false)

end Sys2Proof.Machine
end

