-- ==== Sys2Proof/Machine/Control.lean ====
section
/-! DEFINITION. Control transfer, rejoin, exit, region heads, gambits, traps, the side buffer and extended blocks
(R18 to R21, R177 to R184, R188 to R190, R284 to R301, R381), and the start of a release point (R165). -/

namespace Sys2Proof.Machine

/-- The effective mask of an issue group under a predicate (R192). -/
def State.eff (s : State) (i : Issue) (pred : BitVec 5) (pn : BitVec 1) : Mask :=
  (s.crew i.ref).effective i.part pred.toNat (pn == 1)

/-- The crew issues no sooner than n cycles from now. -/
def State.returnsAfter (s : State) (r : CrewRef) (n : Nat) : State :=
  s.modCrew r (fun w => { w with resumeAt := max w.resumeAt (s.cycle + n) })

/-- The lanes of the effective mask go to their targets, the others of the group to the next instruction (R287). A target
issues 4 cycles after the transfer (R383). -/
def State.jump (s : State) (i : Issue) (part : Mask) (target : Nat → Addr) (moves : Bool) : State :=
  let t := (s.modCrew i.ref (fun w =>
    (w.advance (i.part &&& ~~~ part) i.len).modLanes part (fun l t => { t with pc := target l }))).retired i moves
  if part == 0 then t else t.returnsAfter i.ref 4

/-- BR and CALL: to the instruction's address plus a signed offset; CALL writes the return address to the pair D, not
tainted (R286, R287). -/
def State.branchWith (s : State) (f : K64) (call : Bool) : Host.Outcome State Fault Refusal :=
  let d := f.d.toNat
  let dst := if call then [d, d + 1] else []
  s.issueWith (kNeeds f dst dst) (fun i t =>
    let part := t.eff i f.pred f.pn
    let back := i.pc + BitVec.ofNat 64 i.len
    let t1 := if call && part != 0 then
        (t.writeReg i.ref d part (contentOf (fun _ => back.setWidth 32)) 0).writeReg i.ref (d + 1) part
          (contentOf (fun _ => (back >>> 32).setWidth 32)) 0
      else t
    (t1.jump i part (fun _ => i.pc + f.imm.signExtend 64) (!call)).sets i (if call then slotOf f.sbs else 0) part 4)

/-- JR and RET: to the value of the pair A; a target with bit 0 set raises ALIGN with cause 2 (R287, R214). -/
def State.jumpWith (s : State) (f : L64) (moves : Bool) : Host.Outcome State Fault Refusal :=
  s.issueWith (lNeeds f [f.a.toNat, f.a.toNat + 1] []) (fun i t =>
    let part := t.eff i f.pred f.pn
    let target := fun l => BitVec.ofNat 64 ((t.crew i.ref).pair t.freeCtr f.a.toNat l)
    let bad := part.lanes.filter (fun l => (target l).getLsbD 0)
    if bad.isEmpty then t.jump i part target moves
    else t.failWith i (bad.map (fun l => ⟨l, causeTarget.1, causeTarget.2, 0, 0⟩)) false moves)

/-- RJOIN holds the effective threads at its PC in state REJOIN (R18, R288). RJOIN_RELEASE lets them go. -/
def State.rjoinWith (s : State) (f : L64) : Host.Outcome State Fault Refusal :=
  s.issueWith (lNeeds f [f.a.toNat] []) (fun i t =>
    match t.sources i f true false false with
    | .error e => if t.eff i f.pred f.pn == 0 then t.retire i true else t.failLatch i (t.eff i f.pred f.pn) e
    | .ok x =>
      (t.modCrew i.ref (fun w =>
        (w.advance (i.part &&& ~~~ x.part) i.len).modLanes x.part (fun l th =>
          { th with run := .rejoin (lane x.a l) i.len }))).retired i true)

/-- A held thread's rejoin condition: every other thread its mask names has exited or is held at the same PC (R18,
R19). -/
def Crew.rejoinMet (w : Crew) (l : Nat) : Bool :=
  match (w.thread l).run with
  | .rejoin m _ => m.lanes.all (fun j => j == l || (w.thread j).run == .exited ||
      (match (w.thread j).run with
       | .rejoin _ _ => (w.thread j).pc == (w.thread l).pc
       | _ => false))
  | _ => false

/-- The lanes whose rejoin condition is met. -/
def Crew.rejoinReady (w : Crew) : Mask := Mask.ofFn w.rejoinMet

/-- Held threads whose conditions are met in one cycle are released together and advance (R18). -/
def Crew.rejoinRelease (w : Crew) : Crew :=
  w.modLanes w.rejoinReady (fun _ t =>
    match t.run with
    | .rejoin _ n => { t with pc := t.pc + BitVec.ofNat 64 n, run := .ready }
    | _ => t)

/-- Every thread that has not exited is held in REJOIN and none can be released (R20). -/
def Crew.deadlocked (w : Crew) : Bool :=
  w.aliveLanes != 0 && w.rejoinReady == 0 &&
    w.aliveLanes.lanes.all (fun l => match (w.thread l).run with
      | .rejoin _ _ => true
      | _ => false)

/-! ### Gambits -/

/-- The lanes that commit together: those given and, with each buffered QNT of theirs, the lanes recorded in it
(R181). -/
def commitClosure (g : Gambit) : Nat → Mask → Mask
  | 0, m => m
  | n + 1, m => commitClosure g n (g.buffer.foldl (fun a e =>
      if e.qnt && (e.lanes &&& a) != 0 then a ||| (e.lanes &&& g.lanes) else a) m)

/-- The part of a buffered store that a set of lanes hands over; none when no lane of it is theirs (R184). -/
def handOver (m : Mask) (e : StoreEff) : Option StoreEff :=
  if e.lanes &&& m == 0 then none
  else if e.qnt then some { e with setter := 0 }
  else some { e with setter := 0, writes := e.writes.filter (fun x => m.getLsbD x.lane), lanes := e.lanes &&& m }

/-- The stores that lanes hand over, in program order (R184). -/
def handedStores (g : Gambit) (m : Mask) : List StoreEff := g.buffer.filterMap (handOver m)

/-- The gambit after lanes have committed. -/
def Gambit.leave (g : Gambit) (m : Mask) : Gambit :=
  { g with
    lanes := g.lanes &&& ~~~ m
    buffer := g.buffer.filterMap (fun e =>
      if e.lanes &&& m == 0 then some e
      else if e.qnt || (e.lanes &&& ~~~ m) == 0 then none
      else some (e.without m))
    records := (g.records.map (fun a => { a with lanes := a.lanes.filter (fun x => !(m.getLsbD x.1)) })).filter
      (fun a => !a.lanes.isEmpty)
    counts := g.counts.filter (fun c => !(m.getLsbD c.1)) }

/-- What lanes in gambit need in order to leave by COMMIT: entries, and a snapshot when the gambit closes (R184). -/
def State.commitWait (s : State) (i : Issue) (m : Mask) : Option State :=
  let w := s.crew i.ref
  match w.gambit with
  | none => none
  | some g =>
    let n := (handedStores g m).length
    if Config.quarantineEntries < w.entriesUsed + n then some (s.waitFor i (.entries n))
    else if (g.leave m).lanes == 0 && !w.canHead then some (s.waitFor i .snapshot)
    else none

/-- Lanes in gambit leave it: their stores become held stores of the gambit's region, their counts join it (R184,
R143). -/
def Crew.commitLanes (w : Crew) (m : Mask) : Crew :=
  match w.gambit with
  | none => w
  | some g =>
    let es := handedStores g m
    let w1 := w.modRegion (fun q => { q with
      effects := q.effects ++ es.map Effect.store
      entries := q.entries + es.length
      stats := q.stats ++ (g.counts.filter (fun c => m.getLsbD c.1)).map (fun c => c.2) })
    { w1 with gambit := if (g.leave m).lanes == 0 then none else some (g.leave m) }

/-- COMMIT (R184): lanes not in gambit retire it as a NOP; the close of the gambit is a head. -/
def State.commitWith (s : State) (f : L64) : Host.Outcome State Fault Refusal :=
  s.issueWith (lNeeds f [] []) (fun i t =>
    let w := t.crew i.ref
    let mine := t.eff i f.pred f.pn &&& w.inGambit
    if mine == 0 then t.retire i false
    else
      let m := match w.gambit with
        | some g => commitClosure g 32 mine
        | none => mine
      match t.commitWait i m with
      | some u => u
      | none =>
        let t1 := (t.retire i false).modCrew i.ref (fun w => w.commitLanes m)
        if (t1.crew i.ref).gambit.isNone then t1.head i.ref else t1)

/-- ABORT #imm7: the effective lanes in gambit abort with code 0x80 + imm7; the others retire it as a NOP (R291). -/
def State.abortWith (s : State) (f : K64) : Host.Outcome State Fault Refusal :=
  s.issueWith (kNeeds f [] []) (fun i t =>
    let mine := t.eff i f.pred f.pn &&& (t.crew i.ref).inGambit
    (t.retire i false).abortLanes i.ref mine (0x80 + f.imm.toNat % 128))

/-- TRY: 0 is written to the code register of each effective lane, then TRY retires as a head whose snapshot holds
that 0, and the lanes are in gambit (R177, R290). -/
def State.tryWith (s : State) (f : K64) : Host.Outcome State Fault Refusal :=
  let d := f.d.toNat
  s.issueWith { kNeeds f [d] [d] with bare := true, head := true, opens := true } (fun i t =>
    let part := t.eff i f.pred f.pn
    if part == 0 then t.retire i false
    else
      let t1 := (t.writeReg i.ref d part zeroContent 0).retire i false
      let off : BitVec 64 := (f.imm &&& 0xFFFFFFFE#32).signExtend 64
      let g : Gambit :=
        { crewKind := f.imm.getLsbD 0, lanes := part, fail := i.pc + off, code := d, count := 0, buffer := [],
          records := [], counts := [] }
      ((t1.modCrew i.ref (fun w => { w with gambit := some g })).head i.ref).sets i (slotOf f.sbs) part 4)

/-! ### Exit, pause, region -/

/-- The effective threads move to EXITED (R21). Lanes in gambit hand their stores over first, as COMMIT does; the EXIT
of the crew's last thread is a head, and the region it closes is the crew's last (R153, R289). The extended block is
freed with that region (R159, R188). -/
def State.exitWith (s : State) (f : L64) : Host.Outcome State Fault Refusal :=
  s.issueWith (lNeeds f [] []) (fun i t =>
    let part := t.eff i f.pred f.pn
    let w := t.crew i.ref
    if part == 0 then t.retire i false
    else
      let mine := part &&& w.inGambit
      let m := match w.gambit with
        | some g => if mine == 0 then 0 else commitClosure g 32 mine
        | none => 0
      let last := w.aliveLanes &&& ~~~ part == 0
      match (if m == 0 then (if last && !w.canHead then some (t.waitFor i .snapshot) else none)
             else t.commitWait i m) with
      | some u => u
      | none =>
        if last && w.gambit.isSome && !w.canHead then t.waitFor i .snapshot
        else
          let closes := match w.gambit with
            | some g => (g.leave m).lanes == 0
            | none => false
          let t1 := (t.retire i false).modCrew i.ref (fun w => (w.commitLanes m).setRun part .exited)
          if last then
            (t1.modCrew i.ref (fun w => w.modRegion (fun g =>
              { g with last := true, effects := g.effects ++ (if w.ext then [Effect.freeBlock] else []) }))).head i.ref
          else if closes then t1.head i.ref else t1)

/-- NOP retires with no effect (R289). -/
def State.nopWith (s : State) (f : L64) : Host.Outcome State Fault Refusal :=
  s.issueWith (lNeeds f [] []) (fun i t => t.retire i false)

/-- PAUSE retires, moves the turn pointer, and its crew is passed over for 8 cycles (R289). -/
def State.pauseWith (s : State) (f : L64) : Host.Outcome State Fault Refusal :=
  s.issueWith (lNeeds f [] []) (fun i t =>
    let part := t.eff i f.pred f.pn
    let t1 := t.retire i true
    if part == 0 then t1 else t1.modCrew i.ref (fun w => { w with pausedUntil := t.cycle + 8 }))

/-- REGION retires as a head; in-gambit lanes retire it as a NOP, and others wait for the gambit to close (R178, R289). -/
def State.regionWith (s : State) (f : L64) : Host.Outcome State Fault Refusal :=
  s.issueWith { lNeeds f [] [] with head := true } (fun i t =>
    let part := t.eff i f.pred f.pn
    let mine := (t.crew i.ref).inGambit
    if part &&& ~~~ mine == 0 then t.retire i false
    else if part &&& mine != 0 then t.passGambit i (i.part &&& mine)
    else (t.retire i false).head i.ref)

/-! ### Traps -/

/-- TRAP and BRK raise their class in every effective lane with the code in AUX; the lanes resume past it (R296,
R299). -/
def State.trapWith (s : State) (f : K64) (cls : Nat) : Host.Outcome State Fault Refusal :=
  s.issueWith (kNeeds f [] []) (fun i t =>
    let part := t.eff i f.pred f.pn
    if part == 0 then t.retire i false
    else t.failWith i (part.lanes.map (fun l => ⟨l, cls, 0, 0, f.imm.setWidth 64⟩)) true false)

/-- Every thread of the crew that has not exited has issued TRET (R300). -/
def Crew.tretAll (w : Crew) : Bool :=
  w.handling.isSome && w.aliveLanes != 0 &&
    w.aliveLanes.lanes.all (fun l => (w.thread l).run == .trap true)

/-- The return of a handler whose threads have all issued TRET, once its credits and its head's snapshot are free: a
terminal class terminates the context, any other returns (R300, R303). -/
def State.finishTret (s : State) (r : CrewRef) : State :=
  let w := s.crew r
  if w.tretAll && w.dying.isNone then
    let cls := w.handling.getD 0
    if terminalClass cls then s.modCrew r (fun w => w.die cls)
    else if w.canHead && w.creditsFor [0, 1, 2, 3] ≤ w.creditsFree then s.leaveHandler r else s
  else s

/-- TRET: outside a handler ILLEGAL with cause PRIV; a lane in gambit aborts; the effective threads are held until every
thread has issued it (R300). -/
def State.tretWith (s : State) (f : L64) : Host.Outcome State Fault Refusal :=
  let out := match s.issue with
    | some i => (s.crew i.ref).handling.isNone
    | none => false
  s.issueWith { lNeeds f [] [] with early := if out then some causePriv else none, head := true } (fun i t =>
    let part := t.eff i f.pred f.pn
    let mine := part &&& (t.crew i.ref).inGambit
    if part == 0 then t.retire i false
    else if mine != 0 then t.failAll i mine causeField
    else
      ((t.modCrew i.ref (fun w =>
        (w.advance (i.part &&& ~~~ part) i.len).setRun part (.trap true))).retired i false).finishTret i.ref)

/-- The word of the header at a byte index (R297). -/
def SideBuffer.headerWord (b : SideBuffer) (i : Nat) : Word :=
  let lo := fun (x : BitVec 64) => (x.setWidth 32 : Word)
  let hi := fun (x : BitVec 64) => ((x >>> 32).setWidth 32 : Word)
  match i / 4 with
  | 0 => b.cls
  | 1 => b.cause
  | 2 => lo b.tpc
  | 3 => hi b.tpc
  | 4 => lo b.iword
  | 5 => hi b.iword
  | 6 => b.tmask
  | 7 => b.pmask
  | 8 => b.turn
  | 9 => b.seq
  | 10 => lo b.clock
  | 11 => hi b.clock
  | 12 => b.launchId
  | 13 => b.group
  | 14 => b.flags
  | 15 => b.ilen
  | n => b.hscr.getD (n - 16) 0

/-- The word of a lane record at a byte index (R298). -/
def LaneRecord.word (x : LaneRecord) (i : Nat) : Word :=
  match i / 4 with
  | 0 => x.spc.setWidth 32
  | 1 => (x.spc >>> 32).setWidth 32
  | 2 => x.addr.setWidth 32
  | 3 => (x.addr >>> 32).setWidth 32
  | 4 => x.cause
  | 5 => x.state
  | 6 => x.saveG.getD 0 0
  | 7 => x.saveG.getD 1 0
  | 8 => x.saveG.getD 2 0
  | 9 => x.saveG.getD 3 0
  | 10 => x.aux.setWidth 32
  | 11 => (x.aux >>> 32).setWidth 32
  | _ => 0

/-- An address with its low or high word replaced. -/
def setHalf (high : Bool) (a : Addr) (v : Word) : Addr :=
  if high then v ++ a.setWidth 32 else (a >>> 32).setWidth 32 ++ v

/-- A lane record with a word written: SPC, SAVEG and AUX words; of STATE, bits [31:24] and [2] (R301). -/
def LaneRecord.setWord (x : LaneRecord) (i : Nat) (v : Word) : LaneRecord :=
  match i / 4 with
  | 0 => { x with spc := setHalf false x.spc v }
  | 1 => { x with spc := setHalf true x.spc v }
  | 5 => { x with state := (x.state &&& ~~~ (0xFF000004#32)) ||| (v &&& 0xFF000004#32) }
  | 6 => { x with saveG := modifyAt x.saveG 0 (fun _ => v) }
  | 7 => { x with saveG := modifyAt x.saveG 1 (fun _ => v) }
  | 8 => { x with saveG := modifyAt x.saveG 2 (fun _ => v) }
  | 9 => { x with saveG := modifyAt x.saveG 3 (fun _ => v) }
  | 10 => { x with aux := setHalf false x.aux v }
  | 11 => { x with aux := setHalf true x.aux v }
  | _ => x

/-- The words that SYS.R reads in each lane (R301). -/
def State.sysWord (s : State) (r : CrewRef) (space index l : Nat) : Word :=
  let side := (s.keep r).side
  match space with
  | 0 => side.headerWord index
  | 1 => (side.lanes.getD l .zero).word index
  | _ =>
    let c := s.context (s.ctxOf r)
    match index / 4 with
    | 1 => c.trapBase.setWidth 32
    | 2 => (c.trapBase >>> 32).setWidth 32
    | _ => BitVec.ofNat 32 (s.ctxOf r)

/-- SYS outside a handler, or CTRL in user mode, raises PRIV (R301, R302). -/
def State.sysPriv (s : State) (space : Nat) : Option Cause :=
  match s.issue with
  | some i =>
    let w := s.crew i.ref
    if w.handling.isNone || (space == 2 && !w.trapMode) then some causePriv else none
  | none => none

/-- The space of a SYS (R301). -/
def sysSpace (f : K64) : Nat := bits f.imm.toNat 23 16
/-- The byte index of a SYS (R301). -/
def sysIndex (f : K64) : Nat := bits f.imm.toNat 15 0

/-- A release point begins (R165): head H1, then the issue group stays in RELEASE until H2 retires. -/
def State.startPoint (s : State) (i : Issue) (kind : PointKind) (part taint : Mask) (slot : Nat) : State :=
  let s1 := s.head i.ref
  let q := s1.setter i slot 1
  let p : Point :=
    { setter := q.1, kind := kind, issue := i.part, lanes := part, pc := i.pc, next := i.pc + BitVec.ofNat 64 i.len,
      iword := i.word, ilen := i.len, sent := false, taint := taint }
  (q.2.modCrew i.ref (fun w => { w with point := some p })).waitFor i .point

/-! ### Extended blocks -/

/-- The block a crew may take: the one its group reserved, else one no group has reserved (R190). -/
def Sub.blockFor (b : Sub) (gslot : Option Nat) : Option Nat :=
  let free := fun (k : Nat) (p : Block → Bool) => match b.blocks[k]? with
    | some x => x.holder.isNone && p x
    | none => false
  ((upTo b.blocks.length).find? (fun k => free k (fun x => gslot.isSome && x.group == gslot))).or
    ((upTo b.blocks.length).find? (fun k => free k (fun x => x.group.isNone)))

/-- A block taken by the crew of a slot. -/
def Sub.takeBlock (b : Sub) (k slot : Nat) : Sub :=
  { b with blocks := modifyAt b.blocks k (fun x => { x with holder := some slot, freeing := false }) }

/-- A block granted to the crew and not yet in use (R190). -/
def Sub.granted (b : Sub) (slot : Nat) : Bool := b.blocks.any (fun x => x.holder == some slot && !x.freeing)

/-- The crew holds the block: G32 to G63 read as zero, untainted, in every lane (R188). No write-back is counted. -/
def Sub.openExt (b : Sub) (slot : Nat) : Sub :=
  let b1 := (upTo 32).foldl (fun (x : Sub) k => x.store slot (32 + k) zeroContent) b
  { b1 with crews := modifyAt b1.crews slot (fun w =>
      { w with ext := true, xwait := none,
               threads := w.threads.map (fun t => { t with taint := t.taint &&& 0xFFFFFFFF#64 }) }) }

/-- The contents of G32 to G63 are discarded (R188); results still due in them are dropped. Their registers return to the
pool when the current region has released (R159). -/
def Crew.closeExt (w : Crew) : Crew :=
  { w.modRegion (fun g => { g with freed := g.freed ++ w.map.drop 32 }) with
    ext := false
    map := w.map.take 32 ++ List.replicate 32 PhysReg.none_
    threads := w.threads.map (fun t => { t with taint := t.taint &&& 0xFFFFFFFF#64 })
    loads := w.loads.map (fun q => { q with dst := q.dst.filter (fun d => d.1 < 32) }) }

/-- The crew waits in state XBLOCK, in the order its XBLK.ACQ issued (R190). -/
def State.xblkWait (t : State) (i : Issue) : State :=
  let n := (t.core i.core).orders
  ((t.modCore i.core (fun k => { k with orders := n + 1 })).modCrew i.ref (fun w =>
    { w with xwait := w.xwait.or (some n) })).waitIn i i.part .xblock

/-- XBLK.ACQ in a launch whose REGS is 32 raises NOXBLK, whatever its predicate (R188, R227 check 6). -/
def State.xblkCause (s : State) : Option Cause :=
  match s.issue with
  | some i => if ((s.launchOf i.ref).map (fun l => l.header.regs)) != some 64 then some causeNoxblk else none
  | none => none

/-- A crew that waits in XBLOCK could be granted a block now, so that no later XBLK.ACQ may take the one it would get
(R190). -/
def State.xblkContended (s : State) (core sub k : Nat) : Bool :=
  (s.sub core sub).crews.zipIdx.any (fun p => p.1.xwait.isSome && !p.1.ext &&
    (s.sub core sub).blockFor (s.gslotOf ⟨core, sub, p.2⟩) == some k)

/-- XBLK.ACQ (R188, R190, R381): a head, also when the crew holds the block; NOXBLK in a launch with REGS = 32; the block
that its group reserved when it is free, else one that no group has reserved and no crew waits for; else state XBLOCK. -/
def State.xblkAcqWith (s : State) (f : L64) : Host.Outcome State Fault Refusal :=
  s.issueWith { lNeeds f [] [] with early := s.xblkCause, bare := true, head := true } (fun i t =>
    let part := t.eff i f.pred f.pn
    let w := t.crew i.ref
    let b := t.sub i.core i.sub
    if part == 0 then t.retire i false
    else if (t.gslotOf i.ref).isNone then t.failAll i part causeHandler
    else if w.ext then (t.retire i false).head i.ref
    else if b.granted i.slot then
      ((t.modSub i.core i.sub (fun b => b.openExt i.slot)).retire i false).head i.ref
    else
      match (b.blockFor (t.gslotOf i.ref)).filter (fun k => !t.xblkContended i.core i.sub k) with
      | some k =>
        ((t.modSub i.core i.sub (fun b => (b.takeBlock k i.slot).openExt i.slot)).retire i false).head i.ref
      | none => t.xblkWait i)

/-- XBLK.REL (R188, R381): a head; the block becomes free when the region that contains it has released (R190). -/
def State.xblkRelWith (s : State) (f : L64) : Host.Outcome State Fault Refusal :=
  s.issueWith { lNeeds f [] [] with bare := true, head := true } (fun i t =>
    let part := t.eff i f.pred f.pn
    if part == 0 then t.retire i false
    else if (t.gslotOf i.ref).isNone then t.failAll i part causeHandler
    else if !(t.crew i.ref).ext then (t.retire i false).head i.ref
    else
      let t1 := t.modSub i.core i.sub (fun b =>
        { b with
          blocks := b.blocks.map (fun x => if x.holder == some i.slot then { x with freeing := true } else x)
          crews := modifyAt b.crews i.slot (fun w => w.closeExt.hold .freeBlock 0) })
      (t1.retire i false).head i.ref)

/-! ### Instructions -/

/-- BR in the 64-bit form (R286). -/
def execBr (f : K64) (s : State) : Host.Outcome State Fault Refusal := s.branchWith f false

/-- BR in the 32-bit form, by its expansion (R286, R222). -/
def execBrJ32 (f : J32) (s : State) : Host.Outcome State Fault Refusal := s.branchWith (f.expand false) false

/-- JR in the 64-bit form (R286). -/
def execJr (f : L64) (s : State) : Host.Outcome State Fault Refusal := s.jumpWith f true

/-- JR in the 32-bit form, by its expansion (R286, R222). -/
def execJrS32 (f : S32) (s : State) : Host.Outcome State Fault Refusal := s.jumpWith (f.expand Shape.jr) true

/-- CALL in the 64-bit form (R286). -/
def execCall (f : K64) (s : State) : Host.Outcome State Fault Refusal := s.branchWith f true

/-- CALL in the 32-bit form, whose link pair is G30:G31 (R286, R228). -/
def execCallJ32 (f : J32) (s : State) : Host.Outcome State Fault Refusal := s.branchWith (f.expand true) true

/-- RET in the 64-bit form: the same operation as JR, but for the turn pointer (R287, R15). -/
def execRet (f : L64) (s : State) : Host.Outcome State Fault Refusal := s.jumpWith f false

/-- RET in the 32-bit form, by its expansion (R287, R222). -/
def execRetS32 (f : S32) (s : State) : Host.Outcome State Fault Refusal := s.jumpWith (f.expand Shape.ret) false

/-- RJOIN in the 64-bit form (R288). -/
def execRjoin (f : L64) (s : State) : Host.Outcome State Fault Refusal := s.rjoinWith f

/-- RJOIN in the 32-bit form, by its expansion (R288, R222). -/
def execRjoinS32 (f : S32) (s : State) : Host.Outcome State Fault Refusal := s.rjoinWith (f.expand Shape.rjoin)

/-- EXIT in the 64-bit form (R289). -/
def execExitThread (f : L64) (s : State) : Host.Outcome State Fault Refusal := s.exitWith f

/-- EXIT in the 32-bit form, by its expansion (R289, R222). -/
def execExitThreadS32 (s : State) : Host.Outcome State Fault Refusal := s.exitWith L64.neutral

/-- NOP in the 64-bit form (R289). -/
def execNop (f : L64) (s : State) : Host.Outcome State Fault Refusal := s.nopWith f

/-- NOP in the 32-bit form, by its expansion (R289, R222). -/
def execNopS32 (s : State) : Host.Outcome State Fault Refusal := s.nopWith L64.neutral

/-- PAUSE in the 64-bit form (R289). -/
def execPause (f : L64) (s : State) : Host.Outcome State Fault Refusal := s.pauseWith f

/-- PAUSE in the 32-bit form, by its expansion (R289, R222). -/
def execPauseS32 (s : State) : Host.Outcome State Fault Refusal := s.pauseWith L64.neutral

/-- REGION in the 64-bit form (R289). -/
def execRegion (f : L64) (s : State) : Host.Outcome State Fault Refusal := s.regionWith f

/-- REGION in the 32-bit form, by its expansion (R289, R222). -/
def execRegionS32 (s : State) : Host.Outcome State Fault Refusal := s.regionWith L64.neutral

/-- TRY (R177, R290). -/
def execTryGambit (f : K64) (s : State) : Host.Outcome State Fault Refusal := s.tryWith f

/-- COMMIT in the 64-bit form (R184, R291). -/
def execCommit (f : L64) (s : State) : Host.Outcome State Fault Refusal := s.commitWith f

/-- COMMIT in the 32-bit form, by its expansion (R291, R222). -/
def execCommitS32 (s : State) : Host.Outcome State Fault Refusal := s.commitWith L64.neutral

/-- ABORT (R291). -/
def execAbort (f : K64) (s : State) : Host.Outcome State Fault Refusal := s.abortWith f

/-- TRAP raises SWTRAP (R299). -/
def execTrap (f : K64) (s : State) : Host.Outcome State Fault Refusal := s.trapWith f 8

/-- BRK in the 64-bit form (R299). -/
def execBrk (f : K64) (s : State) : Host.Outcome State Fault Refusal := s.trapWith f 9

/-- BRK in the 32-bit form: the code is IMM11, sign-extended (R299). -/
def execBrkI32 (f : I32) (s : State) : Host.Outcome State Fault Refusal := s.trapWith (f.expand false false) 9

/-- TRET in the 64-bit form (R300). -/
def execTret (f : L64) (s : State) : Host.Outcome State Fault Refusal := s.tretWith f

/-- TRET in the 32-bit form, by its expansion (R300, R222). -/
def execTretS32 (s : State) : Host.Outcome State Fault Refusal := s.tretWith L64.neutral

/-- SYS.R (R301). -/
def execSysR (f : K64) (s : State) : Host.Outcome State Fault Refusal :=
  s.issueWith { kNeeds f [f.d.toNat] [f.d.toNat] with early := s.sysPriv (sysSpace f) } (fun i t =>
    let part := t.eff i f.pred f.pn
    if part == 0 then t.retire i false
    else ((t.writeDst i.ref f.d.toNat part
      (contentOf (fun l => t.sysWord i.ref (sysSpace f) (sysIndex f) l)) 0).retire i false).sets i (slotOf f.sbs) part 8)

/-- SYS.W, a release point (R301). -/
def execSysW (f : K64) (s : State) : Host.Outcome State Fault Refusal :=
  s.issueWith { kNeeds f [f.a.toNat] [] with early := s.sysPriv (sysSpace f), bare := true, head := true } (fun i t =>
    let part := t.eff i f.pred f.pn
    if part == 0 then t.retire i false
    else
      match t.operand i f.a.toNat with
      | .error e => t.failLatch i part e
      | .ok x => t.startPoint i (.sysWrite (sysSpace f) (sysIndex f) x.1) part 0 (slotOf f.sbs))

/-- A reserved opcode raises ILLEGAL with cause OPCODE (R229). -/
def execReservedOpcode (_op : BitVec 7) (_long : Bool) (s : State) : Host.Outcome State Fault Refusal :=
  match s.issue with
  | none => .fault .noIssueGroup
  | some i => .next (s.failAll i i.part (0, 1))

/-- XBLK.ACQ in the 64-bit form (R381). -/
def execXblkAcq (f : L64) (s : State) : Host.Outcome State Fault Refusal := s.xblkAcqWith f

/-- XBLK.ACQ in the 32-bit form, by its expansion (R381, R222). -/
def execXblkAcqS32 (s : State) : Host.Outcome State Fault Refusal := s.xblkAcqWith L64.neutral

/-- XBLK.REL in the 64-bit form (R381). -/
def execXblkRel (f : L64) (s : State) : Host.Outcome State Fault Refusal := s.xblkRelWith f

/-- XBLK.REL in the 32-bit form, by its expansion (R381, R222). -/
def execXblkRelS32 (s : State) : Host.Outcome State Fault Refusal := s.xblkRelWith L64.neutral

end Sys2Proof.Machine
end

