-- ==== Sys2Proof/Machine/Fetch.lean ====
section
/-! DEFINITION. What a translated access leaves behind (R67, R68, R81), and fetching an instruction's bytes (R54,
R213, R214, R227). -/

namespace Sys2Proof.Machine

/-- The entries of a TLB of n with a translation kept. Which entry of a full TLB gives way the manual does not say: the model
drops the one put in first, hits not counting (R68, log 13). -/
def tlbInsert (n clock : Nat) (l : List TlbEntry) (t : TlbEntry) : List TlbEntry :=
  let rest := l.filter (fun x => !(x.ctx == t.ctx && x.size == t.size && x.vpn == t.vpn))
  let old := rest.foldl (fun m x => min m x.used) clock
  (if rest.length < n then rest else rest.filter (fun x => x.used != old)) ++ [{ t with used := clock }]

/-- A core's TLB of 256 entries with a translation kept (R68). -/
def Core.tlbPut (k : Core) (t : TlbEntry) : Core :=
  { k with tlb := tlbInsert 256 k.useClock k.tlb t, useClock := k.useClock + 1 }

/-- A cluster's second-level TLB of 4096 entries with a translation kept (R68). -/
def State.clusterPut (s : State) (cl : Nat) (t : TlbEntry) : State :=
  let x := s.clusterTlb cl
  { s with net := { s.net with tlbs := tset s.net.tlbs cl ⟨tlbInsert 4096 x.clock x.entries t, x.clock + 1⟩ } }

/-- The responses of a walk's entry reads at their homes, each with its tag (R64, R81, R171). -/
def State.walkReads (s : State) (core : Nat) : List Nat → List Tag × State
  | [] => ([], s)
  | a :: r =>
    let h := s.homeOf (.mem a) false
    let u := s.reach h (.mem a) .plain false
    let q := u.2.respond h { Response.for_ core (s.cycle + 1) .none with fill := u.1 }
    let rest := State.walkReads q.2 core r
    (q.1.toList ++ rest.1, rest.2)

/-- A walk's reads, and the TLBs filled with an entry as it stands after its marks (R68). -/
def State.fillTlb (s : State) (core ctx va : Nat) (w : Walk) (pte : Nat) : List Tag × State :=
  let q := s.walkReads core w.read
  let e : TlbEntry := { ctx := ctx, vpn := va / 2 ^ w.shift, size := w.shift, entry := w.pteAddr, pte := pte, used := 0 }
  let s0 := if w.level == 2 then q.2.clusterPut (q.2.clusterOf core) e else q.2
  (q.1, if w.level == 0 then s0 else s0.modCore core (fun k => k.tlbPut e))

/-- The state after an access that passed its checks has used a translation of a context (R67, R68): the walk's reads,
the TLBs' entries, and A, with D on a write, set at the entry's home. -/
def State.useWalk (s : State) (by_ : CrewRef) (ctx va : Nat) (w : Walk) (write : Bool) : List Tag × State :=
  let want := w.pte ||| (if write then 0xC0 else 0x40)
  let q := s.fillTlb by_.core ctx va w want
  if want == w.pte then q
  else
    let s2 := q.2.modCore by_.core (fun k => { k with tlb := k.tlb.map (fun x =>
      if x.ctx == ctx && x.entry == w.pteAddr then { x with pte := x.pte ||| want } else x) })
    let now := s2.numAt (.mem w.pteAddr) 8
    (q.1, s2.writeNow (s2.homeOf (.mem w.pteAddr) false)
      { crew := by_, setter := 0, bytes := [(.mem w.pteAddr, toBytes 8 (now ||| (want &&& 0xC0)))],
        descs := [], rel := none, stats := [] })

/-- The group of a crew is pinned to its core (R447). -/
def State.pin (s : State) (r : CrewRef) : State :=
  match s.gslotOf r with
  | some g => s.modGroup r.core g (fun x => { x with pinCore := true })
  | none => s

/-- A crew's launch stores to a place: code fetched from its line is unspecified from then on (R214). -/
def State.noteStore (s : State) (r : CrewRef) (p : Loc) : State :=
  match p, (s.crew r).owner with
  | .mem a, some o => s.modLaunch o.lslot (fun l =>
      if l.wrote.contains (a / 128) then l else { l with wrote := l.wrote ++ [a / 128] })
  | _, _ => s

/-- The state after a crew's access has used a target's translation; the walk's tags join its current region. Use of the
own-vault window pins the group. -/
def State.useTarget (s : State) (r : CrewRef) (va : Nat) (t : Target) (write : Bool) : State :=
  let s0 := if write then s.noteStore r t.loc else s
  match t.walk with
  | none => if t.ownVault then s0.pin r else s0
  | some w =>
    let q := s0.useWalk r (s.ctxOf r) va w write
    q.2.modCrew r (fun x => x.addTags q.1)

/-- A translation made for LOCQ or CACHE: the TLBs are filled, and A and D stay (R67, R80, R323). -/
def State.lookTarget (s : State) (r : CrewRef) (va : Nat) (t : Target) : State :=
  match t.walk with
  | none => s
  | some w =>
    let q := s.fillTlb r.core (s.ctxOf r) va w w.pte
    q.2.modCrew r (fun x => x.addTags q.1)

/-- The launch of a crew has stored to a line that n bytes of code touch (R214). -/
def State.ownCode (s : State) (r : CrewRef) (p : Loc) (n : Nat) : Bool :=
  match p, s.launchOf r with
  | .mem a, some l => l.wrote.any (fun x => decide (128 * x < a + n) && decide (a < 128 * x + 128))
  | _, _ => false

/-- The bytes of code at a place: free values where the crew's own launch has stored (R9, R214, log 15). -/
def State.codeAt (s : State) (r : CrewRef) (p : Loc) (n : Nat) : List Byte :=
  if s.ownCode r p n then (upTo n).map (fun i => (Config.freeWord (s.freeCtr + i)).setWidth 8) else s.peek p n

/-- What a fetch of code leaves at the home of its bytes (R64): the device reads them there unless it has kept the
instruction. -/
def State.codeRead (s : State) (r : CrewRef) (va n : Nat) (p : Loc) : State :=
  let s1 := if s.ownCode r p n then { s with freeCtr := s.freeCtr + 8 } else s
  if s.sched.kept.any (fun k => k.ctx == s.ctxOf r && decide (k.va ≤ va) && decide (va < k.va + 8)) then s1
  else (s1.reach (s.homeOf p false) p .plain false).2

/-- One page's part of a fetch (R54). -/
def State.fetchAt (s : State) (r : CrewRef) (va : Nat) : Except Cause Target :=
  if bits va 63 56 != 0 then .error causeNoncanon else s.resolveGlobal r .fetch va

/-- The failure of a fetch in every lane of the group; ADDR names the address that failed. -/
def fetchFailure (m : Mask) (c : Cause) (va : Nat) : List LaneTrap :=
  m.lanes.map (fun l => ⟨l, c.1, c.2, BitVec.ofNat 64 va, 0⟩)

/-- The bytes of an instruction that may lie in two pages, each fetched on its own (R214). The smallest page is 64 KiB. -/
def State.fetchBytes (s : State) (r : CrewRef) (pc n : Nat) : Except (Cause × Nat) (List Byte × State) :=
  match s.fetchAt r pc with
  | .error c => .error (c, pc)
  | .ok t =>
    let first := min n (65536 - pc % 65536)
    let s1 := (s.useTarget r pc t false).codeRead r pc n t.loc
    if first == n then .ok (s.codeAt r t.loc n, s1)
    else
      let va := (pc + first) % 2 ^ 64
      match s.fetchAt r va with
      | .error c => .error (c, va)
      | .ok u => .ok (s.codeAt r t.loc first ++ s.codeAt r u.loc (n - first), (s1.useTarget r va u false).codeRead r va n u.loc)

/-- What fetch gives where the device may have kept a context's instruction (R214): the kept word or the word in memory,
by a free choice, when they differ (log 15). -/
def State.keptWord (s : State) (ctx va word : Nat) : Nat × State :=
  match s.sched.kept.find? (fun k => k.ctx == ctx && k.va == va) with
  | none => (word, { s with sched := { s.sched with kept := s.sched.kept ++ [⟨ctx, va, word⟩] } })
  | some k => if k.word == word then (word, s)
    else (if Config.freeEntry (s.freeCtr + va) then word else k.word, s.spend)

/-- The instruction of an issue group, fetched (R213, R214): its length and word stand in the issue group. The error is
the state after the fetch's failure. -/
def State.fetch (s : State) (i : Issue) : Except State (Issue × State) :=
  let pc := i.pc.toNat
  match s.fetchBytes i.ref pc 2 with
  | .error e => .error (s.fail { i with len := 0, word := 0 } (fetchFailure i.part e.1 e.2))
  | .ok h =>
    let n := instrLength (ofBytes h.1)
    match (if n == 2 then .ok h else s.fetchBytes i.ref pc n) with
    | .error e => .error (s.fail { i with len := n, word := ofBytes h.1 } (fetchFailure i.part e.1 e.2))
    | .ok b =>
      let w := b.2.keptWord (s.ctxOf i.ref) pc (ofBytes b.1)
      let m := instrLength (w.1 % 65536)
      let i' := { i with len := m, word := w.1 % 2 ^ (8 * m) }
      .ok (i', { w.2 with issue := some i' })

/-- The instruction that the state's issue group runs next, decoded; the error is the state after a failed fetch or an
ILLEGAL found by decoding (R227 steps 1 to 4). -/
def State.fetchDecode (s : State) (i : Issue) : Except State (Instr × State) :=
  match s.fetch i with
  | .error t => .error t
  | .ok q =>
    match decode (toBytes 8 q.1.word) with
    | .ok x => .ok (x.1, q.2)
    | .error c => .error (q.2.failAll q.1 q.1.part (0, c.code))

end Sys2Proof.Machine
end

