-- ==== Sys2Proof/Machine/Banks.lean ====
section
/-! DEFINITION. Register banks: which registers an instruction reads and in which cycles, claims, the write buffer, and
the wait for a fixed-latency result (R191, R206, R207, R383). -/

namespace Sys2Proof.Machine

/-- The registers that a register-format instruction reads, by operand: source A, source B, source C, then a pair in the
field D (R206, R223). -/
def lReads (sh : Shape) (f : L64) : List (List (BitVec 7)) :=
  let one := fun (u : Use) (x : BitVec 7) => match u with
    | .src => [x]
    | .reg => [x]
    | .regOrZero => [x]
    | .pair => [x, x + 1]
    | .pairOrZero => [x, x + 1]
    | _ => []
  [one sh.a f.a, one sh.b f.b, (sh.creg.map (fun u => one u f.c)).getD [], if sh.d == .pair then [f.d, f.d + 1] else []]

/-- The registers that a two-operand instruction of 16 bits reads (R230). -/
def cReads (f : C16) : List (List (BitVec 7)) := [[f.gd.setWidth 7], [f.gs.setWidth 7]]

/-- The registers of a group from d on (R306). -/
def groupReads (d : BitVec 7) (n : Nat) : List (BitVec 7) := (upTo n).map (fun k => d + BitVec.ofNat 7 k)

/-- The address of a memory instruction, then a group of n data registers. -/
def mReads (pair : Bool) (f : M64) (n : Nat) : List (List (BitVec 7)) :=
  [if pair then [f.a, f.a + 1] else [f.a], groupReads f.d n]

/-- The selectors an instruction reads, operand by operand, in the order of their cycles (R206). A pair or a group is one
operand (log 6). -/
def readsOf : Instr → List (List (BitVec 7))
  | .powerOn _ => []
  | .issueArbitration => []
  | .recordStart => []
  | .regionRelease => []
  | .groupComplete => []
  | .handlerCrewStart => []
  | .trapEntry => []
  | .contextTerminate => []
  | .sensorEventCore _ _ => []
  | .sensorEventHome _ _ => []
  | .sensorEventRouterPort _ _ => []
  | .crossingSlip _ => []
  | .redoNoticeReceive => []
  | .clearSend => []
  | .clearReceive => []
  | .homeServeRead => []
  | .homePerformWrite => []
  | .homePerformAtomic => []
  | .loadValueReturn => []
  | .writeAckReceive => []
  | .releasePointComplete => []
  | .atomicResendTimeout => []
  | .transactionTimeout => []
  | .linkCrcFail _ _ => []
  | .linkResend => []
  | .laneRemap _ _ _ => []
  | .laneRemapEnd => []
  | .l1LeaseExpiry => []
  | .epochRotate => []
  | .subscriptionUpdateSend => []
  | .subscriptionUpdateApply _ _ => []
  | .subscriptionNackResend => []
  | .windowTableUpdate => []
  | .amsgAccept => []
  | .xblkGrant => []
  | .asyncTrapDue => []
  | .barrierTimeout => []
  | .engineOpStart => []
  | .engineLand => []
  | .activationStart => []
  | .rowReady => []
  | .refreshSlotStart => []
  | .circuitIdleTeardown => []
  | .uncorrectableStorageError _ => []
  | .launchReady => []
  | .cancelComplete => []
  | .doorbellWrite _ _ => []
  | .nopCommand => []
  | .launch => []
  | .openLevel => []
  | .cancelLevel => []
  | .writeWord => []
  | .notifyCores => []
  | .inval => []
  | .ctxset => []
  | .waitRecheckTimer => []
  | .queueTableTimeout => []
  | .bindRecordWrite _ _ => []
  | .restoreRecordWrite _ _ => []
  | .stealAttempt => []
  | .stealRequest => []
  | .logOverrunClear _ _ => []
  | .fqheadWrite _ => []
  | .faultrespReplay _ => []
  | .faultrespDecline _ => []
  | .faultrespTerminate _ => []
  | .frstatRead => []
  | .preemptRequest _ _ => []
  | .preemptComplete => []
  | .fenceUnit _ _ _ => []
  | .fenceEvacuationTimeout => []
  | .quiesce _ => []
  | .restoreCast _ => []
  | .runFieldTest _ => []
  | .iftctlStart _ _ => []
  | .iftComplete _ _ => []
  | .resetCluster _ => []
  | .clusterResetEnd => []
  | .clearCounters _ _ => []
  | .updateFirmware _ _ => []
  | .setPowerCap _ => []
  | .powerControlPeriod _ _ _ => []
  | .thermalThrottle _ _ => []
  | .thermalRelease _ _ => []
  | .scrubVisit _ _ => []
  | .scrubWriteback => []
  | .counterWrite _ _ _ => []
  | .thresholdWrite _ _ _ => []
  | .ellostClear _ => []
  | .lockRegion _ => []
  | .lockPart _ => []
  | .lockLmap _ => []
  | .lockSensors _ => []
  | .lockClock _ => []
  | .lockPhoac _ => []
  | .lockErrorClear _ => []
  | .registerWrite _ _ _ => []
  | .appCoreAccess _ _ => []
  | .pcieInboundRequest _ _ => []
  | .phoacRequest _ _ _ => []
  | .getVersion => []
  | .getCapabilities => []
  | .negotiateAlgorithms _ _ => []
  | .getDigests => []
  | .getCertificate _ _ _ => []
  | .challenge _ _ => []
  | .getMeasurements _ => []
  | .spdmUnsupported _ => []
  | .reservedOpcode _ _ => []
  | .rjoinRelease => []
  | .subscriptionAckReceive => []
  | .refreshSlotEnd => []
  | .unitCompleteInStaging => []
  | .iadd f => lReads Shape.alu2 f
  | .iaddS32 f => lReads Shape.alu2 (f.expand Shape.alu2)
  | .iaddC16 f => cReads f
  | .isub f => lReads Shape.alu2 f
  | .isubS32 f => lReads Shape.alu2 (f.expand Shape.alu2)
  | .isubC16 f => cReads f
  | .iaddi f => [[f.a]]
  | .iaddiI32 f => [[(f.expand true true).a]]
  | .imul f => lReads Shape.alu2 f
  | .imulS32 f => lReads Shape.alu2 (f.expand Shape.alu2)
  | .imulh f => lReads Shape.alu2 f
  | .imulhS32 f => lReads Shape.alu2 (f.expand Shape.alu2)
  | .imac f => lReads Shape.alu3 f
  | .imacw f => lReads Shape.alu3 f
  | .imin f => lReads Shape.alu2 f
  | .iminS32 f => lReads Shape.alu2 (f.expand Shape.alu2)
  | .iminC16 f => cReads f
  | .imax f => lReads Shape.alu2 f
  | .imaxS32 f => lReads Shape.alu2 (f.expand Shape.alu2)
  | .imaxC16 f => cReads f
  | .iabs f => lReads Shape.alu1 f
  | .iabsS32 f => lReads Shape.alu1 (f.expand Shape.alu1)
  | .and f => lReads Shape.alu2 f
  | .andS32 f => lReads Shape.alu2 (f.expand Shape.alu2)
  | .andC16 f => cReads f
  | .or f => lReads Shape.alu2 f
  | .orS32 f => lReads Shape.alu2 (f.expand Shape.alu2)
  | .orC16 f => cReads f
  | .xor f => lReads Shape.alu2 f
  | .xorS32 f => lReads Shape.alu2 (f.expand Shape.alu2)
  | .xorC16 f => cReads f
  | .logi f => lReads Shape.alu2 f
  | .logiS32 f => lReads Shape.alu2 (f.expand Shape.alu2)
  | .shl f => lReads Shape.alu2 f
  | .shlS32 f => lReads Shape.alu2 (f.expand Shape.alu2)
  | .shlC16 f => cReads f
  | .shr f => lReads Shape.alu2 f
  | .shrS32 f => lReads Shape.alu2 (f.expand Shape.alu2)
  | .shrC16 f => cReads f
  | .funl f => lReads Shape.alu3 f
  | .bext f => lReads Shape.alu2 f
  | .bextS32 f => lReads Shape.alu2 (f.expand Shape.alu2)
  | .bins f => lReads Shape.alu3 f
  | .bcnt f => lReads Shape.alu1 f
  | .bcntS32 f => lReads Shape.alu1 (f.expand Shape.alu1)
  | .bscan f => lReads Shape.alu1 f
  | .bscanS32 f => lReads Shape.alu1 (f.expand Shape.alu1)
  | .brev f => lReads Shape.alu1 f
  | .brevS32 f => lReads Shape.alu1 (f.expand Shape.alu1)
  | .bperm f => lReads Shape.alu2 f
  | .bpermS32 f => lReads Shape.alu2 (f.expand Shape.alu2)
  | .icmp f => lReads Shape.cmp f
  | .sel f => lReads Shape.alu2 f
  | .adds f => lReads Shape.alu2 f
  | .addsS32 f => lReads Shape.alu2 (f.expand Shape.alu2)
  | .idot4 f => lReads Shape.alu3 f
  | .fadd f => lReads Shape.alu2 f
  | .faddS32 f => lReads Shape.alu2 (f.expand Shape.alu2)
  | .faddC16 f => cReads f
  | .fsubC16 f => cReads f
  | .fmul f => lReads Shape.alu2 f
  | .fmulS32 f => lReads Shape.alu2 (f.expand Shape.alu2)
  | .fmulC16 f => cReads f
  | .ffma f => lReads Shape.alu3 f
  | .ffms f => lReads Shape.alu3 f
  | .fnma f => lReads Shape.alu3 f
  | .fmin f => lReads Shape.alu2 f
  | .fminS32 f => lReads Shape.alu2 (f.expand Shape.alu2)
  | .fminC16 f => cReads f
  | .fmax f => lReads Shape.alu2 f
  | .fmaxS32 f => lReads Shape.alu2 (f.expand Shape.alu2)
  | .fmaxC16 f => cReads f
  | .fcmp f => lReads Shape.cmp f
  | .fclass f => lReads Shape.alu1 f
  | .fclassS32 f => lReads Shape.alu1 (f.expand Shape.alu1)
  | .sfn f => lReads Shape.alu1 f
  | .sfnS32 f => lReads Shape.alu1 (f.expand Shape.alu1)
  | .fint f => lReads Shape.alu1 f
  | .fintS32 f => lReads Shape.alu1 (f.expand Shape.alu1)
  | .ftoi f => lReads Shape.alu1 f
  | .ftoiS32 f => lReads Shape.alu1 (f.expand Shape.alu1)
  | .itof f => lReads Shape.alu1 f
  | .itofS32 f => lReads Shape.alu1 (f.expand Shape.alu1)
  | .fscale f => lReads Shape.alu2 f
  | .fscaleS32 f => lReads Shape.alu2 (f.expand Shape.alu2)
  | .padd f => lReads Shape.alu2 f
  | .paddS32 f => lReads Shape.alu2 (f.expand Shape.alu2)
  | .paddC16 f => cReads f
  | .pmul f => lReads Shape.alu2 f
  | .pmulS32 f => lReads Shape.alu2 (f.expand Shape.alu2)
  | .pfma f => lReads Shape.alu3 f
  | .pmnx f => lReads Shape.alu2 f
  | .pmnxS32 f => lReads Shape.alu2 (f.expand Shape.alu2)
  | .cvt f => lReads Shape.alu2 f
  | .cvtS32 f => lReads Shape.alu2 (f.expand Shape.alu2)
  | .pack f => lReads Shape.alu2 f
  | .packS32 f => lReads Shape.alu2 (f.expand Shape.alu2)
  | .unpk f => lReads Shape.alu1 f
  | .unpkS32 f => lReads Shape.alu1 (f.expand Shape.alu1)
  | .qnt f => [[f.a, f.a + 1], groupReads f.d 5]
  | .dqnt f => mReads true f 0
  | .plog f => lReads Shape.plog f
  | .pget f => lReads Shape.alu0 f
  | .pput f => lReads Shape.pput f
  | .cvote f => lReads Shape.alu1 f
  | .cvoteS32 f => lReads Shape.alu1 (f.expand Shape.alu1)
  | .lxch f => lReads Shape.alu2 f
  | .lxchS32 f => lReads Shape.alu2 (f.expand Shape.alu2)
  | .lred f => lReads Shape.alu1 f
  | .lmatch f => lReads Shape.alu1 f
  | .pick f => lReads Shape.alu3 f
  | .maskLanes f => lReads Shape.alu0 f
  | .maskLanesS32 f => lReads Shape.alu0 (f.expand Shape.alu0)
  | .mov f => lReads Shape.alu1 f
  | .movS32 f => lReads Shape.alu1 (f.expand Shape.alu1)
  | .movC16 f => [[f.gs.setWidth 7]]
  | .movi _ => []
  | .moviI32 _ => []
  | .sread _ => []
  | .sreadI32 _ => []
  | .locq f => mReads true f 0
  | .br _ => []
  | .brJ32 _ => []
  | .jr f => lReads Shape.jr f
  | .jrS32 f => lReads Shape.jr (f.expand Shape.jr)
  | .call _ => []
  | .callJ32 _ => []
  | .ret f => lReads Shape.ret f
  | .retS32 f => lReads Shape.ret (f.expand Shape.ret)
  | .rjoin f => lReads Shape.rjoin f
  | .rjoinS32 f => lReads Shape.rjoin (f.expand Shape.rjoin)
  | .exitThread f => lReads Shape.bare f
  | .exitThreadS32 => []
  | .nop f => lReads Shape.bare f
  | .nopS32 => []
  | .pause f => lReads Shape.bare f
  | .pauseS32 => []
  | .region f => lReads Shape.bare f
  | .regionS32 => []
  | .tryGambit _ => []
  | .commit f => lReads Shape.bare f
  | .commitS32 => []
  | .abort _ => []
  | .trap _ => []
  | .brk _ => []
  | .brkI32 _ => []
  | .tret f => lReads Shape.bare f
  | .tretS32 => []
  | .sysR _ => []
  | .sysW f => [[f.a]]
  | .ld f => mReads true f 0
  | .st f => mReads true f (groupLen f.sz.toNat)
  | .stBlk f => mReads true f 16
  | .ldc f => mReads true f 0
  | .lda f => mReads true f 0
  | .sld f => [[f.a]]
  | .sst f => mReads false f (groupLen f.sz.toNat)
  | .atom f => mReads true f (2 * groupLen f.sz.toNat)
  | .atomn f => mReads true f (2 * groupLen f.sz.toNat)
  | .satom f => mReads false f (2 * groupLen f.sz.toNat)
  | .fence f => mReads true f 0
  | .cache f => mReads true f 0
  | .bari f => mReads false f 1
  | .bara f => mReads false f 1
  | .barx f => mReads false f 1
  | .barw f => mReads false f 1
  | .bart f => [[f.a]]
  | .cpy f => lReads Shape.cpy f
  | .cpyt f => lReads Shape.cpyt f
  | .cpyg f => lReads Shape.cpyg f
  | .tlwait f => lReads Shape.tlwait f
  | .tmac f => lReads Shape.tmac f
  | .tconv f => lReads Shape.tconv f
  | .tdrain f => lReads Shape.tdrain f
  | .tctlZero f => lReads Shape.tctlZero f
  | .tctlLoad f => lReads Shape.tctlLoad f
  | .tctlStat f => lReads Shape.tctlStat f
  | .ract f => lReads Shape.ract f
  | .rcon f => [[f.a], (if f.b.toNat < 64 then [f.b] else [])]
  | .rpre f => lReads Shape.rpre f
  | .wopen f => [[f.a], (if f.mx == 2 then [f.b] else [])]
  | .subsOn f => lReads Shape.subsOn f
  | .subsOff f => lReads Shape.subsOff f
  | .amsg f => lReads Shape.amsg f
  | .circSetup f => lReads Shape.circSetup f
  | .circSend f => lReads Shape.circSend f
  | .circRel f => lReads Shape.circRel f
  | .xblkAcq f => lReads Shape.xblkAcq f
  | .xblkAcqS32 => []
  | .xblkRel f => lReads Shape.xblkRel f
  | .xblkRelS32 => []

/-- The register that an instruction of the 64-bit register format writes, when it writes back, with its latency
(R208, R383). -/
def lResult (f : L64) (n : Nat) : List (Nat × Nat) := if f.nwb == 1 then [] else [(f.d.toNat, n)]

/-- The registers of SREAD: a pair for a 64-bit special register (R282). -/
def sreadResult (f : K64) : List (Nat × Nat) :=
  if specialWide.contains f.imm.toNat then [(f.d.toNat, 4), (f.d.toNat + 1, 4)] else [(f.d.toNat, 4)]

/-- The destination selectors of an instruction that gives fixed-latency results, with the latency (R383). A predicate k
is 128 + k. -/
def resultOf : Instr → List (Nat × Nat)
  | .powerOn _ => []
  | .issueArbitration => []
  | .recordStart => []
  | .regionRelease => []
  | .groupComplete => []
  | .handlerCrewStart => []
  | .trapEntry => []
  | .contextTerminate => []
  | .sensorEventCore _ _ => []
  | .sensorEventHome _ _ => []
  | .sensorEventRouterPort _ _ => []
  | .crossingSlip _ => []
  | .redoNoticeReceive => []
  | .clearSend => []
  | .clearReceive => []
  | .homeServeRead => []
  | .homePerformWrite => []
  | .homePerformAtomic => []
  | .loadValueReturn => []
  | .writeAckReceive => []
  | .releasePointComplete => []
  | .atomicResendTimeout => []
  | .transactionTimeout => []
  | .linkCrcFail _ _ => []
  | .linkResend => []
  | .laneRemap _ _ _ => []
  | .laneRemapEnd => []
  | .l1LeaseExpiry => []
  | .epochRotate => []
  | .subscriptionUpdateSend => []
  | .subscriptionUpdateApply _ _ => []
  | .subscriptionNackResend => []
  | .windowTableUpdate => []
  | .amsgAccept => []
  | .xblkGrant => []
  | .asyncTrapDue => []
  | .barrierTimeout => []
  | .engineOpStart => []
  | .engineLand => []
  | .activationStart => []
  | .rowReady => []
  | .refreshSlotStart => []
  | .circuitIdleTeardown => []
  | .uncorrectableStorageError _ => []
  | .launchReady => []
  | .cancelComplete => []
  | .doorbellWrite _ _ => []
  | .nopCommand => []
  | .launch => []
  | .openLevel => []
  | .cancelLevel => []
  | .writeWord => []
  | .notifyCores => []
  | .inval => []
  | .ctxset => []
  | .waitRecheckTimer => []
  | .queueTableTimeout => []
  | .bindRecordWrite _ _ => []
  | .restoreRecordWrite _ _ => []
  | .stealAttempt => []
  | .stealRequest => []
  | .logOverrunClear _ _ => []
  | .fqheadWrite _ => []
  | .faultrespReplay _ => []
  | .faultrespDecline _ => []
  | .faultrespTerminate _ => []
  | .frstatRead => []
  | .preemptRequest _ _ => []
  | .preemptComplete => []
  | .fenceUnit _ _ _ => []
  | .fenceEvacuationTimeout => []
  | .quiesce _ => []
  | .restoreCast _ => []
  | .runFieldTest _ => []
  | .iftctlStart _ _ => []
  | .iftComplete _ _ => []
  | .resetCluster _ => []
  | .clusterResetEnd => []
  | .clearCounters _ _ => []
  | .updateFirmware _ _ => []
  | .setPowerCap _ => []
  | .powerControlPeriod _ _ _ => []
  | .thermalThrottle _ _ => []
  | .thermalRelease _ _ => []
  | .scrubVisit _ _ => []
  | .scrubWriteback => []
  | .counterWrite _ _ _ => []
  | .thresholdWrite _ _ _ => []
  | .ellostClear _ => []
  | .lockRegion _ => []
  | .lockPart _ => []
  | .lockLmap _ => []
  | .lockSensors _ => []
  | .lockClock _ => []
  | .lockPhoac _ => []
  | .lockErrorClear _ => []
  | .registerWrite _ _ _ => []
  | .appCoreAccess _ _ => []
  | .pcieInboundRequest _ _ => []
  | .phoacRequest _ _ _ => []
  | .getVersion => []
  | .getCapabilities => []
  | .negotiateAlgorithms _ _ => []
  | .getDigests => []
  | .getCertificate _ _ _ => []
  | .challenge _ _ => []
  | .getMeasurements _ => []
  | .spdmUnsupported _ => []
  | .reservedOpcode _ _ => []
  | .rjoinRelease => []
  | .subscriptionAckReceive => []
  | .refreshSlotEnd => []
  | .unitCompleteInStaging => []
  | .iadd f => lResult f 4
  | .iaddS32 f => [(f.gd.toNat, 4)]
  | .iaddC16 f => [(f.gd.toNat, 4)]
  | .isub f => lResult f 4
  | .isubS32 f => [(f.gd.toNat, 4)]
  | .isubC16 f => [(f.gd.toNat, 4)]
  | .iaddi f => [(f.d.toNat, 4)]
  | .iaddiI32 f => [(f.gd.toNat, 4)]
  | .imul f => lResult f 4
  | .imulS32 f => [(f.gd.toNat, 4)]
  | .imulh f => lResult f 4
  | .imulhS32 f => [(f.gd.toNat, 4)]
  | .imac f => lResult f 4
  | .imacw f => lResult f 4
  | .imin f => lResult f 4
  | .iminS32 f => [(f.gd.toNat, 4)]
  | .iminC16 f => [(f.gd.toNat, 4)]
  | .imax f => lResult f 4
  | .imaxS32 f => [(f.gd.toNat, 4)]
  | .imaxC16 f => [(f.gd.toNat, 4)]
  | .iabs f => lResult f 4
  | .iabsS32 f => [(f.gd.toNat, 4)]
  | .and f => lResult f 4
  | .andS32 f => [(f.gd.toNat, 4)]
  | .andC16 f => [(f.gd.toNat, 4)]
  | .or f => lResult f 4
  | .orS32 f => [(f.gd.toNat, 4)]
  | .orC16 f => [(f.gd.toNat, 4)]
  | .xor f => lResult f 4
  | .xorS32 f => [(f.gd.toNat, 4)]
  | .xorC16 f => [(f.gd.toNat, 4)]
  | .logi f => lResult f 4
  | .logiS32 f => [(f.gd.toNat, 4)]
  | .shl f => lResult f 4
  | .shlS32 f => [(f.gd.toNat, 4)]
  | .shlC16 f => [(f.gd.toNat, 4)]
  | .shr f => lResult f 4
  | .shrS32 f => [(f.gd.toNat, 4)]
  | .shrC16 f => [(f.gd.toNat, 4)]
  | .funl f => lResult f 4
  | .bext f => lResult f 4
  | .bextS32 f => [(f.gd.toNat, 4)]
  | .bins f => lResult f 4
  | .bcnt f => lResult f 4
  | .bcntS32 f => [(f.gd.toNat, 4)]
  | .bscan f => lResult f 4
  | .bscanS32 f => [(f.gd.toNat, 4)]
  | .brev f => lResult f 4
  | .brevS32 f => [(f.gd.toNat, 4)]
  | .bperm f => lResult f 4
  | .bpermS32 f => [(f.gd.toNat, 4)]
  | .icmp f => [(128 + f.d.toNat, 4)]
  | .sel f => lResult f 4
  | .adds f => lResult f 4
  | .addsS32 f => [(f.gd.toNat, 4)]
  | .idot4 f => lResult f 4
  | .fadd f => lResult f 4
  | .faddS32 f => [(f.gd.toNat, 4)]
  | .faddC16 f => [(f.gd.toNat, 4)]
  | .fsubC16 f => [(f.gd.toNat, 4)]
  | .fmul f => lResult f 4
  | .fmulS32 f => [(f.gd.toNat, 4)]
  | .fmulC16 f => [(f.gd.toNat, 4)]
  | .ffma f => lResult f 4
  | .ffms f => lResult f 4
  | .fnma f => lResult f 4
  | .fmin f => lResult f 4
  | .fminS32 f => [(f.gd.toNat, 4)]
  | .fminC16 f => [(f.gd.toNat, 4)]
  | .fmax f => lResult f 4
  | .fmaxS32 f => [(f.gd.toNat, 4)]
  | .fmaxC16 f => [(f.gd.toNat, 4)]
  | .fcmp f => [(128 + f.d.toNat, 4)]
  | .fclass f => lResult f 4
  | .fclassS32 f => [(f.gd.toNat, 4)]
  | .sfn f => lResult f 12
  | .sfnS32 f => [(f.gd.toNat, 12)]
  | .fint f => lResult f 4
  | .fintS32 f => [(f.gd.toNat, 4)]
  | .ftoi f => lResult f 4
  | .ftoiS32 f => [(f.gd.toNat, 4)]
  | .itof f => lResult f 4
  | .itofS32 f => [(f.gd.toNat, 4)]
  | .fscale f => lResult f 4
  | .fscaleS32 f => [(f.gd.toNat, 4)]
  | .padd f => lResult f 4
  | .paddS32 f => [(f.gd.toNat, 4)]
  | .paddC16 f => [(f.gd.toNat, 4)]
  | .pmul f => lResult f 4
  | .pmulS32 f => [(f.gd.toNat, 4)]
  | .pfma f => lResult f 4
  | .pmnx f => lResult f 4
  | .pmnxS32 f => [(f.gd.toNat, 4)]
  | .cvt f => lResult f 4
  | .cvtS32 f => [(f.gd.toNat, 4)]
  | .pack f => lResult f 4
  | .packS32 f => [(f.gd.toNat, 4)]
  | .unpk f => lResult f 4
  | .unpkS32 f => [(f.gd.toNat, 4)]
  | .qnt _ => []
  | .dqnt _ => []
  | .plog f => [(128 + f.d.toNat, 4)]
  | .pget f => lResult f 4
  | .pput f => if cbit f 0 then (upTo 31).map (fun k => (128 + k, 4)) else [(128 + f.d.toNat, 4)]
  | .cvote f => lResult f 4
  | .cvoteS32 f => [(f.gd.toNat, 4)]
  | .lxch f => lResult f 4
  | .lxchS32 f => [(f.gd.toNat, 4)]
  | .lred _ => []
  | .lmatch _ => []
  | .pick f => lResult f 4
  | .maskLanes f => lResult f 4
  | .maskLanesS32 f => [(f.gd.toNat, 4)]
  | .mov f => lResult f 4
  | .movS32 f => [(f.gd.toNat, 4)]
  | .movC16 f => [(f.gd.toNat, 4)]
  | .movi f => [(f.d.toNat, 4)]
  | .moviI32 f => [(f.gd.toNat, 4)]
  | .sread f => sreadResult f
  | .sreadI32 f => sreadResult (f.expand true false)
  | .locq _ => []
  | .br _ => []
  | .brJ32 _ => []
  | .jr _ => []
  | .jrS32 _ => []
  | .call f => [(f.d.toNat, 4), (f.d.toNat + 1, 4)]
  | .callJ32 f => [((f.expand true).d.toNat, 4), ((f.expand true).d.toNat + 1, 4)]
  | .ret _ => []
  | .retS32 _ => []
  | .rjoin _ => []
  | .rjoinS32 _ => []
  | .exitThread _ => []
  | .exitThreadS32 => []
  | .nop _ => []
  | .nopS32 => []
  | .pause _ => []
  | .pauseS32 => []
  | .region _ => []
  | .regionS32 => []
  | .tryGambit f => [(f.d.toNat, 4)]
  | .commit _ => []
  | .commitS32 => []
  | .abort _ => []
  | .trap _ => []
  | .brk _ => []
  | .brkI32 _ => []
  | .tret _ => []
  | .tretS32 => []
  | .sysR f => [(f.d.toNat, 8)]
  | .sysW _ => []
  | .ld _ => []
  | .st _ => []
  | .stBlk _ => []
  | .ldc _ => []
  | .lda _ => []
  | .sld _ => []
  | .sst _ => []
  | .atom _ => []
  | .atomn _ => []
  | .satom _ => []
  | .fence _ => []
  | .cache _ => []
  | .bari _ => []
  | .bara _ => []
  | .barx _ => []
  | .barw _ => []
  | .bart _ => []
  | .cpy _ => []
  | .cpyt _ => []
  | .cpyg _ => []
  | .tlwait _ => []
  | .tmac _ => []
  | .tconv _ => []
  | .tdrain _ => []
  | .tctlZero _ => []
  | .tctlLoad _ => []
  | .tctlStat _ => []
  | .ract _ => []
  | .rcon f => lResult f 4
  | .rpre _ => []
  | .wopen f => lResult f 4
  | .subsOn f => lResult f 4
  | .subsOff _ => []
  | .amsg _ => []
  | .circSetup _ => []
  | .circSend _ => []
  | .circRel _ => []
  | .xblkAcq _ => []
  | .xblkAcqS32 => []
  | .xblkRel _ => []
  | .xblkRelS32 => []

/-- A number of a predicate as the results due name it. -/
def predNum (n : Nat) : Nat := 128 + n

/-- The predicates that an instruction reads, as 128 + their numbers: its guard (R223), and those that are operands (R253,
R254, R272, R273). -/
def predsOf : Instr → List Nat
  | .powerOn _ => []
  | .issueArbitration => []
  | .recordStart => []
  | .regionRelease => []
  | .groupComplete => []
  | .handlerCrewStart => []
  | .trapEntry => []
  | .contextTerminate => []
  | .sensorEventCore _ _ => []
  | .sensorEventHome _ _ => []
  | .sensorEventRouterPort _ _ => []
  | .crossingSlip _ => []
  | .redoNoticeReceive => []
  | .clearSend => []
  | .clearReceive => []
  | .homeServeRead => []
  | .homePerformWrite => []
  | .homePerformAtomic => []
  | .loadValueReturn => []
  | .writeAckReceive => []
  | .releasePointComplete => []
  | .atomicResendTimeout => []
  | .transactionTimeout => []
  | .linkCrcFail _ _ => []
  | .linkResend => []
  | .laneRemap _ _ _ => []
  | .laneRemapEnd => []
  | .l1LeaseExpiry => []
  | .epochRotate => []
  | .subscriptionUpdateSend => []
  | .subscriptionUpdateApply _ _ => []
  | .subscriptionNackResend => []
  | .windowTableUpdate => []
  | .amsgAccept => []
  | .xblkGrant => []
  | .asyncTrapDue => []
  | .barrierTimeout => []
  | .engineOpStart => []
  | .engineLand => []
  | .activationStart => []
  | .rowReady => []
  | .refreshSlotStart => []
  | .circuitIdleTeardown => []
  | .uncorrectableStorageError _ => []
  | .launchReady => []
  | .cancelComplete => []
  | .doorbellWrite _ _ => []
  | .nopCommand => []
  | .launch => []
  | .openLevel => []
  | .cancelLevel => []
  | .writeWord => []
  | .notifyCores => []
  | .inval => []
  | .ctxset => []
  | .waitRecheckTimer => []
  | .queueTableTimeout => []
  | .bindRecordWrite _ _ => []
  | .restoreRecordWrite _ _ => []
  | .stealAttempt => []
  | .stealRequest => []
  | .logOverrunClear _ _ => []
  | .fqheadWrite _ => []
  | .faultrespReplay _ => []
  | .faultrespDecline _ => []
  | .faultrespTerminate _ => []
  | .frstatRead => []
  | .preemptRequest _ _ => []
  | .preemptComplete => []
  | .fenceUnit _ _ _ => []
  | .fenceEvacuationTimeout => []
  | .quiesce _ => []
  | .restoreCast _ => []
  | .runFieldTest _ => []
  | .iftctlStart _ _ => []
  | .iftComplete _ _ => []
  | .resetCluster _ => []
  | .clusterResetEnd => []
  | .clearCounters _ _ => []
  | .updateFirmware _ _ => []
  | .setPowerCap _ => []
  | .powerControlPeriod _ _ _ => []
  | .thermalThrottle _ _ => []
  | .thermalRelease _ _ => []
  | .scrubVisit _ _ => []
  | .scrubWriteback => []
  | .counterWrite _ _ _ => []
  | .thresholdWrite _ _ _ => []
  | .ellostClear _ => []
  | .lockRegion _ => []
  | .lockPart _ => []
  | .lockLmap _ => []
  | .lockSensors _ => []
  | .lockClock _ => []
  | .lockPhoac _ => []
  | .lockErrorClear _ => []
  | .registerWrite _ _ _ => []
  | .appCoreAccess _ _ => []
  | .pcieInboundRequest _ _ => []
  | .phoacRequest _ _ _ => []
  | .getVersion => []
  | .getCapabilities => []
  | .negotiateAlgorithms _ _ => []
  | .getDigests => []
  | .getCertificate _ _ _ => []
  | .challenge _ _ => []
  | .getMeasurements _ => []
  | .spdmUnsupported _ => []
  | .reservedOpcode _ _ => []
  | .rjoinRelease => []
  | .subscriptionAckReceive => []
  | .refreshSlotEnd => []
  | .unitCompleteInStaging => []
  | .iadd f => [predNum f.pred.toNat]
  | .iaddS32 _ => []
  | .iaddC16 _ => []
  | .isub f => [predNum f.pred.toNat]
  | .isubS32 _ => []
  | .isubC16 _ => []
  | .iaddi f => [predNum f.pred.toNat]
  | .iaddiI32 _ => []
  | .imul f => [predNum f.pred.toNat]
  | .imulS32 _ => []
  | .imulh f => [predNum f.pred.toNat]
  | .imulhS32 _ => []
  | .imac f => [predNum f.pred.toNat]
  | .imacw f => [predNum f.pred.toNat]
  | .imin f => [predNum f.pred.toNat]
  | .iminS32 _ => []
  | .iminC16 _ => []
  | .imax f => [predNum f.pred.toNat]
  | .imaxS32 _ => []
  | .imaxC16 _ => []
  | .iabs f => [predNum f.pred.toNat]
  | .iabsS32 _ => []
  | .and f => [predNum f.pred.toNat]
  | .andS32 _ => []
  | .andC16 _ => []
  | .or f => [predNum f.pred.toNat]
  | .orS32 _ => []
  | .orC16 _ => []
  | .xor f => [predNum f.pred.toNat]
  | .xorS32 _ => []
  | .xorC16 _ => []
  | .logi f => [predNum f.pred.toNat]
  | .logiS32 _ => []
  | .shl f => [predNum f.pred.toNat]
  | .shlS32 _ => []
  | .shlC16 _ => []
  | .shr f => [predNum f.pred.toNat]
  | .shrS32 _ => []
  | .shrC16 _ => []
  | .funl f => [predNum f.pred.toNat]
  | .bext f => [predNum f.pred.toNat]
  | .bextS32 _ => []
  | .bins f => [predNum f.pred.toNat]
  | .bcnt f => [predNum f.pred.toNat]
  | .bcntS32 _ => []
  | .bscan f => [predNum f.pred.toNat]
  | .bscanS32 _ => []
  | .brev f => [predNum f.pred.toNat]
  | .brevS32 _ => []
  | .bperm f => [predNum f.pred.toNat]
  | .bpermS32 _ => []
  | .icmp f => predNum f.pred.toNat :: (if f.mx == 0 then [] else [predNum f.d.toNat])
  | .sel f => [predNum f.pred.toNat, predNum (f.c.toNat % 32)]
  | .adds f => [predNum f.pred.toNat]
  | .addsS32 _ => []
  | .idot4 f => [predNum f.pred.toNat]
  | .fadd f => [predNum f.pred.toNat]
  | .faddS32 _ => []
  | .faddC16 _ => []
  | .fsubC16 _ => []
  | .fmul f => [predNum f.pred.toNat]
  | .fmulS32 _ => []
  | .fmulC16 _ => []
  | .ffma f => [predNum f.pred.toNat]
  | .ffms f => [predNum f.pred.toNat]
  | .fnma f => [predNum f.pred.toNat]
  | .fmin f => [predNum f.pred.toNat]
  | .fminS32 _ => []
  | .fminC16 _ => []
  | .fmax f => [predNum f.pred.toNat]
  | .fmaxS32 _ => []
  | .fmaxC16 _ => []
  | .fcmp f => predNum f.pred.toNat :: (if f.mx == 0 then [] else [predNum f.d.toNat])
  | .fclass f => [predNum f.pred.toNat]
  | .fclassS32 _ => []
  | .sfn f => [predNum f.pred.toNat]
  | .sfnS32 _ => []
  | .fint f => [predNum f.pred.toNat]
  | .fintS32 _ => []
  | .ftoi f => [predNum f.pred.toNat]
  | .ftoiS32 _ => []
  | .itof f => [predNum f.pred.toNat]
  | .itofS32 _ => []
  | .fscale f => [predNum f.pred.toNat]
  | .fscaleS32 _ => []
  | .padd f => [predNum f.pred.toNat]
  | .paddS32 _ => []
  | .paddC16 _ => []
  | .pmul f => [predNum f.pred.toNat]
  | .pmulS32 _ => []
  | .pfma f => [predNum f.pred.toNat]
  | .pmnx f => [predNum f.pred.toNat]
  | .pmnxS32 _ => []
  | .cvt f => [predNum f.pred.toNat]
  | .cvtS32 _ => []
  | .pack f => [predNum f.pred.toNat]
  | .packS32 _ => []
  | .unpk f => [predNum f.pred.toNat]
  | .unpkS32 _ => []
  | .qnt f => [predNum f.pred.toNat]
  | .dqnt f => [predNum f.pred.toNat]
  | .plog f => [predNum f.pred.toNat, predNum f.a.toNat, predNum f.b.toNat]
  | .pget f => predNum f.pred.toNat :: (upTo 31).map predNum
  | .pput f => [predNum f.pred.toNat]
  | .cvote f => [predNum f.pred.toNat]
  | .cvoteS32 _ => []
  | .lxch f => [predNum f.pred.toNat]
  | .lxchS32 _ => []
  | .lred f => [predNum f.pred.toNat]
  | .lmatch f => [predNum f.pred.toNat]
  | .pick f => [predNum f.pred.toNat]
  | .maskLanes f => [predNum f.pred.toNat]
  | .maskLanesS32 _ => []
  | .mov f => [predNum f.pred.toNat]
  | .movS32 _ => []
  | .movC16 _ => []
  | .movi f => [predNum f.pred.toNat]
  | .moviI32 _ => []
  | .sread f => [predNum f.pred.toNat]
  | .sreadI32 _ => []
  | .locq f => [predNum f.pred.toNat]
  | .br f => [predNum f.pred.toNat]
  | .brJ32 f => [predNum f.pred.toNat]
  | .jr f => [predNum f.pred.toNat]
  | .jrS32 _ => []
  | .call f => [predNum f.pred.toNat]
  | .callJ32 f => [predNum f.pred.toNat]
  | .ret f => [predNum f.pred.toNat]
  | .retS32 _ => []
  | .rjoin f => [predNum f.pred.toNat]
  | .rjoinS32 _ => []
  | .exitThread f => [predNum f.pred.toNat]
  | .exitThreadS32 => []
  | .nop f => [predNum f.pred.toNat]
  | .nopS32 => []
  | .pause f => [predNum f.pred.toNat]
  | .pauseS32 => []
  | .region f => [predNum f.pred.toNat]
  | .regionS32 => []
  | .tryGambit f => [predNum f.pred.toNat]
  | .commit f => [predNum f.pred.toNat]
  | .commitS32 => []
  | .abort f => [predNum f.pred.toNat]
  | .trap f => [predNum f.pred.toNat]
  | .brk f => [predNum f.pred.toNat]
  | .brkI32 _ => []
  | .tret f => [predNum f.pred.toNat]
  | .tretS32 => []
  | .sysR f => [predNum f.pred.toNat]
  | .sysW f => [predNum f.pred.toNat]
  | .ld f => [predNum f.pred.toNat]
  | .st f => [predNum f.pred.toNat]
  | .stBlk f => [predNum f.pred.toNat]
  | .ldc f => [predNum f.pred.toNat]
  | .lda f => [predNum f.pred.toNat]
  | .sld f => [predNum f.pred.toNat]
  | .sst f => [predNum f.pred.toNat]
  | .atom f => [predNum f.pred.toNat]
  | .atomn f => [predNum f.pred.toNat]
  | .satom f => [predNum f.pred.toNat]
  | .fence f => [predNum f.pred.toNat]
  | .cache f => [predNum f.pred.toNat]
  | .bari f => [predNum f.pred.toNat]
  | .bara f => [predNum f.pred.toNat]
  | .barx f => [predNum f.pred.toNat]
  | .barw f => [predNum f.pred.toNat]
  | .bart f => [predNum f.pred.toNat]
  | .cpy f => [predNum f.pred.toNat]
  | .cpyt f => [predNum f.pred.toNat]
  | .cpyg f => [predNum f.pred.toNat]
  | .tlwait f => [predNum f.pred.toNat]
  | .tmac f => [predNum f.pred.toNat]
  | .tconv f => [predNum f.pred.toNat]
  | .tdrain f => [predNum f.pred.toNat]
  | .tctlZero f => [predNum f.pred.toNat]
  | .tctlLoad f => [predNum f.pred.toNat]
  | .tctlStat f => [predNum f.pred.toNat]
  | .ract f => [predNum f.pred.toNat]
  | .rcon f => [predNum f.pred.toNat]
  | .rpre f => [predNum f.pred.toNat]
  | .wopen f => [predNum f.pred.toNat]
  | .subsOn f => [predNum f.pred.toNat]
  | .subsOff f => [predNum f.pred.toNat]
  | .amsg f => [predNum f.pred.toNat]
  | .circSetup f => [predNum f.pred.toNat]
  | .circSend f => [predNum f.pred.toNat]
  | .circRel f => [predNum f.pred.toNat]
  | .xblkAcq f => [predNum f.pred.toNat]
  | .xblkAcqS32 => []
  | .xblkRel f => [predNum f.pred.toNat]
  | .xblkRelS32 => []

/-- The bank of a crew's register (R206). -/
def Sub.bankOf (b : Sub) (slot k : Nat) : Nat := ((b.crew slot).reg k).id % 4

/-- A register's result is still in the write buffer, which then serves its reads (R206). -/
def Sub.buffered (b : Sub) (id : Nat) : Bool := b.writes.any (fun w => w.id == id)

/-- The register that an issue group reads in place of a latch that is not valid for it: its producer's destination, while
that entry still names the register the producer wrote (R210). -/
def Sub.latchReg (b : Sub) (slot : Nat) (part : Mask) (sel : Nat) : Option Nat :=
  if sel < 64 || 66 < sel then none
  else (b.latches.getD (sel - 64) none).bind (fun x =>
    if x.slot != slot || (x.left != 0 && x.part == part) then none
    else (x.dest.filter (fun d => (b.crew slot).reg d.1 == d.2)).map (fun d => d.1))

/-- The selectors that an issue group's instruction reads, with the registers it reads in place of latches (R210). -/
def Sub.readsFor (b : Sub) (slot : Nat) (part : Mask) (i : Instr) : List (List (BitVec 7)) :=
  (readsOf i).map (fun l => l.map (fun x => ((b.latchReg slot part x.toNat).map (BitVec.ofNat 7)).getD x))

/-- The bank accesses of an instruction issued in a cycle that reads the selectors rs: its k-th operand in cycle t + 1 + k,
from 0. Latches and results still buffered take no bank (R206). -/
def Sub.claimsOf (b : Sub) (slot t : Nat) (rs : List (List (BitVec 7))) : List BankUse :=
  (upTo rs.length).flatMap (fun k => (rs.getD k []).filterMap (fun x =>
    if x.toNat < 64 && !b.buffered ((b.crew slot).reg x.toNat).id then some ⟨b.bankOf slot x.toNat, t + 1 + min k 2⟩
    else none))

/-- The accesses of an instruction conflict with banks already claimed (R207). -/
def Sub.conflicts (b : Sub) (uses : List BankUse) : Bool := uses.any (fun u => b.claims.contains u)

/-- A buffered result after a cycle: it takes its bank in the first cycle in which no read claims it, and after 3 cycles is
forced into the next one; while a loser exists at most one is. The parts are the buffer, the claims, and whether a write
has been forced for the present loser (R206, R207). -/
def drainOne (t : Nat) (loser : Bool) (acc : List BankWrite × List BankUse × Bool) (w : BankWrite) :
    List BankWrite × List BankUse × Bool :=
  let keep := (acc.1 ++ [w], acc.2.1, acc.2.2)
  if t < w.since then keep
  else
    match w.takes with
    | some c => if c ≤ t then (acc.1, acc.2.1, acc.2.2) else keep
    | none =>
      if !acc.2.1.contains ⟨w.id % 4, t⟩ then (acc.1, ⟨w.id % 4, t⟩ :: acc.2.1, acc.2.2)
      else if w.since + 3 ≤ t && !(loser && acc.2.2) && !acc.2.1.contains ⟨w.id % 4, t + 1⟩ then
        (acc.1 ++ [{ w with takes := some (t + 1) }], ⟨w.id % 4, t + 1⟩ :: acc.2.1, loser)
      else keep

/-- The write buffer of a sub-core in a cycle (R206, R207). A result that has arrived without a cycle of its own enters it
now. -/
def Sub.drainWrites (b : Sub) (t : Nat) : Sub :=
  let r := (b.writes.map (fun w => if w.since == 0 then { w with since := t } else w)).foldl (drainOne t b.loser.isSome)
    ([], b.claims.filter (fun u => t ≤ u.cycle), b.forced && b.loser.isSome)
  { b with writes := r.1, claims := r.2.1.filter (fun u => t < u.cycle), forced := r.2.2,
           ready := b.ready.filter (fun x => t < x.2.2) }

/-- The unit of a sub-core that takes less than one instruction a cycle, and its cycles for each: 0 for SFN, 1 for LRED and
LMATCH (R259, R383). -/
def slowUnit (i : Instr) : Option (Nat × Nat) :=
  match i with
  | .sfn _ => some (0, 4)
  | .sfnS32 _ => some (0, 4)
  | .lred _ => some (1, 2)
  | .lmatch _ => some (1, 2)
  | _ => none

/-- The unit of an instruction is busy with an earlier one (R383). -/
def Sub.unitBusy (b : Sub) (t : Nat) (i : Instr) : Bool :=
  match slowUnit i with
  | some u => t < b.unitFree.getD u.1 0
  | none => false

/-- A fixed-latency result that the instruction reads is not yet available to the crew, or its unit is busy (R191,
R383). -/
def Sub.notReady (b : Sub) (slot t : Nat) (i : Instr) (rs : List (List (BitVec 7))) : Bool :=
  b.unitBusy t i || b.ready.any (fun x => x.1 == slot && t < x.2.2 &&
    (rs.any (fun l => l.any (fun r => r.toNat == x.2.1)) || (predsOf i).contains x.2.1))

end Sys2Proof.Machine
end

