-- ==== Sys2Proof/Machine/Access.lean ====
section
/-! DEFINITION. What loads, stores and atomics share: the checks of every lane (R71, R294, R311, R331), entries and
credits, the order against the thread's earlier accesses (R88 to R105), requests and their answers (R81 to R86, R97,
R103, R106), and the stores of a gambit (R178 to R182). -/

namespace Sys2Proof.Machine

/-- A lane's access that passed its checks. -/
structure Access where
  lane : Nat
  va : Nat
  target : Target
  deriving DecidableEq, Repr

/-- The lanes' checks: failures and accesses (R71, R294). -/
def splitLanes (f : Nat → Except LaneTrap Access) : List Nat → List LaneTrap × List Access
  | [] => ([], [])
  | l :: r =>
    let rest := splitLanes f r
    match f l with
    | .error e => (e :: rest.1, rest.2)
    | .ok a => (rest.1, a :: rest.2)

/-- A failing lane. -/
def laneFail (l : Nat) (c : Cause) (va : Nat) : LaneTrap := ⟨l, c.1, c.2, BitVec.ofNat 64 va, 0⟩

/-- The check of a write to a bound object, after the others. -/
def State.objectCheck (s : State) (kind : AccessKind) (l va size : Nat) (t : Target) : Except LaneTrap Access :=
  if kind.writes && s.touchesObject t.loc size then .error (laneFail l causeBarobj va) else .ok ⟨l, va, t⟩

/-- One lane's access at an address (R71). -/
def State.memAccess (s : State) (r : CrewRef) (kind : AccessKind) (size align l va : Nat) : Except LaneTrap Access :=
  match s.access r l kind va size align with
  | .error c => .error (laneFail l c va)
  | .ok t => s.objectCheck kind l va size t

/-- One lane's access at a scratchpad offset (R285, R311): alignment, then bounds. A negative offset is out of bounds;
ADDR holds the offset as a scratchpad-window address (log 24). -/
def State.offAccess (s : State) (r : CrewRef) (kind : AccessKind) (size align l : Nat) (off : Int) :
    Except LaneTrap Access :=
  let va := 0xFFFF000000000000 + wrap 48 off
  if off % (align : Nat) != 0 then .error (laneFail l (3, 1) va)
  else if off < 0 then .error (laneFail l causeBounds va)
  else match s.resolveScratch r kind off.toNat size with
    | .error c => .error (laneFail l c va)
    | .ok t => s.objectCheck kind l va size t

/-- The translations of accesses used: TLB fills, A and D (R67). -/
def State.useAll (s : State) (r : CrewRef) (acc : List Access) (write : Bool) : State :=
  acc.foldl (fun st a => st.useTarget r a.va a.target write) s

/-- The state in which the instruction waits for quarantine entries, when it needs more than are free (R156). -/
def State.needEntries (s : State) (i : Issue) (n : Nat) : Option State :=
  if (s.crew i.ref).entriesUsed + n ≤ Config.quarantineEntries then none
  else match s.blockHead i with
    | .ok t => some (t.waitFor i (.entries n))
    | .error t => some t

/-- Checkpoint credits for registers that an instruction writes after its address checks (R197). -/
def State.needCredits (s : State) (i : Issue) (part : Mask) (ks : List Nat) : Option State :=
  let w := s.crew i.ref
  let need := w.creditsFor (ks.filter (fun k => k < 64))
  if need ≤ w.creditsFree then none
  else if w.creditsStuck then some (s.failAll i part causeCredits)
  else some ((s.modSub i.core i.sub (fun b => b.count 6)).waitFor i (.credit need))

/-- The LD entries of a crew slot in the transposition table end (R85, R203), and results still due are not inserted. -/
def State.dropLd (s : State) (r : CrewRef) : State :=
  s.modSub r.core r.sub (fun b =>
    { b with
      xpos := b.xpos.filter (fun e => e.crew != some r.slot)
      crews := modifyAt b.crews r.slot (fun w => { w with loads := w.loads.map (fun (q : LoadRec) =>
        ({ q with memo := none } : LoadRec)) }) })

/-! ### Order against earlier accesses of the thread -/

/-- The lanes of a load. -/
def LoadRec.lanes (q : LoadRec) : Mask := Mask.ofFn (fun l => q.reads.any (fun x => x.lane == l))

/-- The load orders every later access of its thread (R97). -/
def LoadKind.acquires : LoadKind → Bool
  | .acquire _ => true
  | .scratchAcquire _ => true
  | _ => false

/-- The load is a load-consume. -/
def LoadKind.consumes : LoadKind → Bool
  | .consume _ => true
  | _ => false

/-- The accesses that must wait for an earlier load of their thread: after an acquire, and tainted after a load-consume,
when their page is not unordered (R90, R97, R105). -/
def Crew.loadsBefore (w : Crew) (acc : List Access) (tainted : Mask) : Bool :=
  acc.any (fun a => a.target.page.ord != 2 &&
    w.loads.any (fun q => q.lanes.getLsbD a.lane &&
      (q.kind.acquires || (q.kind.consumes && tainted.getLsbD a.lane))))

/-- The held stores and atomics of lanes that a test of their page holds for (R89, R102). -/
def Crew.heldWrites (w : Crew) (m : Mask) (p : Page → Bool) : Bool :=
  w.regions.any (fun g => g.effects.any (fun e => match e with
    | .store x => x.writes.any (fun y => m.getLsbD y.lane && p y.page) ||
        (x.qnt && (x.lanes &&& m) != 0 && x.writes.any (fun y => p y.page))
    | .atomn x => x.lanes.any (fun y => m.getLsbD y.lane && p y.page)
    | _ => false))

/-- The requests of lanes of a crew that have not ended and that a test holds for. -/
def State.pendingTxs (s : State) (r : CrewRef) (m : Mask) (p : Tx → Bool) : List Nat :=
  (s.net.txs.filter (fun t => t.crew == some r && (t.lanes &&& m) != 0 && p t)).map (fun t => t.id)

/-- A strongly ordered access of lanes has not completed: a held store, a request, or an engine command with a part on such
a page that has not landed (R89, R91). -/
def State.strongOpen (s : State) (r : CrewRef) (m : Mask) : Bool :=
  m != 0 && ((s.crew r).heldWrites m (fun p => p.ord == 1) || !(s.pendingTxs r m (fun t => t.ord == 1)).isEmpty ||
    (s.core r.core).engines.any (fun e => e.ops.any (fun o => o.crew == r && m.getLsbD o.lane && !o.done && o.work.strong)))

/-- A thread's strongly ordered access waits for its previous one (R89). -/
def State.strongWait (s : State) (r : CrewRef) (acc : List Access) : Bool :=
  s.strongOpen r (Mask.ofFn (fun l => acc.any (fun a => a.lane == l && a.target.page.ord == 1)))

/-- A change of the window at an offset of the group's allocation is on its way: the crew's own WOPEN, unreleased or not
yet complete (R373). -/
def State.windowPending (s : State) (r : CrewRef) (off : Nat) : Bool :=
  let at_ := off - off % 128
  (s.crew r).regions.any (fun g => g.effects.any (fun e => match e with
    | .wopen _ x _ _ => x == at_
    | _ => false)) ||
  (s.core r.core).windowChanges.any (fun c => c.crew == r && c.off == at_)

/-- A place of the group's own scratchpad whose window the crew is changing. -/
def State.windowWaits (s : State) (r : CrewRef) (p : Loc) : Bool :=
  match p, s.groupOf r with
  | .scratch c o, some g => c == r.core && decide (g.scrBase ≤ o) && decide (o < g.scrBase + g.scrLen) &&
      s.windowPending r (o - g.scrBase)
  | _, _ => false

/-- The state in which accesses wait for their crew's changes of the windows they touch, if they must (R373). -/
def State.windowOrder (s : State) (i : Issue) (acc : List Access) : Option State :=
  if acc.any (fun a => s.windowWaits i.ref a.target.loc) then
    match s.blockHead i with
    | .ok t => some (t.waitFor i .fence)
    | .error t => some t
  else none

/-- A failure of a store that waits instead: the window it was refused at is on its way back to its owner (R373). -/
def State.failOrder (s : State) (i : Issue) (fs : List LaneTrap) : State :=
  if fs.any (fun f => (f.cls, f.code) == causeNowrite && bits f.addr.toNat 63 48 == 0xFFFF &&
      s.windowPending i.ref (bits f.addr.toNat 47 0)) then
    match s.blockHead i with
    | .ok t => t.waitFor i .fence
    | .error t => t
  else s.fail i fs

/-- An ATOMN of the lane of an access writes bytes that the access reads. -/
def AtomEff.writesFor (e : AtomEff) (acc : List Access) (size : Nat) : Bool :=
  e.lanes.any (fun y => acc.any (fun a => a.lane == y.lane && Loc.overlaps a.target.loc size y.loc e.size))

/-- A read waits for an ATOMN of its own thread to its bytes, held or on its way: it must return that write or a later one
(R82). -/
def State.atomnWaits (s : State) (r : CrewRef) (acc : List Access) (size : Nat) : Bool :=
  (s.crew r).regions.any (fun g => g.effects.any (fun e => match e with
    | .atomn x => x.writesFor acc size
    | _ => false)) ||
  s.net.txs.any (fun t => t.crew == some r && t.answer.isNone && (match t.req with
    | .atomic x _ _ _ _ => x.writesFor acc size
    | _ => false))

/-- The state in which a read waits for its thread's own ATOMN, if it must. -/
def State.atomnOrder (s : State) (i : Issue) (acc : List Access) (size : Nat) : Option State :=
  if s.atomnWaits i.ref acc size then
    match s.blockHead i with
    | .ok t => some (t.waitFor i .fence)
    | .error t => some t
  else none

/-- The state in which an access waits for earlier accesses of its threads, if it must (log 21). A store that is held
needs its region closed (R153). -/
def State.orderWait (s : State) (i : Issue) (acc : List Access) (tainted : Mask) : Option State :=
  let w := s.crew i.ref
  if s.strongWait i.ref acc || acc.any (fun a => s.windowWaits i.ref a.target.loc) then
    match s.blockHead i with
    | .ok t => some (t.waitFor i .fence)
    | .error t => some t
  else if w.loadsBefore acc tainted then some (s.waitFor i .fence)
  else none

/-! ### Requests -/

/-- Die area of a router (R464). -/
def dieArea (router : Nat) : Nat := router / 128 * 4 + router % 16 / 4

/-- The scope of the release signature that a request carries: a message releases at device scope (R94, R100, R376). -/
def Req.scope (q : Req) : Nat :=
  match q with
  | .write w => w.rel.getD 0
  | .atomic e _ _ _ _ => e.scope.getD 0
  | .message _ _ _ _ => 2
  | _ => 0

/-- The setter that a request serves. -/
def Req.setter (q : Req) : Nat :=
  match q with
  | .read _ (.load _ n) _ _ _ => n
  | .write w => w.setter
  | .atomic e _ _ _ _ => e.setter
  | _ => 0

/-- The signature of a request that releases at a scope: the one that another request of the same instruction has taken, or
the core's (R95). -/
def State.signatureFor (s : State) (t : Tx) (scope : Nat) : Option Sig × State :=
  match s.net.txs.find? (fun u => u.crew == t.crew && u.core == t.core && u.req.scope == scope && u.req.setter == t.req.setter &&
      u.sig.isSome) with
  | some u => (u.sig, s)
  | none => (some ((s.core t.core).acc.signature scope), s.modCore t.core (fun x => { x with acc := x.acc.clearScope scope }))

/-- The packet of a request put at its core's router, or its flits on its circuit (R379). -/
def State.launchPacket (s : State) (t : Tx) : State :=
  match t.req with
  | .write w =>
    if w.circuit then
      let q := s.net.crossCircuit (s.routerOf t.core) (s.endRouter t.core t.home) t.req.flits s.cycle
      ({ s with net := q.2 } : State).modTx t.id (fun x => { x with serveAt := x.serveAt + q.1, dueAt := x.dueAt + q.1 })
    else s.inject t false t.req.flits
  | q => s.inject t false q.flits

/-- A request leaves its core: its signature is formed, which clears the scope's interval accumulator (R95); it is counted
(R508), and its packet enters the torus. -/
def State.leave (s : State) (t : Tx) : State :=
  let a := s.routerOf t.core
  let b := s.endRouter t.core t.home
  let count := fun (x : Sub) =>
    if dieArea a == dieArea b then x.count 13 else (x.count 11).countN 12 (hops a b)
  let k := t.req.scope
  let g := if k == 0 then (none, s) else s.signatureFor t k
  ((g.2.modTx t.id (fun x => { x with sig := g.1, after := [], out := true })).modSub t.core
    ((t.crew.map (fun r => r.sub)).getD 0) count).launchPacket t

/-- An atomic request to a home other than its core's own port, which carries a transaction identifier (R318). -/
def Tx.identified (t : Tx) : Bool :=
  (match t.req with
   | .atomic _ _ _ _ _ => true
   | _ => false) && t.home != .port t.core

/-- Nothing keeps a request in its core: its region where it leaves the package (R175), the requests it waits for (R89, R94),
or 64 atomic transactions of its core (R318). -/
def State.mayLeave (s : State) (t : Tx) : Bool :=
  t.hold.isNone && t.after.all (fun i => (s.tx i).isNone) &&
    (!t.identified || decide ((s.net.txs.filter (fun u => u.core == t.core && u.out && u.identified)).length < 64))

/-- A request made. It leaves its core once nothing keeps it there. -/
def State.send (s : State) (t : Tx) : State :=
  let s1 : State := { s.spend with net := { s.net with txs := s.net.txs ++ [{ t with out := t.answer.isSome }] } }
  if t.answer.isNone && s1.mayLeave t then s1.leave t else s1

/-- The waiting requests that nothing keeps in their cores any longer leave now. -/
def State.sendWaiting (s : State) : State :=
  (s.net.txs.filter (fun t => !t.out)).foldl (fun (st : State) t =>
    if st.mayLeave t then
      let late := st.cycle - t.sent
      let u := { t with sent := st.cycle, serveAt := t.serveAt + late, dueAt := t.dueAt + late }
      (st.modTx t.id (fun _ => u)).leave u
    else st) s

/-- A new request of a crew to the home of a place. wait is how long its home takes it after, back how long its answer
takes; hold is the region whose release it awaits. -/
def State.request (s : State) (r : CrewRef) (m : Mask) (page : Page) (p : Loc) (req : Req) (after : List Nat)
    (wait back : Nat) (hold : Option Nat := none) : State :=
  let f := s.fresh
  f.2.send
    { id := f.1, core := r.core, crew := some r, lslot := s.lslotOf r, lanes := m, ord := page.ord, page := page
      home := s.homeOf p page.thg, req := req, sent := s.cycle, serveAt := s.cycle + wait
      dueAt := s.cycle + wait + back, after := after, out := false, sig := none,
      resends := 0, lost := false, lows := none, answer := none, tag := none, hold := hold }

/-- The region whose release a crew's read of a home awaits: the current one, when the read leaves the package (R175). -/
def State.readHold (s : State) (r : CrewRef) (h : HomeId) : Option Nat :=
  match h with
  | .outside _ => ((s.crew r).region).map (fun g => g.id)
  | _ => none

/-- The crew's region holds back a request. -/
def State.noteHold (s : State) (r : CrewRef) (hold : Option Nat) : State :=
  if hold.isSome then s.modCrew r (fun w => w.modRegion (fun g => { g with holds := true })) else s

/-- A region of a crew has released: the requests that it held back leave (R175). -/
def State.freeHeld (s : State) (r : CrewRef) (id : Nat) : State :=
  let mine := fun (t : Tx) => t.crew == some r && t.hold == some id
  if s.net.txs.any mine then
    ({ s with net := { s.net with txs := s.net.txs.map (fun t => if mine t then { t with hold := none } else t) } } : State).sendWaiting
  else s

/-- The cycles after its sending at which a home performs a read with a round trip: a free moment inside it, between the ways
of the request and of the answer (R81, log 5). -/
def State.readMoment (s : State) (core : Nat) (h : HomeId) (trip : Nat) : Nat :=
  let way := max 1 (3 * hops (s.routerOf core) (s.endRouter core h))
  way + Config.freePerform s.freeCtr % max 1 (trip - 2 * way + 1)

/-- The cycles that a translation adds to an access: none in the core's TLB, 14 in its cluster's, and for a walk 8 with its
entry reads, each as a load past L1 (R384). -/
def State.walkCycles (s : State) (core : Nat) (t : Target) : Nat :=
  match t.walk with
  | none => 0
  | some w =>
    if w.level == 0 then 0
    else if w.level == 1 then 14
    else 8 + (w.read.map (fun a => s.loadLatency core (.mem a) (s.homeOf (.mem a) false))).sum

/-- The cycles after its release at which a home performs a write: the uncontended figure and a free delay (R386, log
6). -/
def State.writeMoment (s : State) (core : Nat) (h : HomeId) : Nat :=
  s.storeLatency core h + Config.freePerform s.freeCtr % 64

/-- The page lets a load use L1 (R67, R83): vault lines with CACHE 00 or 01, bulk lines with 00. -/
def State.mayUseL1 (s : State) (t : Target) : Bool :=
  t.page.ord != 1 &&
  (match t.loc with
   | .scratch _ _ => false
   | .mem a => match s.storageAt a with
     | some .bulk => t.page.cache == 0
     | some (.vaultSram _) => t.page.cache ≤ 1
     | some (.vaultDram _) => t.page.cache ≤ 1
     | _ => false)

/-- A request of a core names a line and has not ended. -/
def State.lineBusy (s : State) (core : Nat) (line : Loc) : Bool :=
  s.net.txs.any (fun t => t.core == core && (match t.req with
    | .read l _ _ _ _ => l.line == line
    | .write w => w.bytes.any (fun b => b.1.line == line)
    | .atomic e _ _ _ _ => e.lanes.any (fun x => x.loc.line == line)
    | _ => false))

/-- The cycles by which bank conflicts lengthen a scratchpad access: one for each further word in the bank of which its
lanes touch the most (R59, R390). -/
def bankExtra (l : List Loc) (size : Nat) : Nat :=
  let words := (l.flatMap (fun p => match p with
    | .scratch _ o => (upTo ((o + size - 1) / 4 + 1 - o / 4)).map (fun k => o / 4 + k)
    | .mem _ => [])).eraseDups
  (upTo 32).foldl (fun m b => max m (words.countP (fun w => w % 32 == b))) 1 - 1

/-- What a load asks for (R305 to R311). -/
structure LoadPlan where
  kind : LoadKind
  dst : List Nat
  size : Nat
  sx : Bool
  mayL1 : Bool
  noFill : Bool
  acq : Bool
  tainted : Mask
  memo : Option XEntry
  deriving DecidableEq, Repr

/-- One line of a load requested (R83): L1's copy, when the load may use it, is its answer 36 cycles later; else the home
is asked. A load past L1 removes the copy and replaces it; one that leaves the package waits for its region's release (R175). -/
def State.readLine (s : State) (i : Issue) (p : LoadPlan) (setter : Nat) (part : Mask) (acc : List Access) (extra : Nat)
    (a : Access) : State :=
  let line := a.target.loc.line
  let mine := acc.filter (fun x => x.target.loc.line == line && x.target.page == a.target.page)
  let m := Mask.ofFn (fun l => part.getLsbD l && mine.any (fun x => x.lane == l))
  let w := s.crew i.ref
  let absent := mine.any (fun x => p.tainted.getLsbD x.lane && x.target.page.ord != 2 &&
    (w.thread x.lane).consume.hits line.num)
  let ok := p.mayL1 && s.mayUseL1 a.target
  let h := s.homeOf line a.target.page.thg
  let copy := (s.core i.core).l1Line line
  let why := ReadFor.load i.ref setter
  match (if ok && !absent && !s.lineBusy i.core line then copy else none) with
  | some x =>
    let s1 := s.modCore i.core (fun k =>
      { k with l1 := k.l1.map (fun y => if y.line == x.line then { y with used := k.useClock } else y)
               useClock := k.useClock + 1 })
    let f := s1.fresh
    { f.2 with net := { f.2.net with txs := f.2.net.txs ++
        [{ id := f.1, core := i.core, crew := some i.ref, lslot := s.lslotOf i.ref, lanes := m, ord := a.target.page.ord
           page := a.target.page, home := h, req := .read line why false false false, sent := s.cycle, serveAt := x.served
           dueAt := s.cycle + 36 + s.walkCycles i.core a.target, after := [], out := true, sig := none, resends := 0
           lost := false, lows := none, answer := some (.line x.data x.descs [false, false] none), tag := x.tag }] } }
  | none =>
    let trip := s.loadLatency i.core line h + extra + s.walkCycles i.core a.target
    let at_ := s.readMoment i.core h trip
    let past := !ok || absent
    let s1 := if past && copy.isSome then s.l1Remove i.core (fun n => n == line.num / 128) else s
    let hold := s.readHold i.ref h
    (s1.noteHold i.ref hold).request i.ref m a.target.page line
      (.read line why (if past then copy.isSome else !p.noFill) past p.acq) [] at_ (trip - at_) hold

/-- The first access to each line and page. -/
def firstOfLine : List Access → List Access → List Access
  | [], _ => []
  | a :: r, seen =>
    if seen.any (fun x => x.target.loc.line == a.target.loc.line && x.target.page == a.target.page) then firstOfLine r seen
    else a :: firstOfLine r (a :: seen)

/-- What one lane's load knows at issue: bytes of its own unreleased stores, then of the core's outgoing writes (R83). -/
def State.laneRead (s : State) (r : CrewRef) (size : Nat) (a : Access) : LaneRead :=
  { lane := a.lane, va := BitVec.ofNat 64 a.va, loc := a.target.loc, sig := .empty,
    known := (upTo size).map (fun k =>
      ((s.crew r).ownByte a.lane (a.target.loc.plus k)).or (s.outByte r.core (a.target.loc.plus k))) }

/-- The descriptor that a lane's own or the core's outgoing block store gives its block (R72, R83). -/
def State.knownDesc (s : State) (r : CrewRef) (a : Access) : Option Nat :=
  ((s.crew r).ownDesc a.lane a.target.loc).or (s.outDesc r.core a.target.loc)

/-- A request reads for a load. -/
def Req.forLoad (q : Req) (r : CrewRef) (setter : Nat) : Bool :=
  match q with
  | .read _ (.load c n) _ _ _ => c == r && n == setter
  | _ => false

/-- A load issued for accesses that passed every check: its setter, its requests, its destination's credits, and the
older results overtaken (R191, R196, R211). A lookup in the transposition table that missed is counted (R205). -/
def State.startLoad (s : State) (i : Issue) (p : LoadPlan) (part : Mask) (acc : List Access) (slot : Nat) : State :=
  let reads := acc.map (s.laneRead i.ref p.size)
  let okDesc := Mask.ofFn (fun l => acc.any (fun a => a.lane == l && (s.knownDesc i.ref a).isSome))
  let desc := (acc.head?).bind (s.knownDesc i.ref)
  let q := s.setter i slot 1
  let lines := firstOfLine acc []
  let extra := bankExtra (acc.map (fun a => a.target.loc)) p.size + (if p.kind == .dequant then 4 else 0)
  let s0 := lines.foldl (fun st a => st.readLine i p q.1 part acc extra a) (q.2.useAll i.ref acc false)
  let s1 := if p.memo.isSome then s0.modSub i.core i.sub (fun b => b.count 1) else s0
  let tagged := s1.net.txs.any (fun t => t.req.forLoad i.ref q.1 &&
    (if t.answer.isSome then t.tag.isSome else taggedFor t.home i.core))
  let dst := p.dst.filter (fun k => k < 64)
  let rec_ : LoadRec :=
    { setter := q.1, region := (((s1.crew i.ref).region).map (fun g => g.id)).getD 0, kind := p.kind,
      dst := dst.map (fun k => (k, part)), size := p.size, sx := p.sx, taint := p.tainted, reads := reads,
      desc := desc, descOk := okDesc, badDesc := 0, badData := 0, left := lines.length, tagged := tagged, performed := none,
      pc := i.pc, iword := i.word, ilen := i.len, part := i.part, snaps := [], memo := p.memo }
  s1.modCrew i.ref (fun w =>
    let w1 := dst.foldl (fun x k => x.takeCredit k) w
    { w1 with loads := (dst.foldl (fun ls k => ls.map (LoadRec.overtake k part)) w1.loads) ++ [rec_] })

/-! ### Answers -/

/-- The word of one lane of a load's result for its register k (R306). -/
def LoadRec.word (q : LoadRec) (k l : Nat) : Word :=
  match q.reads.find? (fun x => x.lane == l) with
  | none => 0
  | some x =>
    let n := ofBytes (((x.known.drop (4 * k)).take 4).map (fun b => b.getD 0))
    if q.size < 4 && q.sx then BitVec.ofInt 32 (signed (8 * q.size) n) else BitVec.ofNat 32 n

/-- Element e of a block of a format (R121). -/
def blockElem (fmt : Nat) (bs : List Byte) (e : Nat) : Nat :=
  let byte := fun (k : Nat) => (bs.getD k 0).toNat
  match fmt with
  | 1 => byte (4 * e) + 256 * byte (4 * e + 1) + 65536 * byte (4 * e + 2) + 16777216 * byte (4 * e + 3)
  | 2 => byte (2 * e) + 256 * byte (2 * e + 1)
  | 3 => byte (2 * e) + 256 * byte (2 * e + 1)
  | 4 => byte e
  | 5 => byte e
  | 6 => (byte (6 * e / 8) + 256 * byte (6 * e / 8 + 1)) / 2 ^ (6 * e % 8) % 64
  | 7 => (byte (6 * e / 8) + 256 * byte (6 * e / 8 + 1)) / 2 ^ (6 * e % 8) % 64
  | 9 => byte e
  | _ => byte (e / 2) / (if e % 2 == 0 then 1 else 16) % 16

/-- The elements a block of a format holds (R74). -/
def blockCount (fmt : Nat) : Nat :=
  match fmt with
  | 1 => 16
  | 2 => 32
  | 3 => 32
  | 4 => 64
  | 5 => 64
  | 6 => 80
  | 7 => 80
  | 9 => 64
  | 0 => 0
  | _ => 128

/-- The floating format of a block format (R74). -/
def blockFmt (fmt : Nat) : Fmt :=
  match fmt with
  | 1 => fp32
  | 2 => bf16
  | 3 => fp16
  | 4 => e5m2
  | 5 => e4m3
  | 6 => e3m2
  | 7 => e2m3
  | _ => e2m1

/-- The format of a descriptor (R72). -/
def descFmt (d : Nat) : Nat := bits d 15 9
/-- The scale exponent of a descriptor (R72). -/
def descSe (d : Nat) : Nat := bits d 8 1
/-- The scale fraction of a descriptor (R72). -/
def descSf (d : Nat) : Nat := d % 2

/-- A descriptor's scale breaks the rule of R74 for a format. -/
def badScale (fmt d : Nat) : Bool :=
  (fmt == 1 || fmt == 2 || fmt == 3 || fmt == 9 || fmt == 10) && !(descSe d == 127 && descSf d == 0)

/-- The exact value of an element of a block (R123, R124). -/
def elemValue (fmt d : Nat) (bs : List Byte) (e : Nat) : FVal :=
  if descSe d == 255 then .nan
  else
    let v := (blockFmt fmt).decode (blockElem fmt bs e)
    if fmt ≤ 3 then v
    else
      let sc := s9 (descSe d) (descSf d)
      FVal.mul v (.fin false sc.1 sc.2)

/-- A block cannot be read by DQNT (R271). -/
def dqntBad (d : Nat) : Bool :=
  descFmt d == 0 || 8 < descFmt d || badScale (descFmt d) d

/-- One word of DQNT's result (R271). -/
def dqntWord (d : Nat) (bs : List Byte) (k l : Nat) : Word :=
  let e := 32 * k + l
  if e < blockCount (descFmt d) then fword .rn (elemValue (descFmt d) d bs e) else 0

/-- The content of a load's register k. -/
def LoadRec.content (q : LoadRec) (k : Nat) : Content :=
  match q.kind with
  | .value c _ => c
  | .dequant =>
    let bs := ((q.reads.head?).map (fun x => x.known.map (fun b => b.getD 0))).getD []
    contentOf (fun l => dqntWord (q.desc.getD 0) bs k l)
  | _ => contentOf (fun l => q.word k l)

/-- A failure of a load after its issue (R294, R474): a transaction whose resends ran out, or damage that has come to its
data since its checks (log 35). In-gambit lanes abort; otherwise the trap is raised at the load, or held as an asynchronous
cause of its class while another trap or a gambit is open. -/
def State.lateFail (s : State) (r : CrewRef) (q : LoadRec) (fs : List LaneTrap) : State :=
  let g := (s.crew r).inGambit
  let s1 := s.abortLanes r (failLanes fs) 4
  let rest := fs.filter (fun f => !g.getLsbD f.lane)
  match rest with
  | [] => s1
  | f :: _ =>
    if (s.crew r).pendingTrap.isSome || (s1.crew r).gambit.isSome then
      s1.modCrew r (fun w => { w with async := w.async ++
        [{ cls := f.cls, code := f.code, lanes := failLanes rest, addrs := rest.map (fun x => (x.lane, x.addr)), auxs := [],
           kept := false, held := true }] })
    else s1.raiseTrap r (trapOf ⟨r.core, r.sub, r.slot, q.part, q.pc, q.ilen, q.iword⟩ rest false 0)

/-- A late result put into the snapshots taken since its load issued (R154, R196): the entry of each and the credits that
hold it. -/
def Sub.patchSnapshot (b : Sub) (slot : Nat) (q : LoadRec) (id : Nat) (dst : List (Nat × Mask)) : Sub :=
  (upTo dst.length).foldl (fun (x : Sub) j =>
    match dst[j]?, ((x.crew slot).regions.find? (fun g => g.id == id)) with
    | some d, some g =>
      let old := g.snapshot.map.getD d.1 PhysReg.none_
      let idx := ((q.dst.findIdx? (fun y => y.1 == d.1)).getD j)
      let new := (x.register (mergeLanes d.2 (q.content idx) old.content)).1
      let taint := fun (l : Nat) (t : BitVec 64) =>
        if d.2.getLsbD l then
          (if q.taint.getLsbD l || q.kind.consumes then t ||| BitVec.ofNat 64 (2 ^ d.1)
           else t &&& ~~~ (BitVec.ofNat 64 (2 ^ d.1)))
        else t
      { x with crews := modifyAt x.crews slot (fun w => { w with regions := w.regions.map (fun (y : Region) =>
          let y1 : Region := if y.id == id then { y with snapshot := { y.snapshot with
              map := modifyAt y.snapshot.map d.1 (fun _ => new)
              taint := (upTo y.snapshot.taint.length).map (fun l => taint l (y.snapshot.taint.getD l 0)) } } else y
          ({ y1 with credits := y1.credits.map (fun c => if c == (d.1, old) then (d.1, new) else c) } : Region)) }) }
    | _, _ => x) b

/-- The result of a load written to its destination, in the lanes not overtaken since (R191, R306), to the snapshots taken
since, and to the transposition table (R203). -/
def State.writeLoad (s : State) (r : CrewRef) (q : LoadRec) : State :=
  let s0 := s.modSub r.core r.sub (fun b => q.snaps.foldl (fun x p => x.patchSnapshot r.slot q p.1 p.2) b)
  let s1 := (upTo q.dst.length).foldl (fun (st : State) j =>
    match q.dst[j]? with
    | some d =>
      if d.2 == 0 then st
      else st.modSub r.core r.sub (fun b =>
        b.writeReg r.slot d.1 d.2 (q.content j) (if q.kind.consumes then d.2 else q.taint &&& d.2))
    | none => st) s0
  let s2 := if q.kind.consumes then
      s1.modCrew r (fun w => q.reads.foldl (fun x y =>
        x.modThread y.lane (fun t => if t.taint == 0 then t else { t with consume := t.consume.or y.sig })) w)
    else s1
  match q.memo, q.dst.head? with
  | some k, some d =>
    if d.2 == k.mask then
      s2.modSub r.core r.sub (fun b => match ((b.crew r.slot).reg d.1).name with
        | some n => (b.insert { k with result := n, expires := q.performed.getD s.cycle + Config.lease }).purge
        | none => b)
    else s2
  | _, _ => s2

/-- The lanes of a load that fail once its data has been read (R71 step 7, R76, R271). -/
def LoadRec.failures (q : LoadRec) : List LaneTrap :=
  let format := match q.kind with
    | .dequant => dqntBad (q.desc.getD 0)
    | _ => false
  q.reads.filterMap (fun x =>
    if q.badDesc.getLsbD x.lane then some ⟨x.lane, causeDesc.1, causeDesc.2, x.va, 0⟩
    else if q.badData.getLsbD x.lane then some ⟨x.lane, causeUncorr.1, causeUncorr.2, x.va, 0⟩
    else if format then some ⟨x.lane, causeFormat.1, causeFormat.2, x.va, 0⟩
    else none)

/-- A load whose answers have all come (R106): its result or its failure, and its slot. -/
def State.finishLoad (s : State) (r : CrewRef) (q : LoadRec) : State :=
  let s1 := s.modCrew r (fun w =>
    { w.finish q.setter 1 with loads := w.loads.filter (fun x => x.setter != q.setter) })
  let fs := q.failures
  if fs.isEmpty then s1.writeLoad r q else s1.lateFail r q fs

/-- A load after the answer of one line (R306). -/
def LoadRec.take (q : LoadRec) (line : Loc) (data : List Byte) (descs : List (Nat × Nat)) (bad : List Bool)
    (sig : Option Sig) : LoadRec :=
  let mine := fun (x : LaneRead) => x.loc.line == line
  let blk := fun (x : LaneRead) => (x.loc.num - line.num) / 64
  { q with
    left := q.left - 1
    reads := q.reads.map (fun x =>
      if mine x then
        { x with known := (upTo x.known.length).map (fun k =>
                   (x.known.getD k none).or (some (data.getD (x.loc.num - line.num + k) 0)))
                 sig := x.sig.or (sig.getD .empty) } else x)
    desc := q.desc.or ((q.reads.find? mine).map (fun x => (descs.getD (blk x) (0, 0)).1))
    badDesc := q.badDesc ||| Mask.ofFn (fun l => !q.descOk.getLsbD l && q.reads.any (fun x =>
      x.lane == l && mine x && (descs.getD (blk x) (0, 0)).1 != (descs.getD (blk x) (0, 0)).2))
    badData := q.badData ||| Mask.ofFn (fun l => q.reads.any (fun x => x.lane == l && mine x && bad.getD (blk x) false)) }

/-- A load after an answer that never came or was refused (R474). -/
def LoadRec.refuse (q : LoadRec) (line : Loc) : LoadRec :=
  { q with left := q.left - 1
           badData := q.badData ||| Mask.ofFn (fun l => q.reads.any (fun x => x.lane == l && x.loc.line == line)) }

/-- What a core does with a signature that an acquire received at cluster scope or wider (R97, R98). -/
def State.acquire (s : State) (core : Nat) (g : Sig) : State :=
  (s.modCore core (fun k => { k with acc := k.acc.receive g })).l1Remove core (fun n => g.hits (128 * n))

/-- What a core does with a signature that a load-consume received (R98, R103): no line is removed. -/
def State.consumed (s : State) (core : Nat) (g : Sig) : State :=
  s.modCore core (fun k => { k with acc := k.acc.receive g })

/-- LOAD VALUE RETURN: the answer of one line reaches its load (R97, R103, R106, R171). -/
def State.loadReturn (s : State) (t : Tx) (r : CrewRef) (setter : Nat) (line : Loc) : State :=
  let s0 := s.dropTx t.id
  match (s.crew r).loads.find? (fun q => q.setter == setter) with
  | none => s0
  | some q =>
    let s1 := match t.answer with
      | some (.line _ _ _ (some g)) => if q.kind.consumes then s0.consumed r.core g else s0.acquire r.core g
      | _ => s0
    let s2 := s1.modCrew r (fun w => w.addTagsTo q.region t.tag.toList)
    let q' := match t.answer with
      | some (.line data descs bad sig) =>
        { q.take line data descs bad sig with performed := some (min (q.performed.getD t.serveAt) t.serveAt) }
      | _ => q.refuse line
    if q'.left == 0 then s2.finishLoad r q'
    else s2.modCrew r (fun w => { w with loads := w.loads.map (fun x => if x.setter == setter then q' else x) })

/-! ### The data check of a read -/

/-- Step 7 of R71 for one lane's read, before it is sent (R76, R271, R284): the descriptor copies of its block differ, unless
a store of the thread or an outgoing one of the core supplies them; its data is damaged; or DQNT cannot read it. What L1
supplies is checked there. -/
def State.dataFault (s : State) (r : CrewRef) (a : Access) (l1 dequant : Bool) : Option Cause :=
  let copy := if l1 && s.mayUseL1 a.target then (s.core r.core).l1Line a.target.loc else none
  let home := s.descAt a.target.loc.block
  let d := match copy with
    | some x => x.descs.getD (a.target.loc.num / 64 % 2) home
    | none => home
  let known := s.knownDesc r a
  if known.isNone && d.1 != d.2 then some causeDesc
  else if copy.isNone && s.poisoned a.target.loc.block then some causeUncorr
  else if dequant && dqntBad (known.getD d.1) then some causeFormat
  else none

/-- One lane's read with all its checks (R71). -/
def State.readAccess (s : State) (r : CrewRef) (x : Except LaneTrap Access) (l1 dequant : Bool) : Except LaneTrap Access :=
  match x with
  | .error e => .error e
  | .ok a =>
    match s.dataFault r a l1 dequant with
    | some c => .error (laneFail a.lane c a.va)
    | none => .ok a

/-! ### Stores of lanes in gambit -/

/-- The lines that lanes' writes touch. -/
def linesOf (ws : List LaneWrite) : List Loc := (ws.map (fun x => x.loc.line)).eraseDups

/-- A store split into one entry for each line it touches (R179). -/
def StoreEff.byLine (e : StoreEff) : List StoreEff :=
  (linesOf e.writes).map (fun line =>
    let ws := e.writes.filter (fun x => x.loc.line == line)
    { e with writes := ws, lanes := if e.qnt then e.lanes else Mask.ofFn (fun l => ws.any (fun x => x.lane == l)) })

/-- The in-gambit lanes whose store overlaps one of their own advance records (R180, R181). -/
def Gambit.aliased (g : Gambit) (e : StoreEff) : Mask :=
  Mask.ofFn (fun l => g.records.any (fun a => a.lanes.any (fun x => x.1 == l &&
    e.writes.any (fun y => (y.lane == l || (e.qnt && e.lanes.getLsbD l)) &&
      Loc.overlaps y.loc y.bytes.length x.2.1 x.2.2))))

/-- Why a store of in-gambit lanes does not enter the buffer: the lanes to abort and the code (R180 to R182). -/
def Gambit.storeAbort (g : Gambit) (e : StoreEff) : Option (Mask × Nat) :=
  if g.aliased e != 0 then some (if e.qnt then e.lanes else g.aliased e, 2)
  else if Config.gambitEntries < g.buffer.length + e.byLine.length then some (e.lanes, 3)
  else none

/-- A store of lanes, of which some are in gambit: these go to the buffer and the others are held (R156, R179). The part
that is held tells how many parts its setter waits for. -/
def State.putStore (s : State) (i : Issue) (slot : Nat) (e : StoreEff) : State :=
  let w := s.crew i.ref
  let g := w.inGambit
  let buffered := if e.qnt then (if (e.lanes &&& g) != 0 then e else { e with writes := [], lanes := 0 })
    else e.without (~~~ g)
  let held := if e.qnt then (if (e.lanes &&& g) != 0 then { e with writes := [], lanes := 0 } else e) else e.without g
  match (if buffered.lanes == 0 then none else w.gambit.bind (fun x => x.storeAbort buffered)) with
  | some ab => (s.abortLanes i.ref ab.1 ab.2).drop
  | none =>
    let n := (linesOf held.writes).length
    match s.needEntries i n with
    | some t => t
    | none =>
      let q := s.setter i slot n
      let t := (q.2.dropLd i.ref).modCrew i.ref (fun w =>
        let w1 := { w with gambit := w.gambit.map (fun (x : Gambit) =>
          ({ x with buffer := x.buffer ++ (if buffered.lanes == 0 then [] else buffered.byLine) } : Gambit)) }
        if n == 0 then w1 else w1.hold (.store { held with setter := q.1 }) n)
      t.retire i false

end Sys2Proof.Machine
end

