-- ==== Sys2Proof/Machine/Memory.lean ====
section
/-! DEFINITION. Loads, stores, blocks, locality queries, fences and cache operations (R80, R264 to R271, R283, R305 to
R312, R322, R323). -/

namespace Sys2Proof.Machine

/-- The bytes of a size code (R53). -/
def sizeBytes (sz : Nat) : Nat := if sz ≤ 4 then 2 ^ sz else 64

/-- The registers of a data group (R225, R306). -/
def groupRegs (d n : Nat) : List Nat := if 64 ≤ d then [] else (upTo n).map (fun k => d + k)

/-- The registers of an address pair. -/
def pairRegs (a : Nat) : List Nat := if 64 ≤ a then [] else [a, a + 1]

/-- A lane's bytes of a data group (R306); selector 67 gives zeros (R223). -/
def Crew.dataBytes (w : Crew) (ctr d size l : Nat) : List Byte :=
  ((upTo ((size + 3) / 4)).flatMap (fun k =>
    toBytes 4 (if d < 64 then (w.read ctr (d + k) l).toNat else 0))).take size

/-! ### Loads -/

/-- The key of an LD in the transposition table (R200, R203). -/
def ldKeyWord (f : M64) : Nat :=
  (M64.toWord 0x60 { f with d := 0, sbs := 0, sbw := 0, a := if f.a.toNat < 64 then 0 else f.a }).toNat

/-- The key of an LD, when it is looked up (R203). A load with a tainted address must wait for the load-consumes before it
and miss the lines they name (R105), so one that either concerns is not looked up (DEDUCED, log 38). -/
def State.ldKey (s : State) (i : Issue) (f : M64) (part : Mask) : Option XEntry :=
  let w := s.crew i.ref
  let held := part &&& w.pairTaint f.a.toNat &&& Mask.ofFn (fun l => (w.thread l).consume != .empty ||
    w.loads.any (fun q => q.kind.consumes && q.lanes.getLsbD l))
  if f.ord != 0 || 2 < f.sz.toNat || held != 0 then none
  else s.memoKey i (ldKeyWord f) (pairRegs f.a.toNat) f.d.toNat part (some i.slot)

/-- The result of an LD taken from the transposition table (R202, R203). -/
def State.ldHit (s : State) (i : Issue) (f : M64) (part : Mask) (key : XEntry) (c : Content) : State :=
  let t := s.writeDst i.ref f.d.toNat part c ((s.crew i.ref).pairTaint f.a.toNat &&& part) false
  ((t.modSub i.core i.sub (fun b => ((b.touchKey key).hitReady i.slot [f.d.toNat] s.cycle).count 0)).retire i false).sets i
    (slotOf f.sbs) part 2

/-- An access with the hint .LAST gives its L2 line the lowest victim priority (R312). -/
def Access.hinted (a : Access) (last : Bool) : Access :=
  if last then { a with target := { a.target with page := { a.target.page with epri := 0 } } } else a

/-- The advance records that an LDA of in-gambit lanes takes (R180). -/
def newRecords (g : Mask) (size : Nat) (acc : List Access) : List AdvanceRecord :=
  let mine := acc.filter (fun a => g.getLsbD a.lane)
  ((mine.map (fun a => a.target.loc.line)).eraseDups).map (fun line =>
    { lanes := (mine.filter (fun a => a.target.loc.line == line)).map (fun a => (a.lane, a.target.loc, size)) })

/-- A load whose lanes have passed their checks: order, credits, advance records, then its requests (R307, R310). -/
def State.loadChecked (s : State) (i : Issue) (part : Mask) (slot : Nat) (p : LoadPlan) (acc : List Access)
    (advance : Bool) : State :=
  match (s.atomnOrder i acc p.size).or (s.orderWait i acc p.tainted) with
  | some t => t
  | none =>
    match s.needCredits i part p.dst with
    | some t => t
    | none =>
      let w := s.crew i.ref
      let recs := if advance then newRecords w.inGambit p.size acc else []
      let held := (w.gambit.map (fun g => g.records.length)).getD 0
      if !recs.isEmpty && Config.gambitEntries < held + recs.length then
        (s.abortLanes i.ref (part &&& w.inGambit) 3).drop
      else
        let s1 := s.modCrew i.ref (fun w => { w with gambit := w.gambit.map (fun (g : Gambit) =>
          ({ g with records := g.records ++ recs } : Gambit)) })
        let s2 := if p.kind.acquires || p.kind.consumes then s1.dropLd i.ref else s1
        (s2.startLoad i p part acc slot).retire i false

/-- A load by address pair: LD, LDC, LDA (R307, R310). -/
def State.loadWith (s : State) (f : M64) (kind : LoadKind) (mayL1 acq memo advance : Bool) :
    Host.Outcome State Fault Refusal :=
  let a := f.a.toNat
  let size := sizeBytes f.sz.toNat
  let dst := groupRegs f.d.toNat (groupLen f.sz.toNat)
  s.issueWith (mNeeds f (pairRegs a ++ dst) []) (fun i t =>
    let w := t.crew i.ref
    let part := w.effective i.part f.pred.toNat (f.pn == 1)
    if part == 0 then t.retire i false
    else
      let key := if memo then t.ldKey i f part else none
      match key, key.bind (fun k => (t.sub i.core i.sub).hit k t.cycle) with
      | some k, some c =>
        (match t.needCredits i part dst with
         | some u => u
         | none => t.ldHit i f part k c)
      | _, _ =>
        let checks := splitLanes (fun l => t.readAccess i.ref (t.memAccess i.ref .load size size l (t.addr i f l)) mayL1 false)
          part.lanes
        if !checks.1.isEmpty then t.fail i checks.1
        else
          t.loadChecked i part (slotOf f.sbs)
            { kind := kind, dst := dst, size := size, sx := f.sx == 1, mayL1 := mayL1, noFill := f.hint == 1,
              acq := acq, tainted := w.pairTaint a &&& part,
              memo := if checks.2.all (fun x => x.target.page.ord != 1) then key else none }
            (checks.2.map (fun x => x.hinted (f.hint == 2))) advance)

/-- LD: plain, or acquire at a scope (R97, R307). -/
def execLd (f : M64) (s : State) : Host.Outcome State Fault Refusal :=
  if f.ord == 1 then s.loadWith f (.acquire f.scope.toNat) false (f.scope != 0) false false
  else s.loadWith f .plain true false true false

/-- LDC: a load past L1 that taints its result (R103, R310). -/
def execLdc (f : M64) (s : State) : Host.Outcome State Fault Refusal :=
  s.loadWith f (.consume f.scope.toNat) false (f.scope != 0) false false

/-- LDA: an advance load (R180, R310). -/
def execLda (f : M64) (s : State) : Host.Outcome State Fault Refusal := s.loadWith f .plain true false false true

/-- SLD: a load by scratchpad offset (R311). -/
def execSld (f : M64) (s : State) : Host.Outcome State Fault Refusal :=
  let a := f.a.toNat
  let size := sizeBytes f.sz.toNat
  let dst := groupRegs f.d.toNat (groupLen f.sz.toNat)
  s.issueWith (mNeeds f (namesOf [a] ++ dst) []) (fun i t =>
    let w := t.crew i.ref
    let part := w.effective i.part f.pred.toNat (f.pn == 1)
    if part == 0 then t.retire i false
    else
      let checks := splitLanes (fun l =>
        t.readAccess i.ref (t.offAccess i.ref .load size size l (t.offset i f l)) false false) part.lanes
      if !checks.1.isEmpty then t.fail i checks.1
      else t.loadChecked i part (slotOf f.sbs)
        { kind := if f.ord == 1 then .scratchAcquire f.scope.toNat else .scratch, dst := dst, size := size,
          sx := f.sx == 1, mayL1 := false, noFill := true, acq := f.ord == 1 && f.scope != 0,
          tainted := w.sourceTaint a &&& part, memo := none } checks.2 false)

/-- DQNT: one block read by the lowest lane, its elements given to every lane (R271). -/
def execDqnt (f : M64) (s : State) : Host.Outcome State Fault Refusal :=
  let a := f.a.toNat
  let dst := groupRegs f.d.toNat 4
  s.issueWith (mNeeds f (pairRegs a ++ dst) []) (fun i t =>
    let w := t.crew i.ref
    let part := w.effective i.part f.pred.toNat (f.pn == 1)
    if part == 0 then t.retire i false
    else
      let l0 := Mask.lowest part
      let checks := splitLanes (fun l => t.readAccess i.ref (t.memAccess i.ref .load 64 64 l (t.addr i f l)) true true) [l0]
      if !checks.1.isEmpty then t.fail i checks.1
      else t.loadChecked i part (slotOf f.sbs)
        { kind := .dequant, dst := dst, size := 64, sx := false, mayL1 := true, noFill := false, acq := false,
          tainted := if (w.pairTaint a).getLsbD l0 then BitVec.allOnes 32 else 0, memo := none } checks.2 false)

/-! ### Locality queries -/

/-- The word of LOCQ for a target (R80). For the storage of an outside party the table has no KIND and names no HOME: each
field is free but VALID, the zero of bit 0, and HOPS, which follows from HOME (log 4). -/
def State.locqWord (s : State) (core : Nat) (t : Target) : Word :=
  let h := s.homeOf t.loc t.page.thg
  let router := s.homeRouter h
  let w := fun (kind socket owner : Nat) =>
    BitVec.ofNat 32 (2 ^ 31 + kind * 2 ^ 29 + hops (s.routerOf core) router * 2 ^ 24 + socket * 2 ^ 19 +
      router * 2 ^ 11 + owner * 2)
  match t.loc with
  | .scratch c _ => w 3 (s.dieOf c) c
  | .mem a =>
    match s.storageAt a with
    | some (.vaultSram c) => w 1 (s.dieOf c) c
    | some (.vaultDram c) => w 2 (s.dieOf c) c
    | some .bulk => w 0 (((regionOf s.pkg.regs.regions a).map (fun g => (g.place a).1)).getD 8) 0
    | _ =>
      let home := bits (Config.freeWord (s.freeCtr + 2)).toNat 7 0
      BitVec.ofNat 32 (2 ^ 31 + bits (Config.freeWord s.freeCtr).toNat 1 0 * 2 ^ 29 + hops (s.routerOf core) home * 2 ^ 24 +
        bits (Config.freeWord (s.freeCtr + 1)).toNat 4 0 * 2 ^ 19 + home * 2 ^ 11 +
        bits (Config.freeWord (s.freeCtr + 3)).toNat 9 0 * 2)

/-- A lane's access at the address of LOCQ or CACHE: the checks of a 1-byte load (R283, R323). -/
def State.quietAccess (s : State) (i : Issue) (f : M64) (l : Nat) : Except LaneTrap Access :=
  match s.resolve i.ref l .load (s.addr i f l) 1 with
  | .ok x => .ok ⟨l, s.addr i f l, x⟩
  | .error c => .error (laneFail l c 0)

/-- LOCQ (R80, R283): the checks of a 1-byte load; none traps. -/
def execLocq (f : M64) (s : State) : Host.Outcome State Fault Refusal :=
  let a := f.a.toNat
  let dst := groupRegs f.d.toNat 1
  s.issueWith (mNeeds f (pairRegs a ++ dst) []) (fun i t =>
    let w := t.crew i.ref
    let part := w.effective i.part f.pred.toNat (f.pn == 1)
    if part == 0 then t.retire i false
    else
      match t.needCredits i part dst with
      | some u => u
      | none =>
        let word := fun (l : Nat) => match t.resolve i.ref l .load (t.addr i f l) 1 with
          | .ok x => t.locqWord i.core x
          | .error _ => 0
        let seen := (splitLanes (t.quietAccess i f) part.lanes).2.foldl (fun st x => st.lookTarget i.ref x.va x.target) t
        (seen.startValue i (slotOf f.sbs) dst part (contentOf (fun l => if part.getLsbD l then word l else 0)) (w.pairTaint a)
          12).retire i false)

/-! ### Stores -/

/-- A store whose lanes have passed their checks (R308). -/
def State.storeChecked (s : State) (i : Issue) (f : M64) (part : Mask) (size : Nat) (desc : Option Nat)
    (found : List Access) : State :=
  let w := s.crew i.ref
  let acc := found.map (fun x => x.hinted (f.hint == 2))
  match s.windowOrder i acc with
  | some t => t
  | none => (s.useAll i.ref acc true).putStore i (slotOf f.sbs)
    { setter := 0, desc := desc, rel := if f.ord == 1 then some f.scope.toNat else none, stats := [], qnt := false,
      lanes := part
      writes := acc.map (fun a =>
        { lane := a.lane, loc := a.target.loc, page := a.target.page,
          bytes := w.dataBytes s.freeCtr f.d.toNat size a.lane }) }

/-- A store by address pair (R308, R309). -/
def State.storeWith (s : State) (f : M64) (desc : Option Nat) (va : State → Issue → Nat → Nat) :
    Host.Outcome State Fault Refusal :=
  let size := sizeBytes f.sz.toNat
  s.issueWith (mNeeds f (pairRegs f.a.toNat ++ groupRegs f.d.toNat (groupLen f.sz.toNat)) []) (fun i t =>
    let part := (t.crew i.ref).effective i.part f.pred.toNat (f.pn == 1)
    if part == 0 then t.retire i false
    else
      let checks := splitLanes (fun l => t.memAccess i.ref .store size size l (va t i l)) part.lanes
      if !checks.1.isEmpty then t.failOrder i checks.1 else t.storeChecked i f part size desc checks.2)

/-- ST (R308). -/
def execSt (f : M64) (s : State) : Host.Outcome State Fault Refusal :=
  s.storeWith f none (fun t i l => t.addr i f l)

/-- ST.BLK: 64 bytes and the descriptor that OFF16 holds (R309). -/
def execStBlk (f : M64) (s : State) : Host.Outcome State Fault Refusal :=
  s.storeWith f (some f.off.toNat) (fun t i l => (t.crew i.ref).pair t.freeCtr f.a.toNat l)

/-- SST: a store by scratchpad offset (R311). -/
def execSst (f : M64) (s : State) : Host.Outcome State Fault Refusal :=
  let size := sizeBytes f.sz.toNat
  s.issueWith (mNeeds f (namesOf [f.a.toNat] ++ groupRegs f.d.toNat (groupLen f.sz.toNat)) []) (fun i t =>
    let part := (t.crew i.ref).effective i.part f.pred.toNat (f.pn == 1)
    if part == 0 then t.retire i false
    else
      let checks := splitLanes (fun l => t.offAccess i.ref .store size size l (t.offset i f l)) part.lanes
      if !checks.1.isEmpty then t.failOrder i checks.1 else t.storeChecked i f part size none checks.2)

/-! ### QNT -/

/-- The control word of QNT is refused (R268). -/
def qntBad (c : Nat) : Bool :=
  c % 8 == 0 || bits c 31 22 != 0 ||
  (bit c 12 && (bits c 21 14 == 255 || (c % 8 ≤ 2 && !(bits c 21 14 == 127 && !bit c 13))))

/-- The elements QNT takes (R269): element e is register e div 32 of lane e mod 32, +0 outside the effective lanes. -/
def qntValues (n : Nat) (part : Mask) (word : Nat → Nat → Word) : List FVal :=
  (upTo n).map (fun e => if part.getLsbD (e % 32) then fval (word (e / 32) (e % 32)) else .fin false 0 0)

/-- The block that QNT writes: its bytes, its descriptor and its counts (R137 to R139, R142, R269). -/
def qntBlock (c : Nat) (part : Mask) (word : Nat → Nat → Word) : List Byte × Nat × List StatAdd :=
  let code := c % 8
  let fmt := code + 1
  let g := fmtOfCode code
  let n := blockCount fmt
  let vs := qntValues n part word
  let marked := 6 ≤ fmt && vs.any (fun v => v == .nan)
  let sc := if code ≤ 2 then (127, 0) else if bit c 12 then (bits c 21 14, bits c 13 13) else chooseScale g vs
  let k := if code ≤ 2 then (1, 0) else s9 sc.1 sc.2
  let r := vs.map (fun v => g.convert (modeOf (bits c 11 10)) (bit c 3) k.1 k.2 v)
  let mine := (upTo n).filter (fun e => part.getLsbD (e % 32))
  let stat := fun (i : Nat) =>
    if marked then (if i == statNan then mine.length else 0)
    else (mine.filter (fun e => (r[e]?).bind (fun x => x.2) == some i)).length
  let value := (upTo n).foldl (fun a e => a + ((r[e]?).map (fun x => x.1)).getD 0 * 2 ^ (g.width * e)) 0
  let desc := if marked then fmt * 512 + 255 * 2 else fmt * 512 + sc.1 * 2 + sc.2
  (toBytes 64 (if marked then 0 else value), desc,
   ([statNan, statInf, statSat, statFtz].map (fun i => (⟨bits c 9 4, i, stat i⟩ : StatAdd))).filter (fun x => x.n != 0))

/-- QNT (R181, R268 to R270): a group partly in gambit aborts those lanes first. -/
def execQnt (f : M64) (s : State) : Host.Outcome State Fault Refusal :=
  s.issueWith (mNeeds f (pairRegs f.a.toNat ++ groupRegs f.d.toNat 5) []) (fun i t =>
    let w := t.crew i.ref
    let part := w.effective i.part f.pred.toNat (f.pn == 1)
    let mine := part &&& w.inGambit
    if part == 0 then t.retire i false
    else if mine != 0 && mine != part then (t.abortLanes i.ref mine 7).drop
    else
      let l0 := Mask.lowest part
      let c := (w.read t.freeCtr (f.d.toNat + 4) l0).toNat
      if qntBad c then t.fail i [laneFail l0 causeFormat 0]
      else
        let checks := splitLanes (fun l => t.memAccess i.ref .store 64 64 l (t.addr i f l)) [l0]
        match checks.1, checks.2 with
        | [], a :: _ =>
          let b := qntBlock c part (fun k l => w.read t.freeCtr (f.d.toNat + k) l)
          (t.windowOrder i [a]).getD <| (t.useAll i.ref [a] true).putStore i (slotOf f.sbs)
            { setter := 0, desc := some b.2.1, rel := none, stats := b.2.2, qnt := true, lanes := part
              writes := [{ lane := l0, loc := a.target.loc, page := a.target.page, bytes := b.1 }] }
        | fs, _ => t.failOrder i fs)

/-! ### Fences and cache operations -/

/-- A barrier update that a crew holds: an access of its to scratchpad (R324, R328, log 33). -/
def Crew.heldUpdate (w : Crew) : Bool :=
  w.regions.any (fun g => g.effects.any (fun e => match e with
    | .bari _ _ _ => true
    | .bara _ _ _ => true
    | .barx _ _ _ => true
    | _ => false))

/-- The earlier covered accesses of a fence that have not completed at its scope (R87, R92, R102): requests, but at group
scope only loads and atomics, and stores and barrier updates not released. -/
def State.fenceBlocked (s : State) (r : CrewRef) (m : Mask) (full : Bool) (scope : Nat) : Bool × Bool :=
  let covered := fun (ord : Nat) => full || ord != 2
  let unread := fun (t : Tx) => match t.req with
    | .read _ _ _ _ _ => true
    | .atomic _ _ _ _ _ => t.answer.isNone
    | _ => false
  ((s.crew r).heldWrites m (fun p => covered p.ord) || (s.crew r).heldUpdate,
   !(s.pendingTxs r m (fun t => covered t.ord && (scope != 0 || unread t))).isEmpty)

/-- FENCE (R98, R102, R322). -/
def execFence (f : M64) (s : State) : Host.Outcome State Fault Refusal :=
  s.issueWith { mNeeds f [] [] with bare := true } (fun i t =>
    let part := (t.crew i.ref).effective i.part f.pred.toNat (f.pn == 1)
    let q := t.fenceBlocked i.ref part (f.hint == 1) f.scope.toNat
    if part == 0 then t.retire i false
    else if q.1 then
      (match t.blockHead i with
       | .ok u => u.waitFor i .fence
       | .error u => u)
    else if q.2 then t.waitFor i .fence
    else
      let t1 := t.dropLd i.ref
      let t2 := if f.scope == 0 then t1
        else (t1.l1Remove i.core (fun _ => true)).modCore i.core (fun k => { k with acc := k.acc.put ⟨0, true⟩ })
      t2.retire i false)

/-- A dirty line of a slice written back, and removed with its signature entry when it is to leave (R96, R323). -/
def State.l2Back (s : State) (p : Loc) (thg leave : Bool) : State :=
  match p with
  | .scratch _ _ => s
  | .mem a =>
    match s.homeOf p thg with
    | .slice n =>
      (match (s.home (.slice n)).lines.find? (fun x => x.line == a / 128) with
       | none => s
       | some x =>
         if x.dirty then s.l2WriteBack n x.line leave
         else if !leave then s
         else if x.back.isSome then s.modLine n x.line (fun y => { y with leaving := true })
         else s.l2Drop n x.line)
    | _ => s

/-- A prefetch of lines: no result, no trap; its slot clears when every line has come (R323). -/
def State.prefetch (s : State) (i : Issue) (slot : Nat) (intoL1 : Bool) (acc : List Access) : State :=
  let lines := firstOfLine (acc.filter (fun a =>
    if intoL1 then s.mayUseL1 a.target && ((s.core i.core).l1Line a.target.loc).isNone
    else match a.target.loc with
      | .mem x => s.storageAt x == some .bulk
      | .scratch _ _ => false)) []
  let q := s.setter i slot (if lines.isEmpty then 0 else 1)
  let s1 := lines.foldl (fun (st : State) a =>
    let line := a.target.loc.line
    let h := st.homeOf line a.target.page.thg
    let trip := st.loadLatency i.core line h + st.walkCycles i.core a.target
    let at_ := st.readMoment i.core h trip
    st.request i.ref i.part a.target.page line (.read line (.load i.ref q.1) intoL1 false false) [] at_ (trip - at_)) q.2
  if lines.isEmpty then s1
  else s1.modCrew i.ref (fun w => { w with loads := w.loads ++
    [{ setter := q.1, region := ((w.region).map (fun g => g.id)).getD 0, kind := .plain, dst := [], size := 0,
       sx := false, taint := 0, reads := [], desc := none, descOk := 0, badDesc := 0, badData := 0,
       left := lines.length, tagged := true, performed := none, pc := i.pc, iword := i.word, ilen := i.len, part := i.part, snaps := [], memo := none }] })

/-- The cycles in which a slice answers the lanes' write-back orders (R323, log 6). -/
def State.backCycles (s : State) (core : Nat) (acc : List Access) : Nat :=
  acc.foldl (fun m a => max m (2 * s.storeLatency core (s.homeOf a.target.loc a.target.page.thg))) 1

/-- CACHE (R323): every lane acts on its own address; an address that would fault is ignored. -/
def execCache (f : M64) (s : State) : Host.Outcome State Fault Refusal :=
  s.issueWith (mNeeds f (pairRegs f.a.toNat) []) (fun i t =>
    let part := (t.crew i.ref).effective i.part f.pred.toNat (f.pn == 1)
    let op := f.sx.toNat * 4 + f.hint.toNat
    let acc := if op == 1 then [] else (splitLanes (t.quietAccess i f) part.lanes).2
    if part == 0 then t.retire i false
    else
      let u := acc.foldl (fun st x => st.lookTarget i.ref x.va x.target) t
      let slot := slotOf f.sbs
      let t1 := match op with
        | 0 => (acc.foldl (fun (st : State) (a : Access) => match a.target.loc with
            | .mem x => st.l1Remove i.core (fun n => n == x / 128)
            | .scratch _ _ => st) u).sets i slot part 1
        | 1 => (u.l1Remove i.core (fun _ => true)).sets i slot part 1
        | 2 => u.prefetch i slot true acc
        | 3 => u.prefetch i slot false acc
        | 4 => (acc.foldl (fun (st : State) (a : Access) => st.l2Back a.target.loc a.target.page.thg false) u).sets i slot part
            (u.backCycles i.core acc)
        | _ => (acc.foldl (fun (st : State) (a : Access) => st.l2Back a.target.loc a.target.page.thg true) u).sets i slot part
            (u.backCycles i.core acc)
      t1.retire i false)

end Sys2Proof.Machine
end

