-- ==== Sys2Proof/Machine/Atomics.lean ====
section
/-! DEFINITION. Atomics as instructions (R313 to R320): operands, checks, the release point of a returning atomic, the
held effect of a non-returning one. -/

namespace Sys2Proof.Machine

/-- The function code of an atomic (R221, R314). -/
def atomFn (f : M64) : Nat := bits f.off.toNat 7 0

/-- The tensor identifier of an atomic (R221). -/
def atomTid (f : M64) : Nat := bits f.off.toNat 13 8

/-- The data registers of an atomic (R314). -/
def atomRegs (f : M64) : List Nat :=
  groupRegs f.d.toNat ((if f.sz == 3 then 2 else 1) * (if atomFn f == 9 then 2 else 1))

/-- The registers that take the old value (R314). -/
def atomDst (f : M64) : List Nat := groupRegs f.d.toNat (if f.sz == 3 then 2 else 1)

/-- A lane's number of n words from register k of the data group on; selector 67 is zero (R314). -/
def Crew.dataNum (w : Crew) (ctr d n l : Nat) : Nat := ofBytes (w.dataBytes ctr d (4 * n) l)

/-- The operands v and cmp of a lane (R314). -/
def Crew.atomOperands (w : Crew) (ctr : Nat) (f : M64) (l : Nat) : Nat × Nat :=
  let n := if f.sz == 3 then 2 else 1
  let d := f.d.toNat
  if atomFn f == 9 then (if d < 64 then w.dataNum ctr (d + n) n l else 0, w.dataNum ctr d n l)
  else (w.dataNum ctr d n l, 0)

/-- An atomic's effect for lanes that passed their checks. -/
def State.atomEffect (s : State) (i : Issue) (f : M64) (acc : List Access) : AtomEff :=
  let w := s.crew i.ref
  { setter := 0, fn := atomFn f, size := sizeBytes f.sz.toNat, tid := atomTid f,
    scope := if f.ord == 1 then some f.scope.toNat else none, pc := i.pc
    lanes := acc.map (fun a =>
      let o := w.atomOperands s.freeCtr f a.lane
      { lane := a.lane, va := BitVec.ofNat 64 a.va, loc := a.target.loc, page := a.target.page, v := o.1, cmp := o.2 }) }

/-- A returning atomic: checks, then a release point (R315, R316). -/
def State.atomWith (s : State) (f : M64) (names : List Nat) (taint : Crew → Mask)
    (access : State → Issue → Nat → Except LaneTrap Access) : Host.Outcome State Fault Refusal :=
  s.issueWith { mNeeds f (names ++ atomRegs f) [] with bare := true, head := true } (fun i t =>
    let w := t.crew i.ref
    let part := w.effective i.part f.pred.toNat (f.pn == 1)
    if part == 0 then t.retire i false
    else
      let checks := splitLanes (fun l => t.readAccess i.ref (access t i l) false false) part.lanes
      if !checks.1.isEmpty then t.failOrder i checks.1
      else
        (((t.useAll i.ref checks.2 true).dropLd i.ref).startPoint i
          (.atom (t.atomEffect i f checks.2) f.d.toNat (f.d.toNat < 64)) part (taint w &&& part) (slotOf f.sbs)))

/-- ATOM (R313 to R316). -/
def execAtom (f : M64) (s : State) : Host.Outcome State Fault Refusal :=
  let a := f.a.toNat
  let n := sizeBytes f.sz.toNat
  s.atomWith f (pairRegs a) (fun w => w.pairTaint a)
    (fun t i l => t.memAccess i.ref .atomic n n l ((t.crew i.ref).pair t.freeCtr a l))

/-- SATOM (R317). -/
def execSatom (f : M64) (s : State) : Host.Outcome State Fault Refusal :=
  let a := f.a.toNat
  let n := sizeBytes f.sz.toNat
  s.atomWith f (namesOf [a]) (fun w => w.sourceTaint a)
    (fun t i l => t.offAccess i.ref .atomic n n l ((lane ((t.crew i.ref).source t.freeCtr a) l).toNat : Nat))

/-- ATOMN: held, one entry for each line (R156, R316). -/
def execAtomn (f : M64) (s : State) : Host.Outcome State Fault Refusal :=
  let a := f.a.toNat
  let n := sizeBytes f.sz.toNat
  s.issueWith { mNeeds f (pairRegs a ++ atomRegs f) [] with bare := true } (fun i t =>
    let part := (t.crew i.ref).effective i.part f.pred.toNat (f.pn == 1)
    if part == 0 then t.retire i false
    else
      let checks := splitLanes (fun l =>
        t.readAccess i.ref (t.memAccess i.ref .atomic n n l ((t.crew i.ref).pair t.freeCtr a l)) false false) part.lanes
      let lines := ((checks.2.map (fun x => x.target.loc.line)).eraseDups).length
      if !checks.1.isEmpty then t.failOrder i checks.1
      else
        match t.needEntries i lines with
        | some u => u
        | none =>
          let e := t.atomEffect i f checks.2
          let q := ((t.useAll i.ref checks.2 true).dropLd i.ref).setter i (slotOf f.sbs) lines
          (q.2.modCrew i.ref (fun w => w.hold (.atomn { e with setter := q.1 }) lines)).retire i false)

end Sys2Proof.Machine
end

