-- ==== Sys2Proof/Machine/Barriers.lean ====
section
/-! DEFINITION. Barrier objects: their fields, updates and phases, and the five barrier instructions (R111, R324 to
R333). -/

namespace Sys2Proof.Machine

/-- The fields of a barrier object (R324). -/
structure BarObj where
  expect : Nat
  remain : Nat
  bytes : Nat
  parity : Bool
  pcount : Nat
  wclass : Nat
  timedOut : Bool
  ovf : Bool
  deriving DecidableEq, Repr

/-- A bit as a number. -/
def bitNat (b : Bool) : Nat := if b then 1 else 0

/-- An object from its 16 bytes (R324). -/
def BarObj.ofNum (x : Nat) : BarObj :=
  { expect := bits x 15 0, remain := bits x 31 16, bytes := bits x 63 32, parity := bit x 64, pcount := bits x 95 65,
    wclass := bits x 111 96, timedOut := bit x 112, ovf := bit x 113 }

/-- The 16 bytes of an object (R324). -/
def BarObj.toNum (o : BarObj) : Nat :=
  o.expect + o.remain * 2 ^ 16 + o.bytes * 2 ^ 32 + bitNat o.parity * 2 ^ 64 + o.pcount * 2 ^ 65 +
    o.wclass * 2 ^ 96 + bitNat o.timedOut * 2 ^ 112 + bitNat o.ovf * 2 ^ 113

/-- The object that BARI makes (R326). -/
def BarObj.init (expect wclass : Nat) : BarObj :=
  { expect := expect, remain := expect, bytes := 0, parity := false, pcount := 0, wclass := wclass, timedOut := false,
    ovf := false }

/-- The end of every update: the phase completes when nothing remains (R327). -/
def BarObj.settle (o : BarObj) : BarObj :=
  if o.remain == 0 && o.bytes == 0 then
    { o with parity := !o.parity, pcount := (o.pcount + 1) % 2 ^ 31, remain := o.expect, bytes := 0 }
  else o

/-- An arrival of a count without the end of the update (R327). -/
def BarObj.less (o : BarObj) (c : Nat) : BarObj :=
  if o.remain < c then { o with ovf := true, remain := 0 } else { o with remain := o.remain - c }

/-- An arrival of a count (R327). -/
def BarObj.arrive (o : BarObj) (c : Nat) : BarObj := (o.less c).settle

/-- BARX of a number of bytes: one update (R327). -/
def BarObj.expectBytes (o : BarObj) (x : Word) : BarObj :=
  (({ o with bytes := (o.bytes + x.toNat) % 2 ^ 32 } : BarObj).less 1).settle

/-- A credit of n bytes (R327). -/
def BarObj.credit (o : BarObj) (n : Nat) : BarObj :=
  ({ o with bytes := (o.bytes + (2 ^ 32 - n % 2 ^ 32)) % 2 ^ 32 } : BarObj).settle

/-- The object of a group at an offset. -/
def State.barObj (s : State) (core : Nat) (g : Group) (off : Nat) : BarObj :=
  BarObj.ofNum (s.numAt (.scratch core (g.scrBase + off)) 16)

/-- A thread waits for a condition that a test holds for. -/
def Thread.awaits (t : Thread) (done : Await → Bool) : Bool :=
  match t.run with
  | .barrier a _ => done a
  | _ => false

/-- Threads of a crew that wait for a condition that now holds go on 6 cycles later (R329, R348). -/
def Crew.wakeBarrier (w : Crew) (now : Nat) (done : Await → Bool) : Crew :=
  { w with threads := w.threads.map (fun t => if t.awaits done then { t with run := .barrier (.returns (now + 6)) now } else t) }

/-- The crews of a group woken by a test of what their threads wait for. The return is an acquire: LD entries of the
transposition table from before it end (R85, R111). -/
def State.wakeGroup (s : State) (core : Nat) (g : Group) (done : Await → Bool) : State :=
  g.crews.foldl (fun (st : State) x =>
    let r : CrewRef := ⟨core, x.1, x.2⟩
    if (st.crew r).threads.any (fun t => t.awaits done) then (st.dropLd r).modCrew r (fun w => w.wakeBarrier s.cycle done)
    else st) s

/-- The scratchpad port applies one update to an object, and wakes the threads whose condition then holds (R327,
R329). -/
def State.updateObj (s : State) (core gslot off : Nat) (f : BarObj → BarObj) : State :=
  match s.group core gslot with
  | none => s
  | some g =>
    let o := f (s.barObj core g off)
    (s.putBytes (.scratch core (g.scrBase + off)) (toBytes 16 o.toNum)).wakeGroup core g (fun a => match a with
      | .parity x p => x == off && p != o.parity
      | _ => false)

/-- What a thread of a group waits for holds now (R329, R348). -/
def State.awaitHolds (s : State) (core : Nat) (g : Group) (a : Await) : Bool :=
  match a with
  | .parity off p => p != (s.barObj core g off).parity
  | .timeline k n => decide (n ≤ (g.timelines.getD k Timeline.reset).counter)
  | .returns _ => false

/-- The waits of a crew's threads looked at again, as after a restart (R161). -/
def State.recheckWaits (s : State) (r : CrewRef) : State :=
  match s.groupOf r with
  | some g =>
    if (s.crew r).threads.any (fun t => t.awaits (s.awaitHolds r.core g)) then
      s.modCrew r (fun w => w.wakeBarrier s.cycle (s.awaitHolds r.core g))
    else s
  | none => s

/-- A released BARI: the offset is bound and the object initialised (R326). -/
def State.bindObj (s : State) (core gslot off expect wclass : Nat) : State :=
  (s.modGroup core gslot (fun g =>
    { g with barriers := if g.barriers.contains off then g.barriers else g.barriers ++ [off] })).updateObj core gslot off
    (fun _ => BarObj.init expect wclass)

/-- The offsets of BARIs of a group that have issued and not released (R326). -/
def State.pendingBinds (s : State) (core : Nat) (g : Group) : List Nat :=
  g.crews.flatMap (fun x => (s.crew ⟨core, x.1, x.2⟩).regions.flatMap (fun q => q.effects.filterMap (fun e => match e with
    | .bari off _ _ => some off
    | _ => none)))

/-- The offset operand of a barrier instruction: that of the lowest effective lane, checked as SLD checks one (R325). -/
def State.barOffset (s : State) (i : Issue) (f : M64) (l0 : Nat) (bind : Bool) : Except LaneTrap Nat :=
  match s.offAccess i.ref .load 16 16 l0 (s.offset i f l0), s.groupOf i.ref with
  | .error e, _ => .error e
  | .ok a, some g =>
    let off := (s.offset i f l0).toNat
    if bind || g.barriers.contains off then .ok off else .error (laneFail l0 causeBarobj a.va)
  | .ok a, none => .error (laneFail l0 causeBounds a.va)

/-- What every barrier instruction does first (R40, R325): the effective mask, HANDLER in a handler crew, the offset. -/
def State.barrierWith (s : State) (f : M64) (bare bind : Bool) (regs : List Nat)
    (body : Issue → State → Mask → Nat → Nat → State) : Host.Outcome State Fault Refusal :=
  s.issueWith { mNeeds f (namesOf (f.a.toNat :: regs)) [] with bare := bare } (fun i t =>
    let part := (t.crew i.ref).effective i.part f.pred.toNat (f.pn == 1)
    let l0 := Mask.lowest part
    if part == 0 then t.retire i false
    else if (t.gslotOf i.ref).isNone then t.failAll i part causeHandler
    else
      match t.barOffset i f l0 bind with
      | .error e => t.fail i [e]
      | .ok off => body i t part l0 off)

/-- A barrier effect held with one entry (R156, R328). -/
def State.holdBarrier (s : State) (i : Issue) (f : M64) (e : Effect) : State :=
  match s.needEntries i 1 with
  | some u => u
  | none => ((s.setter i (slotOf f.sbs) 0).2.modCrew i.ref (fun w => w.hold e 1)).retire i false

/-- BARI (R326). -/
def execBari (f : M64) (s : State) : Host.Outcome State Fault Refusal :=
  s.barrierWith f true true [f.d.toNat] (fun i t _ l0 off =>
    let v := (lane ((t.crew i.ref).source t.freeCtr f.d.toNat) l0).toNat
    let expect := v % 65536
    let wclass := v / 65536
    let offs := match t.groupOf i.ref with
      | some g => (off :: (g.barriers ++ t.pendingBinds i.core g)).eraseDups.length
      | none => 0
    let limit := ((t.groupOf i.ref).map (fun g => g.barrierLimit)).getD 0
    if expect == 0 || !(wclass == 0 || (12 ≤ wclass && wclass ≤ 30)) || limit < offs then
      t.fail i [laneFail l0 causeBarobj (0xFFFF000000000000 + off)]
    else t.holdBarrier i f (.bari off expect wclass))

/-- BARA: an arrival of a count, of the effective lanes, or of one (R325, R327). -/
def execBara (f : M64) (s : State) : Host.Outcome State Fault Refusal :=
  s.barrierWith f true false (if f.hint == 0 then [f.d.toNat] else []) (fun i t part l0 off =>
    let c := if f.hint == 0 then (lane ((t.crew i.ref).source t.freeCtr f.d.toNat) l0).toNat % 65536
      else if f.hint == 1 then part.lanes.length else 1
    t.holdBarrier i f (.bara off c part))

/-- BARX: an arrival that adds expected bytes (R327). -/
def execBarx (f : M64) (s : State) : Host.Outcome State Fault Refusal :=
  s.barrierWith f true false [f.d.toNat] (fun i t part l0 off =>
    t.holdBarrier i f (.barx off (lane ((t.crew i.ref).source t.freeCtr f.d.toNat) l0) part))

/-- The issue group of a wait (R329, R348): the lanes of stay wait for what a function gives, the other effective lanes go on
n cycles after issue, and the lanes outside the mask at once. Only a wait that stays blocks the group (R153). -/
def State.awaitWith (s : State) (i : Issue) (part stay : Mask) (what : Nat → Await) (n : Nat) : State :=
  match (if stay == 0 then .ok s else s.blockHead i) with
  | .error u => u
  | .ok u =>
    ((u.dropLd i.ref).modCrew i.ref (fun w =>
      (w.advance (i.part &&& ~~~ part) i.len).modLanes part (fun l th =>
        { th with run := .barrier (if stay.getLsbD l then what l else .returns (s.cycle + n)) s.cycle }))).retired i false

/-- BARW: each effective thread waits until PARITY differs from its Gd[0] (R329). -/
def execBarw (f : M64) (s : State) : Host.Outcome State Fault Refusal :=
  s.barrierWith f true false [f.d.toNat] (fun i t part _ off =>
    let w := t.crew i.ref
    match t.groupOf i.ref with
    | none => t
    | some g =>
      let par := (t.barObj i.core g off).parity
      let mine := fun (l : Nat) => (lane (w.source t.freeCtr f.d.toNat) l).getLsbD 0
      let stay := part &&& Mask.ofFn (fun l => mine l == par)
      t.awaitWith i part stay (fun _ => .parity off par) 24)

/-- BART: bits [95:64] of the object, read at the port; its return is an acquire (R330). The result is tainted when the
offset's register is, in the lane that gives it (R104). -/
def execBart (f : M64) (s : State) : Host.Outcome State Fault Refusal :=
  s.barrierWith f false false [f.d.toNat] (fun i t part l0 off =>
    match t.groupOf i.ref with
    | none => t
    | some g =>
      let a : Access := { lane := l0, va := off, target :=
        { loc := .scratch i.core (g.scrBase + off), page := .window, walk := none, ownVault := false } }
      match t.orderWait i [a] 0 with
      | some u => u
      | none =>
        match t.needCredits i part (groupRegs f.d.toNat 1) with
        | some u => u
        | none =>
          let word := BitVec.ofNat 32 ((t.barObj i.core g off).toNum / 2 ^ 64)
          let taint : Mask := if ((t.crew i.ref).sourceTaint f.a.toNat).getLsbD l0 then BitVec.allOnes 32 else 0
          ((t.dropLd i.ref).startValue i (slotOf f.sbs) (groupRegs f.d.toNat 1) part (contentOf (fun _ => word)) taint
            24).retire i false)

/-! ### Timeouts -/

/-- The exponent of a wait's timeout (R44, R46, R332): the object's WCLASS, else the launch's TOEXP, 24 when that is
zero. -/
def Launch.timeoutExp (l : Launch) : Nat :=
  if l.desc.toexp != 0 then l.desc.toexp else if l.header.toexp != 0 then l.header.toexp else 24

end Sys2Proof.Machine
end

