-- ==== Sys2Proof/Machine/Memo.lean ====
section
/-! DEFINITION. What the choice of an issue group knows of the transposition table: the key that a fetched instruction would
be looked up with, and whether it would hit and so read no bank (R200 to R203, R206, R207). -/

namespace Sys2Proof.Machine

/-- How an instruction is looked up (R200, R203): the word of its key, its source selectors, its destination, its predicate,
and the operands of an LD. -/
structure MemoForm where
  word : Nat
  srcs : List Nat
  d : Nat
  pred : Nat
  pn : Bool
  ld : Option M64
  deriving DecidableEq, Repr

/-- An eligible instruction of the 64-bit register format. -/
def lMemo (op : BitVec 7) (f : L64) (ua ub uc : Bool) : MemoForm :=
  { word := lKeyWord op f ua ub uc
    srcs := (if ua then [f.a.toNat] else []) ++ (if ub then [f.b.toNat] else []) ++ (if uc then [f.c.toNat] else [])
    d := f.d.toNat, pred := f.pred.toNat, pn := f.pn == 1, ld := none }

/-- An eligible instruction of the 64-bit immediate format. -/
def kMemo (op : BitVec 7) (f : K64) (ua : Bool) : MemoForm :=
  { word := kKeyWord op f ua, srcs := if ua then [f.a.toNat] else [], d := f.d.toNat, pred := f.pred.toNat, pn := f.pn == 1,
    ld := none }

/-- How each eligible instruction is looked up: those that R228 marks (R201), with plain LD (R203). -/
def memoForm (i : Instr) : Option MemoForm :=
  match i with
  | .iadd f => some (lMemo 0x00 f true true false)
  | .iaddS32 f => some (lMemo 0x00 (f.expand Shape.alu2) true true false)
  | .iaddC16 f => some (lMemo 0x00 (f.expand false 0) true true false)
  | .isub f => some (lMemo 0x01 f true true false)
  | .isubS32 f => some (lMemo 0x01 (f.expand Shape.alu2) true true false)
  | .isubC16 f => some (lMemo 0x01 (f.expand false 0) true true false)
  | .imul f => some (lMemo 0x03 f true true false)
  | .imulS32 f => some (lMemo 0x03 (f.expand Shape.alu2) true true false)
  | .imulh f => some (lMemo 0x04 f true true false)
  | .imulhS32 f => some (lMemo 0x04 (f.expand Shape.alu2) true true false)
  | .imac f => some (lMemo 0x05 f true true true)
  | .imacw f => some (lMemo 0x06 f true true true)
  | .imin f => some (lMemo 0x07 f true true false)
  | .iminS32 f => some (lMemo 0x07 (f.expand Shape.alu2) true true false)
  | .iminC16 f => some (lMemo 0x07 (f.expand false 1) true true false)
  | .imax f => some (lMemo 0x08 f true true false)
  | .imaxS32 f => some (lMemo 0x08 (f.expand Shape.alu2) true true false)
  | .imaxC16 f => some (lMemo 0x08 (f.expand false 1) true true false)
  | .iabs f => some (lMemo 0x09 f true false false)
  | .iabsS32 f => some (lMemo 0x09 (f.expand Shape.alu1) true false false)
  | .and f => some (lMemo 0x0A f true true false)
  | .andS32 f => some (lMemo 0x0A (f.expand Shape.alu2) true true false)
  | .andC16 f => some (lMemo 0x0A (f.expand false 0) true true false)
  | .or f => some (lMemo 0x0B f true true false)
  | .orS32 f => some (lMemo 0x0B (f.expand Shape.alu2) true true false)
  | .orC16 f => some (lMemo 0x0B (f.expand false 0) true true false)
  | .xor f => some (lMemo 0x0C f true true false)
  | .xorS32 f => some (lMemo 0x0C (f.expand Shape.alu2) true true false)
  | .xorC16 f => some (lMemo 0x0C (f.expand false 0) true true false)
  | .logi f => some (lMemo 0x0D f true true false)
  | .logiS32 f => some (lMemo 0x0D (f.expand Shape.alu2) true true false)
  | .shl f => some (lMemo 0x0E f true true false)
  | .shlS32 f => some (lMemo 0x0E (f.expand Shape.alu2) true true false)
  | .shlC16 f => some (lMemo 0x0E (f.expand false 0) true true false)
  | .shr f => some (lMemo 0x0F f true true false)
  | .shrS32 f => some (lMemo 0x0F (f.expand Shape.alu2) true true false)
  | .shrC16 f => some (lMemo 0x0F (f.expand false 0) true true false)
  | .funl f => some (lMemo 0x10 f true true true)
  | .bext f => some (lMemo 0x11 f true true false)
  | .bextS32 f => some (lMemo 0x11 (f.expand Shape.alu2) true true false)
  | .bins f => some (lMemo 0x12 f true true true)
  | .bcnt f => some (lMemo 0x13 f true false false)
  | .bcntS32 f => some (lMemo 0x13 (f.expand Shape.alu1) true false false)
  | .bscan f => some (lMemo 0x14 f true false false)
  | .bscanS32 f => some (lMemo 0x14 (f.expand Shape.alu1) true false false)
  | .brev f => some (lMemo 0x15 f true false false)
  | .brevS32 f => some (lMemo 0x15 (f.expand Shape.alu1) true false false)
  | .bperm f => some (lMemo 0x16 f true true false)
  | .bpermS32 f => some (lMemo 0x16 (f.expand Shape.alu2) true true false)
  | .adds f => some (lMemo 0x19 f true true false)
  | .addsS32 f => some (lMemo 0x19 (f.expand Shape.alu2) true true false)
  | .idot4 f => some (lMemo 0x1A f true true true)
  | .iaddi f => some (kMemo 0x02 f true)
  | .iaddiI32 f => some (kMemo 0x02 (f.expand true true) true)
  | .fadd f => some (lMemo 0x20 f true true false)
  | .faddS32 f => some (lMemo 0x20 (f.expand Shape.alu2) true true false)
  | .faddC16 f => some (lMemo 0x20 (f.expand false 0) true true false)
  | .fmul f => some (lMemo 0x21 f true true false)
  | .fmulS32 f => some (lMemo 0x21 (f.expand Shape.alu2) true true false)
  | .fmulC16 f => some (lMemo 0x21 (f.expand false 0) true true false)
  | .ffma f => some (lMemo 0x22 f true true true)
  | .ffms f => some (lMemo 0x35 f true true true)
  | .fnma f => some (lMemo 0x36 f true true true)
  | .fmin f => some (lMemo 0x23 f true true false)
  | .fminS32 f => some (lMemo 0x23 (f.expand Shape.alu2) true true false)
  | .fminC16 f => some (lMemo 0x23 (f.expand false 0) true true false)
  | .fmax f => some (lMemo 0x24 f true true false)
  | .fmaxS32 f => some (lMemo 0x24 (f.expand Shape.alu2) true true false)
  | .fmaxC16 f => some (lMemo 0x24 (f.expand false 0) true true false)
  | .fclass f => some (lMemo 0x26 f true false false)
  | .fclassS32 f => some (lMemo 0x26 (f.expand Shape.alu1) true false false)
  | .sfn f => some (lMemo 0x27 f true false false)
  | .sfnS32 f => some (lMemo 0x27 (f.expand Shape.alu1) true false false)
  | .fint f => some (lMemo 0x28 f true false false)
  | .fintS32 f => some (lMemo 0x28 (f.expand Shape.alu1) true false false)
  | .ftoi f => some (lMemo 0x29 f true false false)
  | .ftoiS32 f => some (lMemo 0x29 (f.expand Shape.alu1) true false false)
  | .itof f => some (lMemo 0x2A f true false false)
  | .itofS32 f => some (lMemo 0x2A (f.expand Shape.alu1) true false false)
  | .fscale f => some (lMemo 0x2B f true true false)
  | .fscaleS32 f => some (lMemo 0x2B (f.expand Shape.alu2) true true false)
  | .padd f => some (lMemo 0x2C f true true false)
  | .paddS32 f => some (lMemo 0x2C (f.expand Shape.alu2) true true false)
  | .paddC16 f => some (lMemo 0x2C (f.expand false 0) true true false)
  | .pmul f => some (lMemo 0x2D f true true false)
  | .pmulS32 f => some (lMemo 0x2D (f.expand Shape.alu2) true true false)
  | .pfma f => some (lMemo 0x2E f true true true)
  | .pmnx f => some (lMemo 0x2F f true true false)
  | .pmnxS32 f => some (lMemo 0x2F (f.expand Shape.alu2) true true false)
  | .pack f => some (lMemo 0x31 f true true false)
  | .packS32 f => some (lMemo 0x31 (f.expand Shape.alu2) true true false)
  | .unpk f => some (lMemo 0x32 f true false false)
  | .unpkS32 f => some (lMemo 0x32 (f.expand Shape.alu1) true false false)
  | .fsubC16 f => some (lMemo 0x20 (f.expand false 1) true true false)
  | .cvote f => some (lMemo 0x43 f true false false)
  | .cvoteS32 f => some (lMemo 0x43 (f.expand Shape.alu1) true false false)
  | .lxch f => some (lMemo 0x44 f true true false)
  | .lxchS32 f => some (lMemo 0x44 (f.expand Shape.alu2) true true false)
  | .pick f => some (lMemo 0x47 f true true true)
  | .mov f => some (lMemo 0x49 f true false false)
  | .movS32 f => some (lMemo 0x49 (f.expand Shape.alu1) true false false)
  | .movC16 f => some (lMemo 0x49 (f.expand true 0) true false false)
  | .moviI32 f => some (kMemo 0x4A (f.expand true false) false)
  | .ld f => some { word := ldKeyWord f, srcs := pairRegs f.a.toNat, d := f.d.toNat, pred := f.pred.toNat, pn := f.pn == 1, ld := some f }
  | _ => none

/-- The key that the instruction of an issue group would be looked up with. -/
def State.groupKey (s : State) (i : Issue) (m : MemoForm) : Option XEntry :=
  let part := (s.crew i.ref).effective i.part m.pred m.pn
  match m.ld with
  | some f => if part == 0 then none else s.ldKey i f part
  | none => s.memoKey i m.word m.srcs m.d part none

/-- The instruction of an issue group would hit the transposition table, and so read no bank (R206). -/
def State.groupHit (s : State) (i : Issue) (op : Instr) : Bool :=
  if (s.sub i.core i.sub).xpos.isEmpty then false
  else (((memoForm op).bind (s.groupKey i)).bind (fun k => (s.sub i.core i.sub).hit k s.cycle)).isSome

end Sys2Proof.Machine
end

