-- ==== Sys2Proof/Machine/Arbitrate.lean ====
section
/-! DEFINITION. A cycle of a sub-core: what its crews have waited for, and the choice of an issue group (R14, R15, R20,
R153 to R156, R191, R205 to R209, R289, R496, R508). -/

namespace Sys2Proof.Machine

/-- The crew slots of a sub-core. -/
def crewRefs (core sub : Nat) : List CrewRef := (upTo 8).map (fun k => ⟨core, sub, k⟩)

/-- Every crew slot of a core. -/
def coreRefs (core : Nat) : List CrewRef := (upTo 4).flatMap (crewRefs core)

/-- Results computed at issue whose cycle has come (R191, R383). -/
def State.valuesDue (s : State) (r : CrewRef) : State :=
  ((s.crew r).loads.filter (fun q => match q.kind with
    | .value _ due => due ≤ s.cycle
    | _ => false)).foldl (fun st q => st.finishLoad r q) s

/-- The close of a gambit whose head waited for a snapshot (R155, R184). -/
def State.dueHead (s : State) (r : CrewRef) : State :=
  let w := s.crew r
  if w.headDue && w.canHead then (s.head r).modCrew r (fun w => { w with headDue := false }) else s

/-- The codes of aborts that waited for a credit, written once one is free (R183, R197). -/
def State.codesDue (s : State) (r : CrewRef) : State :=
  let due := fun (w : Crew) => w.threads.findSome? (fun t => match t.run with
    | .release (.code k v) => some (k, v)
    | _ => none)
  match due (s.crew r) with
  | none => s
  | some q =>
    let w := s.crew r
    if w.pinned.getLsbD q.1 && Config.credits ≤ w.creditsUsed then s
    else
      let m := Mask.ofFn (fun l => (w.thread l).run == .release (.code q.1 q.2))
      (s.writeReg r q.1 m (contentOf (fun _ => BitVec.ofNat 32 q.2)) 0).modCrew r (fun w => w.setRun m .ready)

/-- A crew all of whose threads are held in REJOIN raises WATCHDOG with cause RJOIN_DEADLOCK (R20): asynchronous, with the
RJOIN's PC in AUX of the lowest held lane. Lanes in gambit abort instead (R182). -/
def State.watchdog (s : State) (r : CrewRef) : State :=
  let w := s.crew r
  if w.deadlocked && w.pendingTrap.isNone && w.dying.isNone && !w.async.any (fun c => c.cls == 12) then
    if w.inGambit != 0 then s.abortLanes r w.inGambit 4
    else
      let l0 := Mask.lowest w.aliveLanes
      s.modCrew r (fun w => { w with async := w.async ++
        [{ cls := 12, code := 1, lanes := w.aliveLanes, addrs := [], auxs := [(l0, (w.thread l0).pc)], kept := false, held := false }] })
  else s

/-- The stop head of a crew whose issue has stopped is due (R30, R444): it has retired something since its last head, and no
release point, gambit or trap is left to settle first. -/
def Crew.stopHeadDue (w : Crew) : Bool :=
  w.stopped && w.point.isNone && w.gambit.isNone && w.pendingTrap.isNone && w.dying.isNone && !w.headDue && w.canHead &&
    (w.retired != 0 || (w.region.map (fun g => !g.effects.isEmpty || g.entries != 0)).getD false)

/-- The stop head, when it is due (R444) and the slots already locked have issued (R209). -/
def State.stopHead (s : State) (r : CrewRef) : State :=
  if (s.crew r).stopHeadDue && ((s.sub r.core r.sub).locked.map (fun x => x.slot)) != some r.slot then s.head r else s

/-- What the crew of a slot has waited for, at the start of a cycle (R14). -/
def State.settleCrew (s : State) (r : CrewRef) : State :=
  if (s.crew r).owner.isNone then s
  else
    let s1 := ((s.valuesDue r).modCrew r (fun w => w.settersDue s.cycle)).codesDue r
    (((((s1.dueHead r).stopHead r).finishTret r).modCrew r (fun w => w.wake s.cycle))).watchdog r

/-- Some thread of a sub-core waits in RELEASE for a reason that a test holds for. -/
def Sub.anyRelease (b : Sub) (p : Hold → Bool) : Bool :=
  b.crews.any (fun w => w.owner.isSome && w.threads.any (fun t => match t.run with
    | .release h => p h
    | _ => false))

/-- The cycle counts of waits (R205, R508). -/
def Sub.countWaits (b : Sub) : Sub :=
  let b1 := if b.anyRelease (fun _ => true) then b.count 9 else b
  if b1.anyRelease (fun h => match h with
    | .credit _ => true
    | _ => false) then b1.count 6 else b1

/-- The number of an event by its place in Sub.events (R508). -/
def eventNumber (i : Nat) : Nat :=
  if i ≤ 7 then i + 1 else if i ≤ 10 then i + 8 else if i ≤ 14 then i + 21 else i + 33

/-- A core's counters after a sub-core's events (R508): a selector counts its event while enabled, and the events up to
0x12 only for the sub-cores of its mask (log 25). -/
def PerfState.add (p : PerfState) (sub : Nat) (events : List Nat) : PerfState :=
  { p with pmc := (upTo p.pmc.length).map (fun k =>
      let sel := (p.pmsel.getD k 0).toNat
      let n := ((upTo events.length).map (fun i =>
        if bit sel 20 && sel % 65536 == eventNumber i && (0x12 < eventNumber i || bit sel (16 + sub)) then
          events.getD i 0 else 0)).sum
      p.pmc.getD k 0 + BitVec.ofNat 64 n) }

/-- A sub-core's events taken by its core's counters. -/
def State.takeEvents (s : State) (core sub : Nat) : State :=
  let e := (s.sub core sub).events
  if e.all (· == 0) then s
  else
    (s.modCore core (fun k => { k with perf := k.perf.add sub e })).modSub core sub (fun b =>
      { b with events := b.events.map (fun _ => 0) })

/-- The die-wide duty lets a core's sub-cores issue and its engines step in this cycle (R496). -/
def State.dutyOn (s : State) (core : Nat) : Bool :=
  let d := s.pkg.power.dutyOf (s.dieOf core)
  let t := s.clock core % 64
  t * d / 64 < (t + 1) * d / 64

/-- No trap, parking, termination or release point keeps the crew of a slot from issuing. R165 holds the issuing threads of a
release point in RELEASE between its heads and says nothing of the crew's other threads: the model lets none of them issue
in that span (log 19). -/
def Crew.free (w : Crew) : Bool :=
  w.owner.isSome && w.pendingTrap.isNone && w.dying.isNone && w.parked.isNone && w.point.isNone

/-- The crew of a slot may issue in this cycle: it has a ready thread and is free, and no restart, trap entry, branch or stop
keeps it. -/
def Crew.runnable (w : Crew) (now : Nat) : Bool := w.free && w.readyLanes != 0 && w.resumeAt ≤ now && !w.stopped

/-- The crew of a slot may be selected: after a PAUSE not for 8 cycles, unless no other crew has a ready thread (R289). -/
def Sub.selectable (b : Sub) (k now : Nat) : Bool :=
  (b.crew k).runnable now && ((b.crew k).pausedUntil ≤ now ||
    !(upTo b.crews.length).any (fun j => j != k && (b.crew j).owner.isSome && (b.crew j).readyLanes != 0))

/-- The selected PC and the issue group of a crew (R15). -/
def Crew.select (w : Crew) : Option (Addr × Mask) :=
  (firstFrom w.turn (fun l => (w.thread l).run == .ready)).map (fun l =>
    ((w.thread l).pc, Mask.ofFn (fun j => (w.thread j).run == .ready && (w.thread j).pc == (w.thread l).pc)))

/-- The crew that has waited longest since its last issue; ties go to the lowest slot (R207). -/
def Sub.oldest (b : Sub) (now : Nat) : Option Nat :=
  (upTo b.crews.length).foldl (fun (m : Option Nat) k =>
    if b.selectable k now then
      match m with
      | some j => if (b.crew k).lastIssue < (b.crew j).lastIssue then some k else m
      | none => some k
    else m) none

/-- The candidate: the loser of the last conflict, else the oldest (R207). -/
def Sub.candidate (b : Sub) (now : Nat) : Option Nat :=
  match b.loser with
  | some k => if b.selectable k now then some k else b.oldest now
  | none => b.oldest now

/-- The issue group of a crew slot, not yet fetched. -/
def State.groupOfSlot (s : State) (core sub slot : Nat) : Option Issue :=
  ((s.sub core sub).crew slot).select.map (fun p =>
    { core := core, sub := sub, slot := slot, part := p.2, pc := p.1, len := 0, word := 0 })

/-- The instruction that an issue group would run, when it can be fetched and decoded. -/
def State.peekInstr (s : State) (i : Issue) : Option Instr :=
  match s.fetchDecode i with
  | .ok q => some q.1
  | .error _ => none

/-- The bank accesses of an issue group: none when it hits the transposition table (R206). -/
def State.groupClaims (s : State) (i : Issue) (op : Instr) : List BankUse :=
  if s.groupHit i op then []
  else
    let b := s.sub i.core i.sub
    b.claimsOf i.slot s.cycle (b.readsFor i.slot i.part op)

/-- A fixed-latency operand of an issue group, or its unit, is not ready (R191, R383). -/
def State.groupWaits (s : State) (i : Issue) (op : Instr) : Bool :=
  let b := s.sub i.core i.sub
  b.notReady i.slot s.cycle op (b.readsFor i.slot i.part op)

/-- The issue group reads a latch through its producer's register: it issues a cycle after it first could have (R210). -/
def State.latchLate (s : State) (i : Issue) (op : Instr) : Bool :=
  let b := s.sub i.core i.sub
  (readsOf op).any (fun l => l.any (fun x => (b.latchReg i.slot i.part x.toNat).isSome)) &&
    !(b.latchWait.map (fun x => x.1 == i.slot && decide (x.2 < s.cycle))).getD false

/-- An issue group issued: its bank claims and the cycles its results are ready (R206, R383). -/
def State.issueGroup (s : State) (i : Issue) (op : Option Instr) : State :=
  let t := s.cycle
  let uses := (op.map (s.groupClaims i)).getD []
  let res := ((op.map resultOf).getD []).map (fun x => (i.slot, x.1, t + x.2))
  let slow := op.bind slowUnit
  { s.modSub i.core i.sub (fun b =>
      { b with loser := none, prior := (b.claims, b.ready, b.unitFree), claims := b.claims ++ uses, ready := b.ready ++ res
               unitFree := match slow with
                 | some u => modifyAt b.unitFree u.1 (fun _ => t + u.2)
                 | none => b.unitFree }) with
    issue := some i }

/-- An issue group that nothing holds back issues; one that reads a latch through a register waits a cycle first (R210). -/
def State.issueOrLatch (s : State) (i : Issue) (op : Option Instr) : State :=
  if (op.map (s.latchLate i)).getD false then
    s.modSub i.core i.sub (fun b => { b with
      latchWait := if (b.latchWait.map (fun x => x.1)) == some i.slot then b.latchWait else some (i.slot, s.cycle) })
  else s.issueGroup i op

/-- The group of a locked run, formed without a fresh selection (R15): none when its threads are no longer all ready at one
PC. -/
def State.lockedGroup (s : State) (core sub : Nat) (x : Locked) : Option Issue :=
  let w := (s.sub core sub).crew x.slot
  let pc := (w.thread (Mask.lowest x.part)).pc
  if w.free && x.part.lanes.all (fun l => (w.thread l).run == .ready && (w.thread l).pc == pc) then
    some { core := core, sub := sub, slot := x.slot, part := x.part, pc := pc, len := 0, word := 0 }
  else none

/-- The locked group issues, or waits for a fixed-latency operand; none when the run breaks (R209). A stop of the crew lets
the slots already locked issue. -/
def State.lockedSlot (s : State) (core sub : Nat) (x : Locked) : Option State :=
  match s.lockedGroup core sub x with
  | none => none
  | some i =>
    if x.since + 3 < s.cycle then none
    else
      let op := s.peekInstr i
      if s.cycle < ((s.sub core sub).crew x.slot).resumeAt || (op.map (s.groupWaits i)).getD false then some s
      else some (s.issueOrLatch i op)

/-- The candidate's issue group issues, loses its banks to earlier reads, or waits for a fixed-latency result (R191,
R207). R207 does not say what the sub-core does when the candidate's operand or its unit is not ready: the model issues
nothing in that cycle (log 22). -/
def State.chooseGroup (s : State) (core sub : Nat) : State :=
  let b := s.sub core sub
  match b.candidate s.cycle with
  | none => s.modSub core sub (fun b => { b with loser := none })
  | some k =>
    match s.groupOfSlot core sub k with
    | none => s
    | some i =>
      let op := s.peekInstr i
      if (op.map (s.groupWaits i)).getD false then s
      else if b.conflicts ((op.map (s.groupClaims i)).getD []) then
        s.modSub core sub (fun b => ({ b with loser := some k } : Sub).count 7)
      else s.issueOrLatch i op

/-- Some engine of a core runs an operation (R508). -/
def Core.engineBusy (k : Core) : Bool :=
  k.engines.any (fun e => e.ops.any (fun o => o.started.isSome && !o.dead && decide (o.step < o.total)))

/-- The choice of a sub-core, when its duty lets it issue (R207, R496). -/
def State.chooseIssue (s : State) (core sub : Nat) : State :=
  if !s.dutyOn core || (s.core core).fenced then s
  else
    match (s.sub core sub).locked with
    | some x => (s.lockedSlot core sub x).getD ((s.modSub core sub Sub.breakRun).chooseGroup core sub)
    | none => s.chooseGroup core sub

/-- A cycle of a sub-core: waits that have ended, counters, the write buffer, then the choice of an issue group. A group that
was chosen and was not ready leaves a second choice to the same cycle. -/
def State.arbitrate (s : State) (core sub : Nat) : State :=
  if (s.sub core sub).again then (s.modSub core sub (fun b => { b with again := false })).chooseIssue core sub
  else
  let s1 := (crewRefs core sub).foldl State.settleCrew s
  let busy := sub == 0 && (s1.core core).engineBusy
  let queued := if sub == 0 then s1.queueOcc core else 0
  ((s1.modSub core sub (fun b =>
    (((if busy then b.count 15 else b).countN 14 queued).countWaits).drainWrites s.cycle)).takeEvents core sub).chooseIssue core
    sub

/-- ISSUE_ARBITRATION of the sub-core that State.sel names (R207). -/
def execIssueArbitration (s : State) : Host.Outcome State Fault Refusal := .next (s.arbitrate s.sel.a s.sel.b)

/-- RJOIN_RELEASE of the crew that State.sel names: held threads whose conditions are met go on together (R18). -/
def execRjoinRelease (s : State) : Host.Outcome State Fault Refusal :=
  let r : CrewRef := ⟨s.sel.a, s.sel.b, s.sel.c⟩
  if (s.crew r).rejoinReady == 0 then .next s else .next ((s.modCrew r Crew.rejoinRelease).returnsAfter r 2)

/-- TRAP_ENTRY of the crew that State.sel names (R296). -/
def execTrapEntry (s : State) : Host.Outcome State Fault Refusal :=
  .next (s.takeTrap ⟨s.sel.a, s.sel.b, s.sel.c⟩)

end Sys2Proof.Machine
end

