-- ==== Sys2Proof/Machine/Start.lean ====
section
/-! DEFINITION. The start of a crew: of a group's crew (R11), of a handler crew (R39), and of a crew that a saved image
describes; each start is a head whose snapshot holds the start state (R153). -/

namespace Sys2Proof.Machine

/-- The map of a crew that starts: the contents given for G0 on, zero in the other base registers, no extended block
(R11, R188, R189). -/
def Sub.startMap (b : Sub) (slot : Nat) (args : List Content) : Sub :=
  let put := fun (x : Sub) (k : Nat) (c : Content) =>
    { x with crews := modifyAt x.crews slot (fun w => { w with map := modifyAt w.map k (fun _ => (x.register c).1) }) }
  let b0 := { b with crews := modifyAt b.crews slot (fun w => { w with map := List.replicate 64 PhysReg.none_ }) }
  let b1 := (upTo args.length).foldl (fun x k => put x k (args.getD k zeroContent)) b0
  let z := (b1.register zeroContent).1
  { b1 with crews := modifyAt b1.crews slot (fun w =>
      { w with map := w.map.take args.length ++ List.replicate (32 - args.length) z ++
                      List.replicate 32 PhysReg.none_ }) }

/-- A thread that starts at an address (R11). -/
def startThread (pc : Addr) : Thread := { Thread.idle with pc := pc, run := .ready }

/-- The start of a crew counts as a head, and the region before it as released (R153): the crew's only region opens,
with a snapshot of its present state. -/
def State.startHead (s : State) (r : CrewRef) : State :=
  (s.fresh.2).modCrew r (fun w =>
    { w with regions := [Region.open_ s.fresh.1 s.cycle (w.snapshot (s.keep r).side)]
             pinned := BitVec.allOnes 64, retired := 0 })

/-- A crew starts in a slot (R11, R39): every thread READY at an address, the contents given for G0 on, turn 0. -/
def State.startCrew (s : State) (r : CrewRef) (o : Owner) (pc : Addr) (args : List Content) : State :=
  let w : Crew := { Crew.idle with owner := some o, threads := List.replicate 32 (startThread pc), lastIssue := s.cycle }
  ((s.modCrew r (fun _ => w)).modSub r.core r.sub (fun b => b.startMap r.slot args)).startHead r

/-- A word in every lane. -/
def sameWord (x : Word) : Content := contentOf (fun _ => x)

/-- A group's crew starts (R11): at the image's entry, with the argument block's address in G0 and G1. -/
def State.startGroupCrew (s : State) (l : Launch) (r : CrewRef) (o : Owner) : State :=
  s.startCrew r o (l.imageAt l.header.entry)
    [sameWord (l.desc.args.setWidth 32), sameWord ((l.desc.args >>> 32).setWidth 32)]

/-- A handler crew starts on a message (R39): at its handler, with the payload in G0, the sender in G1 and the sequence
number in G2. -/
def State.startHandler (s : State) (l : Launch) (r : CrewRef) (o : Owner) (m : Message) : State :=
  s.startCrew r o (l.imageAt (l.header.handlers.getD m.handler 0))
    [contentOf (fun i => m.payload.getD i 0), sameWord (BitVec.ofNat 32 m.src), sameWord (BitVec.ofNat 32 m.seq)]

end Sys2Proof.Machine
end

