-- ==== Sys2Proof/Machine/Levels.lean ====
section
/-! DEFINITION. What the device itself writes and ends: memory writes of the device, the error log and the placement log,
completion records and statistics areas, the causes that end a level, the freeing of a group, and the termination of a
context (R21 to R31, R38, R41, R142 to R144, R303, R425, R429, R433, R438, R501 to R504). -/

namespace Sys2Proof.Machine

/-- The requester that a write of the device itself, a queue engine or an application core stands under: no core. -/
def deviceCrew : CrewRef := ⟨1024, 0, 0⟩

/-- An interrupt raised at the application cores (R420, R436, R503). -/
def State.interrupt (s : State) (vec : Nat) : State :=
  { s with sched := { s.sched with interrupts := s.sched.interrupts ++ [vec] } }

/-- Bytes cut at line boundaries (R81). -/
def lineRuns : Nat → Nat → List Byte → List (Nat × List Byte)
  | 0, _, _ => []
  | fuel + 1, a, bs =>
    if bs.isEmpty then []
    else
      let n := 128 - a % 128
      (a, bs.take n) :: lineRuns fuel (a + n) (bs.drop n)

/-- A run of bytes of one line written by the device or an outside party with a release at system scope (R26): the line's flag
entry is freed, so that an acquire of the line receives invalidate-all (R96). -/
def State.releaseRun (s : State) (x : Nat × List Byte) (reply : Option HeldReply) : State :=
  let p := Loc.mem x.1
  let h := s.homeOf p false
  (s.writeFor h { crew := deviceCrew, setter := 0, bytes := [(p, x.2)], descs := [], rel := none, stats := [] } reply).modHome
    h (fun y => { y with sigs := y.sigs.filter (fun e => e.line != p.line) })

/-- Bytes written to physical memory with a release at system scope (R26). -/
def State.releaseWrite (s : State) (pa : Nat) (bs : List Byte) : State :=
  (lineRuns (bs.length / 128 + 2) pa bs).foldl (fun (st : State) x => st.releaseRun x none) s

/-- The physical address that the device uses for an address of a context, or none when the access faults (R65 to R67,
R71). A, and D on a write, are set. -/
def State.deviceWalk (s : State) (ctx va : Nat) (write : Bool) : Option (Nat × State) :=
  if bits va 63 56 != 0 then none
  else
    match s.walk ctx va 1 with
    | .error _ => none
    | .ok w =>
      if !(if write then bit w.pte 3 else bit w.pte 2) || (s.storageAt w.pa).isNone then none
      else
        let want := w.pte ||| (if write then 0xC0 else 0x40)
        some (w.pa, if want == w.pte then s else s.releaseWrite w.pteAddr (toBytes 8 want))

/-- The physical address of a record's address (R420). -/
def State.recPa (s : State) (a : RecAddr) (write : Bool) : Option (Nat × State) :=
  match a with
  | .phys p => if (s.storageAt p).isNone then none else some (p, s)
  | .virt ctx va => s.deviceWalk ctx va write

/-- The bytes at an address as the device reads them, with an acquire at system scope; none when the read faults. A
record of n bytes does not cross a page. -/
def State.recRead (s : State) (a : RecAddr) (n : Nat) : Option (List Byte × State) :=
  (s.recPa a false).map (fun x => (x.2.peek (.mem x.1) n, x.2))

/-- The address n bytes further on. -/
def RecAddr.plus (a : RecAddr) (n : Nat) : RecAddr :=
  match a with
  | .phys p => .phys (p + n)
  | .virt c v => .virt c (v + n)

/-- The number of an address. -/
def RecAddr.num (a : RecAddr) : Nat :=
  match a with
  | .phys p => p
  | .virt _ v => v

/-! ### Logs -/

/-- An error record written to the log with a release at system scope (R503, R504); dropped and counted when the ring is
full, nothing when the log is disabled. -/
def State.logRecord (s : State) (type sev cell ctx : Nat) (detail : List Byte) : State :=
  let g := s.pkg.log
  let lg := bits g.base.toNat 3 0
  let cap := 2 ^ lg * 64
  if lg == 0 then s
  else if cap ≤ (g.tail - g.head).toNat then { s with pkg := { s.pkg with log := { g with lost := g.lost + 1 } } }
  else
    let bytes := toBytes 8 g.seq ++ toBytes 2 type ++ toBytes 1 sev ++ [0] ++ toBytes 2 cell ++ toBytes 2 ctx ++
      toBytes 8 s.cycle ++ (detail ++ List.replicate 40 0).take 40
    let at_ := g.base.toNat / 4096 * 4096 + 64 * (g.tail.toNat % cap)
    let s1 := s.releaseWrite at_ bytes
    let s2 : State := { s1 with pkg := { s1.pkg with log := { g with tail := g.tail + 1, seq := g.seq + 1 } } }
    s2.interrupt g.vec.toNat

/-- The log takes a record now: it is enabled and not full (R503). -/
def State.logTakes (s : State) : Bool :=
  let g := s.pkg.log
  let lg := bits g.base.toNat 3 0
  lg != 0 && decide ((g.tail - g.head).toNat < 2 ^ lg * 64)

/-- An act put among those of outside parties in the order of their times. -/
def insertInput (x : Input) : List Input → List Input
  | [] => [x]
  | y :: r => if y.time ≤ x.time then y :: insertInput x r else x :: y :: r

/-- The threshold register's index (R499). -/
def thresholdKey (kind index : Nat) : Nat := 8 * kind + index

/-- The kind of a cell for thresholds (R150, R499). -/
def cellKind (cell : Nat) : Nat :=
  if cell < 1024 then 0 else if cell < 1280 then 1 else if cell < 1536 then 2 else if cell < 1792 then 3 else 4

/-- The threshold index of a counter of R498: STRIKE, DROOP, CLOCK, CE, UE, TCORR. -/
def thresholdIndex (field : Nat) : Option Nat :=
  match field with
  | 0 => some 0
  | 1 => some 1
  | 2 => some 2
  | 4 => some 3
  | 5 => some 4
  | 6 => some 5
  | _ => none

/-- What Armature does on a THRESH record, a free time after it (R500, log 55): a core is fenced, or its cluster tested; a slice
is fenced; another cell is left to the next bring-up. -/
def State.armatureActs (s : State) (cell index : Nat) : State :=
  let act := fun (i : Instr) => ({ s.spend with
    inputs := insertInput ⟨s.cycle + Config.freeArmature s.freeCtr, ⟨i, ⟨0, 0, 0⟩⟩⟩ s.inputs } : State)
  match cellKind cell with
  | 0 => act (if index == 5 then .runFieldTest (cell / 4) else .fenceUnit .core cell .threshold)
  | 1 => act (.fenceUnit .slice (cell - 1024) .threshold)
  | _ => { s with pkg := { s.pkg with boot := { s.pkg.boot with marks := insertUp s.pkg.boot.marks cell } } }

/-- An event counted in the current window of its threshold (R499): a THRESH record once for each window that reaches
LIMIT, on which Armature acts. -/
def State.countWindow (s : State) (cell index : Nat) : State :=
  let t := tget ⟨0, 32⟩ s.pkg.thresholds (thresholdKey (cellKind cell) index)
  let win := s.cycle / 2 ^ t.wexp
  let mine := fun (w : WindowCount) => w.cell == cell && w.index == index && w.window == win
  let now := (s.pkg.windowCounts.find? mine).getD ⟨cell, index, win, 0, false⟩
  let hit := t.limit != 0 && t.limit ≤ now.count + 1 && !now.recorded
  let rest := s.pkg.windowCounts.filter (fun w => !(w.cell == cell && w.index == index))
  let s1 := { s with pkg := { s.pkg with windowCounts := rest ++
    [{ now with count := now.count + 1, recorded := now.recorded || hit }] } }
  if hit then
    let s2 := s1.logRecord 1 1 cell 0xFFFF
      (toBytes 1 index ++ toBytes 1 (cellKind cell) ++ [0, 0] ++ toBytes 4 t.limit ++ toBytes 1 t.wexp)
    if s1.logTakes then s2.armatureActs cell index else s2
  else s1

/-- A counter of a cell raised (R498), with its threshold window (R499). -/
def State.countCell (s : State) (cell field n : Nat) : State :=
  let c := tget (List.replicate 8 0) s.pkg.cells cell
  let c' := modifyAt c field (fun x => min (x + n) (2 ^ 32 - 1))
  let s1 := { s with pkg := { s.pkg with cells := tset s.pkg.cells cell c' } }
  match thresholdIndex field with
  | some i => (upTo n).foldl (fun (st : State) _ => st.countWindow cell i) s1
  | none => s1

/-- An entry of the placement log (R429): EVENT 1 start, 2 stolen start, 3 relaunch start, 4 lost, 5 cancelled. -/
def State.logPlacement (s : State) (core event ctx : Nat) (launchId : Word) (g : Nat) : State :=
  let d := s.dieOf core
  let p := s.die d
  let size := p.logSize.toNat
  let entry := toBytes 8 p.seq ++ toBytes 2 ctx ++ toBytes 1 event ++ [0] ++ toBytes 4 launchId.toNat ++ toBytes 4 g ++
    toBytes 2 core ++ toBytes 2 (s.physCore core) ++ toBytes 8 (s.clock core)
  let s1 := if size == 0 then s else s.releaseWrite (p.logBase.toNat + 32 * (p.seq % size)) entry
  s1.modDie d (fun x => { x with seq := x.seq + 1, overrun := x.overrun || (size != 0 && decide (size ≤ x.seq)) })

/-! ### Statistics -/

/-- Counts added to a launch's statistics (R142, R143): counter c of identifier id has index 4 id + c. -/
def Launch.addStats (l : Launch) (xs : List StatAdd) : Launch :=
  if l.desc.stats == 0 then l
  else { l with stats := xs.foldl (fun m x =>
    let k := 4 * x.tid + x.kind
    tset m k (min (tget 0 m k + x.n) (2 ^ 64 - 1))) l.stats }

/-- Counts added to the launch of a launch slot. -/
def State.addStats (s : State) (l : Nat) (xs : List StatAdd) : State :=
  if xs.isEmpty then s else s.modLaunch l (fun x => x.addStats xs)

/-- Counts added to the launch of a crew. -/
def State.addStatsOf (s : State) (r : CrewRef) (xs : List StatAdd) : State :=
  match s.lslotOf r with
  | some l => s.addStats l xs
  | none => s

/-- The physical runs of bytes at a virtual address of a context that the device writes, cut at 64 KiB; none when a part
faults. -/
def State.deviceRuns (s : State) (ctx va : Nat) (bs : List Byte) : Option (List (Nat × List Byte) × State) :=
  let first := min bs.length (65536 - va % 65536)
  match s.deviceWalk ctx va true with
  | none => none
  | some x =>
    if first == bs.length then some ([(x.1, bs)], x.2)
    else (x.2.deviceWalk ctx (va + first) true).map (fun y => ([(x.1, bs.take first), (y.1, bs.drop first)], y.2))

/-- A statistics area written with its counts as a launch terminates, with any status (R144); a fault leaves it unwritten and
is logged (R504). -/
def State.writeStats (s : State) (ctx addr : Nat) (launchId : Word) (counts : List (Nat × Nat)) : State :=
  if addr == 0 then s
  else
    match s.deviceRuns ctx addr ((upTo 256).flatMap (fun i => toBytes 8 (tget 0 counts i))) with
    | some x => x.1.foldl (fun (st : State) r => st.releaseWrite r.1 r.2) x.2
    | none => s.logRecord 9 2 0xFFFF ctx (toBytes 4 launchId.toNat ++ [1, 0, 0, 0] ++ toBytes 8 addr)

/-! ### Completion records -/

/-- A completion record written once as a level terminates (R26, R27). The manual does not say what happens when its address
faults: the model then writes nothing and goes on (log 23). -/
def State.writeRecord (s : State) (a : RecAddr) (count target : Nat) (st : Status) (discarded : Nat) : State :=
  match s.recPa a true with
  | some x => x.2.releaseWrite x.1 (toBytes 8 count ++ toBytes 8 target ++ toBytes 4 st.1 ++ toBytes 4 st.2 ++
      toBytes 8 discarded)
  | none => s

/-- A level of the level table. -/
def State.level? (s : State) (i : Nat) : Option Level := tfind s.sched.levels i

/-- The state with a level changed. -/
def State.modLevel (s : State) (i : Nat) (f : Level → Level) : State :=
  match s.level? i with
  | some x => { s with sched := { s.sched with levels := tset s.sched.levels i (f x) } }
  | none => s

/-- Every queue engine is to read its blocked commands again (R419). -/
def State.relook (s : State) : State :=
  { s with sched := { s.sched with queues := s.sched.queues.map (fun q => { q with look := true }) } }

/-- The state without a level, which has terminated: waits are read again. -/
def State.dropLevel (s : State) (i : Nat) : State :=
  ({ s with sched := { s.sched with levels := tdel s.sched.levels i } } : State).relook

/-- The state without a launch: its slot is free, and its handlers' reservations end. -/
def State.dropLaunch (s : State) (l : Nat) : State :=
  ({ s with sched := { s.sched with launches := tdel s.sched.launches l } } : State).relook

/-- The launches of a graph, by launch slot. -/
def State.launchesIn (s : State) (g : Nat) : List Nat :=
  (s.sched.launches.filter (fun x => x.2.graph == some g)).map (fun x => x.1)

/-- The levels directly within a level. -/
def State.levelsIn (s : State) (i : Nat) : List Nat :=
  (s.sched.levels.filter (fun x => x.2.parent == some i)).map (fun x => x.1)

/-- The cores of which the state holds anything. -/
def State.coreList (s : State) : List Nat := s.cores.map (fun p => p.1)

/-- The group slots of a core that hold a group of a launch. -/
def State.groupSlots (s : State) (core l : Nat) : List Nat :=
  (upTo 32).filter (fun g => ((s.group core g).map (fun x => x.lslot)) == some l)

/-- The crew slots of a group. -/
def Group.refs (g : Group) (core : Nat) : List CrewRef := g.crews.map (fun x => ⟨core, x.1, x.2⟩)

/-- The handler crews' slots of a launch on a core. -/
def State.handlerRefs (s : State) (core l : Nat) : List CrewRef :=
  ((s.core core).handlers.filter (fun h => h.lslot == l)).flatMap (fun h => h.crews.map (fun x => ⟨core, x.1, x.2⟩))

/-- Every crew slot that a launch uses. -/
def State.launchRefs (s : State) (l : Nat) : List CrewRef :=
  s.coreList.flatMap (fun c => (s.groupSlots c l).flatMap (fun g =>
    ((s.group c g).map (fun x => x.refs c)).getD []) ++ s.handlerRefs c l)

/-- The operations of a unit, in acceptance order. -/
def State.engineOps (s : State) (core unit : Nat) : List EngOp :=
  (((s.core core).engines[unit]?).map (fun e => e.ops)).getD []

/-- Every number of a timeline that a command still needs has landed: the rest are vacant, and no crew is left to take them
(R23, R162). -/
def Timeline.finished (t : Timeline) : Bool :=
  (upTo (t.issued - t.counter)).all (fun k => t.vacant.contains (t.counter + 1 + k) || t.landed.contains (t.counter + 1 + k))

/-- A group has met every condition of R23: every crew has completed with every region released, and every timeline has
finished. -/
def State.groupMet (s : State) (core gslot : Nat) (g : Group) : Bool :=
  g.completed == g.crews.length && g.timelines.all Timeline.finished &&
    !(upTo 5).any (fun u => (s.engineOps core u).any (fun o => o.gslot == gslot && !o.done))

/-- The groups of a launch on a core that have met the conditions of R23 are marked: they count, whatever ends the launch
(R31). -/
def State.markMet (s : State) (l core : Nat) : State :=
  (s.groupSlots core l).foldl (fun (st : State) g =>
    match st.group core g with
    | some x => if st.groupMet core g x then st.modGroup core g (fun y => { y with met := true }) else st
    | none => st) s

/-- A write, an atomic or a message of a launch is under way. -/
def State.launchWrites (s : State) (l : Nat) : Bool :=
  s.net.txs.any (fun t => t.lslot == some l && (match t.req with
    | .read _ _ _ _ _ => false
    | _ => true))

/-- A crew stops issuing at its next boundary, as for pre-emption; its open gambit aborts with code 0x05 (R30, R187,
R444). -/
def State.stopCrew (s : State) (r : CrewRef) : State :=
  (s.modCrew r (fun w => { w with stopped := w.owner.isSome })).abortLanes r (s.crew r).inGambit 5

/-- A launch stops: records not started leave the slot tables, its groups drain, its crews stop (R30, R432). -/
def State.stopLaunch (s : State) (l : Nat) : State :=
  let s1 := s.coreList.foldl (fun (st : State) c =>
    let run := (st.core c).groups.filterMap (fun g => g.map (fun x => (x.lslot, x.g)))
    st.modCore c (fun k =>
      { k with slots := k.slots.filter (fun x =>
                 x.bind.lslot.toNat != l || run.contains (l, x.bind.group.toNat))
               groups := k.groups.map (Option.map (fun g => if g.lslot == l then { g with draining := true } else g)) })) s
  (s.launchRefs l).foldl State.stopCrew (s.coreList.foldl (fun (st : State) c => st.markMet l c) s1)

/-- A terminating cause accepted for a launch: the first fixes its status (R31). A cause other than DONE stops it. -/
def State.acceptLaunch (s : State) (l : Nat) (st : Status) : State :=
  match s.launch? l with
  | some x => if x.status.isSome then s
    else (s.modLaunch l (fun y => { y with status := some st, saved := [] })).stopLaunch l
  | none => s

/-- A terminating cause accepted for a level (R31), and a cancel of everything within it (R29, R30). -/
def State.acceptLevel (s : State) : Nat → Nat → Status → State
  | 0, _, _ => s
  | fuel + 1, i, st =>
    match s.level? i with
    | some x =>
      if x.status.isSome then s
      else
        let s1 := s.modLevel i (fun y => { y with status := some st })
        let s2 := (s1.launchesIn i).foldl (fun t l => t.acceptLaunch l (2, 0)) s1
        (s2.levelsIn i).foldl (fun t j => State.acceptLevel t fuel j (2, 0)) s2
    | none => s

/-- A status accepted by a level and by every level above it (R29). -/
def State.acceptUp (s : State) : Nat → Option Nat → Status → State
  | 0, _, _ => s
  | _, none, _ => s
  | fuel + 1, some i, st =>
    let up := (s.level? i).bind (fun x => x.parent)
    State.acceptUp (s.acceptLevel 4 i st) fuel up st

/-- A child of a level done, or refused by a wait: the counter rises, and at its target the level is done and its record
is written (R25, R26, R425). -/
def State.childCounts (s : State) : Nat → Option Nat → State
  | 0, _ => s
  | _, none => s
  | fuel + 1, some i =>
    match s.level? i with
    | none => s
    | some x =>
      let s1 := s.modLevel i (fun y => { y with counter := y.counter + 1 })
      if x.status.isNone && x.counter + 1 == x.target then
        State.childCounts ((s1.writeRecord x.recAddr x.target x.target (1, 0) 0).dropLevel i) fuel x.parent
      else s1

/-- A launch terminates: its statistics area, then its completion record; its entry is freed; its graph counts it or takes
its status (R26, R27, R29, R144). -/
def State.endLaunch (s : State) (l : Nat) (st : Status) : State :=
  match s.launch? l with
  | none => s
  | some x =>
    let s1 := s.writeStats x.ctx x.desc.stats x.desc.launchId x.stats
    let s2 := if x.fixed then s1.writeRecord x.recAddr x.counter x.target st x.discarded
      else s1.writeRecord x.recAddr 0 0 st 0
    let s3 := s2.dropLaunch l
    if st.1 == 1 then s3.childCounts 4 x.graph else s3.acceptUp 4 x.graph st

/-! ### Groups -/

/-- The requests of a crew that await a region's release are discarded with the region (R160, R175). -/
def State.dropHeld (s : State) (r : CrewRef) : State :=
  if s.net.txs.any (fun t => t.crew == some r && t.hold.isSome) then
    { s with net := { s.net with txs := s.net.txs.filter (fun t => !(t.crew == some r && t.hold.isSome)) } }
  else s

/-- The requests of a crew that leaves its slot go on without it, but for those that await a release. -/
def State.orphan (s : State) (r : CrewRef) : State :=
  let s1 := s.dropHeld r
  { s1 with net := { s1.net with txs := s1.net.txs.map (fun t => if t.crew == some r then { t with crew := none } else t) } }

/-- A crew leaves its slot (R438): the slot is idle, its generation rises, and a block it held is free. -/
def State.leaveSlot (s : State) (r : CrewRef) : State :=
  (((s.dropLd r).orphan r).modSub r.core r.sub (fun b =>
    ({ b with
       crews := modifyAt b.crews r.slot (fun _ => Crew.idle)
       blocks := b.blocks.map (fun x => if x.holder == some r.slot then { x with holder := none, freeing := false } else x)
       locked := if (b.locked.map (fun x => x.slot)) == some r.slot then none else b.locked
       loser := if b.loser == some r.slot then none else b.loser
       latches := b.latches.map (fun x => if (x.map (fun y => y.slot)) == some r.slot then none else x)
       ready := b.ready.filter (fun x => x.1 != r.slot) } : Sub).purge)).modKeep r (fun k =>
      { k with generation := (k.generation + 1) % 2 ^ 17 })

/-- The circuits of an owner end: reservations and ids (R23, R380). -/
def State.dropCircuits (s : State) (core : Nat) (p : Circuit → Bool) : State :=
  let s1 := s.modCore core (fun k => { k with circuits := k.circuits.filter (fun c => !(p c)) })
  { s1 with net := { s1.net with circuits := s1.net.circuits.filter (fun x =>
      !(x.2.1 == core && (s.core core).circuits.any (fun c => p c && c.id == x.2.2))) } }

/-- The subscriptions of a group end: its range parts leave their homes, and updates in flight are discarded (R23,
R375). -/
def State.dropSubs (s : State) (core gslot : Nat) (p : Nat → Bool) : State :=
  let s1 := s.modGroup core gslot (fun g => { g with subs := g.subs.filter (fun x => !(p x.id)) })
  { s1 with net := { s1.net with
      homes := s1.net.homes.map (fun h => (h.1, { h.2 with parts := h.2.parts.filter (fun q =>
        !(q.core == core && q.gslot == gslot && p q.sub)) }))
      updates := s1.net.updates.filter (fun u => !(u.core == core && u.gslot == gslot && p u.sub)) } }

/-- The windows that a group owns close at every copy of its cluster's table (R23, R373). -/
def State.dropWindows (s : State) (core gslot : Nat) : State :=
  (upTo 4).foldl (fun (st : State) n =>
    match st.coreInCluster (st.clusterOf core) n with
    | some c => st.modCore c (fun k =>
        { k with windows := k.windows.filter (fun w => !(w.core == core && w.gslot == gslot))
                 windowChanges := k.windowChanges.filter (fun w => !(w.core == core && w.gslot == gslot)) })
    | none => st) s

/-- The handler crews of a launch are idle on a core and no entry is queued for it (R38, R41). -/
def State.handlersIdle (s : State) (core l : Nat) : Bool :=
  (s.handlerRefs core l).all (fun r => (s.crew r).owner.isNone) && !(s.core core).inbound.any (fun m => m.lslot == l)

/-- The handler reservation of a launch ends on a core once no group of it is left there, started or waiting in the slot
table, and its handlers are idle (R38). -/
def State.endHandlers (s : State) (core l : Nat) : State :=
  if (s.groupSlots core l).isEmpty && !(s.core core).slots.any (fun x => x.bind.lslot.toNat == l) && s.handlersIdle core l then
    s.modCore core (fun k => { k with handlers := k.handlers.filter (fun h => h.lslot != l) })
  else s

/-- Everything a group holds returns (R23, R36, R428): its subscriptions, windows, circuits, crew slots, extended blocks,
engine commands, tiles and record. -/
def State.freeGroup (s : State) (core gslot : Nat) : State :=
  match s.group core gslot with
  | none => s
  | some g =>
    let s1 := ((s.dropSubs core gslot (fun _ => true)).dropWindows core gslot).dropCircuits core
      (fun c => c.owner == .group gslot)
    let s2 := (g.refs core).foldl State.leaveSlot s1
    let s3 := s2.modCore core (fun k =>
      { k with
        groups := modifyAt k.groups gslot (fun _ => none)
        slots := k.slots.filter (fun x => !(x.bind.lslot.toNat == g.lslot && x.bind.group.toNat == g.g))
        engines := k.engines.map (fun e => { e with ops := e.ops.filter (fun o => o.gslot != gslot) })
        arrivals := k.arrivals.filter (fun a => a.gslot != gslot)
        subs := k.subs.map (fun b => { b with blocks := b.blocks.map (fun x =>
          if x.group == some gslot then { x with group := none } else x) }) })
    (s3.forgetRaced (fun x => x.core == core && x.gslot == gslot)).endHandlers core g.lslot

/-- The launch is done once every group has completed and its handlers are idle on every core (R41); nothing ends it otherwise
from then on (R31). Its record follows the last of its writes (R23, R26). -/
def State.tryDone (s : State) (l : Nat) : State :=
  match s.launch? l with
  | some x =>
    if x.status == some (1, 0) || (x.status.isNone && x.fixed && x.counter == x.target && s.coreList.all (fun c => s.handlersIdle c l)) then
      if s.launchWrites l then s.modLaunch l (fun y => { y with status := some (1, 0) }) else s.endLaunch l (1, 0)
    else s
  | none => s

/-- An atomic or message that a crew has sent is no longer waited for: it is performed and its answer is dropped. -/
def State.orphanPoints (s : State) (r : CrewRef) : State :=
  { s with net := { s.net with txs := s.net.txs.map (fun t =>
      if t.crew == some r then
        (match t.req with
         | .atomic e c _ i re => ({ t with crew := none, req := .atomic e c false i re } : Tx)
         | _ => { t with crew := none })
      else t) } }

/-- A group destroyed at once: its crews stop with all they hold unreleased (R9, R433). -/
def State.killGroup (s : State) (core gslot : Nat) : State :=
  match s.group core gslot with
  | none => s
  | some g => ((g.refs core).foldl State.orphanPoints s).freeGroup core gslot

/-- The handler crews of a launch end at once on a core, with its queued entries. -/
def State.killHandlers (s : State) (core l : Nat) : State :=
  let refs := s.handlerRefs core l
  let s1 := refs.foldl (fun (st : State) r =>
    (((st.orphanPoints r).dropCircuits core (fun c => c.owner == .handler r))).leaveSlot r) s
  s1.modCore core (fun k => { k with inbound := k.inbound.filter (fun m => m.lslot != l)
                                     handlers := k.handlers.filter (fun h => h.lslot != l) })

/-- Termination of a context (R29, R303): the trapping launch takes TRAPPED with the class as CAUSE, every other running
level of the context CONTEXT. Their crews stop and drain as for a cancel, and their records follow (R26, R31, log 34). -/
def State.terminateContext (s : State) (ctx : Nat) (trapping : Option Nat) (cls : Nat) : State :=
  let ls := (s.sched.launches.filter (fun x => x.2.ctx == ctx)).map (fun x => x.1)
  let vs := (s.sched.levels.filter (fun x => x.2.ctx == ctx)).map (fun x => x.1)
  let s1 := ls.foldl (fun (st : State) l => st.acceptLaunch l (if some l == trapping then (3, cls) else (10, 0))) s
  vs.foldl (fun (st : State) v =>
    st.modLevel v (fun x => if x.status.isNone then { x with status := some (10, 0) } else x)) s1

/-- A context terminated with CAUSE 6 for an error at a home (R439, R474, R475), with its record in the error log. -/
def State.terminate6 (s : State) (ctx : Nat) (l : Option Nat) (cell : Nat) : State :=
  let id := ((l.bind s.launch?).map (fun x => x.desc.launchId.toNat)).getD 0
  (s.logRecord 10 2 cell ctx (toBytes 2 cell ++ [0, 0] ++ toBytes 4 id)).terminateContext ctx l 6

/-- A group is lost (R433): it ends, EVENT 4 is logged, and it is made ready again when its launch is idempotent, it has
released no atomic or message, and it has been relaunched fewer than 2 times; else the launch ends with GROUPLOST. -/
def State.loseGroup (s : State) (core gslot : Nat) : State :=
  match s.group core gslot with
  | none => s
  | some g =>
    let s1 := s.killGroup core gslot
    match s1.launch? g.lslot with
    | none => s1
    | some l =>
      let s2 := s1.logPlacement core 4 g.ctx l.desc.launchId g.g
      let times := ((l.lostOnce.find? (fun x => x.1 == g.g)).map (fun x => x.2)).getD 0
      let idem := bit l.header.flags 2 || bit l.desc.lflags 2
      if idem && !g.atomic && times < 2 then
        s2.modLaunch g.lslot (fun y =>
          { y with bound := y.bound.filter (fun n => n != g.g)
                   lostOnce := y.lostOnce.filter (fun x => x.1 != g.g) ++ [(g.g, times + 1)] })
      else s2.acceptLaunch g.lslot (9, core)

end Sys2Proof.Machine
end

