-- ==== Sys2Proof/Machine/Release.lean ====
section
/-! DEFINITION. The release of a region: its held effects in program order, what then follows for its crew, and the
requests and the end of a release point (R86, R94, R95, R100, R153 to R159, R164 to R166, R301, R373 to R380). -/

namespace Sys2Proof.Machine

/-- The launch slot behind a crew slot: its crew's, or that of the group that holds the slot when its crew has left. -/
def State.lslotBehind (s : State) (r : CrewRef) : Option Nat :=
  (s.lslotOf r).or (((s.groupsOf r.core).find? (fun g => g.crews.contains (r.sub, r.slot))).map (fun g => g.lslot))

/-- The oldest region of a crew may release in a cycle (R157): W cycles after the next head, no pending tag, and every load
of it that may yet bring a tag has returned. -/
def Crew.releasable (w : Crew) (now : Nat) : Bool :=
  match w.regions with
  | g :: _ =>
    (g.closed.map (fun h => decide (h + Config.window ≤ now))).getD false && g.tags.isEmpty &&
      !w.loads.any (fun q => q.region == g.id && q.tagged)
  | [] => false

/-- The request is incomplete at group scope while it is under way: a load or an atomic (R87, R92). -/
def Req.openAtGroup (q : Req) : Bool :=
  match q with
  | .read _ _ _ _ _ => true
  | .atomic _ _ _ _ _ => true
  | _ => false

/-- The requests that a write of lanes waits for: one that releases, the accesses of its threads that are not to unordered
pages and not complete at its scope (R92, R94, R100); its strongly ordered lanes, their strongly ordered accesses (R89). -/
def State.writeAfter (s : State) (r : CrewRef) (m strong : Mask) (rel : Option Nat) : List Nat :=
  (match rel with
   | some k => s.pendingTxs r m (fun t => t.ord != 2 && (k != 0 || t.req.openAtGroup))
   | none => []) ++ s.pendingTxs r strong (fun t => t.ord == 1)

/-- The page of the accesses of one instruction to a line: a strongly ordered one where a lane has one (R89). -/
def linePage (l : List Page) : Page := ((l.find? (fun p => p.ord == 1)).or l.head?).getD Page.window

/-- The cycles a releasing write waits for its crew's window changes (R373). -/
def State.windowDelay (s : State) (r : CrewRef) (rel : Option Nat) : Nat :=
  if rel.isNone then 0
  else (s.core r.core).windowChanges.foldl (fun m c => if c.crew == r then max m (c.due - s.cycle) else m) 0

/-- The requests of a crew to a line that have not left its core: a later write of the crew there comes after them (R82). -/
def State.heldBack (s : State) (r : CrewRef) (line : Loc) : List Nat :=
  (s.net.txs.filter (fun t => t.crew == some r && !t.out && t.req.lines.contains line)).map (fun t => t.id)

/-- The requests under way from a core to a line of its own scratchpad performed now, in their order: a store that is performed
as it is released (R86) comes after them (R82). -/
def State.settleOwn (s : State) (core : Nat) (line : Loc) : State :=
  (s.net.txs.filter (fun t => t.core == core && t.out && t.answer.isNone && t.home == .port core && t.req.lines.contains line)).foldl
    (fun (st : State) t =>
      let s1 := st.serveTx t
      match s1.tx t.id with
      | some u => if u.answer.isNone then s1.serveTx u else s1
      | none => s1) s

/-- The lanes that a store counts as a store of, among those of some of its writes (R181). -/
def StoreEff.lanesOf (e : StoreEff) (ws : List LaneWrite) : Mask :=
  Mask.ofFn (fun l => ws.any (fun x => x.lane == l) || (e.qnt && e.lanes.getLsbD l))

/-- The work reads bytes at a place of its core (R108, R109): a copy's sources, or a tile operation's scratchpad. -/
def EngWork.reads (w : EngWork) (p : Loc) (n : Nat) : Bool :=
  match w with
  | .copy runs _ => runs.any (fun x => Loc.overlaps x.src x.len p n)
  | .mul _ => true
  | .tload _ _ _ => true
  | _ => false

/-- A byte as an engine finds it at its home or on its way there from a core (R108). -/
def State.sentByte (s : State) (core : Nat) (p : Loc) : Byte := (s.goingByte core p).getD ((s.peek p 1).headD 0)

/-- A write of a group's thread, or of one of its landings, to a place that unsettled engine operations of the group read:
each of them may still read what it would have read before (R109, R347). mine tells that the write precedes an operation in
program order. -/
def State.race (s : State) (core gslot : Nat) (mine : EngOp → Bool) (p : Loc) (n : Nat) : State :=
  let ops := ((s.core core).engines.flatMap (fun e => e.ops)).filter (fun o =>
    o.gslot == gslot && !o.done && !o.dead && o.work.reads p n && !mine o)
  { s with net := { s.net with raced := s.net.raced ++ ops.flatMap (fun o => (upTo n).filterMap (fun k =>
      if o.work.reads (p.plus k) 1 && !s.net.raced.any (fun x => x.op == o.id && x.loc == p.plus k) then
        some ⟨core, gslot, o.id, p.plus k, s.sentByte core (p.plus k)⟩
      else none)) } }

/-- The writes of a crew's lanes as they are released (R109): those of the issuing thread that precede its command do not
race with it. -/
def State.raceLanes (s : State) (r : CrewRef) (l : List (Nat × Loc × Nat)) : State :=
  match s.gslotOf r with
  | some g => l.foldl (fun (st : State) x =>
      st.race r.core g (fun o => o.crew == r && o.lane == x.1 && !o.released) x.2.1 x.2.2) s
  | none => s

/-- One line of a released store (R82, R86, R95): the core's L1 copy, then the core's own port at once, or a request. now is
the state in which the store's region releases. -/
def State.releaseLine (s now : State) (r : CrewRef) (e : StoreEff) (line : Loc) : State :=
  let ws := e.writes.filter (fun x => x.loc.line == line)
  let page := linePage (ws.map (fun x => x.page))
  let m := e.lanesOf ws
  let strong := e.lanesOf (ws.filter (fun x => x.page.ord == 1))
  let after := now.writeAfter r m (if page.ord == 1 then strong else 0) e.rel ++ now.heldBack r line
  let h := s.homeOf line page.thg
  let w : WriteReq :=
    { crew := r, setter := e.setter, bytes := ws.map (fun x => (x.loc, x.bytes))
      descs := match e.desc with
        | some d => ws.map (fun x => (x.loc.block, d))
        | none => []
      rel := e.rel, stats := [], page := page }
  let s1 := ws.foldl (fun (st : State) x => st.l1Store r.core x.loc x.bytes)
    (s.raceLanes r (ws.map (fun x => (x.lane, x.loc, x.bytes.length))))
  let s2 := w.descs.foldl (fun (st : State) d => st.l1Desc r.core d.1 d.2) s1
  if h == .port r.core && after.isEmpty then
    let k := e.rel.getD 0
    let sig := if k == 0 then none else some ((s2.core r.core).acc.signature k)
    let s3 := if k == 0 then s2 else s2.modCore r.core (fun x => { x with acc := x.acc.clearScope k })
    (((s3.settleOwn r.core line).applyWrite h w sig).2.2).modCrew r (fun x => x.finish e.setter 1)
  else
    s2.request r m page line (.write w) after (s2.writeMoment r.core h + s2.windowDelay r e.rel) (s2.storeLatency r.core h)

/-- A released store: its lines, then its statistics (R143). -/
def State.releaseStore (s : State) (r : CrewRef) (e : StoreEff) : State :=
  ((linesOf e.writes).foldl (fun (st : State) line => st.releaseLine s r e line) s).addStatsOf r e.stats

/-- The lanes of an atomic that name a line. -/
def AtomEff.atLine (e : AtomEff) (line : Loc) : AtomEff :=
  { e with lanes := e.lanes.filter (fun x => x.loc.line == line) }

/-- The lines of an atomic. -/
def AtomEff.lines (e : AtomEff) : List Loc := (e.lanes.map (fun x => x.loc.line)).eraseDups

/-- The lanes of an atomic as a mask. -/
def AtomEff.mask (e : AtomEff) : Mask := Mask.ofFn (fun l => e.lanes.any (fun x => x.lane == l))

/-- An atomic sent to its homes, one request for each line, each with its identifier (R315, R318). -/
def State.sendAtom (s : State) (r : CrewRef) (e : AtomEff) (point : Bool) : State :=
  let extra := bankExtra (e.lanes.map (fun y => y.loc)) e.size
  e.lines.foldl (fun (st : State) line =>
    let x := e.atLine line
    let page := linePage (x.lanes.map (fun y => y.page))
    let strong : AtomEff := { x with lanes := x.lanes.filter (fun y => y.page.ord == 1) }
    let after := s.writeAfter r x.mask strong.mask e.scope ++ s.heldBack r line
    let h := st.homeOf line page.thg
    let trip := st.loadLatency r.core line h + extra
    let at_ := if point then st.readMoment r.core h trip else st.writeMoment r.core h
    let back := if point then trip - at_ else st.storeLatency r.core h
    let n := (st.core r.core).serial
    ((st.raceLanes r (x.lanes.map (fun y => (y.lane, y.loc, e.size)))).modCore r.core (fun k => { k with serial := (n + 1) % 2 ^ 16 })).request r x.mask page line
      (.atomic x r point (r.core, n) false) after (at_ + st.windowDelay r e.scope) back) s

/-- The group of a crew has released an atomic or a message (R433, R457). -/
def State.markAtomic (s : State) (r : CrewRef) : State :=
  match s.gslotOf r with
  | some g => s.modGroup r.core g (fun x => { x with atomic := true })
  | none => s

/-- The homes of a released SUBS.ON begin sequence 0 (R112, R374): each part's present contents, sent once the writes in
them have cleared. -/
def State.startParts (s : State) (core gslot : Nat) (x : Subscription) : State :=
  (upTo x.parts.length).foldl (fun (st : State) k =>
    match x.parts[k]? with
    | none => st
    | some p =>
      let u : Update :=
        { id := st.nextId, home := p.home, core := core, gslot := gslot, sub := x.id, part := k, seq := 0, detour := 0
          runs := p.lines.map (fun x => (x.1, st.peek (.mem x.1) 128)), cleared := true, sent := false
          due := st.cycle + 2 * Config.window + st.storeLatency core p.home, applied := false, nacked := false }
      let st1 := (st.fresh.2).modHome p.home (fun h =>
        { h with parts := h.parts ++
          [{ core := core, gslot := gslot, sub := x.id, part := k, lines := p.lines.map (fun x => x.1), next := 1, oldest := 0 }] })
      { st1 with net := { st1.net with updates := st1.net.updates ++ [u] } }) s

/-- A released SUBS.ON (R374). -/
def State.startSub (s : State) (core gslot id : Nat) : State :=
  match ((s.group core gslot).bind (fun g => g.subs.find? (fun x => x.id == id && !x.released))) with
  | some x =>
    (s.startParts core gslot x).modGroup core gslot (fun g =>
      { g with subs := g.subs.map (fun y => if y.id == id then { y with released := true } else y) })
  | none => s

/-- A released WOPEN on its way to the cluster's tables, which it reaches within 12 cycles (R373). -/
def State.sendWindow (s : State) (r : CrewRef) (op off : Nat) (grant : Word) (setter : Nat) : State :=
  match s.gslotOf r with
  | none => s
  | some g =>
    let peer := s.coreInCluster (s.clusterOf r.core) (grant.toNat % 4)
    let writer : Option (Nat × Nat) :=
      if op == 0 then none
      else if op == 1 then some (r.core, g)
      else peer.map (fun c => (c, bits grant.toNat 6 2))
    s.modCore r.core (fun k => { k with windowChanges := k.windowChanges ++
      [{ core := r.core, gslot := g, off := off, writer := writer, due := s.cycle + 12, crew := r, setter := setter, applied := none }] })

/-- The block that a crew slot gives up becomes free (R159, R190). -/
def Sub.freeBlock (b : Sub) (slot : Nat) : Sub :=
  let mine := fun (p : Block → Bool) => (upTo b.blocks.length).find? (fun k => match b.blocks[k]? with
    | some x => x.holder == some slot && p x
    | none => false)
  match (mine (fun x => x.freeing)).or (mine (fun _ => true)) with
  | some k => { b with blocks := modifyAt b.blocks k (fun x => { x with holder := none, freeing := false }) }
  | none => b

/-- A barrier update applied at the port (R327). -/
def State.applyArrival (s : State) (core gslot : Nat) (e : Effect) : State :=
  match e with
  | .bara off count _ => s.updateObj core gslot off (fun o => o.arrive count)
  | .barx off bytes _ => s.updateObj core gslot off (fun o => o.expectBytes bytes)
  | _ => s

/-- A released arrival of lanes counts once the accesses of its threads before it have completed at group scope (R111). -/
def State.arrive (s : State) (r : CrewRef) (gslot : Nat) (e : Effect) (m : Mask) : State :=
  let after := s.pendingTxs r m (fun t => t.ord != 2 && t.req.openAtGroup)
  if after.isEmpty then s.applyArrival r.core gslot e
  else s.modCore r.core (fun k => { k with arrivals := k.arrivals ++ [{ crew := r, gslot := gslot, effect := e, after := after }] })

/-- The crew index of an arrival's crew within its group (R12, R327). -/
def State.arrivalIndex (s : State) (a : Arrival) : Nat :=
  ((s.group a.crew.core a.gslot).bind (fun g => g.crews.findIdx? (fun x => x == (a.crew.sub, a.crew.slot)))).getD 32

/-- The arrivals of a core whose accesses have completed are applied, in ascending crew index (R111, R327). -/
def State.settleArrivals (s : State) (core : Nat) : State :=
  let due := fun (a : Arrival) => a.after.all (fun i => (s.tx i).isNone)
  let l := (s.core core).arrivals
  if l.any due then
    (((l.filter due).mergeSort (fun a b => decide (s.arrivalIndex a ≤ s.arrivalIndex b))).foldl
      (fun (st : State) a => st.applyArrival core a.gslot a.effect)
      (s.modCore core (fun k => { k with arrivals := k.arrivals.filter (fun a => !due a) })))
  else s

/-- One held effect takes place (R86, R157). -/
def State.takeEffect (s : State) (r : CrewRef) (e : Effect) : State :=
  let g := (s.gslotOf r).getD 32
  match e with
  | .store x => s.releaseStore r x
  | .atomn x => (s.sendAtom r x false).markAtomic r
  | .bari off expect wclass => s.bindObj r.core g off expect wclass
  | .bara _ _ m => s.arrive r g e m
  | .barx _ _ m => s.arrive r g e m
  | .wopen op off grant setter => s.sendWindow r op off grant setter
  | .subsOn i => s.startSub r.core g i
  | .subsOff i setter => (s.dropSubs r.core g (fun x => x == i)).modCrew r (fun w => w.finish setter 1)
  | .circRel id setter =>
    (s.dropCircuits r.core (fun c => c.id == id)).modCrew r (fun w => w.finish setter 1)
  | .engine unit op => s.modCore r.core (fun k =>
      { k with engines := modifyAt k.engines unit (fun u =>
          { u with ops := u.ops.map (fun o => if o.id == op then { o with released := true } else o) }) })
  | .freeBlock => s.modSub r.core r.sub (fun b => b.freeBlock r.slot)

/-! ### Release points -/

/-- The header with a word of HSCR written (R301). -/
def SideBuffer.setHeader (b : SideBuffer) (i : Nat) (v : Word) : SideBuffer :=
  if 16 ≤ i / 4 then { b with hscr := modifyAt b.hscr (i / 4 - 16) (fun _ => v) } else b

/-- A SYS.W performed (R301): HSCR from the lowest lane, each lane's record from its lane, TERM. -/
def State.sysWrite (s : State) (r : CrewRef) (m : Mask) (space index : Nat) (v : Content) : State :=
  match space with
  | 0 => s.modKeep r (fun k => { k with side := k.side.setHeader index (lane v (Mask.lowest m)) })
  | 1 => s.modKeep r (fun k => { k with side := { k.side with
      lanes := (upTo 32).map (fun l =>
        let x := k.side.lanes.getD l .zero
        if m.getLsbD l then x.setWord index (lane v l) else x) } })
  | _ => s.modCrew r (fun w => w.die (w.handling.getD 0))

/-- The span of a release point is released at once as its head H2 retires (R165): only the region that H2 opens is
left. The issue group has retired its instruction, but for the lanes of a mask, which fail at it. -/
def State.endPoint (s : State) (r : CrewRef) (p : Point) (failed : Mask := 0) : State :=
  let s1 := s.modSub r.core r.sub (fun b => (({ b with loser := none } : Sub).count 8))
  let s2 := s1.modCrew r (fun w =>
    let w1 := { w.modLanes p.issue (fun l t => { t with pc := if failed.getLsbD l then p.pc else p.next, run := .ready }) with
      point := none, lastIssue := s.cycle, resumeAt := max w.resumeAt (s.cycle + 1) }
    (w1.turned p.issue false).finish p.setter 1)
  ((s2.head r).modCrew r (fun w => { w with regions := w.regions.drop (w.regions.length - 1) })).modSub r.core r.sub
    Sub.purge

/-- The 128-byte write of a CIRC.SEND (R379, R386): the payload of its lanes. -/
def State.sendCircuit (s : State) (r : CrewRef) (p : Point) (m : MessageReq) : State :=
  let dest := (m.addr - Config.vaultBase) / Config.vaultSpan
  let home := HomeId.vault dest
  let bytes := (upTo 32).filterMap (fun i =>
    if p.lanes.getLsbD i then some (Loc.mem (m.addr + 4 * i), toBytes 4 (m.payload.getD i 0).toNat) else none)
  let fast := (s.core r.core).circuits.any (fun c => c.id == m.index && c.reserved)
  let w : WriteReq := { crew := r, setter := 0, bytes := bytes, descs := [], rel := none, stats := [], circuit := fast }
  let s0 := bytes.foldl (fun (st : State) b => st.l1Store r.core b.1 b.2)
    (s.raceLanes r (bytes.map (fun b => (32, b.1, b.2.length))))
  let s1 := s0.modCore r.core (fun k =>
    { k with circuits := k.circuits.map (fun c =>
        if c.id == m.index then { c with left := c.left - 1, lastUse := s.cycle, reserved := c.reserved && c.left != 1 } else c) })
  let s2 := { s1 with net := { s1.net with circuits := s1.net.circuits.filter (fun x =>
      !(x.2.1 == r.core && x.2.2 == m.index && (s1.core r.core).circuits.any (fun c => c.id == m.index && !c.reserved))) } }
  let s3 := s2.modCore r.core (fun k => { k with circuits := k.circuits.filter (fun c => c.left != 0) })
  let way := hops (s.routerOf r.core) (s.homeRouter home)
  let wait := (if fast then 12 + way else 8 + 3 * way) +
    (s.net.txs.foldl (fun n t => match t.req with
      | .write x => if t.core == r.core && t.home == home && x.setter == 0 && t.answer.isNone then
          max n (t.serveAt - s.cycle) else n
      | _ => n) 0)
  (s3.request r p.lanes Page.window (.mem m.addr) (.write w) [] wait (s.storeLatency r.core home)).markAtomic r

/-- A destination core lies in the partition of a crew's context and works (R376, R378, R413). -/
def State.inPartition (s : State) (ctx core : Nat) : Bool :=
  s.coreWorks core && (match tfind s.sched.parts (s.context ctx).part with
    | some p => p.cores.getLsbD core
    | none => false)

/-- The owner of the circuits that a crew sets up (R378). -/
def State.circuitOwner (s : State) (r : CrewRef) : CircuitOwner :=
  match s.gslotOf r with
  | some g => .group g
  | none => .handler r

/-- A CIRC.SETUP reserves its circuit: the lowest id the core does not hold, a slot of an output of every router on the route,
at most 2 for each (R378, R471). -/
def State.reserveCircuit (s : State) (r : CrewRef) (m : MessageReq) : Option Nat × State :=
  let outs := circuitOutputs (s.routerOf r.core) (s.routerOf m.dest)
  let full := outs.any (fun o => 2 ≤ (s.net.circuits.filter (fun x => x.1 == o)).length)
  match (upTo 4).find? (fun i => !(s.core r.core).circuits.any (fun c => c.id == i)) with
  | some i =>
    if full || !s.inPartition (s.ctxOf r) m.dest then (none, s)
    else
      let s1 := s.modCore r.core (fun k => { k with circuits := k.circuits ++
        [{ id := i, owner := s.circuitOwner r, dest := m.dest, left := m.index, reserved := true, lastUse := s.cycle }] })
      (some i, { s1 with net := { s1.net with circuits := s1.net.circuits ++ outs.map (fun o => (o, r.core, i)) } })
  | none => (none, s)

/-- The request of a release point leaves its crew (R165, R376 to R379). A SYS.W and a CIRC.SEND wait for no answer. -/
def State.sendPoint (s : State) (r : CrewRef) (p : Point) : State :=
  let sent := fun (st : State) => st.modCrew r (fun w => { w with point := some { p with sent := true } })
  let ask := fun (m : MessageReq) (req : Req) (after : List Nat) =>
    let h := HomeId.port m.dest
    let d := s.storeLatency r.core h
    let f := s.fresh
    f.2.send
      { id := f.1, core := r.core, crew := some r, lslot := s.lslotOf r, lanes := p.lanes, ord := 0, page := .plain, home := h
        req := req, sent := s.cycle, serveAt := s.cycle + d, dueAt := s.cycle + 2 * d, after := after, out := false, sig := none
        resends := 0, lost := false, lows := none, answer := none, tag := none }
  match p.kind with
  | .atom e _ _ => sent ((s.sendAtom r e true).markAtomic r)
  | .amsg m =>
    let after := s.pendingTxs r p.lanes (fun t => match t.req with
      | .read _ _ _ _ _ => false
      | _ => true)
    sent ((ask m (.message m r ((s.lslotOf r).getD 0) m.index) after).markAtomic r)
  | .circSetup m _ =>
    let q := s.reserveCircuit r m
    let h := HomeId.port m.dest
    let f := q.2.fresh
    let x : Tx :=
      { id := f.1, core := r.core, crew := some r, lslot := s.lslotOf r, lanes := p.lanes, ord := 0, page := .plain, home := h
        req := .setup m r, sent := s.cycle, serveAt := s.cycle, dueAt := s.cycle + 2 * s.storeLatency r.core h, after := []
        out := true, sig := none, resends := 0, lost := false, lows := none, answer := some (.circuit q.1), tag := none }
    let a := if q.1.isSome then f.2.respond h { Response.for_ r.core x.dueAt .none with tx := some x } else (none, f.2)
    sent (a.2.send { x with tag := a.1 })
  | .circSend m => (s.sendCircuit r p m).endPoint r p
  | .sysWrite space index v => (s.sysWrite r p.lanes space index v).endPoint r p

/-- The release point of a crew sends its request once every region before its head H1 has released (R165). -/
def State.tryPoint (s : State) (r : CrewRef) : State :=
  match (s.crew r).point with
  | some p => if !p.sent && (s.crew r).regions.length == 1 then s.sendPoint r p else s
  | none => s

/-! ### Region release -/

/-- A crew whose last region has released: a group's crew counts as completed (R21, R159); a handler crew is idle (R39,
R380). -/
def State.crewCompletes (s : State) (r : CrewRef) (o : Owner) : State :=
  match o.gslot with
  | some g => (s.leaveSlot r).modGroup r.core g (fun x => { x with completed := x.completed + 1 })
  | none =>
    (((s.dropCircuits r.core (fun c => c.owner == .handler r)).leaveSlot r).endHandlers r.core o.lslot).tryDone o.lslot

/-- A crew's oldest region releases: its effects in program order, its statistics, its entries and credits; then its
crew's end, or the request of its release point (R156, R157, R159, R165, R196). -/
def State.releaseRegion (s : State) (r : CrewRef) (g : Region) : State :=
  let s1 := (g.effects.foldl (fun (st : State) e => st.takeEffect r e) s).addStatsOf r g.stats
  let s2 := (s1.modCrew r (fun w => { w with regions := w.regions.filter (fun x => x.id != g.id) })).modSub r.core r.sub
    Sub.purge
  let s3 := s2.freeHeld r g.id
  match (s3.crew r).owner with
  | some o => if g.last then s3.crewCompletes r o else s3.tryPoint r
  | none => s3

/-- REGION_RELEASE of the crew that State.sel names (R157). -/
def execRegionRelease (s : State) : Host.Outcome State Fault Refusal :=
  let r : CrewRef := ⟨s.sel.a, s.sel.b, s.sel.c⟩
  let w := s.crew r
  match w.regions with
  | g :: _ => if w.owner.isSome && w.releasable s.cycle then .next (s.releaseRegion r g) else .next s
  | [] => .next s

/-! ### The answer of a release point -/

/-- The transactions of a crew's release point. -/
def State.pointTxs (s : State) (r : CrewRef) : List Tx :=
  s.net.txs.filter (fun t => t.crew == some r && (match t.req with
    | .atomic _ _ point _ _ => point
    | .message _ _ _ _ => true
    | .setup _ _ => true
    | _ => false))

/-- Every answer of a release point has returned, by the torus too, and been cleared (R165). -/
def State.pointReady (s : State) (r : CrewRef) : Bool :=
  match (s.crew r).point with
  | some p => p.sent && (s.pointTxs r).all (fun t =>
      t.answer.isSome && decide (t.dueAt ≤ s.cycle) && t.tag.isNone && !s.travels t true)
  | none => false

/-- The old values that a release point's answers hold, by lane. -/
def oldValues (txs : List Tx) : List (Nat × Nat) :=
  txs.flatMap (fun t => match t.answer with
    | some (.olds v _ _ _) => v
    | _ => [])

/-- The lanes whose atomic is uncertain, with the cause (R320). -/
def uncertainLanes (txs : List Tx) : List (Nat × Nat) :=
  txs.flatMap (fun t => match t.answer with
    | some .unknown => t.lanes.lanes.map (fun l => (l, 1))
    | some .failed => t.lanes.lanes.map (fun l => (l, 2))
    | _ => [])

/-- The lanes of an atomic whose data failed, with the DATAERR code (R71, R76). -/
def damagedLanes (txs : List Tx) : List (Nat × Nat) :=
  txs.flatMap (fun t => match t.answer with
    | some (.olds _ _ _ bad) => bad
    | _ => [])

/-- The old value of a lane as the register k of the destination takes it. -/
def oldWord (vals : List (Nat × Nat)) (k l : Nat) : Word :=
  BitVec.ofNat 32 (((vals.find? (fun x => x.1 == l)).map (fun x => x.2 / 2 ^ (32 * k))).getD 0)

/-- An answered atomic's destination, signature and counts (R97, R100, R142, R315). -/
def State.pointAtom (s : State) (r : CrewRef) (p : Point) (e : AtomEff) (d : Nat) (txs : List Tx) :
    State :=
  let vals := oldValues txs
  let done := p.lanes &&& Mask.ofFn (fun l => vals.any (fun x => x.1 == l))
  let s1 := txs.foldl (fun (st : State) t => match t.answer, t.req with
    | some (.olds _ sig stats _), .atomic x _ _ _ _ =>
      let st1 := ((x.lanes.head?).map (fun y => st.acked r.core y.loc.line)).getD st
      let st2 := st1.addStatsOf r stats
      (match sig with
       | some g => st2.acquire r.core g
       | none => st2)
    | _, _ => st) s
  (groupRegs d (if e.size == 8 then 2 else 1)).foldl (fun (st : State) k =>
    st.writeReg r k done (contentOf (fun l => oldWord vals (k - d) l)) (p.taint &&& done)) s1

/-- The lanes of a release point fail as it completes: the trap is raised at its PC (R320, R376). The head H2 lies after the
instruction, so a restart to it raises the trap again (R176). The lanes of a mask stay at the instruction (DEDUCED, log 39). -/
def State.pointFails (s : State) (r : CrewRef) (p : Point) (stay : Mask) (fs : List LaneTrap) : State :=
  let i : Issue := { core := r.core, sub := r.sub, slot := r.slot, part := p.issue, pc := p.pc, len := p.ilen, word := p.iword }
  let x := trapOf i fs false 0
  ((s.endPoint r p stay).modCrew r (fun w =>
    w.modRegion (fun g => { g with snapshot := { g.snapshot with entry := some x } }))).raiseTrap r x

/-- The address of an uncertain lane's access (R298). -/
def AtomEff.vaOf (e : AtomEff) (l : Nat) : Addr := ((e.lanes.find? (fun x => x.lane == l)).map (fun x => x.va)).getD 0

/-- A returning release point with all its answers (R165, R315, R320, R376, R378). -/
def State.finishPoint (s : State) (r : CrewRef) (p : Point) : State :=
  let txs := s.pointTxs r
  let s0 := txs.foldl (fun (st : State) t => st.dropTx t.id) s
  match p.kind with
  | .atom e d _ =>
    let s1 := s0.pointAtom r p e d txs
    let fs := (uncertainLanes txs).map (fun x => (⟨x.1, 7, x.2, e.vaOf x.1, 0⟩ : LaneTrap)) ++
      (damagedLanes txs).map (fun x => (⟨x.1, 6, x.2, e.vaOf x.1, 0⟩ : LaneTrap))
    if fs.isEmpty then s1.endPoint r p
    else s1.pointFails r p (Mask.ofFn (fun l => fs.any (fun x => x.lane == l))) fs
  | .amsg _ =>
    if txs.all (fun t => t.answer == some (.accepted true)) then s0.endPoint r p
    else s0.pointFails r p p.issue (p.lanes.lanes.map (fun l => ⟨l, 11, 7, 0, 0⟩))
  | .circSetup _ d =>
    let id := (txs.head?).bind (fun t => match t.answer with
      | some (.circuit x) => x
      | _ => none)
    let v : Word := (id.map (fun n => BitVec.ofNat 32 n)).getD 0xFFFFFFFF#32
    (s0.writeDst r d p.lanes (sameWord v) p.taint).endPoint r p
  | _ => s0.endPoint r p

/-- RELEASE_POINT_COMPLETE of the crew that State.sel names (R165). -/
def execReleasePointComplete (s : State) : Host.Outcome State Fault Refusal :=
  let r : CrewRef := ⟨s.sel.a, s.sel.b, s.sel.c⟩
  match (s.crew r).point with
  | some p => if s.pointReady r then .next (((s.finishPoint r p).sendWaiting).settleArrivals r.core) else .next s
  | none => .next s

/-- A context ends once the region that the trap-entry head closed has released (R176, R303). -/
def Crew.dead (w : Crew) : Bool := w.dying.isSome && !w.regions.any (fun g => g.id == w.entryClosed)

/-- CONTEXT_TERMINATE by the crew that State.sel names (R303). -/
def execContextTerminate (s : State) : Host.Outcome State Fault Refusal :=
  let r : CrewRef := ⟨s.sel.a, s.sel.b, s.sel.c⟩
  let w := s.crew r
  match w.dying, w.owner with
  | some cls, some o =>
    if w.dead then
      .next ((s.terminateContext o.ctx (some o.lslot) cls).modCrew r (fun w => { w with dying := none, stopped := true }))
    else .next s
  | _, _ => .next s

end Sys2Proof.Machine
end

