-- ==== Sys2Proof/Machine/HomeSteps.lean ====
section
/-! DEFINITION. The steps of homes and of the requests under way to them: serving, clears, acknowledgements, resends,
messages; and the timed steps of a core's L1, accumulators, blocks and asynchronous causes (R39, R81 to R85, R94 to
R106, R171 to R174, R190, R304, R315 to R321, R332, R333, R376, R377, R474, R475). -/

namespace Sys2Proof.Machine

/-! ### Serving -/

/-- An atomic request. -/
def Req.isAtomic (q : Req) : Bool :=
  match q with
  | .atomic _ _ _ _ _ => true
  | _ => false

/-- The place a request is for. -/
def Req.place (q : Req) : Option Loc :=
  match q with
  | .read p _ _ _ _ => some p
  | .write w => (w.bytes.head?).map (fun b => b.1)
  | .atomic e _ _ _ _ => (e.lanes.head?).map (fun x => x.loc)
  | _ => none

/-- A vault's request waits for the refresh slot, a transfer or the opening of its row (R64, R367, R371). -/
def State.placeBusy (s : State) (t : Tx) : Bool :=
  match t.req.place with
  | some (.mem a) => s.vaultBusy a
  | _ => false

/-- The inputs of a home's port: a slice has five, a scratchpad port five requesters, a vault controller one (R390, R392). -/
def homeInputs (h : HomeId) : Nat :=
  match h with
  | .slice _ => 5
  | .port _ => 5
  | _ => 1

/-- The input of its home that a request comes to: at a slice the torus direction of its last hop, or the local port; at a
scratchpad port its sub-core, or requester 4, the engines', for other cores, which the manual does not place (R390, R392, log 6). -/
def State.inputOf (s : State) (t : Tx) : Nat :=
  match t.home with
  | .slice _ => (((routeOutputs (s.routerOf t.core) (s.homeRouter t.home)).getLast?).map (fun o => 1 + o % 4)).getD 0
  | .port c => if t.core == c then (t.crew.map (fun r => r.sub)).getD 4 else 4
  | _ => 0

/-- Two requests come from one source to one destination in one class, so that the earlier sent arrives first (R470). In a
core's own port each sub-core is a source (R390). -/
def State.sameEnds (s : State) (t u : Tx) : Bool :=
  u.core == t.core && u.home == t.home && u.req.isMessage == t.req.isMessage &&
    (t.home != .port t.core || s.inputOf u == s.inputOf t)

/-- A request was sent before another. -/
def Tx.sentBefore (u t : Tx) : Bool := u.sent < t.sent || (u.sent == t.sent && u.id < t.id)

/-- A request stands at its home: it has left its core, crossed the torus and arrived behind no earlier one between its ends
(R470). -/
def State.atHome (s : State) (t : Tx) : Bool :=
  t.out && t.answer.isNone && !t.lost && decide (t.serveAt ≤ s.cycle) && !s.travels t false &&
    !s.net.txs.any (fun u => u.out && u.answer.isNone && !u.lost && u.sentBefore t && s.sameEnds t u)

/-- The requests of one instruction of a crew at one scratchpad port, which it serves together (R390). -/
def State.together (s : State) (t : Tx) : List Tx :=
  match t.home with
  | .port _ => s.net.txs.filter (fun u => u.core == t.core && u.home == t.home && u.crew == t.crew &&
      u.req.setter == t.req.setter && u.req.isMessage == t.req.isMessage && u.out && u.answer.isNone && !u.lost)
  | _ => [t]

/-- A home that the requests of lines come to through inputs. -/
def homeHasPort (h : HomeId) : Bool :=
  match h with
  | .slice _ => true
  | .vault _ => true
  | .port _ => true
  | _ => false

/-- The requests that wait at a home's port. -/
def State.queuedAt (s : State) (h : HomeId) : List Tx := s.net.txs.filter (fun t => t.home == h && !t.req.isMessage && s.atHome t)

/-- A request came to its home before another. -/
def Tx.cameBefore (u t : Tx) : Bool := u.serveAt < t.serveAt || (u.serveAt == t.serveAt && u.id < t.id)

/-- The home's port is granted to a request: it is free, the request is the first of its input, and its input is the first
with a request in round-robin order (R61, R390, R392). -/
def State.granted (s : State) (t : Tx) : Bool :=
  let h := s.home t.home
  let l := s.queuedAt t.home
  let n := homeInputs t.home
  let place := fun (u : Tx) => (s.inputOf u + n - h.turn % n) % n
  decide (h.freeAt ≤ s.cycle) &&
    !l.any (fun u => decide (place u < place t) || (s.inputOf u == s.inputOf t && u.cameBefore t))

/-- The home takes a request in this cycle: it stands there with those of its instruction, the port is granted to it, its bank
is free (R64, R367, R371), and the home is not held by a reset (R477). -/
def State.servable (s : State) (t : Tx) : Bool :=
  s.atHome t && decide ((s.home t.home).heldUntil ≤ s.cycle) &&
    (!homeHasPort t.home || t.req.isMessage || (s.granted t && !s.placeBusy t && (s.together t).all (fun u => decide (u.serveAt ≤ s.cycle))))

/-- The places that a request's lanes name, each with its size. -/
def Req.places (q : Req) : List (Loc × Nat) :=
  match q with
  | .read p _ _ _ _ => [(p.line, 4)]
  | .write w => w.bytes.map (fun b => (b.1, b.2.length))
  | .atomic e _ _ _ _ => e.lanes.map (fun x => (x.loc, e.size))
  | _ => []

/-- The places that a load of a crew reads in a line, or else those of the request. -/
def State.placesOf (s : State) (t : Tx) : List (Loc × Nat) :=
  match t.req with
  | .read p (.load r n) _ _ _ =>
    (match (s.crew r).loads.find? (fun q => q.setter == n) with
     | some q => (q.reads.filter (fun x => x.loc.line == p)).map (fun x => (x.loc, q.size))
     | none => t.req.places)
  | q => q.places

/-- The cycles for which an access instruction holds its scratchpad port: the most distinct words in a bank (R390); another
home's port is held for one. -/
def State.portCycles (s : State) (t : Tx) : Nat :=
  match t.home with
  | .port _ =>
    let l := (s.together t).flatMap s.placesOf
    1 + (l.map (fun x => x.2)).eraseDups.foldl (fun m n => max m (bankExtra ((l.filter (fun x => x.2 == n)).map (fun x => x.1)) n)) 0
  | _ => 1

/-- A home's port serves a request, with the others of its instruction at a scratchpad port, and turns to the next input
(R390, R392). -/
def State.servePort (s : State) (t : Tx) : State :=
  let s1 := (s.together t).foldl (fun (st : State) u => ((st.tx u.id).map st.serveTx).getD st) s
  if homeHasPort t.home then
    s1.modHome t.home (fun h => { h with freeAt := s.cycle + s.portCycles t, turn := (s.inputOf t + 1) % homeInputs t.home })
  else s1

/-- HOME_SERVE_READ of the transaction that State.sel names (R81). -/
def execHomeServeRead (s : State) : Host.Outcome State Fault Refusal :=
  match s.tx s.sel.a with
  | some t =>
    (match t.req with
     | .read _ _ _ _ _ => if s.servable t then .next (s.servePort t) else .next s
     | _ => .next s)
  | none => .next s

/-- HOME_PERFORM_WRITE of the transaction that State.sel names (R82). -/
def execHomePerformWrite (s : State) : Host.Outcome State Fault Refusal :=
  match s.tx s.sel.a with
  | some t =>
    (match t.req with
     | .write _ => if s.servable t then .next (s.servePort t) else .next s
     | _ => .next s)
  | none => .next s

/-- HOME_PERFORM_ATOMIC of the transaction that State.sel names (R315). -/
def execHomePerformAtomic (s : State) : Host.Outcome State Fault Refusal :=
  match s.tx s.sel.a with
  | some t =>
    (match t.req with
     | .atomic _ _ _ _ _ => if s.servable t then .next (s.servePort t) else .next s
     | _ => .next s)
  | none => .next s

/-! ### Messages -/

/-- A destination takes a message or refuses it; none while its queue is full (R38, R376). -/
def State.acceptMessage (s : State) (t : Tx) (m : MessageReq) (crew : CrewRef) (lslot handler : Nat) : Option State :=
  let dest := s.core m.dest
  let ctx := ((s.launch? lslot).map (fun l => l.ctx)).getD 0
  let due := t.answerAt s.cycle
  let answer := fun (st : State) (ok : Bool) =>
    let q := if ok then st.respond t.home { Response.for_ t.core due .none with tx := some t } else (none, st)
    q.2.answerTx t (.accepted ok) (fun x => { x with tag := q.1, dueAt := due })
  if !s.inPartition ctx m.dest || !dest.handlers.any (fun h => h.lslot == lslot) then some (answer s false)
  else if 64 ≤ dest.inbound.length then none
  else
    let n := ((dest.handlers.find? (fun h => h.lslot == lslot)).map (fun h => h.accepted)).getD 0
    let e : Message :=
      { lslot := lslot, src := crew.core, handler := handler, seq := n, payload := m.payload, sig := t.sig.getD .invalidateAll }
    let s1 := s.modCore m.dest (fun k => { k with
      inbound := k.inbound ++ [e]
      handlers := k.handlers.map (fun h => if h.lslot == lslot then { h with accepted := (n + 1) % 2 ^ 32 } else h) })
    some (answer s1 true)

/-- AMSG_ACCEPT of the transaction that State.sel names (R376). -/
def execAmsgAccept (s : State) : Host.Outcome State Fault Refusal :=
  match s.tx s.sel.a with
  | some t =>
    (match t.req with
     | .message m crew lslot handler =>
       if s.servable t then .next ((s.acceptMessage t m crew lslot handler).getD s) else .next s
     | _ => .next s)
  | none => .next s

/-- The first inbound entry of a core whose launch has an idle handler crew, with that crew's slot and index (R39). -/
def State.nextHandler (s : State) (core : Nat) : Option (Nat × Message × CrewRef × Nat) :=
  let k := s.core core
  let try_ := fun (i : Nat) => match k.inbound[i]? with
    | some m => match k.handlers.find? (fun h => h.lslot == m.lslot) with
      | some h =>
        if (k.inbound.take i).any (fun x => x.lslot == m.lslot) then none
        else ((upTo h.crews.length).find? (fun j => match h.crews[j]? with
          | some c => (s.crew ⟨core, c.1, c.2⟩).owner.isNone
          | none => false)).bind (fun j => (h.crews[j]?).map (fun c => (i, m, ⟨core, c.1, c.2⟩, j)))
      | none => none
    | none => none
  (upTo k.inbound.length).findSome? try_

/-- A handler crew starts on an entry: its signature is applied to L1 first (R39, R377); a handler index that HVALID does
not hold raises ILLEGAL at the entry PC. -/
def State.startEntry (s : State) (core : Nat) (q : Nat × Message × CrewRef × Nat) : State :=
  let m := q.2.1
  match s.launch? m.lslot with
  | none => s.modCore core (fun k => { k with inbound := k.inbound.eraseIdx q.1 })
  | some l =>
    let s1 := (s.modCore core (fun k => { k with inbound := k.inbound.eraseIdx q.1 })).acquire core m.sig
    let s2 := s1.startHandler l q.2.2.1 { ctx := l.ctx, lslot := m.lslot, gslot := none, index := q.2.2.2 } m
    if bit l.header.hvalid m.handler then s2
    else
      let i : Issue := { core := core, sub := q.2.2.1.sub, slot := q.2.2.1.slot, part := BitVec.allOnes 32,
                         pc := l.imageAt (l.header.handlers.getD m.handler 0), len := 0, word := 0 }
      s2.raiseTrap q.2.2.1 (trapOf i (sameCause (BitVec.allOnes 32) (0, 9)) false 0)

/-- A pre-emption drains the handler crews of a launch on a core (R443). -/
def State.drainsHandlers (s : State) (core l : Nat) : Bool :=
  s.sched.dies.any (fun d => (d.2.preempt.map (fun j => j.handlers.contains (core, l))).getD false)

/-- A handler crew may start on a core that is not fenced and not draining its launch. -/
def State.handlerDue (s : State) (core : Nat) : Option (Nat × Message × CrewRef × Nat) :=
  if (s.core core).inbound.isEmpty || (s.core core).fenced || s.sched.quiesce.stage != .none then none
  else (s.nextHandler core).filter (fun q => match s.launch? q.2.1.lslot with
    | some l => (l.status.isNone || l.status == some (1, 0)) && !s.drainsHandlers core q.2.1.lslot
    | none => true)

/-- HANDLER_CREW_START on the core that State.sel names (R39). -/
def execHandlerCrewStart (s : State) : Host.Outcome State Fault Refusal :=
  match s.handlerDue s.sel.a with
  | some q => .next (s.startEntry s.sel.a q)
  | none => .next s

/-! ### Clears -/

/-- The home that a step's selector names. -/
def homeOfSel (n : Nat) : HomeId :=
  match n % 4 with
  | 0 => .slice (n / 4)
  | 1 => .vault (n / 4)
  | 2 => .port (n / 4)
  | _ => .stack (n / 4)

/-- The selector of a home. -/
def selOfHome (h : HomeId) : Nat :=
  match h with
  | .slice n => 4 * n
  | .vault n => 4 * n + 1
  | .port n => 4 * n + 2
  | .stack n => 4 * n + 3
  | .outside n => 4 * n

/-- The cycle from which a home may send the clear of a response: W cycles after it served the request (R171). -/
def Response.clearAt (x : Response) : Nat := x.served + Config.window

/-- A home may send the clear of a response now: what the response rests on has been cleared (R171, R174). -/
def Response.clearDue (x : Response) (now : Nat) : Bool := x.fill.isNone && decide (x.clearAt ≤ now)

/-- The answers to outside parties that a cleared response held back leave (R175). -/
def State.sendReply (s : State) (q : Option HeldReply) : State :=
  match q with
  | some r => { s with hostOut := s.hostOut ++ [{ party := r.party, data := r.data, ok := true }] }
  | none => s

/-- CLEAR_SEND of the home that State.sel names: its oldest response's undo record ends, and so do the hold on the
subscription updates it made and on an answer that leaves the package (R112, R171, R172, R175). The clear takes the
response's way. -/
def execClearSend (s : State) : Host.Outcome State Fault Refusal :=
  let h := homeOfSel s.sel.a
  match (s.home h).responses with
  | x :: rest =>
    if x.clearDue s.cycle then
      let s1 := s.modHome h (fun y => { y with responses := rest })
      let s2 : State := { s1 with net := { s1.net with
        updates := s1.net.updates.map (fun u => if x.updates.contains u.id then { u with cleared := true } else u)
        clears := if x.tagged then s1.net.clears ++
          [{ core := x.core, tag := ⟨s.cellOf h, x.serial⟩, due := s.cycle + (x.due - x.served) }]
          else s1.net.clears } }
      .next (s2.sendReply x.reply)
    else .next s
  | [] => .next s

/-- A clear covers a tag: the same cell, and a serial no greater modulo 2^20 (R171). -/
def Tag.clearedBy (t c : Tag) : Bool :=
  t.cell == c.cell && (c.serial + 2 ^ 20 - t.serial) % 2 ^ 20 < 2 ^ 19

/-- Every tag that a clear covers is cleared at a core: of its crews' regions, requests, L1 lines and staged units (R171,
R173). -/
def State.clearTags (s : State) (core : Nat) (c : Tag) : State :=
  let keep := fun (t : Tag) => !(t.clearedBy c)
  let clearCrew := fun (w : Crew) => { w with regions := w.regions.map (fun g => { g with tags := g.tags.filter keep }) }
  let s1 := s.modCore core (fun k => { k with
    subs := k.subs.map (fun b => { b with crews := b.crews.map clearCrew })
    l1 := k.l1.map (fun x => { x with tag := x.tag.filter keep })
    engines := k.engines.map (fun e => { e with ops := e.ops.map (fun o =>
      { o with staged := o.staged.map (fun u => { u with tags := u.tags.filter keep }) }) }) })
  { s1 with net := { s1.net with txs := s1.net.txs.map (fun t =>
      if t.core == core then { t with tag := t.tag.filter keep } else t) } }

/-- A slice's line once the write-back it waits for has cleared: one that is leaving goes, or is written back again when it has
become dirty since (R174). -/
def State.lineBacked (s : State) (slice : Nat) (x : L2Line) : State :=
  if !x.leaving then s.modLine slice x.line (fun y => { y with back := none })
  else if x.dirty then s.l2WriteBack slice x.line true
  else s.l2Drop slice x.line

/-- Every tag of a stack controller that a clear covers is cleared at a slice: of its lines and of its own responses (R174). -/
def State.clearSlice (s : State) (slice : Nat) (c : Tag) : State :=
  let hit := fun (t : Option Tag) => (t.map (fun x => x.clearedBy c)).getD false
  let s1 := s.modHome (.slice slice) (fun h => { h with
    lines := h.lines.map (fun x => if hit x.fill then { x with fill := none } else x)
    responses := h.responses.map (fun x => if hit x.fill then { x with fill := none } else x) })
  ((s1.home (.slice slice)).lines.filter (fun x => hit x.back)).foldl (fun st x => st.lineBacked slice x) s1

/-- The first notice for a core that has arrived. -/
def arrived (l : List Notice) (core now : Nat) : Option Notice := l.find? (fun n => n.core == core && decide (n.due ≤ now))

/-- CLEAR_RECEIVE at the requester that State.sel names, a core or 1024 + n for slice n (R171). -/
def execClearReceive (s : State) : Host.Outcome State Fault Refusal :=
  match arrived s.net.clears s.sel.a s.cycle with
  | some n =>
    let s1 : State := { s with net := { s.net with clears := s.net.clears.erase n } }
    .next (if 1024 ≤ n.core then s1.clearSlice (n.core - 1024) n.tag else s1.clearTags n.core n.tag)
  | none => .next s

/-! ### Answers -/

/-- An answer has returned to its requester. -/
def State.answered (s : State) (t : Tx) : Bool := t.answer.isSome && decide (t.dueAt ≤ s.cycle) && !s.travels t true

/-- What follows the end of a request: the requests that waited for it leave, arrivals count, and its launch may be done (R26,
R89, R94, R111, R318). -/
def State.ended (s : State) (t : Tx) : State :=
  let s1 := (s.sendWaiting).settleArrivals t.core
  match t.lslot with
  | some l => s1.tryDone l
  | none => s1

/-- LOAD_VALUE_RETURN of the transaction that State.sel names (R106). -/
def execLoadValueReturn (s : State) : Host.Outcome State Fault Refusal :=
  match s.tx s.sel.a with
  | some t =>
    (match t.req with
     | .read p (.load r setter) _ _ _ => if s.answered t then .next ((s.loadReturn t r setter p).ended t) else .next s
     | .read _ .fill _ _ _ => if s.answered t then .next ((s.dropTx t.id).ended t) else .next s
     | _ => .next s)
  | none => .next s

/-- A context ends with CAUSE 6 for the launch of a request (R474, R475). -/
def State.endFor (s : State) (t : Tx) : State :=
  match t.lslot.bind s.launch? with
  | some x => s.terminate6 x.ctx t.lslot (s.cellOf t.home)
  | none => s

/-- The asynchronous cause of an ATOMN whose outcome is not known, with the ATOMN's PC in AUX of its lanes (R320). A crew that
has left its slot can take no trap: the context ends with the class. -/
def State.uncertain (s : State) (t : Tx) (e : AtomEff) (code : Nat) : State :=
  match t.crew with
  | some r =>
    s.modCrew r (fun w => { (w.finish e.setter 1) with async := w.async ++
      [{ cls := 7, code := code, lanes := e.mask, addrs := e.lanes.map (fun x => (x.lane, x.va))
         auxs := e.lanes.map (fun x => (x.lane, e.pc)), kept := true, held := false }] })
  | none =>
    match t.lslot.bind s.launch? with
    | some x => s.terminateContext x.ctx t.lslot 7
    | none => s

/-- The asynchronous causes of an ATOMN's lanes whose data failed (R71, R76, R304). -/
def State.damaged (s : State) (t : Tx) (e : AtomEff) (bad : List (Nat × Nat)) : State :=
  if bad.isEmpty then s
  else match t.crew with
  | some r =>
    let of_ := fun (c : Nat) => e.lanes.filter (fun x => bad.any (fun b => b == (x.lane, c)))
    s.modCrew r (fun w => { w with async := w.async ++ ((bad.map (fun b => b.2)).eraseDups.map (fun c =>
      { cls := 6, code := c, lanes := Mask.ofFn (fun l => (of_ c).any (fun x => x.lane == l))
        addrs := (of_ c).map (fun x => (x.lane, x.va)), auxs := (of_ c).map (fun x => (x.lane, e.pc)), kept := true
        held := false })) })
  | none =>
    match t.lslot.bind s.launch? with
    | some x => s.terminateContext x.ctx t.lslot 6
    | none => s

/-- An acknowledgement with its effects at its core (R95, R106, R142, R320, R474). -/
def State.takeAck (s : State) (t : Tx) : State :=
  let s0 := s.dropTx t.id
  match t.req, t.answer with
  | .write _, some .failed => s0.endFor t
  | .write w, _ =>
    let s1 := ((w.bytes.map (fun b => b.1.line)).eraseDups).foldl (fun (st : State) p => st.acked t.core p) s0
    s1.modCrew w.crew (fun x => x.finish w.setter 1)
  | .atomic e r _ _ _, some (.olds _ _ stats bad) =>
    let s1 := ((e.lines).foldl (fun (st : State) p => st.acked t.core p) s0).modCrew r (fun x => x.finish e.setter 1)
    (match t.lslot with
     | some l => (s1.damaged t e bad).addStats l stats
     | none => s1.damaged t e bad)
  | .atomic e _ _ _ _, some .unknown => s0.uncertain t e 1
  | .atomic e _ _ _ _, some .failed => s0.uncertain t e 2
  | _, _ => s0

/-- A request whose answer goes to a release point that still waits for it. -/
def State.ofPoint (s : State) (t : Tx) : Bool :=
  match t.crew with
  | some r => (s.crew r).point.isSome && (s.pointTxs r).any (fun u => u.id == t.id)
  | none => false

/-- WRITE_ACK_RECEIVE of the transaction that State.sel names (R95). -/
def execWriteAckReceive (s : State) : Host.Outcome State Fault Refusal :=
  match s.tx s.sel.a with
  | some t =>
    (match t.req with
     | .read _ _ _ _ _ => .next s
     | _ => if s.answered t && !s.ofPoint t then .next ((s.takeAck t).ended t) else .next s)
  | none => .next s

/-! ### Resends -/

/-- Nothing has arrived for a request within 2^16 cycles of its sending (R318, R474). A message that stands at a full queue has
arrived (R376). -/
def State.overdue (s : State) (t : Tx) : Bool :=
  t.out && t.answer.isNone && decide (t.sent + Config.resendAfter ≤ s.cycle) && (t.lost || !t.req.isMessage)

/-- A request sent again, or, once its resends have run out, its failure (R318, R320, R474). Of one that still waits at its
home the second copy has no effect. -/
def State.resend (s : State) (t : Tx) (limit : Nat) (req : Req) : State :=
  let wait := s.storeLatency t.core t.home
  if limit ≤ t.resends then
    s.modTx t.id (fun x => { x with lost := false, answer := some .failed, dueAt := s.cycle })
  else if t.lost then
    let u : Tx := { t with
      req := req, lost := false, resends := t.resends + 1, sent := s.cycle, serveAt := s.cycle + wait
      dueAt := s.cycle + wait + max wait (t.dueAt - t.serveAt) }
    (s.modTx t.id (fun _ => u)).launchPacket u
  else s.modTx t.id (fun x => { x with resends := t.resends + 1, sent := s.cycle })

/-- ATOMIC_RESEND_TIMEOUT of the transaction that State.sel names: at most 3 resends, with the same identifier and a RESEND
mark (R318). -/
def execAtomicResendTimeout (s : State) : Host.Outcome State Fault Refusal :=
  match s.tx s.sel.a with
  | some t =>
    (match t.req with
     | .atomic e crew point ident _ =>
       if s.overdue t then .next (s.resend t 3 (.atomic e crew point ident true)) else .next s
     | _ => .next s)
  | none => .next s

/-- TRANSACTION_TIMEOUT of the transaction that State.sel names: at most 7 resends (R474). A message that cannot be
delivered ends the context, as a store does. -/
def execTransactionTimeout (s : State) : Host.Outcome State Fault Refusal :=
  match s.tx s.sel.a with
  | some t =>
    (match t.req with
     | .atomic _ _ _ _ _ => .next s
     | .message _ _ _ _ =>
       if !s.overdue t then .next s
       else if 7 ≤ t.resends then .next (((s.dropTx t.id).endFor t).ended t)
       else .next (s.resend t 7 t.req)
     | _ => if s.overdue t then .next (s.resend t 7 t.req) else .next s)
  | none => .next s

/-! ### Timed steps of a core -/

/-- L1_LEASE_EXPIRY of the line that State.sel names (R84). -/
def execL1LeaseExpiry (s : State) : Host.Outcome State Fault Refusal :=
  .next (s.modCore s.sel.a (fun k => { k with
    l1 := k.l1.filter (fun x => !(x.line == s.sel.b && decide (x.filled + Config.lease ≤ s.cycle))) }))

/-- EPOCH_ROTATE of the core that State.sel names: E2 takes E1, E1 takes E0, E0 is cleared (R95). -/
def execEpochRotate (s : State) : Host.Outcome State Fault Refusal :=
  let c := s.sel.a
  if (s.core c).acc.rotateAt + Config.epoch ≤ s.clock c then
    .next (s.modCore c (fun k => { k with
      acc := { k.acc with e2 := k.acc.e1, e1 := k.acc.e0, e0 := .empty, rotateAt := k.acc.rotateAt + Config.epoch } }))
  else .next s

/-- The crews of a sub-core that wait in XBLOCK, the longest first (R190). -/
def Sub.waiters (b : Sub) : List Nat :=
  (((upTo b.crews.length).filterMap (fun k => ((b.crew k).xwait).map (fun x => (x, k)))).mergeSort
    (fun x y => decide (x.1 ≤ y.1))).map (fun x => x.2)

/-- The crew slot and block of the grant that is due: the crew that has waited longest of those that a free block may go to
(R36, R190). -/
def State.grantDue (s : State) (core sub : Nat) : Option (Nat × Nat) :=
  let b := s.sub core sub
  (b.waiters).findSome? (fun k => (b.blockFor (s.gslotOf ⟨core, sub, k⟩)).map (fun n => (k, n)))

/-- XBLK_GRANT on the sub-core that State.sel names: a crew takes a block, and its XBLK.ACQ issues again (R190, R381). -/
def execXblkGrant (s : State) : Host.Outcome State Fault Refusal :=
  match s.grantDue s.sel.a s.sel.b with
  | some q =>
    .next (s.modSub s.sel.a s.sel.b (fun b =>
      let b1 := b.takeBlock q.2 q.1
      { b1 with crews := modifyAt b1.crews q.1 (fun w =>
          { w with xwait := none, threads := w.threads.map (fun t => if t.run == .xblock then { t with run := .ready } else t) }) }))
  | none => .next s

/-- The lowest class among asynchronous causes that are not held (R304). -/
def lowestCause (l : List AsyncCause) : Option AsyncCause :=
  (l.filter (fun c => !c.held)).foldl (fun (m : Option AsyncCause) c => match m with
    | some x => if c.cls < x.cls then some c else m
    | none => some c) none

/-- The causes left after one is delivered or a trap is pending: an ATOMIC_UNCERTAIN or an engine's
error is held, the others are dropped (R304, R339). -/
def holdCauses (l : List AsyncCause) : List AsyncCause :=
  (l.filter (fun c => c.cls == 6 || c.cls == 7)).map (fun c => { c with held := true })

/-- ASYNC_TRAP_DUE of the crew that State.sel names (R302, R304). AUX holds what its own rule says. -/
def execAsyncTrapDue (s : State) : Host.Outcome State Fault Refusal :=
  let r : CrewRef := ⟨s.sel.a, s.sel.b, s.sel.c⟩
  let w := s.crew r
  match lowestCause w.async with
  | none => .next s
  | some c =>
    if w.pendingTrap.isSome then .next (s.modCrew r (fun w => { w with async := holdCauses w.async }))
    else if w.gambit.isSome then .next s
    else
      let rest := holdCauses (w.async.erase c)
      let of := fun (l : List (Nat × Addr)) (n : Nat) => ((l.find? (fun x => x.1 == n)).map (fun x => x.2)).getD 0
      let p : PendingTrap :=
        { cls := c.cls, lanes := c.lanes.lanes.map (fun l => ⟨l, c.cls, c.code, of c.addrs l, of c.auxs l⟩), async := true, tpc := 0,
          resume := 0, iword := 0, ilen := 0, pmask := 0, parked := ((w.parked).map (fun x => x.part)).getD 0, headed := false }
      .next ((s.modCrew r (fun w => { w with async := rest })).raiseTrap r p)

/-! ### Barrier timeouts -/

/-- The exponent of the timeout of what a thread waits for (R332). -/
def State.waitExp (s : State) (r : CrewRef) (a : Await) : Nat :=
  let e := ((s.launchOf r).map Launch.timeoutExp).getD 24
  match a, s.groupOf r with
  | .parity off _, some g => let c := (s.barObj r.core g off).wclass; if c == 0 then e else c
  | _, _ => e

/-- The wait has not yet met its condition. -/
def Await.waits (a : Await) : Bool :=
  match a with
  | .returns _ => false
  | _ => true

/-- A thread's wait, when it has lasted its time (R332). -/
def State.timedOut (s : State) (r : CrewRef) (l : Nat) : Option Await :=
  match ((s.crew r).thread l).run with
  | .barrier a since => if a.waits && decide (since + 2 ^ s.waitExp r a ≤ s.cycle) then some a else none
  | _ => none

/-- The lanes of a crew in state BARRIER whose wait goes on. -/
def Crew.barrierLanes (w : Crew) : Mask := Mask.ofFn (fun l => match (w.thread l).run with
  | .barrier a _ => a.waits
  | _ => false)

/-- The diagnostic record (R333). -/
def State.diagBytes (s : State) (r : CrewRef) (l : Launch) (g : Group) (a : Await) (wl : Nat) : List Byte :=
  let w := s.crew r
  let kind := match a with
    | .timeline _ _ => 2
    | _ => 1
  let object : List Byte := match a with
    | .parity off _ => toBytes 16 (s.barObj r.core g off).toNum
    | .timeline tl n => toBytes 4 tl ++ toBytes 4 0 ++ toBytes 8 n
    | .returns _ => List.replicate 16 0
  let boff := match a with
    | .parity off _ => off
    | _ => 0
  let par := match (w.thread (Mask.lowest w.barrierLanes)).run, a with
    | .barrier (.parity _ p) _, .parity _ _ => bitNat p
    | _, _ => 0
  toBytes 4 kind ++ toBytes 4 l.desc.launchId.toNat ++ toBytes 4 g.g ++ toBytes 4 r.core ++
    toBytes 2 ((w.owner.map (fun o => o.index)).getD 0) ++ toBytes 1 r.sub ++ toBytes 1 r.slot ++
    toBytes 4 w.barrierLanes.toNat ++ toBytes 8 (w.thread wl).pc.toNat ++ object ++ toBytes 4 boff ++ toBytes 1 par ++
    toBytes 1 (s.waitExp r a) ++ [0, 0] ++ toBytes 8 (s.clock r.core)

/-- The diagnostic record of a launch written once; a fault is logged (R332, R144). -/
def State.writeDiag (s : State) (r : CrewRef) (a : Await) (wl : Nat) : State :=
  match s.launchOf r, s.groupOf r, s.lslotOf r with
  | some l, some g, some n =>
    if l.desc.diag == 0 || l.diagWritten then s
    else
      (match s.deviceWalk l.ctx l.desc.diag true with
       | some q => (q.2.releaseWrite q.1 (s.diagBytes r l g a wl)).modLaunch n (fun x => { x with diagWritten := true })
       | none => s.logRecord 9 2 0xFFFF l.ctx (toBytes 4 l.desc.launchId.toNat ++ [2, 0, 0, 0] ++ toBytes 8 l.desc.diag))
  | _, _, _ => s

/-- The first lane of a crew whose wait has timed out, with what it waits for. -/
def State.firstTimeout (s : State) (r : CrewRef) : Option (Nat × Await) :=
  allLanes.findSome? (fun l => (s.timedOut r l).map (fun a => (l, a)))

/-- The crew has a timeout that has fired and not been delivered, or whose class the trap about to be entered has. -/
def Crew.timeoutPending (w : Crew) : Bool :=
  w.async.any (fun c => c.cls == 5) || (w.pendingTrap.map (fun p => p.cls == 5)).getD false

/-- A timeout is due in a crew: none of its class is pending, and none has fired while another trap has been pending, which
drops it (R304). -/
def State.timeoutDue (s : State) (r : CrewRef) : Bool :=
  let w := s.crew r
  w.owner.isSome && w.dying.isNone && !w.stopped && !w.timeoutPending && w.barrierLanes != 0 && (s.firstTimeout r).isSome

/-- Every object that a lane of the crew has waited for too long gets its TO bit (R332). -/
def State.markTimeouts (s : State) (r : CrewRef) : State :=
  match s.groupOf r with
  | none => s
  | some g =>
    let offs := (allLanes.filterMap (fun l => match s.timedOut r l with
      | some (.parity off _) => some off
      | _ => none)).eraseDups
    offs.foldl (fun (st : State) off =>
      st.putBytes (.scratch r.core (g.scrBase + off)) (toBytes 16 ({ st.barObj r.core g off with timedOut := true } : BarObj).toNum)) s

/-- The waits of a crew that a trap is about to end count anew: their timeout has fired and is dropped (R304). -/
def Crew.restartWaits (w : Crew) (now : Nat) : Crew :=
  { w with threads := w.threads.map (fun t => match t.run with
      | .barrier a _ => { t with run := .barrier a now }
      | _ => t) }

/-- BARRIER_TIMEOUT of the crew that State.sel names (R332): the objects' TO bits, the record, and the asynchronous cause, which
concerns the lanes waiting in BARRIER (R297). -/
def execBarrierTimeout (s : State) : Host.Outcome State Fault Refusal :=
  let r : CrewRef := ⟨s.sel.a, s.sel.b, s.sel.c⟩
  match (if s.timeoutDue r then s.firstTimeout r else none) with
  | none => .next s
  | some q =>
    let code := match q.2 with
      | .timeline _ _ => 2
      | _ => 1
    .next (((s.markTimeouts r).writeDiag r q.2 q.1).modCrew r (fun w =>
      if w.pendingTrap.isSome then w.restartWaits s.cycle
      else { w with async := w.async ++
        [{ cls := 5, code := code, lanes := w.barrierLanes, addrs := [], auxs := [], kept := false, held := false }] }))

end Sys2Proof.Machine
end

