-- ==== Sys2Proof/Machine/Tiles.lean ====
section
/-! DEFINITION. The arithmetic of the tile engine on operands already read: blocks, rows and scale planes, k-steps,
checksum lines, the drain's check and its blocks (R72 to R77, R121 to R128, R132 to R147, R349 to R360). -/

namespace Sys2Proof.Machine

/-- A failure of an operand fetch: the DATAERR code and the scratchpad offset that fails (R339); none where no address does: a
block of the latch (DEDUCED, log 42). -/
abbrev TileErr := Nat × Option Nat

/-- What a tile operation reads with: bytes at a scratchpad offset of the group, the descriptor of the block at an offset or the
DATAERR code that reading it gives (R73, R339), the group's allocation, and the row latch. -/
structure Fetcher where
  bytes : Nat → Nat → List Byte
  descs : Nat → Except Nat Nat
  size : Nat
  latch : List Byte
  latchDescs : List Nat

/-- Bytes of an operand: of scratchpad, or of the latch. -/
def Fetcher.read (q : Fetcher) (fromLatch : Bool) (off n : Nat) : List Byte :=
  if fromLatch then (q.latch.drop off).take n else q.bytes off n

/-- The descriptor of an operand's block. -/
def Fetcher.desc (q : Fetcher) (fromLatch : Bool) (off : Nat) : Except TileErr Nat :=
  if fromLatch then .ok (q.latchDescs.getD (off / 64) 0) else (q.descs off).mapError (fun c => (c, some off))

/-- A word of scratchpad, read with its block's descriptor copies (R73). -/
def Fetcher.word (q : Fetcher) (off : Nat) : Except TileErr Nat :=
  match q.descs (off - off % 64) with
  | .error c => .error (c, some off)
  | .ok _ => .ok (ofBytes (q.bytes off 4))

/-- The address that a failing block of an operand has. -/
def blockAt (fromLatch : Bool) (off : Nat) : Option Nat := if fromLatch then none else some off

/-- The format in which a block is used, with its descriptor: the given one, or its descriptor's when given is 0; refused when
the block cannot be read or the format or the scale may not stand there (R76, R77, R134, R351). -/
def Fetcher.format (q : Fetcher) (fromLatch : Bool) (given off : Nat) : Except TileErr (Nat × Nat) :=
  match q.desc fromLatch off with
  | .error x => .error x
  | .ok d =>
    let fmt := if given == 0 then descFmt d else given
    if fmt ≤ 1 || 10 < fmt || badScale fmt d then .error (2, blockAt fromLatch off) else .ok (fmt, d)

/-- The last byte that element e of a block of a format uses (R121). -/
def elemEnd (fmt e : Nat) : Nat :=
  match fmt with
  | 2 => 2 * e + 1
  | 3 => 2 * e + 1
  | 6 => (6 * e + 5) / 8
  | 7 => (6 * e + 5) / 8
  | 8 => e / 2
  | 10 => e / 2
  | _ => e

/-- A block's element as a row finds it: format, descriptor, bytes, index within the block, the block's offset. -/
structure Found where
  fmt : Nat
  desc : Nat
  bytes : List Byte
  index : Nat
  off : Option Nat

/-- Element e of a row from a block on (R351): each block supplies the elements its format gives; a row that needs bytes
beyond its pitch is refused, and so is an FP6 block in rows of 32 bytes. start is where the row begins. -/
def Fetcher.find (q : Fetcher) (lat : Bool) (given start pitch : Nat) : Nat → Nat → Nat → Except TileErr Found
  | 0, blk, _ => .error (2, blockAt lat blk)
  | fuel + 1, blk, e =>
    match q.format lat given blk with
    | .error x => .error x
    | .ok (fmt, d) =>
      if pitch == 32 && (fmt == 6 || fmt == 7) then .error (2, blockAt lat blk)
      else if e < blockCount fmt then
        if pitch < blk + elemEnd fmt e + 1 - start then .error (2, blockAt lat blk)
        else .ok { fmt := fmt, desc := d, bytes := q.read lat blk 64, index := e, off := blockAt lat blk }
      else Fetcher.find q lat given start pitch fuel (blk + 64) (e - blockCount fmt)

/-- Element e of the row that begins at an offset; a row that begins at byte 32 of a block begins at its middle element
(R351). -/
def Fetcher.elem (q : Fetcher) (lat : Bool) (given start pitch e : Nat) : Except TileErr Found :=
  if start % 64 == 0 then q.find lat given start pitch (e / 16 + 2) start e
  else
    match q.format lat given (start - start % 64) with
    | .error x => .error x
    | .ok (fmt, _) => q.find lat given start pitch (e / 16 + 3) (start - start % 64) (e + blockCount fmt / 2)

/-- An operand element: floating-point or integer, its exact value, and an integer's code, zero point and scale. -/
structure Elem where
  int : Bool
  val : FVal
  code : Nat
  zp : Nat
  scale : FVal
  off : Option Nat

/-- The value s × (q − z) of an integer element (R125). -/
def asymValue (s : FVal) (code z : Nat) : FVal := FVal.mul s (FVal.ofInt ((code : Int) - z))

/-- A scale-plane entry (R126, R350): refused outside the allocation, with a reserved bit, or with a zero point out of
range. -/
def Fetcher.entry (q : Fetcher) (off fmt : Nat) : Except TileErr (Nat × FVal) :=
  if q.size < off + 4 then .error (2, some off)
  else match q.word off with
    | .error x => .error x
    | .ok w =>
      let z := bits w 23 16
      if bits w 31 24 != 0 || (fmt == 10 && 15 < z) then .error (2, some off)
      else .ok (z, fp16.decode (w % 65536))

/-- An operand element from a block's element and its scale-plane entry (R124, R127): an integer block is refused under
sparsity and where K is not a multiple of the group. -/
def Fetcher.operand (q : Fetcher) (p : TileMul) (x : Found) (entryAt : Nat) : Except TileErr Elem :=
  if 9 ≤ x.fmt then
    if p.sparse || p.k % p.g != 0 then .error (2, x.off)
    else match q.entry entryAt x.fmt with
    | .error e => .error e
    | .ok zs =>
      let c := blockElem x.fmt x.bytes x.index
      .ok { int := true, val := asymValue zs.2 c zs.1, code := c, zp := zs.1, scale := zs.2, off := x.off }
  else
    .ok { int := false, val := elemValue x.fmt x.desc x.bytes x.index, code := 0, zp := 0, scale := .nan, off := x.off }

/-- The positions of K that a k-step covers (R133). -/
def TileMul.width (p : TileMul) : Nat := if p.sparse then 32 else 16

/-- The k-steps of an operation (R341). -/
def TileMul.steps (p : TileMul) : Nat := p.k / p.width

/-- A field of the convolution record (R356). -/
def convField (c : List Byte) (off n : Nat) : Nat := ofBytes ((c.drop off).take n)

/-- Where the input pixel of tile row i at position k lies: its channel and scratchpad offset, or none in the padding
(R357). -/
def convPixel (c : List Byte) (i k : Nat) : Nat × Option Nat :=
  let ow := convField c 0x18 2
  let ch := convField c 0x0C 2
  let kw := convField c 0x0F 1
  let q := convField c 0x1C 4 + i
  let h : Int := ((q / ow * convField c 0x10 1 : Nat) : Int) - (convField c 0x14 2 : Nat) +
    ((k / (kw * ch) * convField c 0x12 1 : Nat) : Int)
  let w : Int := ((q % ow * convField c 0x11 1 : Nat) : Int) - (convField c 0x16 2 : Nat) +
    ((k / ch % kw * convField c 0x13 1 : Nat) : Int)
  (k % ch,
   if 0 ≤ h && h < (convField c 0x08 2 : Nat) && 0 ≤ w && w < (convField c 0x0A 2 : Nat) then
     some (convField c 0x00 4 + (h.toNat * convField c 0x0A 2 + w.toNat) * convField c 0x04 4)
   else none)

/-- The padding element of a row (R357): PADV in a floating-point operand, the zero point in an integer one. A position of
padding has no block: where A's format comes from descriptors the model gives it the kind of B's element there, which R127
asks of a product (log 43). -/
def Fetcher.padding (q : Fetcher) (p : TileMul) (c : List Byte) (entryAt : Nat) (int : Bool) : Except TileErr Elem :=
  if p.afmt == 9 || p.afmt == 10 || (p.afmt == 0 && int) then
    match q.entry entryAt (if p.afmt == 10 then 10 else 9) with
    | .error e => .error e
    | .ok zs => .ok { int := true, val := asymValue zs.2 zs.1 zs.1, code := zs.1, zp := zs.1, scale := zs.2, off := some entryAt }
  else .ok { int := false, val := fp32.decode (convField c 0x20 4), code := 0, zp := 0, scale := .nan, off := none }

/-- B's element (k, j) (R351, R352). -/
def Fetcher.b (q : Fetcher) (p : TileMul) (k j : Nat) : Except TileErr Elem :=
  match q.elem p.boff.isNone p.bfmt (p.boff.getD 0 + k * p.bld) p.bld j with
  | .error e => .error e
  | .ok x => q.operand p x (p.sboff + (j * (p.k / p.g) + k / p.g) * 4)

/-- A's element at place e of row i, which stands at position k (R351, R352, R357). -/
def Fetcher.a (q : Fetcher) (p : TileMul) (bInt : Bool) (i k e : Nat) : Except TileErr Elem :=
  let entryAt := p.saoff + (i * (p.k / p.g) + k / p.g) * 4
  match p.conv with
  | some c =>
    let x := convPixel c i k
    (match x.2 with
     | none => q.padding p c entryAt bInt
     | some off => match q.elem false p.afmt off (convField c 0x04 4) x.1 with
       | .error y => .error y
       | .ok f => q.operand p f entryAt)
  | none =>
    let row := (p.rows.map (fun r => r.getD i 0)).getD i
    (match q.elem false p.afmt (p.aoff + row * p.ald) p.ald e with
     | .error y => .error y
     | .ok f => q.operand p f entryAt)

/-- The kept positions of a metadata word: position within the step and place among the kept values (R353). -/
def keptOf (word s : Nat) : List (Nat × Nat) :=
  (upTo 8).flatMap (fun g =>
    [(4 * g + bits word (4 * g + 1) (4 * g), 16 * s + 2 * g),
     (4 * g + bits word (4 * g + 3) (4 * g + 2), 16 * s + 2 * g + 1)])

/-- The positions of a row that a step takes part with (R133, R353). -/
def Fetcher.kept (q : Fetcher) (p : TileMul) (s i : Nat) : Except TileErr (List (Nat × Nat)) :=
  if p.sparse then
    let off := p.spoff + 512 * s + 4 * i
    match q.word off, q.word (off + 256) with
    | .error x, _ => .error x
    | _, .error x => .error x
    | .ok w, .ok w2 =>
    if w != w2 then .error (5, some off)
    else if (upTo 8).any (fun g => bits w (4 * g + 3) (4 * g + 2) ≤ bits w (4 * g + 1) (4 * g)) then .error (2, some off)
    else .ok (keptOf w s)
  else .ok ((upTo 16).map (fun t => (t, 16 * s + t)))

/-- The operands of one k-step: for each row of A its kept positions with their elements, and for each position of the step
the row of B. -/
structure StepOps where
  a : List (List (Nat × Elem))
  b : List (List Elem)

/-- The fetch of a k-step's operands, B's rows first (R355). -/
def Fetcher.step (q : Fetcher) (p : TileMul) (s : Nat) : Except TileErr StepOps := do
  let b ← (upTo p.width).mapM (fun t => (upTo p.n).mapM (fun j => q.b p (p.width * s + t) j))
  let a ← (upTo p.m).mapM (fun i => do
    let ks ← q.kept p s i
    ks.mapM (fun x => do
      let bInt := (((b.getD x.1 []).head?).map (fun y => y.int)).getD false
      let y ← q.a p bInt i (p.width * s + x.1) x.2
      pure (x.1, y)))
  pure { a := a, b := b }

/-- The pairs of factors of an output element in a step. -/
def StepOps.pairs (o : StepOps) (i j : Nat) : List (Elem × Elem) :=
  (o.a.getD i []).filterMap (fun x => ((o.b.getD x.1 [])[j]?).map (fun y => (x.2, y)))

/-- The kind of an output element's products in a step: refused when they mix (R127). -/
def StepOps.kind (o : StepOps) (i j : Nat) : Except TileErr Bool :=
  let ps := o.pairs i j
  let int := ps.any (fun x => x.1.int || x.2.int)
  let at_ := (ps.head?).bind (fun x => x.1.off)
  if int && ps.any (fun x => !x.1.int || !x.2.int) then .error (2, at_) else .ok int

/-- The last step of the group that a step lies in (R128). -/
def TileMul.groupEnds (p : TileMul) (s : Nat) : Bool := 16 * (s + 1) % p.g == 0

/-- The steps of the group that ends with a step. -/
def TileMul.groupSteps (p : TileMul) (s : Nat) : List Nat :=
  (upTo (p.g / 16)).map (fun t => s + 1 - p.g / 16 + t)

/-- The first step of the group that a step lies in. -/
def TileMul.groupFirst (p : TileMul) (s : Nat) : Nat := 16 * s / p.g * (p.g / 16)

/-- A group's contribution to an element (R128): the scales of its first position, the integer I. -/
def groupValue (ps : List (Elem × Elem)) : Word :=
  match ps.head? with
  | none => 0
  | some x =>
    let i := (ps.map (fun y => ((y.1.code : Int) - y.1.zp) * ((y.2.code : Int) - y.2.zp))).sum
    fword .rn (FVal.mul (FVal.mul x.1.scale x.2.scale) (FVal.ofInt i))

/-- The sum of products as a word (R132). -/
def productSum (ps : List (FVal × FVal)) : Word := fword .rn (kSum (ps.map (fun x => FVal.mul x.1 x.2)))

/-- What a step adds to element (i, j), if anything: now holds the steps of the group when one ends (R132, R133). -/
def stepAdds (p : TileMul) (o : StepOps) (group : List StepOps) (s i j : Nat) : Except TileErr (Option Word) := do
  let int ← o.kind i j
  if int then
    pure (if p.groupEnds s then some (groupValue (group.flatMap (fun x => x.pairs i j))) else none)
  else pure (some (productSum ((o.pairs i j).map (fun x => (x.1.val, x.2.val)))))

/-- The column sum of A at a position of a step over the rows that keep it (R145). -/
def StepOps.alpha (o : StepOps) (t : Nat) : Option FVal :=
  let vs := o.a.filterMap (fun r => (r.find? (fun x => x.1 == t)).map (fun x => x.2.val))
  if vs.isEmpty then none else some (kSum vs)

/-- The row sum of B at a position of a step (R145). -/
def StepOps.beta (o : StepOps) (t : Nat) : FVal := kSum ((o.b.getD t []).map (fun y => y.val))

/-- The factors of checksum element (64, j) in a step (R145). -/
def StepOps.rowPairs (o : StepOps) (w j : Nat) : List (FVal × FVal) :=
  (upTo w).filterMap (fun t => match o.alpha t, (o.b.getD t [])[j]? with
    | some x, some y => some (x, y.val)
    | _, _ => none)

/-- The factors of checksum element (i, 64) in a step (R145). -/
def StepOps.colPairs (o : StepOps) (i : Nat) : List (FVal × FVal) :=
  (o.a.getD i []).map (fun x => (x.2.val, o.beta x.1))

/-- What a step adds to a checksum element: the k-step's sum, or the group's when its operands are integer. -/
def checkAdds (p : TileMul) (o : StepOps) (group : List StepOps) (s : Nat) (int : Bool)
    (f : StepOps → List (FVal × FVal)) : Option Word :=
  if int then (if p.groupEnds s then some (productSum (group.flatMap f)) else none) else some (productSum (f o))

/-- A word of a tile. -/
def tileAt (t : Tile) (i j : Nat) : Word := (t.getD i []).getD j 0

/-- A tile with a word added to an element when there is one (R132). -/
def tileAdd (t : Tile) (i j : Nat) (x : Option Word) : Tile :=
  match x with
  | none => t
  | some w => modifyAt t i (fun r => modifyAt r j (fun y => faddRN y w))

/-- The kinds of a step agree with those of its group's first step (R127). -/
def groupAgrees (p : TileMul) (o first : StepOps) : Except TileErr Unit := do
  let _ ← (upTo p.m).mapM (fun i => (upTo p.n).mapM (fun j => do
    let x ← o.kind i j
    let y ← first.kind i j
    if x != y && p.k % p.g == 0 && !p.sparse then throw (2, ((o.pairs i j).head?).bind (fun z => z.1.off))
    else pure ()))
  pure ()

/-- One k-step on a tile (R355): every element's addition, then the checksum lines when they are enabled. -/
def Fetcher.runStep (q : Fetcher) (p : TileMul) (s : Nat) (t : Tile) : Except TileErr Tile := do
  let o ← q.step p s
  let first ← if p.sparse then pure o else q.step p (p.groupFirst s)
  groupAgrees p o first
  let group ← if p.sparse || !p.groupEnds s then pure [o] else (p.groupSteps s).mapM (fun x => q.step p x)
  let adds ← (upTo p.m).mapM (fun i => (upTo p.n).mapM (fun j => stepAdds p o group s i j))
  let t1 := (upTo p.m).foldl (fun (t : Tile) i => (upTo p.n).foldl (fun (t : Tile) j =>
    tileAdd t i j ((adds.getD i []).getD j none)) t) t
  if !p.chk then pure t1
  else
    let bInt := fun (j : Nat) => (((o.b.head?).bind (fun r => r[j]?)).map (fun y => y.int)).getD false
    let aInt := fun (i : Nat) => (((o.a.getD i []).head?).map (fun x => x.2.int)).getD false
    let t2 := (upTo p.n).foldl (fun (t : Tile) j =>
      tileAdd t 64 j (checkAdds p o group s (bInt j) (fun x => x.rowPairs p.width j))) t1
    pure ((upTo p.m).foldl (fun (t : Tile) i =>
      tileAdd t i 64 (checkAdds p o group s (aInt i) (fun x => x.colPairs i))) t2)

/-- The cycles of a k-step: 64 when the wider format is 16-bit, 32 when it is 8-bit or 6-bit, 16 when it is 4-bit (R134,
R355). -/
def formatCycles (fmt : Nat) : Nat :=
  match fmt with
  | 2 => 64
  | 3 => 64
  | 8 => 16
  | 10 => 16
  | _ => 32

/-- The cycles of a k-step: those of the widest format among the blocks that its operands lie in (R134, R355). A position of
padding has none (R357). -/
def Fetcher.stepCycles (q : Fetcher) (p : TileMul) (s : Nat) : Nat :=
  let time := fun (given : Nat) (x : Except TileErr Found) => formatCycles (if given != 0 then given else match x with
    | .ok f => f.fmt
    | .error _ => 8)
  let a := (upTo p.m).flatMap (fun i => (upTo 16).map (fun t =>
    match p.conv with
    | some c => (match (convPixel c i (16 * s + t)).2 with
      | some off => time p.afmt (q.elem false p.afmt off (convField c 0x04 4) (convPixel c i (16 * s + t)).1)
      | none => 0)
    | none => time p.afmt (q.elem false p.afmt (p.aoff + ((p.rows.map (fun r => r.getD i 0)).getD i) * p.ald) p.ald (16 * s + t))))
  let b := (upTo p.width).flatMap (fun t => (upTo p.n).map (fun j =>
    time p.bfmt (q.elem p.boff.isNone p.bfmt (p.boff.getD 0 + (p.width * s + t) * p.bld) p.bld j)))
  (a ++ b).foldl max 16

/-! ### The drain -/

/-- A finite FP32 word as an integer multiple of 2^−149. -/
def tileInt (w : Word) : Int := sumAt (-149) [fval w]

/-- The words of a list are all finite. -/
def allFinite (l : List Word) : Bool := l.all (fun w => (fval w).isFin)

/-- A line of a tile mismatches its checksum element: the difference exceeds 2^−12 of the magnitudes and 2^−126 (R146). -/
def lineMismatch (line : List Word) (sum : Word) : Bool :=
  allFinite (sum :: line) &&
    (let d := (tileInt sum - (line.map tileInt).sum).natAbs
     let m := (line.map (fun w => (tileInt w).natAbs)).sum
     decide (m < 4096 * d) && decide (2 ^ 23 < d))

/-- The first 64 words of row i. -/
def tileRow (t : Tile) (i : Nat) : List Word := (upTo 64).map (fun j => tileAt t i j)

/-- The first 64 words of column j. -/
def tileCol (t : Tile) (j : Nat) : List Word := (upTo 64).map (fun i => tileAt t i j)

/-- The mismatching rows and columns of a tile (R146). -/
def tileMismatch (t : Tile) : List Nat × List Nat :=
  ((upTo 64).filter (fun i => lineMismatch (tileRow t i) (tileAt t i 64)),
   (upTo 64).filter (fun j => lineMismatch (tileCol t j) (tileAt t 64 j)))

/-- What a drain's check finds: the tile to drain and whether a correction or a repair is counted, or none when the damage
cannot be corrected (R147). -/
def tileCheck (t : Tile) : Option (Tile × Bool) :=
  match tileMismatch t with
  | ([], []) => some (t, false)
  | ([i], [j]) =>
    let rest := ((upTo 64).filter (fun x => x != j)).map (fun x => tileInt (tileAt t i x))
    let v := tileInt (tileAt t i 64) - rest.sum
    some (modifyAt t i (fun r => modifyAt r j (fun _ => fword .rn (.fin (decide (v < 0)) v.natAbs (-149)))), true)
  | ([_], []) => some (t, true)
  | ([], [_]) => some (t, true)
  | _ => none

/-- The element format of a drain (R264). -/
def TileDrain.fmt (p : TileDrain) : Fmt := fmtOfCode p.ofmt

/-- Elements of a block that a drain writes (R74). -/
def TileDrain.perBlock (p : TileDrain) : Nat := blockCount (p.ofmt + 1)

/-- The blocks of a row that a drain writes (R358). -/
def TileDrain.blocks (p : TileDrain) : Nat := (p.n + p.perBlock - 1) / p.perBlock

/-- The exact values of a drain's row (R359). -/
def TileDrain.values (p : TileDrain) (t : Tile) (i : Nat) : List FVal :=
  (upTo p.n).map (fun j => FVal.mul (fval (tileAt t i j)) (fval p.oscale))

/-- The counts of a list of results. -/
def countStats (tid : Nat) (l : List (Option Nat)) : List StatAdd :=
  ([statNan, statInf, statSat, statFtz].map (fun k =>
    (⟨tid, k, (l.filter (fun x => x == some k)).length⟩ : StatAdd))).filter (fun x => x.n != 0)

/-- One block of a drain: its bytes, its descriptor when it writes one, and its counts (R137 to R139, R359). F32 writes only
the words it has. -/
def TileDrain.block (p : TileDrain) (vs : List FVal) : List Byte × Option Nat × List StatAdd :=
  let f := p.fmt
  let fmt := p.ofmt + 1
  let marked := 6 ≤ fmt && fmt ≤ 8 && vs.any (fun v => v == .nan)
  let sc := if p.ofmt ≤ 2 then (127, 0) else if p.choose then chooseScale f vs else (p.se, p.sf)
  let k := if p.ofmt ≤ 2 then (1, 0) else s9 sc.1 sc.2
  let r := vs.map (fun v => f.convert (modeOf p.mode) p.nsat k.1 k.2 v)
  let value := (upTo vs.length).foldl (fun a e => a + ((r[e]?).map (fun x => x.1)).getD 0 * 2 ^ (f.width * e)) 0
  let stats := countStats p.tid (if marked then vs.map (fun _ => some statNan) else r.map (fun x => x.2))
  if p.ofmt == 0 then (toBytes (4 * vs.length) value, none, stats)
  else if marked then (toBytes 64 0, some (fmt * 512 + 255 * 2), stats)
  else (toBytes 64 value, some (fmt * 512 + sc.1 * 2 + sc.2), stats)

/-- The sum that an add-on-store leaves in an element, with the counter it adds to (R142, R360). -/
def addOnStore (ofmt old : Nat) (v : FVal) : Nat × Option Nat :=
  let f := fmtOfCode ofmt
  let sum := FVal.add .rn (f.decode old) v
  let x := f.round .rn sum
  let lost := match sum, f.decode x with
    | .fin _ n _, .fin _ k _ => n != 0 && k == 0
    | _, _ => false
  (x, if lost then some statFtz else sumStat f x)

end Sys2Proof.Machine
end

