-- ==== Sys2Proof/Machine/Engines.lean ====
section
/-! DEFINITION. The engine instructions as they issue: what their records must hold, the ranges they check, their acceptance
by an engine with a number on a timeline; timeline waits, and the row riser (R22, R110, R162, R334 to R371, R512). -/

namespace Sys2Proof.Machine

/-- RESOURCE PARAM (R340). -/
def causeParam : Cause := (11, 5)
/-- RESOURCE TILE (R340). -/
def causeTile : Cause := (11, 6)
/-- RESOURCE CIRCUIT (R340). -/
def causeCircuit : Cause := (11, 8)
/-- RESOURCE SUBS (R340). -/
def causeSubs : Cause := (11, 9)
/-- RESOURCE WINDOWS (R340). -/
def causeWindows : Cause := (11, 10)
/-- ALIGN of an engine operand (R295). -/
def causeEngine : Cause := (3, 3)

/-- What every engine instruction does first (R334, R340): in-gambit lanes abort, an empty mask retires, a handler crew
raises HANDLER unless the instruction is one it may use. -/
def State.engineWith (s : State) (f : L64) (names writes : List Nat) (handler : Bool)
    (body : Issue → State → Mask → Nat → State) : Host.Outcome State Fault Refusal :=
  s.issueWith { lNeeds f names writes with bare := true } (fun i t =>
    let part := t.eff i f.pred f.pn
    if part == 0 then t.retire i false
    else if !handler && (t.gslotOf i.ref).isNone then t.failAll i part causeHandler
    else body i t part (Mask.lowest part))

/-- A register operand of lane l0. -/
def State.regL0 (s : State) (i : Issue) (k : BitVec 7) (l0 : Nat) : Word :=
  lane ((s.crew i.ref).source s.freeCtr k.toNat) l0

/-- A pair operand of lane l0. -/
def State.pairL0 (s : State) (i : Issue) (k : BitVec 7) (l0 : Nat) : Nat := (s.crew i.ref).pair s.freeCtr k.toNat l0

/-- A cause raised in lane l0 with an address (R338). -/
def State.failL0 (s : State) (i : Issue) (l0 : Nat) (c : Cause) (va : Nat) : State := s.fail i [laneFail l0 c va]

/-- The scratchpad-window address of an offset (R51). -/
def windowVa (off : Nat) : Nat := 0xFFFF000000000000 + off % 2 ^ 48

/-- The own-vault-window address of a place in the vault (R51). -/
def vaultVa (off : Nat) : Nat := 0xFFFC000000000000 + off

/-- The address of a row in its vault (R63). -/
def rowAddr (core bank row : Nat) : Nat := vaultAddr core (Config.vaultSram + (32 * row + bank) * 2048)

/-! ### What an engine reads -/

/-- The taint of results of an instruction that reads registers of lane l0 (R104). -/
def State.l0Taint (s : State) (i : Issue) (l0 : Nat) (regs : List Nat) : Mask :=
  if regs.any (fun k => ((s.crew i.ref).sourceTaint k).getLsbD l0) then BitVec.allOnes 32 else 0

/-- A byte as an engine reads it at acceptance for a thread (R108): the thread's own unreleased store, the core's outgoing
write, the home's byte. -/
def State.engineByte (s : State) (r : CrewRef) (l : Nat) (p : Loc) : Byte :=
  ((s.crew r).ownByte l p).getD (s.sentByte r.core p)

/-- Bytes as an engine reads them at acceptance. -/
def State.engineBytes (s : State) (r : CrewRef) (l : Nat) (p : Loc) (n : Nat) : List Byte :=
  (upTo n).map (fun k => s.engineByte r l (p.plus k))

/-- The descriptor copies of a block as an engine finds them at its home or on its way there from a core (R73, R108). -/
def State.sentDesc (s : State) (core : Nat) (p : Loc) : Nat × Nat :=
  match s.goingDesc core p with
  | some d => (d, d)
  | none => s.descAt p

/-- The descriptor copies of a block as an engine reads them at acceptance for a thread (R73, R108). -/
def State.engineDesc (s : State) (r : CrewRef) (l : Nat) (p : Loc) : Nat × Nat :=
  match (s.crew r).ownDesc l p with
  | some d => (d, d)
  | none => s.sentDesc r.core p

/-- The group's allocation of a crew: base and length. -/
def State.allocation (s : State) (r : CrewRef) : Nat × Nat :=
  ((s.groupOf r).map (fun g => (g.scrBase, g.scrLen))).getD (0, 0)

/-- The offsets of the 64-byte blocks that n bytes at an offset lie in. -/
def blockOffs (off n : Nat) : List Nat := (upTo ((off % 64 + n + 63) / 64)).map (fun k => off / 64 * 64 + 64 * k)

/-- A record of n bytes at a scratchpad offset, aligned to a number of bytes (R512): its bytes, or the cause and offset. Its
blocks' descriptor copies are compared as they are read (R73, R76). -/
def State.record (s : State) (i : Issue) (l0 off n align : Nat) : Except (Cause × Nat) (List Byte) :=
  let al := s.allocation i.ref
  let at_ := fun (o : Nat) => Loc.scratch i.core (al.1 + o)
  if off % align != 0 then .error (causeParam, windowVa off)
  else if al.2 < off + n then .error (causeBounds, windowVa off)
  else match (blockOffs off n).findSome? (fun o => (s.blockFault (s.engineDesc i.ref l0 (at_ o)) (at_ o)).map (fun c => (c, o))) with
    | some e => .error ((6, e.1), windowVa (max off e.2))
    | none => .ok (s.engineBytes i.ref l0 (at_ off) n)

/-- A field of a record. -/
def field (b : List Byte) (off n : Nat) : Nat := ofBytes ((b.drop off).take n)

/-- A range of scratchpad that a record names lies in the allocation. -/
def State.inAllocation (s : State) (i : Issue) (off n : Nat) : Bool := decide (off + n ≤ (s.allocation i.ref).2)

/-! ### Acceptance -/

/-- The number that a timeline gives the next accepted command: its lowest vacant one, else one above the issue count
(R162, R336). -/
def Timeline.take (t : Timeline) : Nat × Timeline :=
  match t.vacant with
  | [] => (t.issued + 1, { t with issued := t.issued + 1 })
  | v :: r => let n := r.foldl min v
    (n, { t with vacant := t.vacant.erase n })

/-- The timeline advances over the numbers that have landed (R22, R336). -/
def Timeline.advance (t : Timeline) : Nat → Timeline
  | 0 => t
  | fuel + 1 =>
    if t.landed.contains (t.counter + 1) then
      Timeline.advance { t with counter := t.counter + 1, landed := t.landed.erase (t.counter + 1) } fuel
    else t

/-- A number lands on a timeline. -/
def Timeline.land (t : Timeline) (n : Nat) : Timeline :=
  Timeline.advance { t with landed := if t.landed.contains n then t.landed else n :: t.landed } (t.landed.length + 1)

/-- A number of a group's timeline lands: the counter advances and the threads that waited for it go on (R348). -/
def State.landNumber (s : State) (core gslot tl n : Nat) : State :=
  let s1 := s.modGroup core gslot (fun g => { g with timelines := modifyAt g.timelines tl (fun t => t.land n) })
  match s1.group core gslot with
  | some g =>
    let c := ((g.timelines[tl]?).map (fun t => t.counter)).getD 0
    s1.wakeGroup core g (fun a => match a with
      | .timeline t k => t == tl && decide (k ≤ c)
      | _ => false)
  | none => s1

/-- Commands of a unit that have not started (R336). -/
def State.unstarted (s : State) (core unit : Nat) : Nat :=
  ((((s.core core).engines[unit]?).map (fun e => e.ops)).getD []).countP (fun o => o.started.isNone)

/-- An engine command waits for its thread's earlier acquires, and, when it is tainted, for its load-consumes (R97, R105). -/
def State.commandWaits (s : State) (r : CrewRef) (l0 : Nat) (tainted : Bool) : Bool :=
  (s.crew r).loads.any (fun q => q.lanes.getLsbD l0 && (q.kind.acquires || (q.kind.consumes && tainted)))

/-- What an accepted command leaves for a saved image (R460). -/
def State.engineImage (s : State) (i : Issue) (l0 : Nat) (work : EngWork) : EngImage :=
  let f := L64.ofWord (BitVec.ofNat 64 i.word)
  let op := bits i.word 8 2
  let base := (s.allocation i.ref).1
  let at_ := fun (off n : Nat) => s.engineBytes i.ref l0 (.scratch i.core (base + off)) n
  let far := op == 0x70 || op == 0x71 || op == 0x72 || op == 0x7C
  let a := (s.regL0 i f.a l0).toNat
  let b := (s.regL0 i f.b l0).toNat
  let row := match ((s.core i.core).banks.getD a ⟨.closed, 0, 0⟩).state with
    | .open_ r => r
    | .opening r _ _ _ => r
    | _ => 0
  let rec_ : List Byte × List Byte := match work with
    | .copy _ _ =>
      if op == 0x71 then (at_ b 128, [])
      else if op == 0x72 then (at_ b 32, at_ (field (at_ b 32) 0 4) (4 * field (at_ b 32) 4 4)) else ([], [])
    | .mul p =>
      (match p.conv, p.rows with
       | some c, _ => (at_ a 64 ++ c, [])
       | none, some r => (at_ a 64, r.flatMap (fun x => toBytes 4 x))
       | none, none => (at_ a 64, []))
    | .drain _ => (at_ a 32, [])
    | .rcon _ _ data descs _ => (data ++ descs.flatMap (fun d => toBytes 2 d.1 ++ toBytes 2 d.2), [])
    | _ => ([], [])
  { word := i.word, dst := if far then s.pairL0 i f.d l0 else 0
    src := if far then s.pairL0 i f.a l0 else if op == 0x79 then vaultVa (rowAddr 0 a row - vaultAddr 0 0) else a,
    bval := s.regL0 i f.b l0, cval := s.regL0 i f.c l0, data := rec_.1, index := rec_.2 }

/-- A command accepted by a unit: a quarantine entry, its number, its place in the unit's order (R336). load is the load
record of a command that writes a register; the slot of any other clears at acceptance (R106). -/
def State.accept (s : State) (i : Issue) (l0 unit tl total : Nat) (work : EngWork) (started : Bool) : State :=
  match s.gslotOf i.ref with
  | none => s
  | some gslot =>
    let id := s.nextId
    let taken := match s.group i.core gslot with
      | some g => (g.timelines.getD tl .reset).take
      | none => (0, .reset)
    let op : EngOp :=
      { id := id, tl := tl, num := taken.1, gslot := gslot, crew := i.ref,
        region := (((s.crew i.ref).region).map (fun g => g.id)).getD 0, lane := l0, pc := i.pc, work := work,
        released := false, started := if started then some s.cycle else none, nextAt := 0, step := 0, total := total,
        staged := [], landed := 0, readDone := if started then some s.cycle else none, dead := false, done := false,
        image := s.engineImage i l0 work, held := false, first := 0 }
    let s1 := (s.fresh.2).modGroup i.core gslot (fun g =>
      { g with timelines := modifyAt g.timelines tl (fun _ => taken.2) })
    let s2 := s1.modCore i.core (fun k => { k with engines := modifyAt k.engines unit (fun e => { e with ops := e.ops ++ [op] }) })
    s2.modCrew i.ref (fun w => w.hold (.engine unit id) 1)

/-- A command with a part on a strongly ordered page waits for its thread's previous strongly ordered access (R89, R91). -/
def State.strongFirst (s : State) (i : Issue) (l0 : Nat) (pages : List Page) : Option State :=
  if pages.any (fun p => p.ord == 1) && s.strongOpen i.ref (BitVec.ofNat 32 (2 ^ l0)) then
    match s.blockHead i with
    | .ok t => some (t.waitFor i .fence)
    | .error t => some t
  else none

/-- What an accepted command waits for before its acceptance: its thread's acquires, room in the unit, an entry. -/
def State.acceptWait (s : State) (i : Issue) (l0 unit : Nat) (tainted : Bool) : Option State :=
  if s.commandWaits i.ref l0 tainted then some (s.waitFor i .fence)
  else if Config.engineQueue ≤ s.unstarted i.core unit then some (s.waitFor i .engine)
  else s.needEntries i 1

/-- A command accepted, after its waits, and its issue group retired. -/
def State.command (s : State) (i : Issue) (f : L64) (l0 unit total : Nat) (tainted : Bool) (work : EngWork) : State :=
  match s.acceptWait i l0 unit tainted with
  | some u => u
  | none => ((s.setter i (slotOf f.sbs) 0).2.accept i l0 unit unit total work false).retire i false

/-! ### Copies -/

/-- A run of bytes of a copy by address: source, destination, length. -/
structure VRun where
  src : Nat
  dst : Nat
  len : Nat
  deriving DecidableEq, Repr

/-- Runs that follow one another at both ends, joined. -/
def joinRuns : List VRun → List VRun
  | [] => []
  | x :: r =>
    match joinRuns r with
    | y :: q =>
      if (x.src + x.len) % 2 ^ 64 == y.src && (x.dst + x.len) % 2 ^ 64 == y.dst then ⟨x.src, x.dst, x.len + y.len⟩ :: q
      else x :: y :: q
    | [] => [x]

/-- A run cut at the 64-byte blocks of its source and its destination. -/
def cutRun : Nat → VRun → List VRun
  | 0, _ => []
  | fuel + 1, x =>
    let n := min x.len (min (64 - x.src % 64) (64 - x.dst % 64))
    if n == 0 then []
    else ⟨x.src, x.dst, n⟩ :: cutRun fuel ⟨(x.src + n) % 2 ^ 64, (x.dst + n) % 2 ^ 64, x.len - n⟩

/-- The pieces of a copy: runs joined, then cut at blocks. -/
def pieces (l : List VRun) : List VRun := (joinRuns l).flatMap (fun x => cutRun (x.len / 32 + 4) x)

/-- The checks of a copy's pieces (R338): the places and pages of each, or the first failure. A range over several cluster
windows is checked piece by piece, each window by itself: the manual states NOWINDOW for an access that crosses a window, and
does not say whether an engine's range is one access (R52, R53, log 17). -/
def State.resolveRuns (s : State) (r : CrewRef) (l0 : Nat) : List VRun → Except (Cause × Nat) (List (CopyRun × Target × Target × VRun))
  | [] => .ok []
  | x :: rest =>
    match s.resolve r l0 .engineRead x.src x.len, s.resolve r l0 .engineWrite x.dst x.len with
    | .error c, _ => .error (c, x.src)
    | _, .error c => .error (c, x.dst)
    | .ok a, .ok b =>
      match State.resolveRuns s r l0 rest with
      | .error e => .error e
      | .ok l => .ok (({ va := x.src, src := a.loc, dst := b.loc, len := x.len, srcPage := a.page, dstPage := b.page }, a, b, x) :: l)

/-- The barrier object that a copy credits: none with C = 67, else a bound object's offset (R347). -/
def State.creditOf (s : State) (i : Issue) (f : L64) (l0 : Nat) : Except (Cause × Nat) (Option Nat) :=
  if f.c.toNat == 67 then .ok none
  else
    let off := (s.regL0 i f.c l0).toNat
    match s.groupOf i.ref with
    | some g => if g.barriers.contains off then .ok (some off) else .error (causeBarobj, windowVa off)
    | none => .error (causeBarobj, windowVa off)

/-- A copy of runs accepted by context k (R336 to R347). -/
def State.copyRuns (s : State) (i : Issue) (f : L64) (part : Mask) (l0 : Nat) (runs : List VRun) : State :=
  let total := (runs.map (fun x => x.len)).sum
  match s.resolveRuns i.ref l0 (pieces runs), s.creditOf i f l0 with
  | .error e, _ => s.failL0 i l0 e.1 e.2
  | _, .error e => s.failL0 i l0 e.1 e.2
  | .ok l, .ok credit =>
    let w := s.crew i.ref
    let tainted := ((w.pairTaint f.a.toNat ||| w.pairTaint f.d.toNat) &&& part).getLsbD l0
    match (s.strongFirst i l0 (l.flatMap (fun x => [x.1.srcPage, x.1.dstPage]))).or (s.acceptWait i l0 f.mx.toNat tainted) with
    | some u => u
    | none =>
      let s1 := l.foldl (fun (st : State) x =>
        (st.useTarget i.ref x.2.2.2.src x.2.1 false).useTarget i.ref x.2.2.2.dst x.2.2.1 true) s
      s1.command i f l0 f.mx.toNat ((total + Config.chunk - 1) / Config.chunk) tainted (.copy (l.map (fun x => x.1)) credit)

/-- CPY (R342). -/
def execCpy (f : L64) (s : State) : Host.Outcome State Fault Refusal :=
  s.engineWith f [f.d.toNat, f.d.toNat + 1, f.a.toNat, f.a.toNat + 1, f.b.toNat, f.c.toNat] [] false (fun i t part l0 =>
    let src := t.pairL0 i f.a l0
    let dst := t.pairL0 i f.d l0
    let n := (t.regL0 i f.b l0).toNat
    if src % 16 != 0 then t.failL0 i l0 causeEngine src
    else if dst % 16 != 0 then t.failL0 i l0 causeEngine dst
    else if n % 16 != 0 then t.failL0 i l0 causeEngine n
    else t.copyRuns i f part l0 (if n == 0 then [] else [⟨src, dst, n⟩]))

/-- A signed 64-bit field of a record, as a number modulo 2^64. -/
def stride (b : List Byte) (off : Nat) : Nat := field b off 8

/-- The limits of a shape record (R343). -/
def shapeBad (b : List Byte) : Bool :=
  let ndim := field b 0x01 1
  let e := fun (k : Nat) => field b (0x08 + 4 * k) 4
  decide (4 < field b 0x00 1) || ndim == 0 || decide (4 < ndim) || field b 0x02 6 != 0 ||
    (upTo 4).any (fun k => e k == 0 || decide (2 ^ 24 < e k) || (decide (ndim ≤ k) && e k != 1)) ||
    (b.drop 0x48).any (fun x => x != 0) || decide (2 ^ 32 ≤ e 0 * e 1 * e 2 * e 3 * 2 ^ field b 0x00 1)

/-- A stride or a base address of a shape that is not a multiple of the element's size (R343). -/
def shapeMisaligned (b : List Byte) (src dst : Nat) : Option Nat :=
  let z := 2 ^ field b 0x00 1
  ([src, dst] ++ (upTo 3).flatMap (fun k => [stride b (0x18 + 8 * k), stride b (0x30 + 8 * k)])).find? (fun x => x % z != 0)

/-- The runs of a shape in traversal order: for each (i3, i2, i1) the elements of i0 follow one another (R344). -/
def shapeRuns (b : List Byte) (src dst : Nat) : List VRun :=
  let e := fun (k : Nat) => field b (0x08 + 4 * k) 4
  (upTo (e 3)).flatMap (fun i3 => (upTo (e 2)).flatMap (fun i2 => (upTo (e 1)).map (fun i1 =>
    { src := (src + i1 * stride b 0x18 + i2 * stride b 0x20 + i3 * stride b 0x28) % 2 ^ 64
      dst := (dst + i1 * stride b 0x30 + i2 * stride b 0x38 + i3 * stride b 0x40) % 2 ^ 64
      len := e 0 * 2 ^ field b 0x00 1 })))

/-- CPYT (R343, R344). -/
def execCpyt (f : L64) (s : State) : Host.Outcome State Fault Refusal :=
  s.engineWith f [f.d.toNat, f.d.toNat + 1, f.a.toNat, f.a.toNat + 1, f.b.toNat, f.c.toNat] [] false (fun i t part l0 =>
    let src := t.pairL0 i f.a l0
    let dst := t.pairL0 i f.d l0
    let off := (t.regL0 i f.b l0).toNat
    match t.record i l0 off 128 64 with
    | .error e => t.failL0 i l0 e.1 e.2
    | .ok b =>
      if shapeBad b then t.failL0 i l0 causeParam (windowVa off)
      else
        match shapeMisaligned b src dst with
        | some x => t.failL0 i l0 causeEngine x
        | none => t.copyRuns i f part l0 (shapeRuns b src dst))

/-- The limits of a gather record (R345). -/
def gatherBad (b : List Byte) : Bool :=
  let count := field b 0x04 4
  let rowb := field b 0x08 4
  count == 0 || decide (65536 < count) || decide (rowb < 16) || decide (65536 < rowb) || rowb % 16 != 0 ||
    decide (1 < field b 0x0C 4) || field b 0x10 8 % 16 != 0 || field b 0x18 8 != 0

/-- The rows of a gather or a scatter in ascending order (R346). -/
def gatherRuns (b idx : List Byte) (src dst : Nat) : List VRun :=
  let rowb := field b 0x08 4
  (upTo (field b 0x04 4)).map (fun r =>
    let far := field idx (4 * r) 4 * field b 0x10 8
    if field b 0x0C 4 == 0 then ⟨(src + far) % 2 ^ 64, (dst + r * rowb) % 2 ^ 64, rowb⟩
    else ⟨(src + r * rowb) % 2 ^ 64, (dst + far) % 2 ^ 64, rowb⟩)

/-- CPYG (R345, R346). -/
def execCpyg (f : L64) (s : State) : Host.Outcome State Fault Refusal :=
  s.engineWith f [f.d.toNat, f.d.toNat + 1, f.a.toNat, f.a.toNat + 1, f.b.toNat, f.c.toNat] [] false (fun i t part l0 =>
    let src := t.pairL0 i f.a l0
    let dst := t.pairL0 i f.d l0
    let off := (t.regL0 i f.b l0).toNat
    match t.record i l0 off 32 16 with
    | .error e => t.failL0 i l0 e.1 e.2
    | .ok b =>
      if gatherBad b then t.failL0 i l0 causeParam (windowVa off)
      else
        match t.record i l0 (field b 0x00 4) (4 * field b 0x04 4) 4 with
        | .error e => t.failL0 i l0 e.1 e.2
        | .ok idx =>
          if src % 16 != 0 then t.failL0 i l0 causeEngine src
          else if dst % 16 != 0 then t.failL0 i l0 causeEngine dst
          else t.copyRuns i f part l0 (gatherRuns b idx src dst))

/-! ### Timeline waits -/

/-- TLWAIT (R348): each effective thread waits until the counter has reached its n. -/
def execTlwait (f : L64) (s : State) : Host.Outcome State Fault Refusal :=
  s.engineWith f [f.a.toNat, f.a.toNat + 1] [] false (fun i t part _ =>
    let w := t.crew i.ref
    let k := f.c.toNat % 8
    let counter := (((t.groupOf i.ref).bind (fun g => g.timelines[k]?)).map (fun x => x.counter)).getD 0
    let n := fun (l : Nat) => w.pair t.freeCtr f.a.toNat l
    let stay := part &&& Mask.ofFn (fun l => decide (counter < n l))
    t.awaitWith i part stay (fun l => .timeline k (n l)) 8)

/-! ### Tile operations -/

/-- A block's fields as an operation (R349, R356). rows and conv are read separately. -/
def mulOf (b : List Byte) : TileMul :=
  { aoff := field b 0x00 4, ald := field b 0x04 4, rows := none,
    boff := if field b 0x0C 4 == 0xFFFFFFFF then none else some (field b 0x0C 4), bld := field b 0x10 4,
    m := field b 0x14 2, n := field b 0x16 2, k := field b 0x18 4, tile := field b 0x1C 1, afmt := field b 0x1D 1,
    bfmt := field b 0x1E 1, chk := bit (field b 0x1F 1) 0, sparse := bit (field b 0x1F 1) 1, spoff := field b 0x20 4,
    saoff := field b 0x24 4, sboff := field b 0x28 4, g := 32 * 2 ^ field b 0x2C 1, conv := none }

/-- A format code given as integer (R350). -/
def intFmt (x : Nat) : Bool := x == 9 || x == 10

/-- A format code given as floating-point (R350). -/
def floatFmt (x : Nat) : Bool := 2 ≤ x && x ≤ 8

/-- BLD may be 32 (R351): the given or possible format of B is narrow enough for N columns in half a block. -/
def halfRows (p : TileMul) : Bool :=
  (p.bfmt == 0 || p.bfmt == 2 || p.bfmt == 3 || p.bfmt == 4 || p.bfmt == 5 || p.bfmt == 8 || p.bfmt == 9 || p.bfmt == 10) &&
    (if p.bfmt == 2 || p.bfmt == 3 then decide (p.n ≤ 16)
     else if p.bfmt == 4 || p.bfmt == 5 || p.bfmt == 9 then decide (p.n ≤ 32) else decide (p.n ≤ 64))

/-- The checks of a parameter block that raise PARAM (R349, R350); conv tells that it is TCONV's. -/
def mulBad (b : List Byte) (conv : Bool) : Bool :=
  let p := mulOf b
  let idx := field b 0x08 4
  p.aoff % 64 != 0 ||
    (if conv then p.ald != 0 || idx != 0 else p.ald % 64 != 0 || (idx != 0xFFFFFFFF && idx % 4 != 0)) ||
    (match p.boff with
     | some x => x % 64 != 0
     | none => false) ||
    !(p.bld % 64 == 0 || (p.bld == 32 && halfRows p)) ||
    p.m == 0 || decide (64 < p.m) || p.n == 0 || decide (64 < p.n) || decide (p.k < 16) || decide (65536 < p.k) ||
    decide (7 < p.tile) || p.afmt == 1 || decide (10 < p.afmt) || p.bfmt == 1 || decide (10 < p.bfmt) ||
    decide (3 < field b 0x1F 1) || decide (2 < field b 0x2C 1) || field b 0x2D 1 != 0 || (b.drop 0x2E).any (fun x => x != 0) ||
    (if p.sparse then p.spoff % 64 != 0 else p.spoff != 0) ||
    (if floatFmt p.afmt then p.saoff != 0 else p.saoff % 4 != 0) ||
    (if floatFmt p.bfmt then p.sboff != 0 else p.sboff % 4 != 0) ||
    (intFmt p.afmt && floatFmt p.bfmt) || (floatFmt p.afmt && intFmt p.bfmt) ||
    p.k % 16 != 0 || (p.sparse && p.k % 32 != 0) ||
    ((intFmt p.afmt || intFmt p.bfmt) && (p.k % p.g != 0 || p.sparse)) ||
    (p.boff.isNone && decide (2048 < p.k * p.bld))

/-- The ranges of scratchpad that a parameter block names beside A and the index vector (R350): offset and length. -/
def mulRanges (p : TileMul) : List (Nat × Nat) :=
  (match p.boff with
   | some x => [(x, p.k * p.bld)]
   | none => []) ++
  (if p.sparse then [(p.spoff, 512 * p.steps)] else []) ++
  (if intFmt p.afmt then [(p.saoff, 4 * p.m * (p.k / p.g))] else []) ++
  (if intFmt p.bfmt then [(p.sboff, 4 * p.n * (p.k / p.g))] else [])

/-- The first range that leaves the allocation. -/
def State.outside (s : State) (i : Issue) (l : List (Nat × Nat)) : Option Nat :=
  (l.find? (fun x => !s.inAllocation i x.1 x.2)).map (fun x => x.1)

/-- The number of tiles of a group (R35). -/
def State.tilesOf (s : State) (r : CrewRef) : Nat := ((s.groupOf r).map (fun g => g.tiles.length)).getD 0

/-- The index vector of a TMAC read at acceptance (R354): PARAM on an entry of 2^32 ÷ ALD or more. -/
def State.rowVector (s : State) (i : Issue) (l0 idx : Nat) (p : TileMul) : Except (Cause × Nat) (Option (List Nat)) :=
  if idx == 0xFFFFFFFF then .ok none
  else match s.record i l0 idx (4 * p.m) 4 with
    | .error e => .error e
    | .ok v =>
      let rows := (upTo p.m).map (fun k => field v (4 * k) 4)
      if rows.any (fun x => 2 ^ 32 ≤ x * p.ald) then .error (causeParam, windowVa idx) else .ok (some rows)

/-- TMAC's block with its checks (R350, R354): the operation, or the cause and address. -/
def State.tmacBlock (s : State) (i : Issue) (l0 off : Nat) : Except (Cause × Nat) TileMul :=
  match s.record i l0 off 64 64 with
  | .error e => .error e
  | .ok b =>
    let p := mulOf b
    if mulBad b false then .error (causeParam, windowVa off)
    else if s.tilesOf i.ref ≤ p.tile then .error (causeTile, windowVa off)
    else match s.rowVector i l0 (field b 0x08 4) p with
      | .error e => .error e
      | .ok rows =>
        let top := (rows.map (fun r => r.foldl max 0)).getD (p.m - 1)
        match s.outside i ((p.aoff, (top + 1) * p.ald) :: mulRanges p) with
        | some x => .error (causeBounds, windowVa x)
        | none => .ok { p with rows := rows }

/-- The limits of a convolution record (R356). -/
def convBad (c : List Byte) (k : Nat) : Bool :=
  let ch := field c 0x0C 2
  let small := fun (off : Nat) => decide (field c off 1 < 1) || decide (16 < field c off 1)
  field c 0x00 4 % 64 != 0 || field c 0x04 4 % 64 != 0 || field c 0x08 2 == 0 || field c 0x0A 2 == 0 ||
    ch % 16 != 0 || decide (ch < 16) || decide (4096 < ch) || small 0x0E || small 0x0F || small 0x10 || small 0x11 ||
    small 0x12 || small 0x13 || field c 0x18 2 == 0 || field c 0x1A 2 != 0 || (c.drop 0x24).any (fun x => x != 0) ||
    k != field c 0x0E 1 * field c 0x0F 1 * ch

/-- The highest pixel inside the input that an operation reads: the offset of its row (R357). -/
def convTop (c : List Byte) (m k : Nat) : Option Nat :=
  ((upTo m).flatMap (fun i => (upTo k).filterMap (fun x => (convPixel c i x).2))).foldl (fun a x => some (max x (a.getD 0))) none

/-- TCONV's block and record with their checks (R356, R357). -/
def State.tconvBlock (s : State) (i : Issue) (l0 off : Nat) : Except (Cause × Nat) TileMul :=
  match s.record i l0 off 64 64 with
  | .error e => .error e
  | .ok b =>
    let p := mulOf b
    if mulBad b true then .error (causeParam, windowVa off)
    else if s.tilesOf i.ref ≤ p.tile then .error (causeTile, windowVa off)
    else match s.record i l0 p.aoff 64 64 with
      | .error e => .error e
      | .ok c =>
        if convBad c p.k then .error (causeParam, windowVa p.aoff)
        else
          match s.outside i (((convTop c p.m p.k).map (fun x => (x, field c 0x04 4))).toList ++ mulRanges p) with
          | some x => .error (causeBounds, windowVa x)
          | none => .ok { p with conv := some c }

/-- A multiply accepted by the tile engine. -/
def State.commandMul (s : State) (i : Issue) (f : L64) (l0 : Nat) (x : Except (Cause × Nat) TileMul) : State :=
  match x with
  | .error e => s.failL0 i l0 e.1 e.2
  | .ok p => s.command i f l0 4 p.steps false (.mul p)

/-- TMAC (R349 to R355). -/
def execTmac (f : L64) (s : State) : Host.Outcome State Fault Refusal :=
  s.engineWith f [f.a.toNat] [] false (fun i t _ l0 => t.commandMul i f l0 (t.tmacBlock i l0 (t.regL0 i f.a l0).toNat))

/-- TCONV (R356, R357). -/
def execTconv (f : L64) (s : State) : Host.Outcome State Fault Refusal :=
  s.engineWith f [f.a.toNat] [] false (fun i t _ l0 => t.commandMul i f l0 (t.tconvBlock i l0 (t.regL0 i f.a l0).toNat))

/-- A drain block as an operation, its rows not yet resolved (R358). -/
def drainOf (b : List Byte) : TileDrain :=
  let fl := field b 0x0E 1
  { rows := [], tile := field b 0x0C 1, ofmt := field b 0x0D 1, add := bit fl 0, choose := bit fl 1, nsat := bit fl 2,
    mode := bits fl 4 3, zero := bit fl 5, tid := field b 0x0F 1, m := field b 0x10 2, n := field b 0x12 2,
    oscale := BitVec.ofNat 32 (field b 0x14 4), se := field b 0x18 1, sf := field b 0x19 1 }

/-- The checks of a drain block that raise PARAM (R358). -/
def drainBad (b : List Byte) : Bool :=
  let p := drainOf b
  field b 0x08 4 % 64 != 0 || decide (7 < p.tile) || decide (7 < p.ofmt) || decide (63 < field b 0x0E 1) || decide (63 < p.tid) ||
    p.m == 0 || decide (64 < p.m) || p.n == 0 || decide (64 < p.n) || p.se == 255 || decide (1 < p.sf) ||
    (b.drop 0x1A).any (fun x => x != 0) || (p.ofmt ≤ 2 && (p.choose || p.se != 0 || p.sf != 0)) ||
    (p.add && (decide (1 < p.ofmt) || p.choose))

/-- The destination blocks of a drain checked in order: places and pages by row (R338, R358). -/
def State.drainRows (s : State) (i : Issue) (l0 dst dld : Nat) (p : TileDrain) :
    Except (Cause × Nat) (List (List (Target × Nat))) :=
  (upTo p.m).mapM (fun row => (upTo p.blocks).mapM (fun blk =>
    let va := (dst + row * dld + 64 * blk) % 2 ^ 64
    match s.resolve i.ref l0 .engineWrite va 64 with
    | .error c => .error (c, va)
    | .ok t => .ok (t, va)))

/-- An add-on-store's destination: one aligned 16 KiB range, and a bulk page with THG = 1 (R360). -/
def State.addRange (s : State) (dst dld : Nat) (p : TileDrain) (l : List (Target × Nat)) : Bool :=
  let last := dst + (p.m - 1) * dld + p.n * (if p.ofmt == 0 then 4 else 2) - 1
  dst / 16384 == last / 16384 && l.all (fun x => match x.1.loc with
    | .mem a => s.storageAt a != some .bulk || x.1.page.thg
    | .scratch _ _ => true)

/-- TDRAIN (R358 to R360). -/
def execTdrain (f : L64) (s : State) : Host.Outcome State Fault Refusal :=
  s.engineWith f [f.a.toNat] [] false (fun i t _ l0 =>
    let off := (t.regL0 i f.a l0).toNat
    match t.record i l0 off 32 32 with
    | .error e => t.failL0 i l0 e.1 e.2
    | .ok b =>
      let p := drainOf b
      let dst := field b 0x00 8
      let dld := field b 0x08 4
      if drainBad b then t.failL0 i l0 causeParam (windowVa off)
      else if t.tilesOf i.ref ≤ p.tile then t.failL0 i l0 causeTile (windowVa off)
      else if dst % 64 != 0 then t.failL0 i l0 causeEngine dst
      else
        match t.drainRows i l0 dst dld p with
        | .error e => t.failL0 i l0 e.1 e.2
        | .ok rows =>
          if p.add && !t.addRange dst dld p rows.flatten then t.failL0 i l0 causeParam dst
          else
            match (t.strongFirst i l0 (rows.flatten.map (fun x => x.1.page))).or (t.acceptWait i l0 4 false) with
            | some u => u
            | none =>
              let t1 := rows.flatten.foldl (fun (st : State) x => st.useTarget i.ref x.2 x.1 true) t
              t1.command i f l0 4 p.m false
                (.drain { p with rows := rows.map (fun r => r.map (fun x => (x.1.loc, x.1.page))) }))

/-- TCTL.ZERO (R361). -/
def execTctlZero (f : L64) (s : State) : Host.Outcome State Fault Refusal :=
  s.engineWith f [] [] false (fun i t _ l0 =>
    let k := bits f.c.toNat 5 3
    if t.tilesOf i.ref ≤ k then t.failL0 i l0 causeTile 0 else t.command i f l0 4 1 false (.tzero k))

/-- TCTL.LOAD (R361, R512). -/
def execTctlLoad (f : L64) (s : State) : Host.Outcome State Fault Refusal :=
  s.engineWith f [f.a.toNat] [] false (fun i t _ l0 =>
    let k := bits f.c.toNat 5 3
    let chk := bit f.c.toNat 2
    let off := (t.regL0 i f.a l0).toNat
    if t.tilesOf i.ref ≤ k then t.failL0 i l0 causeTile 0
    else if off % 64 != 0 then t.failL0 i l0 causeParam (windowVa off)
    else if !t.inAllocation i off (if chk then 16900 else 16384) then t.failL0 i l0 causeBounds (windowVa off)
    else t.command i f l0 4 1 false (.tload k off chk))

/-- TCTL.STAT (R361): its register is written when the status is read; its slot clears then. -/
def execTctlStat (f : L64) (s : State) : Host.Outcome State Fault Refusal :=
  s.engineWith f [f.d.toNat] [] false (fun i t part l0 =>
    let k := bits f.c.toNat 5 3
    if t.tilesOf i.ref ≤ k then t.failL0 i l0 causeTile 0
    else
      match t.acceptWait i l0 4 false with
      | some u => u
      | none =>
        match t.needCredits i part [f.d.toNat] with
        | some u => u
        | none =>
          let setter := t.nextId
          let t1 := t.startValue i (slotOf f.sbs) [f.d.toNat] part zeroContent 0 (2 ^ 64)
          (t1.accept i l0 4 4 1 (.tstat k f.d.toNat part setter) false).retire i false)

/-! ### The row riser -/

/-- The bank that an operand names, and the checks that RACT, RCON and RPRE share (R340, R364, R365, R370). -/
def State.riserWith (s : State) (i : Issue) (l0 : Nat) (bank : Word) (body : Nat → State → State) : State :=
  if !s.vaultOn (s.ctxOf i.ref) i.core then s.failL0 i l0 causeVaultoff 0
  else if 31 < bank.toNat then s.failL0 i l0 causeParam 0
  else body bank.toNat (s.pin i.ref)

/-- The state with a bank of a core changed. -/
def State.modBank (s : State) (core bank : Nat) (f : Bank → Bank) : State :=
  s.modCore core (fun k => { k with banks := modifyAt k.banks bank f })

/-- A bank of a core. -/
def State.bank (s : State) (core bank : Nat) : Bank := (s.core core).banks.getD bank ⟨.closed, 0, 0⟩

/-- A row activated in a bank (R365, R366, R371): the earliest start after the bank's transfer and ordinary access, after the
earlier activations, within the window and outside the refresh slot. -/
def State.activate (s : State) (core bank row : Nat) : State :=
  let now := s.clock core
  let b := s.bank core bank
  let acts := (s.core core).activations
  let from_ := acts.foldl max (max now (max b.transferEnd b.accessEnd))
  let start := activationStart acts bank 64 from_
  let open_ := fun (pen : Nat) => s.modBank core bank (fun b => { b with state := .opening row start (start + pen) false })
  match b.state with
  | .closed => open_ 22
  | .lost => open_ 30
  | .open_ r => if r == row then s else open_ 30
  | .opening r _ _ _ => if r == row then s else open_ 30

/-- RACT (R365). -/
def execRact (f : L64) (s : State) : Host.Outcome State Fault Refusal :=
  s.engineWith f [f.a.toNat, f.b.toNat] [] true (fun i t _ l0 =>
    t.riserWith i l0 (t.regL0 i f.a l0) (fun bank u =>
      let row := (u.regL0 i f.b l0).toNat
      if 6143 < row then t.failL0 i l0 causeParam 0 else (u.activate i.core bank row).retire i false))

/-- RPRE (R370). -/
def execRpre (f : L64) (s : State) : Host.Outcome State Fault Refusal :=
  s.engineWith f [f.a.toNat] [] true (fun i t _ l0 =>
    t.riserWith i l0 (t.regL0 i f.a l0) (fun bank u =>
      (u.modBank i.core bank (fun b => { b with state := .closed })).retire i false))

/-- What RCON finds at a bank (R368): the open row, or the ROW code; opening tells that .W may hold for it. -/
def Bank.rcon (b : Bank) (bank now : Nat) : Except (Nat × Bool) Nat :=
  match b.state with
  | .closed => .error (3, false)
  | .lost => .error (2, false)
  | .opening _ _ _ _ => .error (1, true)
  | .open_ row =>
    let t := now % Config.refreshPeriod
    let first := Config.refreshStep * bank
    let to_ := (first + Config.refreshPeriod - t) % Config.refreshPeriod
    if 0 < to_ && to_ < 4 then .error (2, false) else .ok row

/-- The offset of RCON.S checked (R338, R368): its place in the core's scratchpad. -/
def State.rconDest (s : State) (i : Issue) (l0 off : Nat) : Except (Cause × Nat) Nat :=
  if off % 64 != 0 then .error (causeEngine, windowVa off)
  else
    match (upTo 32).mapM (fun k => s.resolveScratch i.ref .engineWrite (off + 64 * k) 64) with
    | .error c => .error (c, windowVa off)
    | .ok _ => .ok ((s.allocation i.ref).1 + off)

/-- RCON accepted: the transfer begins, and the row goes with its descriptor copies as the thread's engine reads find them
(R108, R363, R368). The address of a block that fails is its own-vault-window address (log 42). -/
def State.startRcon (s : State) (i : Issue) (f : L64) (l0 bank row : Nat) (dst : Option Nat) : State :=
  let a := rowAddr i.core bank row
  let blocks := (upTo 32).map (fun k => Loc.mem (a + 64 * k))
  let descs := blocks.map (s.engineDesc i.ref l0)
  let bad := (upTo 32).findSome? (fun k =>
    (s.blockFault (descs.getD k (0, 0)) (.mem (a + 64 * k))).map (fun c => (c, a - vaultAddr i.core 0 + 64 * k)))
  let work : EngWork := .rcon dst s.cycle (s.engineBytes i.ref l0 (.mem a) 2048) descs bad
  let s1 := s.modBank i.core bank (fun b => { b with transferEnd := max b.transferEnd (s.clock i.core + 4) })
  let s2 := if dst.isNone then s1.modCore i.core (fun k => { k with latch := { k.latch with owner := s.gslotOf i.ref } }) else s1
  s2.command i f l0 4 1 false work

/-- RCON (R368, R369): with .ST a status register instead of the ROW causes. -/
def execRcon (f : L64) (s : State) : Host.Outcome State Fault Refusal :=
  let st := bit f.c.toNat 2
  let writes := if st then [f.d.toNat] else []
  s.engineWith f ([f.a.toNat, f.b.toNat] ++ writes) writes false (fun i t part l0 =>
    t.riserWith i l0 (t.regL0 i f.a l0) (fun bank u =>
      let dest : Except (Cause × Nat) (Option Nat) :=
        if bit f.c.toNat 1 then (u.rconDest i l0 (u.regL0 i f.b l0).toNat).map some else .ok none
      let taint := u.l0Taint i l0 ([f.a.toNat] ++ (if bit f.c.toNat 1 then [f.b.toNat] else []))
      let status := fun (v : State) (n : Nat) =>
        if st then v.writeReg i.ref f.d.toNat part (sameWord (BitVec.ofNat 32 n)) taint else v
      match dest with
      | .error e => t.failL0 i l0 e.1 e.2
      | .ok d =>
        match (u.bank i.core bank).rcon bank (u.clock i.core) with
        | .error e =>
          if e.2 && bit f.c.toNat 0 then t.waitFor i .engine
          else
            let u1 := if e.1 == 3 then u else u.modSub i.core i.sub (fun b => b.count 16)
            if st then (status u1 e.1).retire i false else u1.failL0 i l0 (4, e.1) 0
        | .ok row =>
          match u.acceptWait i l0 4 false with
          | some v => v
          | none => (status u 0).startRcon i f l0 bank row d))

end Sys2Proof.Machine
end

