-- ==== Sys2Proof/Machine/EngineSteps.lean ====
section
/-! DEFINITION. The steps of a core's engines: an operation's start, its steps, its units in staging and their landing, its
end on an error; the states of the row riser's banks (R76, R108, R109, R133, R146, R147, R167 to R169, R337 to R371,
R496). -/

namespace Sys2Proof.Machine

/-! ### Operations of a unit -/

/-- The state with the operations of a unit changed. -/
def State.modOps (s : State) (core unit : Nat) (f : List EngOp → List EngOp) : State :=
  s.modCore core (fun k => { k with engines := modifyAt k.engines unit (fun e => { e with ops := f e.ops }) })

/-- The state with an operation changed. -/
def State.modOp (s : State) (core unit id : Nat) (f : EngOp → EngOp) : State :=
  s.modOps core unit (fun l => l.map (fun o => if o.id == id then f o else o))

/-- The tile that a work names. -/
def EngWork.tile (w : EngWork) : Option Nat :=
  match w with
  | .mul p => some p.tile
  | .drain p => some p.tile
  | .tzero k => some k
  | .tload k _ _ => some k
  | .tstat k _ _ _ => some k
  | _ => none

/-- The work writes the live tile (R169). -/
def EngWork.writesTile (w : EngWork) : Bool :=
  match w with
  | .mul _ => true
  | .drain p => p.zero
  | .tzero _ => true
  | .tload _ _ _ => true
  | _ => false

/-- An RCON into the row latch. -/
def EngWork.fillsLatch (w : EngWork) : Bool :=
  match w with
  | .rcon none _ _ _ _ => true
  | _ => false

/-- A TMAC or TCONV that reads the latch (R363). -/
def EngWork.readsLatch (w : EngWork) : Bool :=
  match w with
  | .mul p => p.boff.isNone
  | _ => false

/-- Two operations act on one tile of one group. -/
def EngOp.sameTile (a b : EngOp) : Bool := a.gslot == b.gslot && a.work.tile.isSome && a.work.tile == b.work.tile

/-- The operation has read its last source byte by a cycle (R337). -/
def EngOp.readBy (o : EngOp) (now : Nat) : Bool := (o.readDone.map (fun t => decide (t ≤ now))).getD false

/-- The operations before one. -/
def opsBefore (l : List EngOp) (id : Nat) : List EngOp := l.takeWhile (fun o => o.id != id)

/-- A tile of a group. -/
def State.tile (s : State) (core gslot k : Nat) : TileSlot :=
  ((s.group core gslot).bind (fun g => g.tiles[k]?)).getD .reset

/-- The state with a tile changed. -/
def State.modTile (s : State) (core gslot k : Nat) (f : TileSlot → TileSlot) : State :=
  s.modGroup core gslot (fun g => { g with tiles := modifyAt g.tiles k f })

/-- Every crew of a group has drained (R444). -/
def State.crewsDrained (s : State) (core : Nat) (g : Group) : Bool := g.crews.all (fun x => (s.crew ⟨core, x.1, x.2⟩).drained)

/-- The group of an operation is draining, so that what it has not started waits: at once when its launch has been stopped
(R30), else once its crews have drained (R444). An operation that runs again after it has landed runs on. -/
def State.opDrains (s : State) (core : Nat) (o : EngOp) : Bool :=
  match s.group core o.gslot with
  | some g => g.draining && !o.done && (s.crewsDrained core g || ((s.launch? g.lslot).all (fun l => l.status.isSome)))
  | none => true

/-- The launch of an operation has been stopped: what it has staged and not finished is discarded (R30). -/
def State.opDiscarded (s : State) (core : Nat) (o : EngOp) : Bool :=
  match s.group core o.gslot with
  | some g => (s.launch? g.lslot).all (fun l => l.status.isSome)
  | none => true

/-- Nothing of an operation is under way: it has finished, has stopped at a step boundary with nothing staged, has not started
and waits for the drain, or binds a subscription (R30, R444). -/
def State.opQuiet (s : State) (core : Nat) (o : EngOp) : Bool :=
  o.done ||
  match o.work with
  | .subs _ => true
  | _ => if o.held then o.staged.isEmpty || s.opDiscarded core o else o.staged.isEmpty && o.started.isNone && s.opDrains core o

/-- The operations of a group are quiet on every unit. -/
def State.opsQuiet (s : State) (core gslot : Nat) : Bool :=
  (upTo 5).all (fun u => (s.engineOps core u).all (fun o => o.gslot != gslot || s.opQuiet core o))

/-- The cycles until the die-wide duty lets a step start (R496). -/
def State.dutyWait (s : State) (core : Nat) : Nat :=
  ((upTo 64).find? (fun d => ({ s with cycle := s.cycle + d } : State).dutyOn core)).getD 0

/-! ### Reads -/

/-- A byte as an operation reads it (R108): its thread's unreleased store that precedes the command, the core's outgoing
write, the home's byte; or, where its group has written the byte since the acceptance, that or the older one (R109, log 9). -/
def State.opByte (s : State) (o : EngOp) (p : Loc) : Byte :=
  let now := (youngestByte ((s.crew o.crew).storesBefore o.id) o.lane p).getD (s.sentByte o.crew.core p)
  match s.net.raced.find? (fun x => x.op == o.id && x.loc == p) with
  | some x => if Config.freeNewer (s.freeCtr + p.num) then now else x.old
  | none => now

/-- The descriptor copies of a block as an operation reads them (R73, R108). -/
def State.opDesc (s : State) (o : EngOp) (p : Loc) : Nat × Nat :=
  match youngestDesc ((s.crew o.crew).storesBefore o.id) o.lane p with
  | some d => (d, d)
  | none => s.sentDesc o.crew.core p

/-- What an operation's read of a block fails on (R73, R339, R347). -/
def State.opFault (s : State) (o : EngOp) (p : Loc) : Option Nat := s.blockFault (s.opDesc o p) p

/-- Bytes as an operation reads them. -/
def State.opBytes (s : State) (o : EngOp) (p : Loc) (n : Nat) : List Byte := (upTo n).map (fun k => s.opByte o (p.plus k))

/-- The start of an operation's allocation in its core's scratchpad. -/
def State.opBase (s : State) (o : EngOp) : Nat := ((s.group o.crew.core o.gslot).map (fun g => g.scrBase)).getD 0

/-- The latch as an operation finds it: the last RCON into it before the operation in its unit's order, else its contents
(R363). -/
def State.latchFor (s : State) (o : EngOp) : List Byte × List Nat :=
  let l := (opsBefore (s.engineOps o.crew.core 4) o.id).filter (fun x => x.work.fillsLatch && !x.dead)
  match l.getLast?.map EngOp.work with
  | some (.rcon _ _ data descs _) => (data, descs.map (fun d => d.1))
  | _ => ((s.core o.crew.core).latch.data, (s.core o.crew.core).latch.descs)

/-- What a tile operation reads with. -/
def State.fetcher (s : State) (o : EngOp) : Fetcher :=
  let base := s.opBase o
  let latch := s.latchFor o
  { bytes := fun off n => s.opBytes o (.scratch o.crew.core (base + off)) n
    descs := fun off =>
      let p := Loc.scratch o.crew.core (base + off)
      match s.opFault o p with
      | some c => .error c
      | none => .ok (s.opDesc o p).1
    size := ((s.group o.crew.core o.gslot).map (fun g => g.scrLen)).getD 0
    latch := latch.1, latchDescs := latch.2 }

/-! ### Starts -/

/-- The cycle an RCON into the latch that an operation reads began its transfer. -/
def State.latchStart (s : State) (o : EngOp) : Nat :=
  let l := (opsBefore (s.engineOps o.crew.core 4) o.id).filter (fun x => x.work.fillsLatch && !x.dead)
  match l.getLast?.map EngOp.work with
  | some (.rcon _ start _ _ _) => start
  | _ => 0

/-- The bytes of a copy. -/
def runsLength (l : List CopyRun) : Nat := (l.map (fun x => x.len)).sum

/-- The cycles a chunk's reading takes: 64 bytes a cycle (R337). -/
def chunkCycles (runs : List CopyRun) (step : Nat) : Nat :=
  (min Config.chunk (runsLength runs - Config.chunk * step) + 63) / 64

/-- The copy of the base that an operation pays before its first step when it is due (R169). -/
def State.forkCycles (s : State) (core : Nat) (o : EngOp) : Nat :=
  match o.work.tile with
  | some k => if o.work.writesTile && !(s.tile core o.gslot k).forked then 32 else 0
  | none => 0

/-- A drain's cycles before its first row, beside the tile's copy (R388). -/
def State.drainCycles (s : State) (core : Nat) (o : EngOp) (p : TileDrain) : Nat :=
  (if (s.tile core o.gslot p.tile).status.getLsbD 0 then 16 else 0) + (if p.choose then 16 else 0)

/-- The cycle in which the first step of an operation that starts now completes (R337, R354, R363, R388). -/
def State.firstStepAt (s : State) (core : Nat) (o : EngOp) : Nat :=
  let t := s.cycle + s.forkCycles core o
  match o.work with
  | .copy runs _ => s.cycle + 40 + chunkCycles runs o.step
  | .mul p =>
    let t1 := t + (if p.rows.isSome then 16 else 0)
    (if p.boff.isNone then max t1 (s.latchStart o + 10) else t1) + (s.fetcher o).stepCycles p o.step
  | .drain p => t + s.drainCycles core o p + 2
  | .tzero _ => t + 16
  | .tload _ _ chk => t + 256 + (if chk then 9 else 0)
  | .tstat _ _ _ _ => t + 4
  | .rcon _ start _ _ _ => max s.cycle (start + 10)
  | .subs _ => s.cycle

/-- The cycle by which an operation that starts now has read its last byte, when that is known at its start. -/
def State.readAtStart (s : State) (o : EngOp) : Option Nat :=
  match o.work with
  | .copy runs _ => if runsLength runs == 0 then some (s.cycle + 40) else none
  | .rcon _ start _ _ _ => some (max s.cycle (start + 4))
  | _ => none

/-- The live tile becomes a copy of the base as a write starts (R169). A multiply's start clears FAULT and STEPS (R362). -/
def State.forkTile (s : State) (core : Nat) (o : EngOp) : State :=
  match o.work.tile with
  | some k =>
    let s1 := if o.work.writesTile then
        s.modTile core o.gslot k (fun t => if t.forked then t else { t with live := t.base, forked := true })
      else s
    (match o.work with
     | .mul _ => if o.step == 0 then s1.modTile core o.gslot k (fun t => { t with status := t.status &&& 0xFFFD#32 }) else s1
     | _ => s1)
  | none => s

/-- No copy of a tile's base occupies an engine (R170). -/
def State.engineFree (s : State) (core unit : Nat) : Bool :=
  (((s.core core).engines[unit]?).map (fun e => decide (e.freeAt ≤ s.cycle))).getD true

/-- The operation that a unit may start: the first that has not, of a group that does not drain, when those before it have
read their sources; a write to a tile waits while three earlier operations on it are unsettled (R169, R337). -/
def State.startable (s : State) (core unit : Nat) : Option EngOp :=
  let ops := s.engineOps core unit
  match ops.find? (fun o => o.started.isNone && !o.dead && !s.opDrains core o) with
  | some o =>
    let before := opsBefore ops o.id
    if before.all (fun x => x.readBy s.cycle || x.dead || x.held || (x.started.isNone && s.opDrains core x)) &&
        (!o.work.writesTile || decide (before.countP (fun x => x.sameTile o) < 3)) && s.dutyOn core &&
        s.engineFree core unit then some o
    else none
  | none => none

/-- ENGINE_OP_START of the unit that State.sel names (R337). -/
def execEngineOpStart (s : State) : Host.Outcome State Fault Refusal :=
  let core := s.sel.a
  let unit := s.sel.b
  match s.startable core unit with
  | some o =>
    let at_ := s.firstStepAt core o
    let rd := s.readAtStart o
    .next ((s.forkTile core o).modOp core unit o.id (fun x =>
      { x with started := some s.cycle, nextAt := at_, readDone := rd }))
  | none => .next s

/-! ### Steps and staging -/

/-- The report of an error of an operation (R339): an asynchronous trap of its thread, or, when the crew has completed, the end
of the context. -/
def State.engineError (s : State) (core : Nat) (o : EngOp) (code va : Nat) : State :=
  if (s.crew o.crew).owner.isSome then
    s.modCrew o.crew (fun w => { w with async := w.async ++
      [{ cls := 6, code := code, lanes := BitVec.ofNat 32 (2 ^ o.lane), addrs := [(o.lane, BitVec.ofNat 64 va)], auxs := []
         kept := o.released, held := false }] })
  else
    match s.group core o.gslot with
    | some g => s.terminateContext g.ctx (some g.lslot) 6
    | none => s

/-- An error of an operation after its acceptance (R339): the operation is abandoned with what it has staged. -/
def State.abandon (s : State) (core unit : Nat) (o : EngOp) (code va : Nat) : State :=
  let empty : Staged := { writes := [], descs := [], done := s.cycle, tags := [], credit := 0, stats := [], add := none }
  (s.modOp core unit o.id (fun x =>
    { x with dead := true, readDone := some s.cycle, staged := if x.staged.isEmpty then [empty] else x.staged })).engineError
    core o code va

/-- The runs of a copy from a byte on, n bytes long. The mark tells that a run ends a whole aligned block copied in order
from one aligned block (R347). -/
def sliceRuns : Nat → Nat → List CopyRun → List (CopyRun × Bool)
  | _, _, [] => []
  | skip, n, x :: r =>
    if n == 0 then []
    else if x.len ≤ skip then sliceRuns (skip - x.len) n r
    else
      let k := min n (x.len - skip)
      ({ x with va := (x.va + skip) % 2 ^ 64, src := x.src.plus skip, dst := x.dst.plus skip, len := k },
       x.len == 64 && x.src.num % 64 == 0 && x.dst.num % 64 == 0 && skip + k == 64) :: sliceRuns 0 (n - k) r

/-- The lines that an engine has read at their homes (R64, R67): the tags of the homes' responses, on which its result depends
(R167, R171, R174). -/
def State.engineTags (s : State) (core : Nat) (l : List (Loc × Page)) : List Tag × State :=
  l.foldl (fun (acc : List Tag × State) x =>
    let h := acc.2.homeOf x.1 x.2.thg
    let r := acc.2.reach h x.1 x.2 false
    if taggedFor h core then
      let q := r.2.respond h { Response.for_ core s.cycle .none with fill := r.1 }
      (acc.1 ++ q.1.toList, q.2)
    else (acc.1, r.2)) ([], s)

/-- A draining group stops the operation at its next step boundary: a copy or a multiply; a drain of a tile finishes, unless
its launch has been stopped (R30, R444). -/
def State.stopsAtStep (s : State) (core : Nat) (o : EngOp) : Bool :=
  s.opDrains core o &&
  match o.work with
  | .drain _ => s.opDiscarded core o
  | _ => true

/-- A unit put in staging: the operation's next step follows; the last one ends its reading. -/
def State.stage (s : State) (core unit : Nat) (o : EngOp) (u : Option Staged) (next : Nat) : State :=
  let stop := s.stopsAtStep core o
  (s.spend).modOp core unit o.id (fun x =>
    let last := x.total ≤ x.step + 1
    { x with held := stop && !last, staged := x.staged ++ u.toList, step := x.step + 1, nextAt := next, resends := 0
             readDone := if last then some (x.readDone.getD s.cycle) else x.readDone })

/-- The runs of the chunk that a copy's present step reads (R168). -/
def EngOp.chunkRuns (o : EngOp) : List (CopyRun × Bool) :=
  match o.work with
  | .copy runs _ => sliceRuns (Config.chunk * o.step) Config.chunk runs
  | _ => []

/-- The chunk that a copy has read (R168, R347). -/
def State.stepCopy (s : State) (core unit : Nat) (o : EngOp) (runs : List CopyRun) (credit : Bool) : State :=
  let l := o.chunkRuns
  match l.findSome? (fun x => (s.opFault o x.1.src.block).map (fun c => (c, x.1.va))) with
  | some e => s.abandon core unit o e.1 e.2
  | none =>
    let q := s.engineTags core ((l.map (fun x => (x.1.src.line, x.1.srcPage))).eraseDups)
    let u : Staged :=
      { writes := l.map (fun x => (x.1.dst, s.opBytes o x.1.src x.1.len))
        descs := (l.filter (fun x => x.2)).map (fun x => (x.1.dst.block, (s.opDesc o x.1.src.block).1))
        done := s.cycle, tags := q.1, credit := if credit then (l.map (fun x => x.1.len)).sum else 0, stats := [], add := none }
    q.2.spend.stage core unit o (some u) (s.cycle + s.dutyWait core + chunkCycles runs (o.step + 1))

/-- The status word of a tile with STEPS, FAULT and CHKV (R362). -/
def tileStatus (old : Word) (steps : Nat) (fault chkv : Bool) : Word :=
  (old &&& 0x4#32) ||| BitVec.ofNat 32 (steps % 65536 * 65536 + (if fault then 2 else 0) + (if chkv then 1 else 0))

/-- An empty unit, complete now: the operation's place in the landing order. -/
def State.emptyUnit (s : State) : Staged :=
  { writes := [], descs := [], done := s.cycle, tags := [], credit := 0, stats := [], add := none }

/-- A k-step (R355). With CHK = 0 the checksum lines are no longer valid. -/
def State.stepMul (s : State) (core unit : Nat) (o : EngOp) (p : TileMul) : State :=
  let t := s.tile core o.gslot p.tile
  let q := s.fetcher o
  match q.runStep p o.step t.live with
  | .error e =>
    (s.modTile core o.gslot p.tile (fun t => { t with status := tileStatus t.status o.step true (t.status.getLsbD 0) })).abandon
      core unit o e.1 ((e.2.map windowVa).getD 0)
  | .ok live =>
    let s1 := s.modTile core o.gslot p.tile (fun t =>
      { t with live := live, status := tileStatus t.status (o.step + 1) false (t.status.getLsbD 0 && p.chk) })
    s1.stage core unit o (if p.steps ≤ o.step + 1 then some s.emptyUnit else none)
      (s.cycle + s.dutyWait core + q.stepCycles p (o.step + 1))

/-- A list cut in pieces of n. -/
def piecesOf {α : Type} (n : Nat) : Nat → List α → List (List α)
  | 0, _ => []
  | fuel + 1, l => if l.isEmpty then [] else l.take n :: piecesOf n fuel (l.drop n)

/-- The blocks of a drain's row with their places. -/
def TileDrain.placed {α : Type} (p : TileDrain) (i : Nat) (l : List α) : List (Loc × α) :=
  (p.rows.getD i []).map (fun x => x.1) |>.zip l

/-- The unit of a drain of a tile (R358 to R360). An add-on-store stages the tile's words. -/
def TileDrain.unit (p : TileDrain) (t : Tile) (now : Nat) : Staged :=
  if p.add then
    { writes := (upTo p.m).flatMap (fun i => p.placed i ((piecesOf p.perBlock p.blocks ((upTo p.n).map (fun j => tileAt t i j))).map
        (fun ws => ws.flatMap (fun w => toBytes 4 w.toNat))))
      descs := if p.ofmt == 0 then [] else (p.rows.flatten).map (fun x => (x.1, 2 * 512 + 127 * 2))
      done := now, tags := [], credit := 0, stats := [], add := some p.ofmt }
  else
    let l := (upTo p.m).flatMap (fun i => p.placed i ((piecesOf p.perBlock p.blocks (p.values t i)).map p.block))
    { writes := l.map (fun x => (x.1, x.2.1))
      descs := l.filterMap (fun x => x.2.2.1.map (fun d => (x.1, d)))
      done := now, tags := [], credit := 0, stats := l.flatMap (fun x => x.2.2.2), add := none }

/-- A row of a drain (R341, R359): the check before the first; with the last the unit and the zeroing of the tile. -/
def State.stepDrain (s : State) (core unit : Nat) (o : EngOp) (p : TileDrain) : State :=
  let slot := s.tile core o.gslot p.tile
  match (if slot.status.getLsbD 0 then tileCheck slot.live else some (slot.live, false)) with
  | none => s.abandon core unit o 3 0
  | some c =>
    if o.step + 1 < o.total then s.stage core unit o none (s.cycle + s.dutyWait core + 2)
    else
    let s1 := if c.2 then s.countCell (s.physCore core) 6 1 else s
    let s2 := s1.modTile core o.gslot p.tile (fun t =>
      let st := (t.status &&& ~~~ 4#32) ||| (if c.2 then 4#32 else 0#32)
      if p.zero then { t with live := zeroTile, status := st ||| 1#32 } else { t with status := st })
    s2.stage core unit o (some (p.unit c.1 s.cycle)) s.cycle

/-- A tile loaded from words: 64 rows, then row 64, column 64 and the corner (R361); what is not supplied stays. -/
def loadTile (t : Tile) (ws : List Word) : Tile :=
  let chk := 4096 < ws.length
  (upTo 65).map (fun i => (upTo 65).map (fun j =>
    if i < 64 && j < 64 then ws.getD (64 * i + j) 0
    else if !chk then tileAt t i j
    else if j < 64 then ws.getD (4096 + j) 0
    else if i < 64 then ws.getD (4160 + i) 0 else ws.getD 4224 0))

/-- The words of a list of bytes. -/
def wordsOf (n : Nat) (b : List Byte) : List Word := (upTo n).map (fun k => BitVec.ofNat 32 (ofBytes ((b.drop (4 * k)).take 4)))

/-- TCTL.LOAD's data (R361), its blocks' descriptor copies compared (R73). -/
def State.stepLoad (s : State) (core unit : Nat) (o : EngOp) (k off : Nat) (chk : Bool) : State :=
  let n := if chk then 4225 else 4096
  match (blockOffs off (4 * n)).findSome? (fun x => (s.opFault o (.scratch core (s.opBase o + x))).map (fun c => (c, x))) with
  | some e => s.abandon core unit o e.1 (windowVa e.2)
  | none =>
  let ws := wordsOf n (s.opBytes o (.scratch core (s.opBase o + off)) (4 * n))
  (s.modTile core o.gslot k (fun t =>
    { t with live := loadTile t.live ws, status := (t.status &&& ~~~ 1#32) ||| (if chk then 1#32 else 0#32) })).stage core unit o
    (some s.emptyUnit) s.cycle

/-- TCTL.STAT's word (R361, R362). -/
def State.statWord (s : State) (core unit : Nat) (o : EngOp) (k : Nat) : Word :=
  let n := (opsBefore (s.engineOps core unit) o.id).countP (fun x => x.sameTile o)
  (s.tile core o.gslot k).status ||| BitVec.ofNat 32 (256 * min 3 n)

/-- TCTL.STAT writes its register, and its slot clears (R361). -/
def State.stepStat (s : State) (core unit : Nat) (o : EngOp) (k setter : Nat) : State :=
  let w := s.statWord core unit o k
  let s1 := (match (s.crew o.crew).loads.find? (fun q => q.setter == setter) with
    | some q => s.finishLoad o.crew { q with kind := .value (sameWord w) s.cycle }
    | none => s)
  s1.stage core unit o (some s.emptyUnit) s.cycle

/-- An RCON's row (R368): its unit, or its end on a block that failed as the row moved (R339). -/
def State.stepRcon (s : State) (core unit : Nat) (o : EngOp) (dst : Option Nat) (data : List Byte) (descs : List (Nat × Nat))
    (bad : Option (Nat × Nat)) : State :=
  match bad with
  | some e => s.abandon core unit o e.1 (vaultVa e.2)
  | none =>
    let u : Staged := match dst with
      | some off =>
        { s.emptyUnit with
          writes := (upTo 32).map (fun k => (.scratch core (off + 64 * k), (data.drop (64 * k)).take 64))
          descs := (upTo 32).map (fun k => (.scratch core (off + 64 * k), (descs.getD k (0, 0)).1)) }
      | none => s.emptyUnit
    s.stage core unit o (some u) s.cycle

/-! ### Landing -/

/-- One write of a landing performed at its home, with the core's L1 copy and accumulators (R95, R108, R347). -/
def State.landRun (s : State) (o : EngOp) (thg : Bool) (p : Loc) (bs : List Byte) (desc : Option Nat) : State :=
  let h := s.homeOf p thg
  let w : WriteReq :=
    { crew := o.crew, setter := 0, bytes := s.outsideObjects p bs, descs := (desc.map (fun d => (p.block, d))).toList, rel := none,
      stats := [] }
  let s1 := ((s.race o.crew.core o.gslot (fun _ => false) p bs.length).writeNow h w).l1Store o.crew.core p bs
  let s2 := match desc with
    | some d => s1.l1Desc o.crew.core p d
    | none => s1
  s2.acked o.crew.core p.line

/-- An add-on-store at a block (R360): the sums, and what they count. -/
def State.addBlock (s : State) (p : TileDrain) (loc : Loc) (bs : List Byte) : List Byte × List StatAdd :=
  let size := if p.ofmt == 0 then 4 else 2
  let r := (upTo (bs.length / 4)).map (fun e =>
    let v := FVal.mul (fval (BitVec.ofNat 32 (ofBytes ((bs.drop (4 * e)).take 4)))) (fval p.oscale)
    addOnStore p.ofmt (ofBytes (s.peek (loc.plus (size * e)) size)) v)
  (r.flatMap (fun x => toBytes size x.1), countStats p.tid (r.map (fun x => x.2)))

/-- The page of a destination of an operation takes THG homes. -/
def EngOp.thg (o : EngOp) (p : Loc) : Bool :=
  match o.work with
  | .copy runs _ => runs.any (fun x => x.dstPage.thg && Loc.overlaps x.dst x.len p 1)
  | .drain d => d.rows.any (fun r => r.any (fun x => x.2.thg && x.1 == p))
  | _ => false

/-- The first block that an add-on-store reads and cannot: its DATAERR code and place (R73, R76, R360). -/
def State.addFault (s : State) (u : Staged) : Option (Nat × Loc) :=
  if u.add.isSome then
    u.writes.findSome? (fun x => (s.blockFault (s.descAt x.1.block) x.1.block).map (fun c => (c, x.1)))
  else none

/-- The address that a drain's parameter block gives one of its destination blocks (R358). -/
def EngOp.drainVa (o : EngOp) (p : Loc) : Nat :=
  match o.work with
  | .drain d =>
    let row := (d.rows.findIdx? (fun r => r.any (fun x => x.1 == p))).getD 0
    let blk := ((d.rows.getD row []).findIdx? (fun x => x.1 == p)).getD 0
    (field o.image.data 0x00 8 + row * field o.image.data 0x08 4 + 64 * blk) % 2 ^ 64
  | _ => 0

/-- The writes of a unit performed in order. An add-on-store that cannot read a block writes nothing (R339). -/
def State.landUnit (s : State) (o : EngOp) (u : Staged) : State :=
  match s.addFault u with
  | some e => s.engineError o.crew.core o e.1 (o.drainVa e.2)
  | none =>
  let s1 := u.writes.foldl (fun (st : State) x =>
    let desc := (u.descs.reverse.find? (fun d => d.1 == x.1.block && x.1.num % 64 + x.2.length == 64 ||
      d.1 == x.1)).map (fun d => d.2)
    match u.add, o.work with
    | some _, .drain p =>
      let q := st.addBlock p x.1 x.2
      match st.group o.crew.core o.gslot with
      | some g => (st.landRun o (o.thg x.1) x.1 q.1 desc).addStats g.lslot q.2
      | none => st
    | _, _ => st.landRun o (o.thg x.1) x.1 x.2 desc) s
  match s1.group o.crew.core o.gslot with
  | some g => s1.addStats g.lslot u.stats
  | none => s1

/-- The bytes that a landed chunk credits to its object (R111, R327, R347). -/
def State.creditUnit (s : State) (o : EngOp) (u : Staged) : State :=
  match o.work, s.group o.crew.core o.gslot with
  | .copy _ (some off), some g =>
    if u.credit != 0 && g.barriers.contains off then s.updateObj o.crew.core o.gslot off (fun b => b.credit u.credit) else s
  | _, _ => s

/-- Every staged unit of an operation is complete and none is left to land. -/
def EngOp.allLanded (o : EngOp) : Bool := o.staged.isEmpty && (o.dead || decide (o.total ≤ o.step)) && (o.started.isSome || o.total == 0)

/-- Tile operations that have landed settle in order; when none is left on a tile its live tile is the base (R169). The
RCONs into the latch that no operation can read any more leave the unit. -/
def settleOps : Nat → List EngOp → List EngOp → List EngOp
  | 0, _, l => l
  | _, _, [] => []
  | fuel + 1, seen, o :: r =>
    if o.done && (o.dead || decide (o.total ≤ o.step)) && o.work.tile.isSome && !seen.any (fun x => x.sameTile o) then settleOps fuel seen r
    else o :: settleOps fuel (seen ++ [o]) r

/-- A latch RCON that has landed and that no later operation before the next one reads. -/
def latchSpent (o : EngOp) (later : List EngOp) : Bool :=
  o.done && o.work.fillsLatch && !(later.takeWhile (fun x => !x.work.fillsLatch)).any (fun x => x.work.readsLatch)

/-- A unit's operations without the latch RCONs that are spent. -/
def dropSpent : List EngOp → List EngOp
  | [] => []
  | o :: r => if latchSpent o r then dropSpent r else o :: dropSpent r

/-- The tiles of a core without operations have settled (R169). -/
def State.settleTiles (s : State) (core : Nat) : State :=
  let s1 := s.modOps core 4 (fun l => dropSpent (settleOps (l.length + 1) [] l))
  let busy := fun (gslot k : Nat) => (s1.engineOps core 4).any (fun o => o.gslot == gslot && o.work.tile == some k)
  s1.modCore core (fun c => { c with groups := (upTo c.groups.length).map (fun gs =>
    (c.groups.getD gs none).map (fun (g : Group) => ({ g with tiles := (upTo g.tiles.length).map (fun k =>
      let t := g.tiles.getD k .reset
      if t.forked && !busy gs k then { t with base := t.live, baseStatus := t.status, forked := false }
      else if !busy gs k then { t with baseStatus := t.status } else t) } : Group))) })

/-- An operation that runs again after it has landed stages nothing more; it may settle once it has run (R170). -/
def State.afterRerun (core unit : Nat) (o : EngOp) (s : State) : State :=
  if o.done then (s.modOp core unit o.id (fun x => { x with staged := [] })).settleTiles core else s

/-- A place of memory or of a scratchpad cannot be reached now: its bank is busy, or its home is held by a reset (R64, R367,
R371, R477). -/
def State.placeHeld (s : State) (p : Loc) (thg : Bool) : Bool :=
  decide (s.cycle < (s.home (s.homeOf p thg)).heldUntil) ||
  match p with
  | .mem a => s.vaultBusy a
  | .scratch _ _ => false

/-- The step of an operation stages something to land: a chunk, the last row of a drain, or a row into scratchpad (R168). -/
def EngOp.stages (o : EngOp) : Bool :=
  match o.work with
  | .copy _ _ => true
  | .drain _ => o.total ≤ o.step + 1
  | .rcon (some _) _ _ _ _ => true
  | _ => false

/-- The staging buffer of a unit is full (R167, log 41). -/
def State.stagingFull (s : State) (core unit : Nat) : Bool :=
  Config.stagingMore < (((s.engineOps core unit).flatMap (fun o => o.staged)).filter (fun u => !u.writes.isEmpty)).length

/-- A place is held by an outside party. -/
def State.leavesPackage (s : State) (p : Loc) : Bool :=
  match s.homeOf p false with
  | .outside _ => true
  | _ => false

/-- The operation of a unit whose step completes in this cycle: its time has come, what it reads can be reached, from outside
the package only once its region has released (R175), and what it stages has room. -/
def State.stepDue (s : State) (core unit : Nat) : Option EngOp :=
  (s.engineOps core unit).find? (fun o => o.started.isSome && !o.dead && !o.held && decide (o.step < o.total) &&
    decide (o.nextAt ≤ s.cycle) &&
    !o.chunkRuns.any (fun x => s.placeHeld x.1.src x.1.srcPage.thg || (!o.released && s.leavesPackage x.1.src)) &&
    !(o.stages && s.stagingFull core unit))

/-- UNIT_COMPLETE_IN_STAGING of the unit that State.sel names (R167). -/
def execUnitCompleteInStaging (s : State) : Host.Outcome State Fault Refusal :=
  let core := s.sel.a
  let unit := s.sel.b
  match s.stepDue core unit with
  | none => .next s
  | some o =>
    .next (State.afterRerun core unit o (match o.work with
      | .copy runs credit => s.stepCopy core unit o runs credit.isSome
      | .mul p => s.stepMul core unit o p
      | .drain p => s.stepDrain core unit o p
      | .tzero k => (s.modTile core o.gslot k (fun t => { t with live := zeroTile, status := 1 })).stage core unit o
          (some s.emptyUnit) s.cycle
      | .tload k off chk => s.stepLoad core unit o k off chk
      | .tstat k _ _ setter => s.stepStat core unit o k setter
      | .rcon dst _ data descs bad => s.stepRcon core unit o dst data descs bad
      | .subs _ => s.stage core unit o none s.cycle))

/-- An operation has landed: its number, and its place in the unit (R22, R168, R336). -/
def State.opLanded (s : State) (core unit : Nat) (o : EngOp) : State :=
  let s1 := (s.landNumber core o.gslot o.tl o.num).forgetRaced (fun x => x.op == o.id)
  if o.work.tile.isSome || o.work.fillsLatch then
    (s1.modOp core unit o.id (fun x => { x with done := true })).settleTiles core
  else s1.modOps core unit (fun l => l.filter (fun x => x.id != o.id))

/-- The RCON into the latch that an operation reads lands with it, and the latch takes its row (R168, R363). -/
def State.landLatch (s : State) (core : Nat) (o : EngOp) : State :=
  if !o.work.readsLatch then s
  else
    let l := (opsBefore (s.engineOps core 4) o.id).filter (fun x => x.work.fillsLatch && !x.dead)
    match l.getLast? with
    | none => s
    | some q =>
      if q.done then s
      else
        let row := s.latchFor o
        let s1 := s.modCore core (fun k => { k with latch := { data := row.1, descs := row.2, owner := some q.gslot } })
        (s1.modOp core 4 q.id (fun x => { x with staged := [] })).opLanded core 4 q

/-- A unit may land (R167): its operation's region has released, its tags are clear, W cycles have passed. -/
def EngOp.unitReady (o : EngOp) (now : Nat) : Bool :=
  o.released && !o.done &&
    (match o.staged with
     | u :: _ => u.tags.isEmpty && decide (u.done + Config.window ≤ now)
     | [] => o.allLanded && o.work.tile.isNone)

/-- An RCON into the latch that no operation will land with: a later one follows and nothing between them reads the latch,
every crew of its group has completed, or its group drains (log 26). -/
def State.latchLoose (s : State) (core : Nat) (o : EngOp) : Bool :=
  let later := ((s.engineOps core 4).dropWhile (fun x => x.id != o.id)).drop 1
  let mine := later.takeWhile (fun x => !x.work.fillsLatch)
  !mine.any (fun x => x.work.readsLatch && !x.done && !s.opDrains core x) &&
    (later.any (fun x => x.work.fillsLatch) || s.opDrains core { o with done := false } ||
      ((s.group core o.gslot).map (fun g => g.completed == g.crews.length)).getD true)

/-- Every part of a subscription has applied its sequence 0 (R374). -/
def State.subStarted (s : State) (core : Nat) (o : EngOp) (id : Nat) : Bool :=
  ((s.group core o.gslot).bind (fun g => g.subs.find? (fun x => x.id == id))).all (fun x => x.parts.all (fun p => p.started))

/-- The homes of a unit's writes can take them: none is busy or held (R61, R64, R390). -/
def State.unitTaken (s : State) (o : EngOp) : Bool :=
  match o.staged with
  | u :: _ => u.writes.all (fun x => !s.placeHeld x.1 (o.thg x.1) &&
      (!homeHasPort (s.homeOf x.1 (o.thg x.1)) || decide ((s.home (s.homeOf x.1 (o.thg x.1))).freeAt ≤ s.cycle)))
  | [] => true

/-- The ports that a unit's writes occupy, a line each cycle (R390, R392). -/
def State.occupy (s : State) (o : EngOp) (u : Staged) : State :=
  let lines := (u.writes.map (fun x => (s.homeOf x.1 (o.thg x.1), x.1.line))).eraseDups
  ((lines.map (fun x => x.1)).eraseDups).foldl (fun (st : State) h =>
    if homeHasPort h then st.modHome h (fun x => { x with freeAt := s.cycle + lines.countP (fun y => y.1 == h) }) else st) s

/-- An operation lands something in this cycle. -/
def State.landable (s : State) (core : Nat) (o : EngOp) : Bool :=
  !(o.held && s.opDiscarded core o) && s.unitTaken o &&
  match o.work with
  | .subs id => o.released && s.subStarted core o id
  | .rcon none _ _ _ _ => o.unitReady s.cycle && (o.dead || s.latchLoose core o)
  | _ => o.unitReady s.cycle && (o.started.isSome || o.total == 0)

/-- The first operation of a unit that lands something. -/
def State.landDue (s : State) (core unit : Nat) : Option EngOp := (s.engineOps core unit).find? (s.landable core)

/-- A loose latch RCON fills the latch as it lands. -/
def State.landLoose (s : State) (core : Nat) (o : EngOp) : State :=
  match o.work with
  | .rcon none _ data descs _ =>
    if o.dead then s
    else s.modCore core (fun k => { k with latch := { data := data, descs := descs.map (fun d => d.1), owner := some o.gslot } })
  | _ => s

/-- ENGINE_LAND of the unit that State.sel names (R167, R168, R347). -/
def execEngineLand (s : State) : Host.Outcome State Fault Refusal :=
  let core := s.sel.a
  let unit := s.sel.b
  match s.landDue core unit with
  | none => .next s
  | some o =>
    match o.work, o.staged with
    | .subs _, _ => .next (s.opLanded core unit o)
    | _, [] => .next (s.opLanded core unit o)
    | _, u :: r =>
      let s1 := (((s.landUnit o u).occupy o u).creditUnit o u).modOp core unit o.id (fun x => { x with staged := r, landed := x.landed + 1 })
      let o1 : EngOp := { o with staged := r, landed := o.landed + 1 }
      if o1.allLanded then .next (((s1.landLatch core o).landLoose core o).opLanded core unit o1) else .next s1

/-! ### The row riser -/

/-- An activation's planned start has come (R366). -/
def State.activationDue (s : State) (core bank : Nat) : Bool :=
  match (s.bank core bank).state with
  | .opening _ start _ false => decide (start ≤ s.clock core)
  | _ => false

/-- ACTIVATION_START of the bank that State.sel names (R366). -/
def execActivationStart (s : State) : Host.Outcome State Fault Refusal :=
  let core := s.sel.a
  let bank := s.sel.b
  match (s.bank core bank).state with
  | .opening row start ready false =>
    if s.activationDue core bank then
      let s1 := s.modCore core (fun k =>
        { k with starts := (k.starts.filter (fun x => decide (s.clock core < x + Config.activationWindow))) ++ [start] })
      .next (s1.modBank core bank (fun b => { b with state := .opening row start ready true }))
    else .next s
  | _ => .next s

/-- An opening bank's ready cycle has come (R364). -/
def State.rowDue (s : State) (core bank : Nat) : Bool :=
  match (s.bank core bank).state with
  | .opening _ _ ready true => decide (ready ≤ s.clock core)
  | _ => false

/-- ROW_READY of the bank that State.sel names (R364). -/
def execRowReady (s : State) : Host.Outcome State Fault Refusal :=
  let core := s.sel.a
  let bank := s.sel.b
  match (s.bank core bank).state with
  | .opening row _ _ true =>
    if s.rowDue core bank then .next (s.modBank core bank (fun b => { b with state := .open_ row })) else .next s
  | _ => .next s

/-- A bank's refresh slot begins in this cycle (R367). -/
def State.refreshBegins (s : State) (core bank : Nat) : Bool :=
  s.clock core % Config.refreshPeriod == Config.refreshStep * bank

/-- The bank holds a row, or opens one. -/
def Bank.holdsRow (b : Bank) : Bool :=
  match b.state with
  | .opening _ _ _ _ => true
  | .open_ _ => true
  | _ => false

/-- REFRESH_SLOT_START of the bank that State.sel names (R367). -/
def execRefreshSlotStart (s : State) : Host.Outcome State Fault Refusal :=
  let core := s.sel.a
  let bank := s.sel.b
  if s.refreshBegins core bank && (s.bank core bank).holdsRow then
    .next (s.modBank core bank (fun b => { b with state := .lost }))
  else .next s

/-- A request waits at a vault for a bank. -/
def State.waitsForBank (s : State) (core bank : Nat) (t : Tx) : Bool :=
  t.answer.isNone && decide (t.serveAt < s.cycle) &&
    (match t.req.place with
     | some (.mem a) => s.storageAt a == some (.vaultDram core) && (bankRow a).1 == bank
     | _ => false)

/-- A bank's refresh slot has just ended (R367). -/
def State.refreshEnds (s : State) (core bank : Nat) : Bool :=
  s.clock core % Config.refreshPeriod == Config.refreshStep * bank + Config.refreshLen

/-- REFRESH_SLOT_END of the bank that State.sel names: requests that waited in the slot are taken now (R367). -/
def execRefreshSlotEnd (s : State) : Host.Outcome State Fault Refusal :=
  let core := s.sel.a
  let bank := s.sel.b
  if s.refreshEnds core bank then
    .next { s with net := { s.net with txs := s.net.txs.map (fun t =>
      if s.waitsForBank core bank t then { t with serveAt := s.cycle, dueAt := t.dueAt + (s.cycle - t.serveAt) } else t) } }
  else .next s

end Sys2Proof.Machine
end

