-- ==== Sys2Proof/Machine/Windows.lean ====
section
/-! DEFINITION. Scratchpad windows, subscriptions, active messages and circuits: their instructions, the steps by which a
window's change reaches its cluster and a subscription's updates their subscribers (R52, R112 to R116, R372 to R380,
R472). -/

namespace Sys2Proof.Machine

/-! ### Windows -/

/-- The cores of a cluster that work. -/
def State.clusterCores (s : State) (cluster : Nat) : List Nat := (upTo 4).filterMap (s.coreInCluster cluster)

/-- The windows that a core's groups hold or are opening: table entries, changes under way and unreleased WOPENs (R373). -/
def State.windowsOf (s : State) (core : Nat) : List (Nat × Nat × Nat) :=
  let table := ((s.core core).windows.filter (fun w => w.core == core)).map (fun w => (core, w.gslot, w.off))
  let going := ((s.core core).windowChanges.filter (fun c => c.writer.isSome)).map (fun c => (core, c.gslot, c.off))
  let held := (coreRefs core).flatMap (fun r => (s.crew r).regions.flatMap (fun g => g.effects.filterMap (fun e => match e with
    | .wopen op off _ _ => if op == 0 then none else (s.gslotOf r).map (fun gs => (core, gs, off))
    | _ => none)))
  table ++ going ++ held

/-- The cluster's table has room for one more window, or holds this one already (R373). -/
def State.windowRoom (s : State) (core gslot off : Nat) : Bool :=
  let l := ((s.clusterCores (s.clusterOf core)).flatMap s.windowsOf).eraseDups
  l.contains (core, gslot, off) || l.length < 256

/-- The cluster-window address of an offset (R52). -/
def State.clusterVa (s : State) (core gslot off : Nat) : Nat :=
  0xFFFE000000000000 + s.physCore core % 4 * 2 ^ 46 + gslot * 2 ^ 41 + off

/-- The grant word names a peer of the cluster and nothing else (R372). -/
def State.grantOk (s : State) (core : Nat) (grant : Word) : Bool :=
  decide (grant.toNat < 128) && (s.coreInCluster (s.clusterOf core) (grant.toNat % 4)).isSome

/-- WOPEN held, its address returned (R372). -/
def State.holdWopen (s : State) (i : Issue) (f : L64) (part : Mask) (gslot off : Nat) (grant : Word) : State :=
  let q := s.setter i (slotOf f.sbs) 1
  let taint := s.l0Taint i (Mask.lowest part) (f.a.toNat :: (if f.mx == 2 then [f.b.toNat] else []))
  let va := s.clusterVa i.core gslot off
  let t := q.2.modCrew i.ref (fun w => w.hold (.wopen f.mx.toNat off grant q.1) 1)
  let d := f.d.toNat
  let t1 := if d < 64 then
      (t.writeReg i.ref d part (sameWord (BitVec.ofNat 32 va)) taint).writeReg i.ref (d + 1) part
        (sameWord (BitVec.ofNat 32 (va / 2 ^ 32))) taint
    else t
  t1.retire i false

/-- WOPEN (R372, R373). -/
def execWopen (f : L64) (s : State) : Host.Outcome State Fault Refusal :=
  let writes := if f.d.toNat < 64 then [f.d.toNat, f.d.toNat + 1] else []
  let grants := f.mx == 2
  s.engineWith f (writes ++ f.a.toNat :: (if grants then [f.b.toNat] else [])) writes false (fun i t part l0 =>
    let off := (t.regL0 i f.a l0).toNat
    let grant := if grants then t.regL0 i f.b l0 else 0
    let gslot := (t.gslotOf i.ref).getD 0
    if off % 128 != 0 || !t.inAllocation i off 128 then t.failL0 i l0 causeBounds (windowVa off)
    else if grants && !t.grantOk i.core grant then t.failL0 i l0 causeParam (windowVa off)
    else if f.mx != 0 && !t.windowRoom i.core gslot off then t.failL0 i l0 causeWindows (windowVa off)
    else
      match t.needEntries i 1 with
      | some u => u
      | none => t.holdWopen i f part gslot off grant)

/-- A change of a window put into a core's copy of the cluster's table (R373). -/
def Core.setWindow (k : Core) (c : WindowChange) : Core :=
  let rest := k.windows.filter (fun w => !(w.core == c.core && w.gslot == c.gslot && w.off == c.off))
  { k with windows := match c.writer with
      | some x => rest ++ [{ core := c.core, gslot := c.gslot, off := c.off, wcore := x.1, wslot := x.2 }]
      | none => rest }

/-- A store of a writer to a window has not been performed: it is unreleased, buffered in a gambit, or under way (R116). -/
def State.storesLeft (s : State) (c : WindowChange) (writer : Nat × Nat) : Bool :=
  match s.group c.core c.gslot with
  | none => false
  | some g =>
    let at_ := Loc.scratch c.core (g.scrBase + c.off)
    let hits := fun (p : Loc) (n : Nat) => Loc.overlaps at_ 128 p n
    let held := (coreRefs writer.1).any (fun r => s.gslotOf r == some writer.2 && r != c.crew &&
      ((s.crew r).unreleased.any (fun e => e.writes.any (fun x => hits x.loc x.bytes.length)) ||
       (s.crew r).regions.any (fun q => q.effects.any (fun e => match e with
         | .atomn a => a.lanes.any (fun x => hits x.loc a.size)
         | _ => false))))
    held || s.net.txs.any (fun t => t.core == writer.1 && t.answer.isNone && (match t.req with
      | .write w => w.bytes.any (fun b => hits b.1 b.2.length)
      | .atomic a _ _ _ _ => a.lanes.any (fun x => hits x.loc a.size)
      | _ => false))

/-- The writer before a change, when the change takes the window from it (R116). -/
def State.oldWriter (s : State) (c : WindowChange) : Option (Nat × Nat) :=
  match s.windowAt c.core c.core c.gslot c.off with
  | some w => if some (w.wcore, w.wslot) == c.writer then none else some (w.wcore, w.wslot)
  | none => none

/-- A change that reaches its copies or completes in this cycle. -/
def State.changeDue (s : State) (c : WindowChange) : Bool :=
  match c.applied with
  | none => decide (c.due ≤ s.cycle)
  | some none => true
  | some (some w) => !s.storesLeft c w

/-- The first change of a cluster that is due. -/
def State.windowDue (s : State) (cluster : Nat) : Option WindowChange :=
  (s.clusterCores cluster).findSome? (fun k => (s.core k).windowChanges.find? s.changeDue)

/-- WINDOW_TABLE_UPDATE of the cluster that State.sel names: the change reaches the four copies; once the stores of the
writer it took the window from have been performed it is complete, and its slot clears (R116, R373). -/
def execWindowTableUpdate (s : State) : Host.Outcome State Fault Refusal :=
  match s.windowDue s.sel.a with
  | none => .next s
  | some c =>
    match c.applied with
    | none =>
      let old := s.oldWriter c
      let s1 := (s.clusterCores s.sel.a).foldl (fun (st : State) k => st.modCore k (fun x => x.setWindow c)) s
      .next (s1.modCore c.core (fun k => { k with windowChanges := k.windowChanges.map (fun x =>
        if x.setter == c.setter then { x with applied := some old } else x) }))
    | some _ =>
      let s1 := s.modCore c.core (fun k => { k with windowChanges := k.windowChanges.filter (fun x => x.setter != c.setter) })
      .next (s1.modCrew c.crew (fun w => w.finish c.setter 1))

/-! ### Subscriptions -/

/-- The range parts of a range: its lines that share a home, each with its local place (R112). -/
def rangeParts (l : List (HomeId × Nat × Loc)) : List SubPart :=
  ((l.map (fun x => x.1)).eraseDups).map (fun h =>
    { home := h, lines := (l.filter (fun x => x.1 == h)).map (fun x => x.2), next := 0, started := false })

/-- The local place of a global byte of a range part. -/
def SubPart.place (p : SubPart) (a : Nat) : Option Loc :=
  (p.lines.find? (fun x => decide (x.1 ≤ a) && decide (a < x.1 + 128))).map (fun x => x.2.plus (a - x.1))

/-- The lines of a subscription checked as engine reads and writes (R338, R374): homes, global bytes and local places. -/
def State.subLines (s : State) (i : Issue) (l0 loc glob len : Nat) :
    Except (Cause × Nat) (List (HomeId × Nat × Loc) × List (Target × Nat)) :=
  let each : Except (Cause × Nat) (List ((HomeId × Nat × Loc) × (Target × Nat))) := (upTo (len / 128)).mapM (fun k =>
    match s.resolve i.ref l0 .engineRead (glob + 128 * k) 128, s.resolve i.ref l0 .engineWrite (loc + 128 * k) 128 with
    | .error c, _ => .error (c, glob + 128 * k)
    | _, .error c => .error (c, loc + 128 * k)
    | .ok g, .ok d => .ok ((s.homeOf g.loc g.page.thg, g.loc.num, d.loc), (g, glob + 128 * k)))
  each.map (fun (l : List ((HomeId × Nat × Loc) × (Target × Nat))) => (l.map (fun x => x.1), l.map (fun x => x.2)))

/-- The operands of SUBS.ON lie in their ranges (R374): local window forms, a global address, length and alignment. -/
def subOperandsOk (loc glob len : Nat) : Bool :=
  loc % 128 == 0 && glob % 128 == 0 && decide (128 ≤ len) && decide (len ≤ 65536) && len % 128 == 0 &&
    decide (glob / 2 ^ 56 == 0) &&
    (bits loc 63 48 == 0xFFFF || (bits loc 63 48 == 0xFFFC && decide (bits loc 47 0 + len ≤ Config.vaultSram)))

/-- The subscriptions of a core (R374). -/
def State.subCount (s : State) (core : Nat) : Nat := ((s.groupsOf core).map (fun g => g.subs.length)).sum

/-- The lowest identifier from 0 to 15 that a group does not hold (R374). -/
def Group.freeSub (g : Group) : Option Nat := (upTo 16).find? (fun n => !g.subs.any (fun x => x.id == n))

/-- SUBS.ON accepted (R336, R374): held, numbered, its identifier returned. -/
def State.holdSub (s : State) (i : Issue) (f : L64) (part : Mask) (l0 : Nat) (gslot id : Nat) (parts : List SubPart)
    (vault : Bool) (range : Nat × Nat × Nat) : State :=
  let k := f.mx.toNat
  let op := s.nextId
  let taint := s.l0Taint i l0 [f.a.toNat, f.a.toNat + 1, f.b.toNat, f.b.toNat + 1, f.c.toNat]
  let s1 := s.accept i l0 k k 1 (.subs id) true
  let s2 := s1.modGroup i.core gslot (fun g =>
    { g with subs := g.subs ++ [{ id := id, released := false, op := op, parts := parts, vaultLocal := vault, tl := k, len := range.1, lva := range.2.1, gva := range.2.2 }] })
  let q := s2.setter i (slotOf f.sbs) 0
  let s3 := q.2.modCrew i.ref (fun w => w.hold (.subsOn id) 0)
  ((if vault then s3.pin i.ref else s3).writeReg i.ref f.d.toNat part (sameWord (BitVec.ofNat 32 id)) taint).retire i false

/-- SUBS.ON (R374). -/
def execSubsOn (f : L64) (s : State) : Host.Outcome State Fault Refusal :=
  s.engineWith f [f.d.toNat, f.a.toNat, f.a.toNat + 1, f.b.toNat, f.b.toNat + 1, f.c.toNat] [f.d.toNat] false
    (fun i t part l0 =>
      let loc := t.pairL0 i f.a l0
      let glob := t.pairL0 i f.b l0
      let len := (t.regL0 i f.c l0).toNat
      if !subOperandsOk loc glob len then t.failL0 i l0 causeParam loc
      else
        match t.subLines i l0 loc glob len, t.groupOf i.ref, t.gslotOf i.ref with
        | .error e, _, _ => t.failL0 i l0 e.1 e.2
        | .ok x, some g, some gslot =>
          (match g.freeSub with
           | none => t.failL0 i l0 causeSubs 0
           | some id =>
             if 64 ≤ t.subCount i.core then t.failL0 i l0 causeSubs 0
             else
               match t.acceptWait i l0 f.mx.toNat (((t.crew i.ref).pairTaint f.a.toNat ||| (t.crew i.ref).pairTaint f.b.toNat).getLsbD l0) with
               | some u => u
               | none =>
                 let t1 := x.2.foldl (fun (st : State) y => st.useTarget i.ref y.2 y.1 false) t
                 t1.holdSub i f part l0 gslot id (rangeParts x.1) (bits loc 63 48 == 0xFFFC) (len, loc, glob))
        | .ok _, _, _ => t.failL0 i l0 causeHandler 0)

/-- SUBS.OFF (R375). -/
def execSubsOff (f : L64) (s : State) : Host.Outcome State Fault Refusal :=
  s.engineWith f [f.a.toNat] [] false (fun i t _ l0 =>
    let id := (t.regL0 i f.a l0).toNat
    let off := (t.crew i.ref).regions.any (fun g => g.effects.any (fun e => match e with
      | .subsOff x _ => x == id
      | _ => false))
    match t.groupOf i.ref with
    | some g =>
      if !g.subs.any (fun x => x.id == id) || off then t.failL0 i l0 causeSubs 0
      else
        match t.needEntries i 1 with
        | some u => u
        | none =>
          let q := t.setter i (slotOf f.sbs) 1
          (q.2.modCrew i.ref (fun w => w.hold (.subsOff id q.1) 1)).retire i false
    | none => t.failL0 i l0 causeSubs 0)

/-- An update. -/
def State.update? (s : State) (id : Nat) : Option Update := s.net.updates.find? (fun u => u.id == id)

/-- The state with an update changed. -/
def State.modUpdate (s : State) (id : Nat) (f : Update → Update) : State :=
  { s with net := { s.net with updates := s.net.updates.map (fun u => if u.id == id then f u else u) } }

/-- The range part of an update at its home. -/
def State.partOf (s : State) (u : Update) : Option RangePart :=
  (s.home u.home).parts.find? (fun p => p.core == u.core && p.gslot == u.gslot && p.sub == u.sub && p.part == u.part)

/-- An update may leave its home (R112, R472): its write's tag has cleared, the earlier numbers have left, and it is not
more than 16 beyond the oldest that is not acknowledged. -/
def State.sendable (s : State) (u : Update) : Bool :=
  u.cleared && !u.sent && decide (u.seq != 0 || u.due ≤ s.cycle) &&
    !s.net.updates.any (fun v => v.home == u.home && v.core == u.core && v.gslot == u.gslot && v.sub == u.sub &&
      v.part == u.part && decide (v.id < u.id) && !v.sent) &&
    ((s.partOf u).map (fun p => decide ((u.seq + 2 ^ 32 - p.oldest) % 2 ^ 32 ≤ 16))).getD false

/-- SUBSCRIPTION_UPDATE_SEND of the update that State.sel names (R112, R472): it reaches its subscriber along its leg. -/
def execSubscriptionUpdateSend (s : State) : Host.Outcome State Fault Refusal :=
  match s.update? s.sel.a with
  | some u =>
    if s.sendable u then
      .next (s.modUpdate u.id (fun x => { x with sent := true, due := s.cycle + s.storeLatency u.core u.home + u.detour }))
    else .next s
  | none => .next s

/-- SUBSCRIPTION_NACK_RESEND of the update that State.sel names: a unicast copy with the same number (R472). -/
def execSubscriptionNackResend (s : State) : Host.Outcome State Fault Refusal :=
  match s.update? s.sel.a with
  | some u =>
    if u.nacked && decide (u.due ≤ s.cycle) then
      .next (s.modUpdate u.id (fun x => { x with nacked := false, due := s.cycle + s.storeLatency u.core u.home }))
    else .next s
  | none => .next s

/-- SUBSCRIPTION_ACK_RECEIVE of the update that State.sel names: the oldest number not acknowledged moves on (R472). -/
def execSubscriptionAckReceive (s : State) : Host.Outcome State Fault Refusal :=
  match s.update? s.sel.a with
  | some u =>
    if u.applied && decide (u.due ≤ s.cycle) then
      let s1 := s.modHome u.home (fun h => { h with parts := h.parts.map (fun p =>
        if p.core == u.core && p.gslot == u.gslot && p.sub == u.sub && p.part == u.part then
          { p with oldest := (u.seq + 1) % 2 ^ 32 } else p) })
      .next { s1 with net := { s1.net with updates := s1.net.updates.filter (fun x => x.id != u.id) } }
    else .next s
  | none => .next s

/-- The subscription and part that an update is for. -/
def State.subPart (s : State) (u : Update) : Option (Subscription × SubPart) :=
  ((s.group u.core u.gslot).bind (fun g => g.subs.find? (fun x => x.id == u.sub && x.released))).bind
    (fun x => (x.parts[u.part]?).map (fun p => (x, p)))

/-- An update has arrived at its subscriber and is the next of its part (R113). -/
def State.applicable (s : State) (u : Update) : Bool :=
  u.sent && !u.applied && !u.nacked && decide (u.due ≤ s.cycle) &&
    ((s.subPart u).map (fun x => x.2.next == u.seq)).getD true

/-- An update applied to its local copy and acknowledged (R113). -/
def State.applyUpdate (s : State) (u : Update) : State :=
  let back := s.cycle + s.storeLatency u.core u.home
  let s1 := s.modUpdate u.id (fun x => { x with applied := true, due := back })
  match s.subPart u with
  | none => s1
  | some x =>
    let runs := u.runs.filterMap (fun b => (x.2.place b.1).map (fun p => (p, b.2)))
    let s2 := (runs.flatMap (fun b => s1.outsideObjects b.1 b.2)).foldl (fun (st : State) b =>
      (st.writeNow (st.homeOf b.1 false)
        { crew := deviceCrew, setter := 0, bytes := [b], descs := [], rel := none, stats := [] }).l1Store u.core b.1 b.2) s1
    s2.modGroup u.core u.gslot (fun g => { g with subs := g.subs.map (fun y =>
      if y.id == u.sub then
        { y with parts := modifyAt y.parts u.part (fun q => { q with next := (u.seq + 1) % 2 ^ 32, started := true }) }
      else y) })

/-- SUBSCRIPTION_UPDATE_APPLY: an update that has arrived in sequence is applied and acknowledged; one whose end-to-end
check fails is answered with a NACK (R113, R472). -/
def execSubscriptionUpdateApply (upd : Nat) (damaged : Bool) (s : State) : Host.Outcome State Fault Refusal :=
  match s.update? upd with
  | some u =>
    if !s.applicable u then .next s
    else if damaged then
      .next (s.modUpdate u.id (fun x => { x with nacked := true, due := s.cycle + s.storeLatency u.core u.home }))
    else .next (s.applyUpdate u)
  | none => .next s

/-! ### Messages -/

/-- AMSG (R376): a release point that carries the payload of its lanes. -/
def execAmsg (f : L64) (s : State) : Host.Outcome State Fault Refusal :=
  s.issueWith { lNeeds f [f.a.toNat, f.b.toNat] [] with bare := true, head := true } (fun i t =>
    let part := t.eff i f.pred f.pn
    let w := t.crew i.ref
    let l0 := Mask.lowest part
    if part == 0 then t.retire i false
    else if (t.gslotOf i.ref).isNone then t.failAll i part causeHandler
    else
      let m : MessageReq :=
        { dest := (t.regL0 i f.a l0).toNat, index := f.c.toNat % 16, seq := 0, addr := 0
          payload := (upTo 32).map (fun l => if part.getLsbD l then w.read t.freeCtr f.b.toNat l else 0) }
      t.startPoint i (.amsg m) part 0 (slotOf f.sbs))

/-! ### Circuits -/

/-- The circuit that a crew may name (R378, R379). -/
def State.ownCircuit (s : State) (r : CrewRef) (id : Nat) : Option Circuit :=
  (s.core r.core).circuits.find? (fun c => c.id == id && c.owner == s.circuitOwner r)

/-- CIRC.SETUP (R378). -/
def execCircSetup (f : L64) (s : State) : Host.Outcome State Fault Refusal :=
  s.issueWith { lNeeds f [f.d.toNat, f.a.toNat, f.b.toNat] [] with bare := true, head := true } (fun i t =>
    let part := t.eff i f.pred f.pn
    let l0 := Mask.lowest part
    if part == 0 then t.retire i false
    else
      let n := (t.regL0 i f.b l0).toNat
      if n == 0 || 4096 < n then t.failL0 i l0 causeParam 0
      else
        let m : MessageReq := { dest := (t.regL0 i f.a l0).toNat, index := n, seq := 0, payload := [], addr := 0 }
        t.startPoint i (.circSetup m f.d.toNat) part (t.l0Taint i l0 [f.a.toNat, f.b.toNat]) (slotOf f.sbs))

/-- The address of a CIRC.SEND checked (R379): 128-byte aligned, writable, in the vault of the circuit's destination. -/
def State.circuitTarget (s : State) (i : Issue) (l0 va dest : Nat) : Except Cause (Nat × Target) :=
  if va % 128 != 0 then .error (3, 1)
  else
    match s.resolve i.ref l0 .store va 128 with
    | .error c => .error c
    | .ok t =>
      match t.loc with
      | .mem a =>
        if s.storageAt a == some (.vaultSram dest) || s.storageAt a == some (.vaultDram dest) then .ok (a, t)
        else .error causeCircuit
      | .scratch _ _ => .error causeCircuit

/-- CIRC.SEND (R379). -/
def execCircSend (f : L64) (s : State) : Host.Outcome State Fault Refusal :=
  s.issueWith { lNeeds f [f.a.toNat, f.b.toNat, f.c.toNat, f.c.toNat + 1] [] with bare := true, head := true } (fun i t =>
    let part := t.eff i f.pred f.pn
    let w := t.crew i.ref
    let l0 := Mask.lowest part
    if part == 0 then t.retire i false
    else
      let va := t.pairL0 i f.c l0
      let id := (t.regL0 i f.a l0).toNat
      match t.ownCircuit i.ref id with
      | none => t.failL0 i l0 causeCircuit va
      | some c =>
        match t.circuitTarget i l0 va c.dest with
        | .error e => t.failL0 i l0 e va
        | .ok x =>
          let m : MessageReq :=
            { dest := c.dest, index := id, seq := 0, addr := x.1
              payload := (upTo 32).map (fun l => if part.getLsbD l then w.read t.freeCtr f.b.toNat l else 0) }
          (t.useTarget i.ref va x.2 true).startPoint i (.circSend m) part 0 (slotOf f.sbs))

/-- CIRC.REL (R380). -/
def execCircRel (f : L64) (s : State) : Host.Outcome State Fault Refusal :=
  s.issueWith { lNeeds f [f.a.toNat] [] with bare := true } (fun i t =>
    let part := t.eff i f.pred f.pn
    let l0 := Mask.lowest part
    if part == 0 then t.retire i false
    else
      let id := (t.regL0 i f.a l0).toNat
      match t.ownCircuit i.ref id with
      | none => t.failL0 i l0 causeCircuit 0
      | some _ =>
        match t.needEntries i 1 with
        | some u => u
        | none =>
          let q := t.setter i (slotOf f.sbs) 1
          (q.2.modCrew i.ref (fun w => w.hold (.circRel id q.1) 1)).retire i false)

/-- A circuit whose reservations are due to be torn down (R380). -/
def Circuit.idleDue (c : Circuit) (now : Nat) : Bool := c.reserved && decide (c.lastUse + 512 ≤ now)

/-- CIRCUIT_IDLE_TEARDOWN of the circuit that State.sel names: its router slots go back, the id stays (R380). -/
def execCircuitIdleTeardown (s : State) : Host.Outcome State Fault Refusal :=
  let core := s.sel.a
  let id := s.sel.b
  match (s.core core).circuits.find? (fun c => c.id == id) with
  | some c =>
    if c.idleDue s.cycle then
      let s1 := s.modCore core (fun k => { k with circuits := k.circuits.map (fun x =>
        if x.id == id then { x with reserved := false } else x) })
      .next { s1 with net := { s1.net with circuits := s1.net.circuits.filter (fun x => !(x.2.1 == core && x.2.2 == id)) } }
    else .next s
  | none => .next s

end Sys2Proof.Machine
end

