-- ==== Sys2Proof/Machine/Restart.lean ====
section
/-! DEFINITION. What follows an event: the restart of crews, the recovery of engines, the undo of homes, redo notices, and
packets lost in routers and links (R152, R158 to R163, R170 to R174, R204, R473, R474, R476, R479). -/

namespace Sys2Proof.Machine

/-! ### Crews -/

/-- A thread's run state as a restart brings it back (R161): one that waited with its instruction not executed issues it
again; waits in BARRIER, REJOIN and XBLOCK go on, the last while its request still stands, and so does the wait for the code
register of an abort. -/
def restartRun (asks : Bool) (q : RunState) : RunState :=
  match q with
  | .scoreboard _ _ _ => .ready
  | .release (.code k v) => .release (.code k v)
  | .release _ => .ready
  | .xblock => if asks then .xblock else .ready
  | .parked => .ready
  | x => x

/-- The threads of a snapshot: scoreboard slots clear (R154). A thread's consume signature comes back with its taint, and keeps
what a load of a released region has brought since (R103, log 45). -/
def restartThreads (n : Snapshot) (asks : Bool) (l : List Thread) : List Thread :=
  (upTo l.length).map (fun k =>
    let t := l.getD k .idle
    { t with pc := n.pcs.getD k t.pc, preds := n.preds.getD k t.preds, taint := n.taint.getD k t.taint
             sb := [0, 0, 0, 0, 0, 0], run := restartRun asks (n.runs.getD k t.run)
             consume := (n.consume.getD k .empty).or t.consume })

/-- A load of a released region as a restart to a head leaves it: due where it was at the head. -/
def LoadRec.atHead (q : LoadRec) (head : Nat) : LoadRec :=
  { q with dst := ((q.snaps.find? (fun x => x.1 == head)).map (fun x => x.2)).getD q.dst, snaps := [] }

/-- A crew at the head of its oldest unreleased region (R154, R160). Nothing of the discarded regions is left; loads and
asynchronous causes of released ones stay. -/
def Crew.restart (w : Crew) (g : Region) (now : Nat) : Crew :=
  let n := g.snapshot
  let asks := w.xwait.isSome && n.runs.any (fun x => x == .xblock)
  { w with
    threads := restartThreads n asks w.threads
    trapMode := n.trapMode, map := n.map, ext := n.ext, pinned := BitVec.allOnes 64, turn := n.turn, run := n.run
    regions := [Region.open_ g.id g.head n]
    retired := 0
    gambit := n.gambit.map (fun x => { x with buffer := [], records := [], counts := [] })
    point := none, setters := [], pendingTrap := n.entry, async := w.async.filter (fun c => c.kept)
    loads := (w.loads.filter (fun q => !w.regions.any (fun x => x.id == q.region))).map (fun q => q.atHead g.id)
    handling := n.handling, dying := none, headDue := false, parked := none, resumeAt := now + 8, pausedUntil := 0
    xwait := if asks then w.xwait else none }

/-- What a sub-core holds for a restarted crew slot (R154, R190): its latches are invalid, its locked run breaks, of its
blocks one stays when the snapshot holds one. -/
def Sub.restartSlot (b : Sub) (slot : Nat) (ext : Bool) : Sub :=
  let first := if ext then (upTo b.blocks.length).find? (fun k => ((b.blocks[k]?).map (fun x => x.holder)) == some (some slot))
    else none
  { b with
    blocks := (upTo b.blocks.length).map (fun k =>
      let x := b.blocks.getD k ⟨none, none, false⟩
      if x.holder != some slot then x
      else if some k == first then { x with freeing := false } else { x with holder := none, freeing := false })
    locked := if (b.locked.map (fun x => x.slot)) == some slot then none else b.locked
    loser := if b.loser == some slot then none else b.loser
    latches := b.latches.map (fun x => x.map (fun y => if y.slot == slot then { y with left := 0 } else y))
    latchWait := b.latchWait.filter (fun x => x.1 != slot)
    ready := b.ready.filter (fun x => x.1 != slot) }

/-- An engine command that a restart of a crew discards: its region has not released (R160, R170). -/
def EngOp.discarded (o : EngOp) (r : CrewRef) : Bool := o.crew == r && !o.released

/-- A timeline after commands have been discarded (R162): held are the numbers of those that were not. -/
def Timeline.vacate (t : Timeline) (gone held : List Nat) : Timeline :=
  let top := (held ++ t.landed).foldl max t.counter
  { t with issued := top, vacant := (t.vacant ++ gone).filter (fun n => decide (n < top)) }

/-- The commands of a crew's unreleased regions dropped, their numbers vacant, their subscriptions unmade (R161, R162, R170,
R374). -/
def State.discardOps (s : State) (r : CrewRef) : State :=
  let all := (s.core r.core).engines.flatMap (fun e => e.ops)
  let gone := all.filter (fun o => o.discarded r)
  if gone.isEmpty then s
  else
    let kept := all.filter (fun o => !o.discarded r)
    let nums := fun (l : List EngOp) (gs tl : Nat) => (l.filter (fun o => o.gslot == gs && o.tl == tl)).map (fun o => o.num)
    s.modCore r.core (fun k => { k with
      engines := k.engines.map (fun e => { e with ops := e.ops.filter (fun o => !o.discarded r) })
      groups := (upTo k.groups.length).map (fun gs => (k.groups.getD gs none).map (fun (g : Group) => ({ g with
        timelines := (upTo g.timelines.length).map (fun tl =>
          let t := g.timelines.getD tl .reset
          if (nums gone gs tl).isEmpty then t else t.vacate (nums gone gs tl) (nums kept gs tl))
        subs := g.subs.filter (fun x => !gone.any (fun o => o.id == x.op && o.gslot == gs)) } : Group))) })

/-- A crew restarts at its oldest unreleased head (R160). A crew whose release point has sent its request does not
(R165). -/
def State.restartCrew (s : State) (r : CrewRef) : State :=
  let w := s.crew r
  match w.regions with
  | [] => s
  | g :: _ =>
    if w.owner.isNone || (w.point.map (fun p => p.sent)).getD false then s
    else
      let s1 := (s.discardOps r).modKeep r (fun k => { k with side := g.snapshot.side })
      let s2 := s1.modCrew r (fun w => w.restart g s.cycle)
      let s3 := (((s2.dropHeld r).modSub r.core r.sub (fun b => (b.restartSlot r.slot g.snapshot.ext).purge)).dropLd r).recheckWaits r
      s3.countCell (s.physCore r.core) 3 1

/-! ### Engines -/

/-- An operation that begins again: a copy at its first unlanded chunk, any other at its first step (R170). -/
def EngOp.again (o : EngOp) : EngOp :=
  { o with started := none, nextAt := 0, step := if o.work.tile.isSome then o.first else o.landed, held := false, staged := [], readDone := none, resends := 0 }

/-- A tile's live tile becomes a copy of its base (R170). The copy of a live tile that is separate from its base takes the
tile engine 32 cycles (R169, R401). -/
def State.baseTile (s : State) (core gslot k : Nat) : State :=
  let t := s.modTile core gslot k (fun t => { t with live := t.base, status := t.baseStatus })
  if (s.tile core gslot k).forked then
    t.modCore core (fun c => { c with engines := modifyAt c.engines 4 (fun e => { e with freeAt := max e.freeAt s.cycle + 32 }) })
  else t

/-- The unsettled operations of released regions on a tile run again from the base (R170). -/
def State.rerunTile (s : State) (core gslot k : Nat) : State :=
  (s.baseTile core gslot k).modOps core 4 (fun l => l.map (fun o =>
    if o.gslot == gslot && o.work.tile == some k && o.released && !o.dead then o.again else o))

/-- Every tile of a core runs its unsettled operations again. -/
def State.rerunTiles (s : State) (core : Nat) : State :=
  (upTo 32).foldl (fun (st : State) gs =>
    (upTo (((st.group core gs).map (fun g => g.tiles.length)).getD 0)).foldl (fun t k => t.rerunTile core gs k) st) s

/-- The engines of a core after an event that covers it (R170): released copies and RCONs resume, tiles run again. -/
def State.recoverEngines (s : State) (core : Nat) : State :=
  let s1 := (upTo 5).foldl (fun (st : State) u => st.modOps core u (fun l => l.map (fun o => match o.work with
    | .copy _ _ => if o.released && !o.dead then o.again else o
    | .rcon _ _ _ _ _ => if o.released && !o.dead && !o.done then o.again else o
    | _ => o))) s
  s1.rerunTiles core

/-! ### Cores -/

/-- The index of a class's counter (R498). -/
def sensorField (c : SensorClass) : Nat :=
  match c with
  | .strike => 0
  | .droop => 1
  | .clock => 2

/-- The transposition tables of a core are empty (R204). -/
def State.flushXpos (s : State) (core : Nat) : State :=
  s.modCore core (fun k => { k with subs := k.subs.map (fun b => { b with xpos := [] }) })

/-- An event that covers a core (R158, R160, R170, R172, R204): releases and clears that fall in its cycle have gone
first, by the order of the device's steps (log 3). Its port and vault controller undo what they have not cleared. -/
def State.coreEvent (s : State) (core : Nat) : State :=
  let s1 := (coreRefs core).foldl State.restartCrew s
  let s2 := (s1.recoverEngines core).flushXpos core
  (s2.undoHome (.port core)).undoHome (.vault core)

/-- SENSOR_EVENT_CORE: an event of a class covers the core cell, a physical core (R149, R150, R160). -/
def execSensorEventCore (cls : SensorClass) (cell : Nat) (s : State) : Host.Outcome State Fault Refusal :=
  if cell < 1024 then
    let s1 := s.countCell cell (sensorField cls) 1
    match s1.logicalCore cell with
    | some c => .next (s1.coreEvent c)
    | none => .next s1
  else .next s

/-! ### Homes -/

/-- The home that an event covers: a slice, or a stack controller (R150). -/
def coveredHome (cell : Nat) : Option HomeId :=
  if 1024 ≤ cell && cell < 1280 then some (.slice (cell - 1024))
  else if 1792 ≤ cell && cell < 1800 then some (.stack (cell - 1792)) else none

/-- A home's responses from the n-th on undone; RECOVER of its cell counts the notices sent (R172, R498). -/
def State.undoCounted (s : State) (h : HomeId) (n : Nat) : State :=
  let k := ((((s.home h).responses.drop n).filter (fun x => x.tagged)).map (fun x => x.core)).eraseDups.length
  let t := s.undoFrom h n
  if k == 0 then t else t.countCell (s.cellOf h) 3 k

/-- SENSOR_EVENT_HOME: an event covers a slice or a stack controller (R172, R174). -/
def execSensorEventHome (cls : SensorClass) (cell : Nat) (s : State) : Host.Outcome State Fault Refusal :=
  match coveredHome cell with
  | some h => .next ((s.countCell cell (sensorField cls) 1).undoCounted h 0)
  | none => .next s

/-- A redo notice names a tag: the same cell, and a serial no lower modulo 2^20 (R172). -/
def Tag.named (t c : Tag) : Bool := t.cell == c.cell && decide ((t.serial + 2 ^ 20 - c.serial) % 2 ^ 20 < 2 ^ 19)

/-- The units of an operation from the first that rests on a named tag on are read again (R170). -/
def EngOp.reread (o : EngOp) (c : Tag) (now : Nat) : EngOp :=
  match o.staged.findIdx? (fun u => u.tags.any (fun t => t.named c)) with
  | some i =>
    if o.work.tile.isSome || o.dead then o
    else
      { o with staged := o.staged.take i, step := o.step - (o.staged.length - i), nextAt := now + 32, readDone := none }
  | none => o

/-- The tiles that commands of a crew that a restart would discard have begun to act on (R170). -/
def State.touchedTiles (s : State) (r : CrewRef) : List (Nat × Nat) :=
  ((s.engineOps r.core 4).filter (fun o => o.discarded r && o.started.isSome)).filterMap (fun o =>
    o.work.tile.map (fun k => (o.gslot, k)))

/-- A redo notice at a core (R173): the crews that received a named tag in an unreleased region restart, lines of L1 with
such a tag go, engines read again. -/
def State.redo (s : State) (core : Nat) (c : Tag) : State :=
  let hit := (coreRefs core).filter (fun r => (s.crew r).regions.any (fun g => g.tags.any (fun t => t.named c)))
  let tiles := (hit.flatMap s.touchedTiles).eraseDups
  let s1 := hit.foldl State.restartCrew s
  let s2 := tiles.foldl (fun (st : State) x => st.rerunTile core x.1 x.2) s1
  let s3 := s2.modCore core (fun k => { k with
    l1 := k.l1.filter (fun x => !(x.tag.map (fun t => t.named c)).getD false)
    engines := k.engines.map (fun e => { e with ops := e.ops.map (fun o => o.reread c s.cycle) }) })
  s3

/-- A redo notice of a stack controller at a slice (R174): it writes the lines that the notice names back again, and what it
has answered since it first rested on a named tag it undoes and performs again (log 36). -/
def State.redoSlice (s : State) (slice : Nat) (c : Tag) : State :=
  let hit := fun (t : Option Tag) => (t.map (fun x => x.named c)).getD false
  let back := (s.home (.slice slice)).lines.filter (fun x => hit x.back)
  let s1 := back.foldl (fun (st : State) x => st.l2WriteBack slice x.line x.leaving) s
  match (s1.home (.slice slice)).responses.findIdx? (fun x => hit x.fill) with
  | some n => s1.undoCounted (.slice slice) n
  | none => s1

/-- REDO_NOTICE_RECEIVE at the requester that State.sel names, a core or 1024 + n for slice n (R173, R174). -/
def execRedoNoticeReceive (s : State) : Host.Outcome State Fault Refusal :=
  match arrived s.net.redos s.sel.a s.cycle with
  | some n =>
    let s1 : State := { s with net := { s.net with redos := s.net.redos.erase n } }
    .next (if 1024 ≤ n.core then s1.redoSlice (n.core - 1024) n.tag else s1.redo n.core n.tag)
  | none => .next s

/-! ### Routers and links -/

/-- A packet is lost (R152, R474): its source sends the transaction again once nothing has arrived. The answer of a message or
of a circuit's set-up, which a second request would not find again, is sent again by its home (log 6). -/
def State.losePacket (s : State) (p : Packet) : State :=
  let s1 : State := { s with net := { s.net with packets := s.net.packets.filter (fun q => q != p) } }
  s1.modTx p.tx (fun t =>
    if !p.reply then { t with lost := true }
    else match t.req with
      | .message _ _ _ _ => { t with dueAt := max t.dueAt s.cycle + Config.resendAfter }
      | .setup _ _ => { t with dueAt := max t.dueAt s.cycle + Config.resendAfter }
      | _ => { t with lost := true, answer := none })

/-- The routers of a route, in order. -/
def routeRouters (a b : Nat) : List Nat := (routeOutputs a b).map (fun o => o / 4) ++ [b]

/-- The cycles in which the reads of an operation's present step are on their way (R337). -/
def EngOp.readSpan (o : EngOp) : Nat :=
  match o.work with
  | .copy runs _ => 40 + chunkCycles runs o.step
  | _ => 0

/-- The address of the first run that the present step of an engine operation is reading through a router (R152). Reads that
are lost are in no router before they are sent again. -/
def State.readsThrough (s : State) (core : Nat) (o : EngOp) (router : Nat) : Option Nat :=
  if o.started.isNone || o.dead || o.held || o.total ≤ o.step || o.nextAt ≤ s.cycle || s.cycle + o.readSpan < o.nextAt then none
  else (o.chunkRuns.find? (fun x =>
    let h := s.homeOf x.1.src x.1.srcPage.thg
    h != .port core && h != .vault core && (routeRouters (s.routerOf core) (s.endRouter core h)).contains router)).map (fun x => x.1.va)

/-- An engine's reads through a router are lost (R152): they are sent again once nothing has arrived, at most 7 times, and then
the operation is abandoned (R339, R474). -/
def State.loseReads (s : State) (router : Nat) : Nat × State :=
  s.coreList.foldl (fun (acc : Nat × State) core =>
    (upTo 4).foldl (fun (acc : Nat × State) u =>
      (s.engineOps core u).foldl (fun (acc : Nat × State) o =>
        match s.readsThrough core o router with
        | none => acc
        | some va =>
          (acc.1 + 1, if 7 ≤ o.resends then acc.2.abandon core u o 4 va
            else acc.2.modOp core u o.id (fun x => { x with
              resends := o.resends + 1, nextAt := s.cycle + Config.resendAfter + o.readSpan }))) acc)
      acc) (0, s)

/-- The packets that a router holds are lost, and the reads that engines make through it (R152). -/
def State.loseRouter (s : State) (router : Nat) : Nat × State :=
  let l := s.net.packets.filter (fun p => p.router == router)
  let q := (l.foldl State.losePacket s).loseReads router
  (l.length + q.1, q.2)

/-- A packet stands in a port: it enters or leaves the torus there in this cycle, or the port holds it. -/
def State.inPort (s : State) (port : Nat) (p : Packet) : Bool :=
  s.packetPort p == some port && (s.portHolds p || (p.isLocal && p.sent == s.cycle) || (!p.isLocal && p.readyAt ≤ s.cycle))

/-- A port of an I/O die carries the requests for an outside party: the die's own port, the root port, or the Phoac port
(R466). -/
def outsidePort (port : Nat) (h : HomeId) : Bool :=
  match h with
  | .outside n => port == 72 + outsideDie n || port == (if n < 4 then 76 + n else 80 + (n - 4) / 16)
  | _ => false

/-- The packets that a link port holds are lost (R152): those in it, and at a port of an I/O die the requests that outside
parties have not answered. -/
def State.losePort (s : State) (port : Nat) : Nat × State :=
  let l := s.net.packets.filter (s.inPort port)
  let s1 := l.foldl State.losePacket s
  let out := fun (t : Tx) => t.out && t.answer.isNone && !t.lost && outsidePort port t.home && !s.travels t false
  let m := s1.net.txs.filter out
  (l.length + m.length, { s1 with net := { s1.net with txs := s1.net.txs.map (fun t => if out t then { t with lost := true } else t) } })

/-- SENSOR_EVENT_ROUTER_PORT: an event covers a router or a link port (R152, R498). -/
def execSensorEventRouterPort (cls : SensorClass) (cell : Nat) (s : State) : Host.Outcome State Fault Refusal :=
  if 1280 ≤ cell && cell < 1792 then
    let s1 := s.countCell cell (sensorField cls) 1
    let q := if cell < 1536 then s1.loseRouter (cell - 1280) else s1.losePort (cell - 1536)
    .next (if q.1 == 0 then q.2 else q.2.countCell cell 3 q.1)
  else .next s

/-- CROSSING_SLIP: a CLOCK event of the crossing's cell (R149, R479). Its re-centring changes no latency. -/
def execCrossingSlip (cell : Nat) (s : State) : Host.Outcome State Fault Refusal :=
  if cell < 1024 then execSensorEventCore .clock cell s
  else if 1280 ≤ cell && cell < 1792 then execSensorEventRouterPort .clock cell s
  else execSensorEventHome .clock cell s

/-- The state with a link port changed. -/
def State.modPort (s : State) (n : Nat) (f : LinkPort → LinkPort) : State :=
  { s with net := { s.net with ports := tset s.net.ports n (f (s.port n)) } }

/-- LINK_CRC_FAIL: a flit fails its check; the receiver discards it and every later flit of the link until the resend, 12
cycles later (R473). -/
def execLinkCrcFail (port lane : Nat) (s : State) : Host.Outcome State Fault Refusal :=
  .next (s.modPort port (fun p => { p with
    failures := (p.failures.filter (fun x => decide (s.cycle < x.2 + 2 ^ 20))) ++ [(lane, s.cycle)]
    discarding := true, resendAt := p.resendAt.or (some (s.cycle + 12)) }))

/-- A resend is due at a port that is not paused. -/
def State.linkDue (s : State) (port : Nat) : Bool :=
  let p := s.port port
  (p.resendAt.map (fun t => decide (t ≤ s.cycle))).getD false && decide (p.pausedUntil ≤ s.cycle)

/-- LINK_RESEND of the port that State.sel names: the retry buffer is sent again, and no flit is lost (R473). -/
def execLinkResend (s : State) : Host.Outcome State Fault Refusal :=
  if s.linkDue s.sel.a then .next (s.modPort s.sel.a (fun p => { p with resendAt := none, discarding := false }))
  else .next s

/-- A link record (R504): event 1 remap, 2 SPARES_OUT, 3 half bandwidth. -/
def State.logLink (s : State) (port event lane : Nat) : State :=
  s.logRecord 8 1 (1536 + port) 0xFFFF (toBytes 2 (1536 + port) ++ toBytes 1 event ++ toBytes 1 lane)

/-- LANE_REMAP: a lane that has failed 8 times in 2^20 cycles or lost its signal takes a spare, and the port sends nothing
for 256 cycles; without a spare the port says so and goes on, a Phoac port on 4 of its lanes (R476). -/
def execLaneRemap (port lane : Nat) (lost : Bool) (s : State) : Host.Outcome State Fault Refusal :=
  let p := s.port port
  let fails := (p.failures.filter (fun x => x.1 == lane && decide (s.cycle < x.2 + 2 ^ 20))).length
  if !lost && fails < 8 then .next s
  else if p.spares == 0 then
    if isPhoacPort port then .next ((s.modPort port (fun p => { p with half := true })).logLink port 3 lane)
    else .next (s.logLink port 2 lane)
  else
    let s1 := s.modPort port (fun p => { p with
      spares := p.spares - 1, remapped := p.remapped ++ [(lane, s.cycle)]
      failures := p.failures.filter (fun x => x.1 != lane), pausedUntil := s.cycle + 256 })
    .next ((s1.countCell (1536 + port) 7 1).logLink port 1 lane)

/-- LANE_REMAP_END of the port that State.sel names: its pause is over (R476). -/
def execLaneRemapEnd (s : State) : Host.Outcome State Fault Refusal :=
  let p := s.port s.sel.a
  if p.pausedUntil != 0 && p.pausedUntil ≤ s.cycle then .next (s.modPort s.sel.a (fun p => { p with pausedUntil := 0 }))
  else .next s

end Sys2Proof.Machine
end

