-- ==== Sys2Proof/Machine/Images.lean ====
section
/-! DEFINITION. The records of a saved group and of a cast as bytes, and a group made again from them (R444 to R451, R454,
R455, R457, R458, R460). -/

namespace Sys2Proof.Machine

/-! ### Records -/

/-- The record of a type with a body (R454). -/
def recordOf (type : Nat) (body : List Byte) : CastRecord :=
  { type := BitVec.ofNat 16 type, mbz := 0
    crc := BitVec.ofNat 32 (crc32c (toBytes 2 type ++ [0, 0] ++ toBytes 4 body.length ++ body)), body := body }

/-- The bytes that a record's body is padded with (R454). -/
def padding (n : Nat) : Nat := (8 - n % 8) % 8

/-- A record's bytes (R454). -/
def recordBytes (x : CastRecord) : List Byte :=
  toBytes 2 x.type.toNat ++ toBytes 2 (x.mbz.toNat % 65536) ++ toBytes 4 x.body.length ++ toBytes 4 x.crc.toNat ++
    toBytes 4 (x.mbz.toNat / 65536) ++ x.body ++ List.replicate (padding x.body.length) 0

/-- A record's must-be-zero bytes are zero and its CRC holds (R454). -/
def recordOk (x : CastRecord) : Bool := x.mbz == 0 && x.crc == (recordOf x.type.toNat x.body).crc

/-- The type of a record. -/
def recordTag (x : CastRecord) : Nat := x.type.toNat

/-- The records that bytes hold; none when they are not whole or a body is not padded with zeros (R454). -/
def readRecords : Nat → List Byte → Option (List CastRecord)
  | 0, _ => none
  | fuel + 1, bs =>
    if bs.isEmpty then some []
    else
      let n := field bs 4 4
      let all := 16 + n + padding n
      if bs.length < all || ((bs.drop (16 + n)).take (padding n)).any (fun b => b != 0) then none
      else
        (readRecords fuel (bs.drop all)).map (fun r =>
          { type := BitVec.ofNat 16 (field bs 0 2)
            mbz := BitVec.ofNat 48 (field bs 2 2 + 65536 * field bs 12 4)
            crc := BitVec.ofNat 32 (field bs 8 4), body := (bs.drop 16).take n } :: r)

/-! ### A crew's record -/

/-- The 2 KiB of a side buffer (R297, R298). -/
def SideBuffer.bytes (b : SideBuffer) : List Byte :=
  (upTo 64).flatMap (fun k => toBytes 4 (b.headerWord (4 * k)).toNat) ++
    (upTo 32).flatMap (fun l => (upTo 14).flatMap (fun k => toBytes 4 ((b.lanes.getD l .zero).word (4 * k)).toNat))

/-- A word of a record. -/
def wordAt (b : List Byte) (off : Nat) : Word := BitVec.ofNat 32 (field b off 4)

/-- A double word of a record. -/
def longAt (b : List Byte) (off : Nat) : BitVec 64 := BitVec.ofNat 64 (field b off 8)

/-- The side buffer that 2 KiB hold (R297, R298). -/
def sideOf (b : List Byte) : SideBuffer :=
  { cls := wordAt b 0, cause := wordAt b 4, tpc := longAt b 8, iword := longAt b 16, tmask := wordAt b 24
    pmask := wordAt b 28, turn := wordAt b 32, seq := wordAt b 36, clock := longAt b 40, launchId := wordAt b 48
    group := wordAt b 52, flags := wordAt b 56, ilen := wordAt b 60, hscr := (upTo 48).map (fun k => wordAt b (64 + 4 * k))
    lanes := (upTo 32).map (fun l =>
      let x := (b.drop (256 + 56 * l)).take 56
      { spc := longAt x 0, addr := longAt x 8, cause := wordAt x 16, state := wordAt x 20
        saveG := (upTo 4).map (fun k => wordAt x (24 + 4 * k)), aux := longAt x 40 }) }

/-- The saved state of a thread: 0 READY, 1 EXITED, 2 REPLAY (R445). -/
def Thread.saved (t : Thread) : Nat :=
  match t.run with
  | .exited => 1
  | .parked => 2
  | _ => 0

/-- A thread's record (R458). -/
def Crew.threadBytes (w : Crew) (l : Nat) : List Byte :=
  let t := w.thread l
  toBytes 8 t.pc.toNat ++ toBytes 1 t.saved ++ [if w.trapMode then 1 else 0] ++ [0, 0] ++ toBytes 4 (t.preds.toNat % 2 ^ 31) ++
    toBytes 8 t.taint.toNat ++ List.replicate 8 0 ++
    (upTo 64).flatMap (fun k => if k < 32 || w.ext then toBytes 4 (lane (w.reg k).content l).toNat else [0, 0, 0, 0])

/-- A CREW body (R458). -/
def Crew.body (w : Crew) (side : SideBuffer) (index : Nat) : List Byte :=
  let g := w.gambit
  toBytes 2 index ++ toBytes 2 ((if w.handling.isSome then 1 else 0) + (if w.ext then 2 else 0)) ++ toBytes 1 w.turn ++
    toBytes 1 w.run ++ toBytes 1 ((g.map (fun x => x.code)).getD 0xFF) ++ [0] ++
    toBytes 8 ((g.map (fun x => x.fail.toNat)).getD 0) ++ toBytes 4 w.inGambit.toNat ++
    toBytes 4 (if (g.map (fun x => x.crewKind)).getD false then 1 else 0) ++ List.replicate 8 0 ++ side.bytes ++
    allLanes.flatMap w.threadBytes

/-- The bytes of a CREW body. -/
def crewBytes : Nat := 11296

/-- The record of a thread in a CREW body. -/
def threadRecord (b : List Byte) (l : Nat) : List Byte := (b.drop (0x820 + 288 * l)).take 288

/-- A CREW body is well formed (R458). -/
def crewBodyOk (b : List Byte) : Bool :=
  b.length == crewBytes && field b 7 1 == 0 && field b 0x18 8 == 0 && decide (field b 2 2 < 4) && decide (field b 0x14 4 < 2) &&
    allLanes.all (fun l =>
      let t := threadRecord b l
      decide (field t 8 1 < 3) && decide (field t 9 1 < 2) && field t 10 2 == 0 && !bit (field t 12 4) 31 && field t 0x18 8 == 0)

/-- The thread that a record holds, with invalidate-all as its consume signature (R445, R450). -/
def threadOf (t : List Byte) : Thread :=
  { Thread.idle with
    pc := longAt t 0, preds := wordAt t 12, taint := longAt t 16
    run := if field t 8 1 == 1 then .exited else .ready, consume := .invalidateAll }

/-- Every thread of a CREW body has exited. -/
def crewDone (b : List Byte) : Bool := allLanes.all (fun l => field (threadRecord b l) 8 1 == 1)

/-- A crew made again in a slot from its body: the restore is its head (R450, R458). -/
def State.loadCrew (s : State) (r : CrewRef) (o : Owner) (b : List Byte) : State :=
  let side := sideOf ((b.drop 0x20).take 2048)
  let reg := fun (k : Nat) => contentOf (fun l => wordAt (threadRecord b l) (0x20 + 4 * k))
  let threads := allLanes.map (fun l => threadOf (threadRecord b l))
  let lanes := BitVec.ofNat 32 (field b 0x10 4)
  let code := field b 6 1
  let w : Crew :=
    { Crew.idle with
      owner := some o, threads := threads, trapMode := field (threadRecord b 0) 9 1 == 1
      handling := if bit (field b 2 2) 0 then some side.cls.toNat else none
      turn := field b 4 1, run := field b 5 1, lastIssue := s.cycle
      gambit := if code == 0xFF then none
        else some { crewKind := field b 0x14 4 == 1, lanes := lanes, fail := longAt b 8, code := code, count := 0, buffer := [],
                    records := [], counts := [] } }
  let s1 := ((s.modCrew r (fun _ => w)).modKeep r (fun k => { k with side := side })).modSub r.core r.sub (fun x =>
    let x1 := x.startMap r.slot ((upTo 32).map reg)
    if !bit (field b 2 2) 1 then x1
    else
      let x2 := match x1.blockFor o.gslot with
        | some k => (x1.takeBlock k r.slot).openExt r.slot
        | none => x1.openExt r.slot
      (upTo 32).foldl (fun (y : Sub) k => y.store r.slot (32 + k) (reg (32 + k))) x2)
  (s1.modCrew r (fun w => { w with threads := threads })).startHead r

/-! ### A group's record -/

/-- A group is pinned to its slot: it owns an open window, or is named as the writer of a peer's (R447). -/
def State.pinnedSlot (s : State) (core gslot : Nat) : Bool :=
  (s.core core).windows.any (fun w => (w.core == core && w.gslot == gslot) ||
    (w.wcore == core && w.wslot == gslot && !(w.core == core && w.gslot == gslot)))

/-- An entry of SUBS (R457). -/
def subEntry (x : Option Subscription) : List Byte :=
  match x with
  | some y => [1, BitVec.ofNat 8 y.tl, 0, 0] ++ toBytes 4 y.len ++ toBytes 8 y.lva ++ toBytes 8 y.gva ++ List.replicate 8 0
  | none => List.replicate 32 0

/-- An entry of CIRC (R457). -/
def circEntry (x : Option Circuit) : List Byte :=
  match x with
  | some c => toBytes 4 1 ++ toBytes 4 c.dest ++ toBytes 4 c.left ++ [0, 0, 0, 0]
  | none => List.replicate 16 0

/-- A word of WIN (R457). -/
def State.windowWord (s : State) (w : Window) : Nat :=
  2 ^ 31 + (if w.wcore == w.core && w.wslot == w.gslot then 0 else 2 ^ 30) + s.physCore w.wcore % 4 * 2 ^ 28 +
    w.wslot % 32 * 2 ^ 23 + w.off / 128 % 4096

/-- The windows that a group owns. -/
def State.ownedWindows (s : State) (core gslot : Nat) : List Window :=
  (s.core core).windows.filter (fun w => w.core == core && w.gslot == gslot)

/-- The last latch RCON accepted on a core was a group's (R448). -/
def State.ownsLatch (s : State) (core gslot : Nat) : Bool := (s.core core).latch.owner == some gslot

/-- The times a group has been relaunched (R433). -/
def Launch.relaunches (l : Launch) (g : Nat) : Nat := ((l.lostOnce.find? (fun x => x.1 == g)).map (fun x => x.2)).getD 0

/-- A GROUP body (R457). -/
def State.groupBody (s : State) (core gslot : Nat) (l : Launch) (g : Group) : List Byte :=
  let flags := (if g.pinCore then 1 else 0) + (if s.pinnedSlot core gslot then 2 else 0) +
    (if s.ownsLatch core gslot then 4 else 0) + (if g.atomic then 8 else 0)
  let tl := fun (f : Timeline → Nat) => (upTo 5).flatMap (fun k => toBytes 8 (f (g.timelines.getD k .reset)))
  let wins := s.ownedWindows core gslot
  toBytes 2 g.lslot ++ toBytes 2 flags ++ toBytes 4 g.g ++ toBytes 2 core ++ toBytes 1 gslot ++ toBytes 1 g.crews.length ++
    toBytes 1 (l.relaunches g.g) ++ [0, 0, 0] ++ tl (fun t => t.counter) ++ tl (fun t => t.issued) ++
    (upTo 64).flatMap (fun k => toBytes 4 (g.barriers.getD k 0xFFFFFFFF)) ++
    (upTo 16).flatMap (fun k => subEntry (g.subs.find? (fun x => x.id == k))) ++
    (upTo 4).flatMap (fun k => circEntry ((s.core core).circuits.find? (fun c => c.id == k && c.owner == .group gslot))) ++
    (upTo 256).flatMap (fun k => toBytes 4 (((wins[k]?).map s.windowWord).getD 0))

/-- The bytes of a GROUP body. -/
def groupBytes : Nat := 1952

/-- A SCRATCH body (R455). -/
def State.scratchBody (s : State) (core : Nat) (g : Group) : List Byte :=
  toBytes 4 g.scrLen ++ [0, 0, 0, 0] ++ (upTo (g.scrLen / 64)).flatMap (fun k =>
    let p := Loc.scratch core (g.scrBase + 64 * k)
    let d := s.descAt p
    s.bytesAt p 64 ++ toBytes 2 d.1 ++ toBytes 2 d.2)

/-- A TILE body (R455). -/
def tileBody (k : Nat) (t : TileSlot) : List Byte :=
  toBytes 4 k ++ toBytes 4 t.status.toNat ++
    (upTo 65).flatMap (fun i => (upTo 65).flatMap (fun j => toBytes 4 (tileAt t.live i j).toNat))

/-- An ENGOP body (R460). -/
def EngOp.body (o : EngOp) : List Byte :=
  let x := o.image
  toBytes 1 (bits x.word 8 2) ++ toBytes 1 o.tl ++ toBytes 2 (if o.started.isSome || o.held then 1 else 0) ++ toBytes 4 o.step ++
    toBytes 8 o.num ++ toBytes 8 x.word ++ toBytes 8 x.dst ++ toBytes 8 x.src ++ toBytes 4 x.bval.toNat ++
    toBytes 4 x.cval.toNat ++ toBytes 4 x.data.length ++ toBytes 4 (x.index.length / 4) ++ x.data ++ x.index

/-- The ENGOP body of a vacant number (R460). -/
def vacantBody (tl n : Nat) : List Byte := [0, BitVec.ofNat 8 tl, 2, 0, 0, 0, 0, 0] ++ toBytes 8 n ++ List.replicate 40 0

/-- The operations of a group that are saved, in acceptance order on each unit (R444). -/
def State.opsToSave (s : State) (core gslot : Nat) : List EngOp :=
  (upTo 5).flatMap (fun u => (s.engineOps core u).filter (fun o => o.gslot == gslot && !o.done && !o.dead))

/-- A LATCH body (R455). -/
def RowLatch.body (x : RowLatch) : List Byte := x.data ++ x.descs.flatMap (fun d => toBytes 2 d)

/-- A group's image: its records from GROUP to LATCH (R455). -/
def State.groupImage (s : State) (core gslot : Nat) : List CastRecord :=
  match s.group core gslot with
  | none => []
  | some g =>
    match s.launch? g.lslot with
    | none => []
    | some l =>
      [recordOf 0x30 (s.groupBody core gslot l g)] ++
      (upTo g.crews.length).map (fun k =>
        let x := g.crews.getD k (0, 0)
        let r : CrewRef := ⟨core, x.1, x.2⟩
        recordOf 0x31 ((s.crew r).body (s.keep r).side k)) ++
      [recordOf 0x32 (s.scratchBody core g)] ++
      (upTo g.tiles.length).map (fun k => recordOf 0x33 (tileBody k (g.tiles.getD k .reset))) ++
      (s.opsToSave core gslot).map (fun o => recordOf 0x34 o.body) ++
      (upTo 5).flatMap (fun tl => ((g.timelines.getD tl .reset).vacant).map (fun n => recordOf 0x34 (vacantBody tl n))) ++
      (if s.ownsLatch core gslot then [recordOf 0x35 (s.core core).latch.body] else [])

/-- The records of the handler crews of a launch on a core that are not idle (R455). -/
def State.handlerImage (s : State) (core lslot : Nat) : List CastRecord :=
  (s.handlerRefs core lslot).filterMap (fun r =>
    (s.crew r).owner.map (fun o =>
      recordOf 0x36 (toBytes 2 lslot ++ toBytes 2 core ++ (s.crew r).body (s.keep r).side o.index)))

/-! ### A group's image read -/

/-- A group's image as records (R455). -/
structure GroupImage where
  group : List Byte
  crews : List (List Byte)
  scratch : List Byte
  tiles : List (List Byte)
  ops : List (List Byte)
  latch : Option (List Byte)
  handlers : List (List Byte)
  deriving DecidableEq, Repr

/-- The bodies of the records of a type at the front of a list, and the rest. -/
def takeTag (tag : Nat) (l : List CastRecord) : List (List Byte) × List CastRecord :=
  ((l.takeWhile (fun x => recordTag x == tag)).map (fun x => x.body), l.dropWhile (fun x => recordTag x == tag))

/-- An ENGOP body is well formed (R460). -/
def opBodyOk (b : List Byte) : Bool :=
  decide (56 ≤ b.length) && decide (field b 1 1 < 5) && decide (field b 2 2 < 4) &&
    b.length == 56 + field b 0x30 4 + 4 * field b 0x34 4

/-- A group's image from its records: none when one is malformed, has an unknown type or fails its CRC (R449). -/
def readImage (l : List CastRecord) : Option GroupImage :=
  let g := takeTag 0x30 l
  let c := takeTag 0x31 g.2
  let x := takeTag 0x32 c.2
  let t := takeTag 0x33 x.2
  let o := takeTag 0x34 t.2
  let y := takeTag 0x35 o.2
  let h := takeTag 0x36 y.2
  match g.1, x.1 with
  | [gb], [sb] =>
    if l.all recordOk && gb.length == groupBytes && c.1.length == field gb 0xB 1 && c.1.all crewBodyOk &&
        decide (16 ≤ 16 + sb.length) && sb.length == 8 + 68 * (field sb 0 4 / 64) && t.1.all (fun b => b.length == 8 + 16900) &&
        o.1.all opBodyOk && y.1.length == (if bit (field gb 2 2) 2 then 1 else 0) && y.1.all (fun b => b.length == 2112) &&
        h.1.all (fun b => crewBodyOk (b.drop 4)) && h.2.isEmpty then
      some { group := gb, crews := c.1, scratch := sb, tiles := t.1, ops := o.1, latch := y.1.head?, handlers := h.1 }
    else none
  | _, _ => none

/-- The image at a physical address (R449). -/
def State.imageAt (s : State) (pa len : Nat) : Option GroupImage :=
  (readRecords (len / 16 + 1) (s.bytesAt (.mem pa) len)).bind readImage

/-! ### A group made again -/

/-- The issue group under whose name a restored operation's ranges are checked: the group's first crew. -/
def restoreIssue (r : CrewRef) : Issue :=
  { core := r.core, sub := r.sub, slot := r.slot, part := 1, pc := 0, len := 8, word := 0 }

/-- An operation's work from its saved copies (R460), with its steps; none when a range no longer translates. -/
def State.rebuild (s : State) (r : CrewRef) (x : EngImage) : Option (EngWork × Nat) :=
  let f := L64.ofWord (BitVec.ofNat 64 x.word)
  let op := bits x.word 8 2
  let copy := fun (runs : List VRun) =>
    let total := (runs.map (fun y => y.len)).sum
    match s.resolveRuns r 0 (pieces runs) with
    | .ok l => some (EngWork.copy (l.map (fun y => y.1)) (if f.c.toNat == 67 then none else some x.cval.toNat),
        (total + Config.chunk - 1) / Config.chunk)
    | .error _ => none
  if op == 0x70 then copy (if x.bval == 0 then [] else [⟨x.src, x.dst, x.bval.toNat⟩])
  else if op == 0x71 then copy (shapeRuns x.data x.src x.dst)
  else if op == 0x72 then copy (gatherRuns x.data x.index x.src x.dst)
  else if op == 0x74 || op == 0x75 then
    let p := mulOf x.data
    let p1 : TileMul :=
      { p with rows := if x.index.isEmpty then none else some ((upTo (x.index.length / 4)).map (fun k => field x.index (4 * k) 4))
               conv := if op == 0x75 then some (x.data.drop 64) else none }
    some (.mul p1, p1.steps)
  else if op == 0x76 then
    let p := drainOf x.data
    match s.drainRows (restoreIssue r) 0 (field x.data 0 8) (field x.data 8 4) p with
    | .ok rows => some (.drain { p with rows := rows.map (fun q => q.map (fun y => (y.1.loc, y.1.page))) }, p.m)
    | .error _ => none
  else if op == 0x77 then
    let k := bits f.c.toNat 5 3
    if bits f.c.toNat 1 0 == 0 then some (.tzero k, 1) else some (.tload k x.src (bit f.c.toNat 2), 1)
  else if op == 0x79 then
    let dst := if bit f.c.toNat 1 then some ((s.allocation r).1 + x.bval.toNat) else none
    let descs := (upTo 32).map (fun k => (field x.data (2048 + 4 * k) 2, field x.data (2050 + 4 * k) 2))
    let bad := (upTo 32).findSome? (fun k =>
      let off := x.src % 2 ^ 48 + 64 * k
      (s.blockFault (descs.getD k (0, 0)) (.mem (vaultAddr r.core off))).map (fun c => (c, off)))
    some (.rcon dst s.cycle (x.data.take 2048) descs bad, 1)
  else
    let held := (s.groupOf r).bind (fun g => g.subs.find? (fun y => y.lva == x.src && y.op == 0))
    held.map (fun y => (.subs y.id, 1))

/-- An operation's image from its record (R460). -/
def imageOf (b : List Byte) : EngImage :=
  let n := field b 0x30 4
  { word := field b 0x10 8, dst := field b 0x18 8, src := field b 0x20 8, bval := wordAt b 0x28, cval := wordAt b 0x2C
    data := (b.drop 56).take n, index := b.drop (56 + n) }

/-- A saved operation accepted again at its number, to go on at its saved step (R450, R460). -/
def State.loadOp (s : State) (core gslot : Nat) (r : CrewRef) (b : List Byte) : State :=
  let tl := field b 1 1
  let num := field b 8 8
  if bit (field b 2 2) 1 then
    s.modGroup core gslot (fun g =>
      { g with timelines := modifyAt g.timelines tl (fun t => { t with vacant := t.vacant ++ [num] }) })
  else
    let x := imageOf b
    let w := s.rebuild r x
    let step := field b 4 4
    let id := s.nextId
    let sub := match w with
      | some (.subs _, _) => true
      | _ => false
    let op : EngOp :=
      { id := id, tl := tl, num := num, gslot := gslot, crew := r, region := 0, lane := 0, pc := 0
        work := (w.map (fun y => y.1)).getD (.tzero 8), released := true, started := if sub then some s.cycle else none
        nextAt := 0, step := step, total := (w.map (fun y => y.2)).getD 1, staged := [], landed := step
        readDone := if sub then some s.cycle else none, dead := false, done := false
        image := x, held := false, first := step }
    let s1 := (s.fresh.2).modOps core tl (fun l => l ++ [op])
    let s2 := if sub then s1.modGroup core gslot (fun g =>
        { g with subs := g.subs.map (fun y => if y.lva == x.src && y.op == 0 then { y with op := id } else y) }) else s1
    if w.isNone then s2.abandon core tl op 4 0 else s2

/-- Scratchpad loaded with its descriptors (R75, R450). -/
def State.loadScratch (s : State) (core base : Nat) (b : List Byte) : State :=
  (upTo (field b 0 4 / 64)).foldl (fun (st : State) k =>
    let x := (b.drop (8 + 68 * k)).take 68
    (st.putBytes (.scratch core (base + 64 * k)) (x.take 64)).putDesc (.scratch core (base + 64 * k))
      (field x 64 2, field x 66 2)) s

/-- A tile from its record. -/
def tileOf (b : List Byte) : TileSlot :=
  let t : Tile := (upTo 65).map (fun i => (upTo 65).map (fun j => wordAt b (8 + 4 * (65 * i + j))))
  let st := wordAt b 4 &&& 0xFFFF00FF#32
  { base := t, live := t, forked := false, baseStatus := st, status := st }

/-- The subscriptions of a GROUP body bound again (R450): each sends sequence 0 afresh, and takes no new number. -/
def State.loadSubs (s : State) (core gslot : Nat) (r : CrewRef) (b : List Byte) : State :=
  (upTo 16).foldl (fun (st : State) k =>
    let e := (b.drop (0x160 + 32 * k)).take 32
    if field e 0 1 == 0 then st
    else
      match st.subLines (restoreIssue r) 0 (field e 8 8) (field e 16 8) (field e 4 4) with
      | .error _ => st
      | .ok x =>
        let y : Subscription :=
          { id := k, released := true, op := 0, parts := rangeParts x.1, vaultLocal := bits (field e 8 8) 63 48 == 0xFFFC,
            tl := field e 1 1, len := field e 4 4, lva := field e 8 8, gva := field e 16 8 }
        (st.modGroup core gslot (fun g => { g with subs := g.subs ++ [y] })).startParts core gslot y) s

/-- The windows of a GROUP body opened again with their writers (R450). -/
def State.loadWindows (s : State) (core gslot : Nat) (b : List Byte) : State :=
  let cl := s.clusterOf core
  (upTo 256).foldl (fun (st : State) k =>
    let w := field b (0x3A0 + 4 * k) 4
    if !bit w 31 then st
    else
      let writer := if bit w 30 then ((st.coreInCluster cl (bits w 29 28)).getD core, bits w 27 23) else (core, gslot)
      (upTo 4).foldl (fun (t : State) n => match t.coreInCluster cl n with
        | some c => t.modCore c (fun x => { x with windows := x.windows ++
            [{ core := core, gslot := gslot, off := 128 * bits w 11 0, wcore := writer.1, wslot := writer.2 }] })
        | none => t) st) s

/-- The circuits of a GROUP body restored with no reservation (R450). -/
def circuitsOf (b : List Byte) (gslot now : Nat) : List Circuit :=
  (upTo 4).filterMap (fun k =>
    let e := 0x360 + 16 * k
    if field b e 4 == 0 then none
    else some { id := k, owner := .group gslot, dest := field b (e + 4) 4, left := field b (e + 8) 4, reserved := false, lastUse := now })

/-- A timeline of a GROUP body: the numbers above its counter that no record names have landed (R450). -/
def timelineOf (b : List Byte) (ops : List (List Byte)) (tl : Nat) : Timeline :=
  let c := field b (0x10 + 8 * tl) 8
  let n := field b (0x38 + 8 * tl) 8
  let named := (ops.filter (fun o => field o 1 1 == tl)).map (fun o => field o 8 8)
  { counter := c, issued := n, vacant := []
    landed := ((upTo (n - c)).map (fun k => c + 1 + k)).filter (fun k => !named.contains k) }

/-- Every signature of a core becomes invalidate-all and its L1 empty (R98, R450). -/
def Core.forget (k : Core) : Core :=
  { k with
    l1 := []
    acc := { k.acc with cluster := .invalidateAll, device := .invalidateAll, system := .invalidateAll, e0 := .invalidateAll
                        e1 := .invalidateAll, e2 := .invalidateAll } }

/-- What a restored group's slot holds, from its image (R450): the crews, scratchpad, objects, tiles, timelines, commands,
subscriptions, circuits, windows and latch. Crews whose threads have all exited have completed. -/
def State.loadGroup (s : State) (core gslot : Nat) (x : GroupImage) (ctx lslot : Nat) : State :=
  match s.group core gslot with
  | none => s
  | some g =>
    let b := x.group
    let refs := g.refs core
    let r0 := refs.headD ⟨core, 0, 0⟩
    let fl := field b 2 2
    let s1 := (s.modCore core Core.forget).modGroup core gslot (fun g =>
      { g with
        completed := (x.crews.filter crewDone).length
        timelines := (upTo 5).map (timelineOf b x.ops)
        tiles := x.tiles.map tileOf
        barriers := ((upTo 64).map (fun k => field b (0x60 + 4 * k) 4)).filter (fun o => o != 0xFFFFFFFF)
        pinCore := bit fl 0, atomic := bit fl 3 })
    let s2 := (upTo refs.length).foldl (fun (st : State) k =>
      let cb := x.crews.getD k []
      if crewDone cb then st
      else st.loadCrew (refs.getD k r0) { ctx := ctx, lslot := lslot, gslot := some gslot, index := field cb 0 2 } cb) s1
    let s3 := s2.loadScratch core g.scrBase x.scratch
    let s4 := (s3.loadSubs core gslot r0 b).loadWindows core gslot b
    let s5 := s4.modCore core (fun k => { k with circuits := k.circuits ++ circuitsOf b gslot s.cycle })
    let s6 := match x.latch with
      | some y => s5.modCore core (fun k => { k with latch :=
          { data := y.take 2048, descs := (upTo 32).map (fun i => field y (2048 + 2 * i) 2), owner := some gslot } })
      | none => s5
    x.ops.foldl (fun (st : State) o => st.loadOp core gslot r0 o) s6

/-- The handler crews of an image made again in the slots reserved for their launch (R450, R459). -/
def State.loadHandlers (s : State) (core lslot ctx : Nat) (l : List (List Byte)) : State :=
  let refs := s.handlerRefs core lslot
  l.foldl (fun (st : State) b =>
    let i := field b 4 2
    match refs[i]? with
    | some r => if field b 0 2 == lslot then st.loadCrew r { ctx := ctx, lslot := lslot, gslot := none, index := i } (b.drop 4) else st
    | none => st) s

end Sys2Proof.Machine
end

