-- ==== Sys2Proof/Machine/Place.lean ====
section
/-! DEFINITION. A program placed by hand: everything that core 0 needs so that its first crew's next step fetches given
bytes (log 7: how a program comes to run). -/

namespace Sys2Proof.Machine

/-- The virtual address of the placed instruction: page 1 of 64 KiB. -/
def placePc : Nat := 0x10000
/-- The physical address of that page. -/
def placePa : Nat := 0x100000
/-- The physical address of the page table: four tables of 8 KiB. -/
def placeRoot : Nat := 0x20000
/-- The leaf entry: valid, readable, writable, executable, for user mode, used and written. -/
def placeLeaf : Nat := placePa + 0xFF
/-- Where the leaf entry lies. -/
def placeLeafAt : Nat := placeRoot + 3 * 0x2000 + 8

/-- The page table's entries. -/
def placeTable : List (Nat × Nat) :=
  [(placeRoot, placeRoot + 0x2001), (placeRoot + 0x2000, placeRoot + 0x4001),
   (placeRoot + 0x4000, placeRoot + 0x6001), (placeLeafAt, placeLeaf)]

/-- A region of bulk memory that covers the table and the code: valid, from 0 to 16 MiB, on socket 8. -/
def placeRegion : BitVec 256 := BitVec.ofNat 256 (1 + 0x1000000 / 4096 * 2 ^ 76 + 2 ^ 156 + 12 * 2 ^ 151)

/-- The image header of the placed launch: one group of one crew. -/
def placeHeader : ImageHeader :=
  { flags := 0, codeSize := 0x1000, entry := 0x100, gx := 32, gy := 1, gz := 1, regs := 64, barriers := 64,
    scratch := 0x10000, priv := 0, tiles := 8, hcrews := 0, toexp := 0, hvalid := 0, swtraph := 0, brkh := 0,
    handlers := List.replicate 16 0 }

/-- The descriptor of the placed launch. -/
def placeDesc : Descriptor :=
  { image := BitVec.ofNat 64 (placePc - 0x100), args := 0, nx := 1, ny := 1, nz := 1, maxGroups := 1, countAddr := 0,
    doneRec := 0, stats := 0, diag := 0, privBase := 0, lflags := 0, launchId := 0, toexp := 0 }

/-- The placed launch, whose one group is bound. -/
def placeLaunch : Launch :=
  { ctx := 1, descAddr := 0, desc := placeDesc, header := placeHeader, prio := 0, graph := none, recAddr := .virt 1 0,
    groups := (1, 1, 1), fixed := true, ready := true, counter := 0, target := 1, discarded := 0, bound := [0],
    done := [], lostOnce := [], saved := [], status := none, stats := [], diagWritten := false }

/-- The placed group, in group slot 0 of core 0. -/
def placeGroup : Group :=
  { Group.empty with lslot := 0, ctx := 1, g := 0, scrBase := 0, scrLen := 0x10000, crews := [(0, 0)],
                     tiles := List.replicate 8 TileSlot.reset, barrierLimit := 64 }

/-- The translation of the code's page that core 0 keeps. -/
def placeTlb : TlbEntry :=
  { ctx := 1, vpn := 1, size := 16, entry := placeLeafAt, pte := placeLeaf, used := 0 }

/-- The state with memory that holds the page table and the code. -/
def State.placeMemory (s : State) (code : List Byte) : State :=
  let cells := placeTable.foldl (fun m e => cellsWrite m e.1 (toBytes 8 e.2)) (cellsWrite s.mem.cells placePa code)
  { s with
    mem := { s.mem with cells := cells }
    pkg := { s.pkg with regs := { s.pkg.regs with
      regions := modifyAt s.pkg.regs.regions 0 (fun _ => placeRegion)
      lmap := modifyAt s.pkg.regs.lmap 0 (fun _ => 0x80000000) } } }

/-- The state with the placed context and launch. -/
def State.placeLaunch (s : State) : State :=
  { s with sched := { s.sched with
      contexts := tset s.sched.contexts 1
        { root := BitVec.ofNat 64 placeRoot, trapBase := 0, part := 0, steal := false, valid := true }
      launches := tset s.sched.launches 0 Machine.placeLaunch
      kept := s.sched.kept.filter (fun k => !(k.ctx == 1 && k.va == placePc)) } }

/-- The state with the placed group and its crew, whose issue group stands at the code. -/
def State.placeCrew (s : State) : State :=
  let r : CrewRef := ⟨0, 0, 0⟩
  let s1 := s.modCore 0 (fun k =>
    { k with groups := modifyAt k.groups 0 (fun _ => some placeGroup), tlb := [placeTlb] })
  let s2 := s1.startCrew r { ctx := 1, lslot := 0, gslot := some 0, index := 0 } (BitVec.ofNat 64 placePc) []
  { s2 with issue := some { core := 0, sub := 0, slot := 0, part := BitVec.allOnes 32, pc := BitVec.ofNat 64 placePc,
                            len := 0, word := 0 } }

/-- The state in which the next step fetches an instruction of 8 bytes, those above its length zero. -/
def State.place (s : State) (w : Nat) : State := ((s.placeMemory (toBytes 8 w)).placeLaunch).placeCrew

end Sys2Proof.Machine
end

