-- ==== Sys2Proof/Machine/Slots.lean ====
section
/-! DEFINITION. The slot table: bind and restore records and their checks, the start of a record, the completion of a group,
work stealing (R11, R23, R35 to R38, R42, R426 to R431, R449 to R451, R505). -/

namespace Sys2Proof.Machine

/-! ### Clusters -/

/-- A physical cluster's mark, seen mask and test state (R505). -/
def State.cluster (s : State) (n : Nat) : ClusterMark :=
  (s.pkg.clusters.find? (fun c => c.cluster == n)).getD
    { cluster := n, mark := 0, seen := [], stopped := false, testing := false, resetUntil := none }

/-- The state with a cluster's marks changed. -/
def State.modCluster (s : State) (n : Nat) (f : ClusterMark → ClusterMark) : State :=
  { s with pkg := { s.pkg with clusters := s.pkg.clusters.filter (fun c => c.cluster != n) ++ [f (s.cluster n)] } }

/-- The set bits of a number below n, in ascending order. -/
def bitsBelow (n x : Nat) : List Nat := (upTo n).filter (fun i => bit x i)

/-- The crew slots that the bytes of CREWS or HSLOTS name, sub-core 0's byte first (R426). -/
def slotsOf (x : Nat) : List (Nat × Nat) := (bitsBelow 32 x).map (fun i => (i / 8, i % 8))

/-- The sub-cores that the bytes of CREWS name. -/
def subsOfSlots (x : Nat) : Nat := (upTo 4).foldl (fun m i => if bits x (8 * i + 7) (8 * i) == 0 then m else m + 2 ^ i) 0

/-- The crews of a launch's groups (R13). -/
def Launch.crewCount (l : Launch) : Nat := l.threads / 32

/-- The launch is cooperative (R42). -/
def Launch.coop (l : Launch) : Bool := bit l.header.flags 1 || bit l.desc.lflags 1

/-! ### Checks -/

/-- A core takes no bind record: it is fenced or evacuates, or its cluster is stopped for a test or reset (R440, R505). -/
def State.closedCore (s : State) (core : Nat) : Bool :=
  (s.core core).fenced || (s.core core).evacuating.isSome || (s.cluster (s.clusterOf core)).stopped

/-- A launch holds handler crews on a core, or an accepted record brings them (R38, R427). -/
def State.handled (s : State) (core lslot : Nat) : Bool :=
  (s.core core).handlers.any (fun h => h.lslot == lslot) ||
    (s.core core).slots.any (fun x => x.bind.lslot.toNat == lslot && x.bind.hslots != 0)

/-- Check 4 of R427: the record's counts of crews, tiles and extended blocks. -/
def recordCounts (l : Launch) (b : BindRecord) : Bool :=
  (bitsBelow 32 b.crews.toNat).length == l.crewCount && (bitsBelow 16 b.tiles.toNat).length == 2 * l.header.tiles &&
    b.xsub.toNat == (if l.header.regs == 64 then subsOfSlots b.crews.toNat else 0)

/-- Check 5 of R427: the record's ranges. -/
def recordRanges (l : Launch) (b : BindRecord) : Bool :=
  decide (128 * b.scrbase.toNat + l.header.scratch ≤ Config.scratchBytes) &&
    decide (b.barbase.toNat + l.header.barriers ≤ 256) && b.crews &&& b.hslots == 0

/-- Check 6 of R427: the handler reservation. -/
def State.recordHandlers (s : State) (l : Launch) (b : BindRecord) : Bool :=
  if s.handled b.core.toNat b.lslot.toNat then b.hslots == 0
  else (bitsBelow 32 b.hslots.toNat).length == l.header.hcrews

/-- BINDSTAT of a bind record at a die's port, the first failure found (R427). A restore record skips check 3 (R449). -/
def State.bindCheck (s : State) (die : Nat) (b : BindRecord) (restore : Bool) : Nat :=
  match s.launch? b.lslot.toNat with
  | none => 1
  | some l =>
    let core := b.core.toNat
    if !l.ready || l.status.isSome || s.sched.quiesce.stage != .none || b.mbz != 0 || 16 ≤ b.xsub.toNat then 1
    else if s.dieOf core != die || !s.inPartition l.ctx core || s.closedCore core then 2
    else if !restore && (l.target ≤ b.group.toNat || l.bound.contains b.group.toNat) then 3
    else if !recordCounts l b then 4
    else if !recordRanges l b then 5
    else if !s.recordHandlers l b then 6
    else if 64 ≤ (s.core core).slots.length then 7
    else 0

/-- A record placed in its core's slot table. -/
def State.placeRecord (s : State) (b : BindRecord) (restore : Option (Nat × Nat)) (stolen : Bool) : State :=
  s.modCore b.core.toNat (fun k => { k with slots := k.slots ++ [{ bind := b, restore := restore, stolen := stolen }] })

/-- BIND_RECORD_WRITE: a bind record at a die's port (R427). -/
def execBindRecordWrite (die : Nat) (rec : BindRecord) (s : State) : Host.Outcome State Fault Refusal :=
  let n := s.bindCheck die rec false
  let s1 := s.modDie die (fun d => { d with bindStat := n })
  if n != 0 then .next s1
  else .next ((s1.placeRecord rec none false).modLaunch rec.lslot.toNat (fun l => { l with bound := l.bound ++ [rec.group.toNat] }))

/-- A record of a group stands in a slot table and has not started. -/
def State.pendingGroup (s : State) (lslot g : Nat) : Bool :=
  s.coreList.any (fun c => (s.core c).slots.any (fun x => x.bind.lslot.toNat == lslot && x.bind.group.toNat == g))

/-- The checks 8 to 10 of a restore record (R449). -/
def State.restoreCheck (s : State) (r : RestoreRecord) : Nat :=
  match s.imageAt r.image.toNat r.imglen.toNat with
  | none => 8
  | some x =>
    let b := x.group
    let l := r.bind.lslot.toNat
    let g := r.bind.group.toNat
    if field b 0 2 != l || field b 4 4 != g || !((s.launch? l).map (fun y => y.saved.any (fun z => z.g == g))).getD false ||
        s.pendingGroup l g then 9
    else if bit (field b 2 2) 0 && field b 8 2 != r.bind.core.toNat then 10
    else 0

/-- RESTORE_RECORD_WRITE: a restore record at a die's port (R449). -/
def execRestoreRecordWrite (die : Nat) (rec : RestoreRecord) (s : State) : Host.Outcome State Fault Refusal :=
  let a := if rec.mbz != 0 then 1 else s.bindCheck die rec.bind true
  let n := if a != 0 then a else s.restoreCheck rec
  let s1 := s.modDie die (fun d => { d with bindStat := n })
  if n != 0 then .next s1 else .next (s1.placeRecord rec.bind (some (rec.image.toNat, rec.imglen.toNat)) false)

/-- LOG_OVERRUN_CLEAR: a write of zero clears a die's log-overrun flag (R429). -/
def execLogOverrunClear (die : Nat) (value : BitVec 64) (s : State) : Host.Outcome State Fault Refusal :=
  if value == 0 then .next (s.modDie die (fun d => { d with overrun := false })) else .next s

/-! ### Resources -/

/-- What a record names on its core, or a started group holds: crew slots, scratchpad, tiles, barrier entries, and the
extended blocks that it needs on each sub-core. -/
structure Claim where
  slots : Nat
  scr : Nat × Nat
  tiles : Nat
  bar : Nat × Nat
  blocks : List Nat
  deriving DecidableEq, Repr

/-- Two half-open ranges share a point. -/
def rangesMeet (a b : Nat × Nat) : Bool := decide (a.1 < b.2) && decide (b.1 < a.2)

/-- Two claims name a common resource. -/
def Claim.meets (a b : Claim) : Bool :=
  a.slots &&& b.slots != 0 || a.tiles &&& b.tiles != 0 || rangesMeet a.scr b.scr || rangesMeet a.bar b.bar

/-- Crew slots as bits. -/
def slotMask (l : List (Nat × Nat)) : Nat := l.foldl (fun m x => m ||| 2 ^ (8 * x.1 + x.2)) 0

/-- The record of a started group. -/
def Core.recordOf (k : Core) (g : Group) : Option SlotRecord :=
  k.slots.find? (fun x => x.bind.lslot.toNat == g.lslot && x.bind.group.toNat == g.g)

/-- What the started groups and the handler crews of a core hold. -/
def Core.held (k : Core) : List Claim :=
  (k.groups.filterMap id).map (fun g =>
    let b := (k.recordOf g).map (fun x => x.bind)
    { slots := slotMask g.crews, scr := (g.scrBase, g.scrBase + g.scrLen), tiles := (b.map (fun x => x.tiles.toNat)).getD 0
      bar := ((b.map (fun x => x.barbase.toNat)).getD 0, (b.map (fun x => x.barbase.toNat + g.barrierLimit)).getD 0)
      blocks := [] }) ++
  k.handlers.map (fun h => { slots := slotMask h.crews, scr := (0, 0), tiles := 0, bar := (0, 0), blocks := [] })

/-- The extended blocks of a sub-core that no group has reserved and no crew holds (R190). -/
def Core.freeBlocks (k : Core) (sub : Nat) : Nat := (k.sub sub).blocks.countP (fun x => x.group.isNone && x.holder.isNone)

/-- The crews of an image that hold an extended block on a sub-core. -/
def extCrews (x : GroupImage) (crews : List (Nat × Nat)) (sub : Nat) : Nat :=
  (upTo x.crews.length).countP (fun k => ((crews[k]?).map (fun c => c.1)) == some sub && bit (field (x.crews.getD k []) 2 2) 1)

/-- The image of a restore record. -/
def State.recordImage (s : State) (x : SlotRecord) : Option GroupImage := x.restore.bind (fun p => s.imageAt p.1 p.2)

/-- What a record names. -/
def State.claimOf (s : State) (core : Nat) (x : SlotRecord) : Claim :=
  let b := x.bind
  let h := ((s.launch? b.lslot.toNat).map (fun l => l.header)).getD placeHeader
  let brings := !(s.core core).handlers.any (fun y => y.lslot == b.lslot.toNat)
  let img := s.recordImage x
  { slots := b.crews.toNat ||| (if brings then b.hslots.toNat else 0)
    scr := (128 * b.scrbase.toNat, 128 * b.scrbase.toNat + h.scratch), tiles := b.tiles.toNat
    bar := (b.barbase.toNat, b.barbase.toNat + h.barriers)
    blocks := (upTo 4).map (fun i => max (if bit b.xsub.toNat i then 1 else 0)
      ((img.map (fun y => extCrews y (slotsOf b.crews.toNat) i)).getD 0)) }

/-- Claims that are free on a core together (R36). -/
def State.claimsFree (s : State) (core : Nat) (l : List Claim) : Bool :=
  let k := s.core core
  l.all (fun c => k.held.all (fun h => !c.meets h)) && l.Pairwise (fun a b => a.meets b = false) &&
    (upTo 4).all (fun i => decide ((l.map (fun c => c.blocks.getD i 0)).sum ≤ k.freeBlocks i))

/-- A record has not started: no group of the core runs under it. -/
def Core.unstarted (k : Core) (x : SlotRecord) : Bool :=
  !k.groups.any (fun g => match g with
    | some y => y.lslot == x.bind.lslot.toNat && y.g == x.bind.group.toNat
    | none => false)

/-- The priority of a record's launch. -/
def State.prioOf (s : State) (x : SlotRecord) : Nat := ((s.launch? x.bind.lslot.toNat).map (fun l => l.prio)).getD 0

/-- A record put behind every one of its priority and above. -/
def insertRecord (prio : SlotRecord → Nat) (x : SlotRecord) : List SlotRecord → List SlotRecord
  | [] => [x]
  | y :: r => if prio x ≤ prio y then y :: insertRecord prio x r else x :: y :: r

/-- The records of a core that have not started, in the order of R428. -/
def State.pending (s : State) (core : Nat) : List SlotRecord :=
  ((s.core core).slots.filter (s.core core).unstarted).foldl (fun l x => insertRecord s.prioOf x l) []

/-- The group slot that a record's group takes: the image's when it is pinned to it and it is free, else the lowest free one
(R428, R447). -/
def State.slotFor (s : State) (core : Nat) (x : SlotRecord) : Option Nat :=
  let free := fun (n : Nat) => decide (n < 32) && (s.group core n).isNone
  match s.recordImage x with
  | some y => if bit (field y.group 2 2) 1 then (if free (field y.group 0xA 1) then some (field y.group 0xA 1) else none)
    else (upTo 32).find? free
  | none => (upTo 32).find? free

/-- Records of a core may start on its die now (R440, R452, R501). -/
def State.dispatchOpen (s : State) (core : Nat) : Bool :=
  !(s.die (s.dieOf core)).dispatchStopped && s.sched.quiesce.stage == .none && !s.closedCore core

/-- The records of a cooperative launch that have not started, with their cores. -/
def State.coopRecords (s : State) (lslot : Nat) : List (Nat × SlotRecord) :=
  s.coreList.flatMap (fun c => ((s.pending c).filter (fun x => x.bind.lslot.toNat == lslot)).map (fun x => (c, x)))

/-- Every record of a cooperative launch has been accepted, each stands first on its core, and all it names is free
(R42, R43, R428). -/
def State.coopReady (s : State) (lslot : Nat) (l : Launch) : Bool :=
  let all := s.coopRecords lslot
  let cores := (all.map (fun x => x.1)).eraseDups
  decide (l.target ≤ l.bound.length) && l.saved.all (fun z => all.any (fun x => x.2.bind.group.toNat == z.g)) &&
    cores.all (fun c =>
      let mine := (all.filter (fun x => x.1 == c)).map (fun x => x.2)
      s.dispatchOpen c && (s.pending c).take mine.length == mine && mine.all (fun x => (s.slotFor c x).isSome) &&
        s.claimsFree c (mine.map (s.claimOf c)))

/-- The records that start now with the first one of a core (R428). -/
def State.startPlan (s : State) (core : Nat) : List (Nat × SlotRecord) :=
  match s.pending core with
  | [] => []
  | x :: _ =>
    match s.launch? x.bind.lslot.toNat with
    | none => []
    | some l =>
      if !s.dispatchOpen core then []
      else if l.coop then (if s.coopReady x.bind.lslot.toNat l then s.coopRecords x.bind.lslot.toNat else [])
      else if (s.slotFor core x).isSome && s.claimsFree core [s.claimOf core x] then [(core, x)] else []

/-! ### Starts -/

/-- One extended block of a sub-core reserved for a group (R190). -/
def Sub.reserve (b : Sub) (gslot : Nat) : Sub :=
  match (upTo b.blocks.length).find? (fun k => match b.blocks[k]? with
    | some x => x.group.isNone && x.holder.isNone
    | none => false) with
  | some k => { b with blocks := modifyAt b.blocks k (fun x => { x with group := some gslot }) }
  | none => b

/-- The group of a record, in its slot, with what it has reserved (R36). -/
def groupOfRecord (l : Launch) (b : BindRecord) : Group :=
  { Group.empty with
    lslot := b.lslot.toNat, ctx := l.ctx, g := b.group.toNat, scrBase := 128 * b.scrbase.toNat, scrLen := l.header.scratch
    crews := slotsOf b.crews.toNat, tiles := List.replicate l.header.tiles TileSlot.reset, barrierLimit := l.header.barriers
    xsub := b.xsub.toNat }

/-- The handler crews that a record brings (R38). -/
def Core.addHandlers (k : Core) (b : BindRecord) : Core :=
  if b.hslots == 0 || k.handlers.any (fun h => h.lslot == b.lslot.toNat) then k
  else { k with handlers := k.handlers ++ [{ lslot := b.lslot.toNat, crews := slotsOf b.hslots.toNat, accepted := 0 }] }

/-- The resources of a record reserved together, its group in a group slot (R36, R428). -/
def State.reserveRecord (s : State) (core gslot : Nat) (l : Launch) (b : BindRecord) : State :=
  s.modCore core (fun k => { (k.addHandlers b) with
    groups := modifyAt k.groups gslot (fun _ => some (groupOfRecord l b))
    subs := (upTo k.subs.length).map (fun i => if bit b.xsub.toNat i then (k.sub i).reserve gslot else k.sub i)
    newest := some l.ctx })

/-- The count of the traps of a slot starts anew (R297). -/
def State.clearTraps (s : State) (r : CrewRef) : State :=
  s.modKeep r (fun k => { k with side := { k.side with seq := 0 } })

/-- The handler crews' slots that a record brings count their traps from the reservation on (R297). -/
def State.clearHandlers (s : State) (core : Nat) (b : BindRecord) : State :=
  if b.hslots == 0 || (s.core core).handlers.any (fun h => h.lslot == b.lslot.toNat) then s
  else (slotsOf b.hslots.toNat).foldl (fun (st : State) x => st.clearTraps ⟨core, x.1, x.2⟩) s

/-- Every crew of a group that starts afresh (R11, R426); the count of its slot's traps starts with the group (R297). -/
def State.startCrews (s : State) (core gslot : Nat) (l : Launch) (b : BindRecord) : State :=
  let refs := slotsOf b.crews.toNat
  (upTo refs.length).foldl (fun (st : State) k =>
    let x := refs.getD k (0, 0)
    let r : CrewRef := ⟨core, x.1, x.2⟩
    (st.clearTraps r).startGroupCrew l r { ctx := l.ctx, lslot := b.lslot.toNat, gslot := some gslot, index := k }) s

/-- A record starts (R428): its group takes its slot and resources, its crews start or are restored, the start is logged, and
the cluster has seen the context (R505). -/
def State.startRecord (s : State) (core : Nat) (x : SlotRecord) : State :=
  let b := x.bind
  match s.launch? b.lslot.toNat, s.slotFor core x with
  | some l, some gslot =>
    let event := if x.stolen then 2 else if x.restore.isNone && l.relaunches b.group.toNat != 0 then 3 else 1
    let s1 := (s.clearHandlers core b).reserveRecord core gslot l b
    let s2 := match s.recordImage x with
      | some y => ((s1.loadGroup core gslot y l.ctx b.lslot.toNat).loadHandlers core b.lslot.toNat l.ctx y.handlers).modLaunch b.lslot.toNat
          (fun z => { z with saved := z.saved.filter (fun q => q.g != b.group.toNat) })
      | none => s1.startCrews core gslot l b
    (s2.logPlacement core event l.ctx l.desc.launchId b.group.toNat).modCluster (s.clusterOf core) (fun c =>
      { c with seen := if c.seen.contains l.ctx then c.seen else c.seen ++ [l.ctx] })
  | _, _ => s

/-- RECORD_START on the core that State.sel names: its first record, with the siblings of a cooperative launch (R428). -/
def execRecordStart (s : State) : Host.Outcome State Fault Refusal :=
  .next ((s.startPlan s.sel.a).foldl (fun (st : State) x => st.startRecord x.1 x.2) s)

/-! ### Completion -/

/-- A group completes now (R23): it has met every condition, before a cause that ends its launch was accepted (R31). -/
def State.groupDone (s : State) (core gslot : Nat) : Bool :=
  match s.group core gslot with
  | some g => s.groupMet core gslot g && (g.met || ((s.launch? g.lslot).map (fun l => l.status.isNone)).getD false)
  | none => false

/-- GROUP_COMPLETE of the group slot that State.sel names (R23): all it holds returns, the launch counts it, and may be
done (R41). -/
def execGroupComplete (s : State) : Host.Outcome State Fault Refusal :=
  match s.group s.sel.a s.sel.b with
  | some g =>
    if s.groupDone s.sel.a s.sel.b then
      .next (((s.freeGroup s.sel.a s.sel.b).modLaunch g.lslot (fun l =>
        { l with counter := l.counter + 1, done := insertUp l.done g.g })).tryDone g.lslot)
    else .next s
  | none => .next s

/-! ### Work stealing -/

/-- A core is idle (R430): no record waits in its table, and a crew slot is free. -/
def State.idleCore (s : State) (core : Nat) : Bool :=
  (s.pending core).isEmpty &&
    ((s.core core).held.foldl (fun m c => m ||| c.slots) 0) != 2 ^ 32 - 1

/-- The LFSR's step (R430). -/
def lfsrStep (x : BitVec 16) : BitVec 16 :=
  let y := if x == 0 then 1#16 else x
  if y.getLsbD 0 then (y >>> 1) ^^^ 0xB400#16 else y >>> 1

/-- The cores that share a partition with a context, in ascending order (R430). -/
def State.partCores (s : State) (ctx : Nat) : List Nat := (upTo 1024).filter (s.inPartition ctx)

/-- A core's attempt to steal is due: 512 cycles of idleness since the last (R430). -/
def State.stealDue (s : State) (core : Nat) : Bool :=
  let k := s.core core
  k.newest.isSome && decide (k.idleSince + 512 ≤ s.cycle) && s.idleCore core && s.dispatchOpen core && k.asked.isNone

/-- STEAL_ATTEMPT of the core that State.sel names: its LFSR steps and names a victim (R430). A register that has not stepped
since its die's seed was written starts from the seed. -/
def execStealAttempt (s : State) : Host.Outcome State Fault Refusal :=
  let core := s.sel.a
  if s.stealDue core then
    let k := s.core core
    let x := lfsrStep (if k.lfsr == 0 then (s.die (s.dieOf core)).seed else k.lfsr)
    let l := s.partCores (k.newest.getD 0)
    let v := l.getD (x.toNat % l.length) core
    let ask := v != core && !(s.core v).fenced && (s.core v).evacuating.isNone
    .next (s.modCore core (fun k => { k with lfsr := x, idleSince := s.cycle, asked := if ask then some v else none }))
  else .next s

/-- The lowest start of a free range of n units among ranges in use: 0 or the end of one. -/
def lowestGap (used : List (Nat × Nat)) (n limit unit : Nat) : Option Nat :=
  let ends := (used.map (fun u => (u.2 + unit - 1) / unit * unit)).mergeSort (fun a b => decide (a ≤ b))
  (0 :: ends).find? (fun c => decide (c + n ≤ limit) && !used.any (fun u => rangesMeet (c, c + n) u))

/-- The crew slots that a record takes first-fit on a core: on a launch with 64 registers only where a block is free
(R431). -/
def Core.firstSlots (k : Core) (used n : Nat) (ext : Bool) : List Nat :=
  ((upTo 32).filter (fun i => !bit used i && (!ext || decide (0 < k.freeBlocks (i / 8))))).take n

/-- A record re-bound to a thief with its resources first-fit; none when the group does not fit there (R431). -/
def State.rebind (s : State) (thief : Nat) (x : SlotRecord) (l : Launch) : Option BindRecord :=
  let k := s.core thief
  let held := k.held
  let used := held.foldl (fun m c => m ||| c.slots) 0
  let crews := k.firstSlots used l.crewCount (l.header.regs == 64)
  let mask := crews.foldl (fun m i => m + 2 ^ i) 0
  let nh := if s.handled thief x.bind.lslot.toNat then 0 else l.header.hcrews
  let hs := k.firstSlots (used ||| mask) nh false
  let tiles := ((upTo 16).filter (fun i => !held.any (fun c => bit c.tiles i))).take (2 * l.header.tiles)
  match lowestGap (held.map (fun c => c.scr)) l.header.scratch Config.scratchBytes 128,
        lowestGap (held.map (fun c => c.bar)) l.header.barriers 256 1 with
  | some scr, some bar =>
    if crews.length < l.crewCount || hs.length < nh || tiles.length < 2 * l.header.tiles then none
    else some { x.bind with
      core := BitVec.ofNat 16 thief, scrbase := BitVec.ofNat 16 (scr / 128), crews := BitVec.ofNat 32 mask
      hslots := BitVec.ofNat 32 (hs.foldl (fun m i => m + 2 ^ i) 0)
      tiles := BitVec.ofNat 16 (tiles.foldl (fun m i => m + 2 ^ i) 0), barbase := BitVec.ofNat 8 bar
      xsub := if l.header.regs == 64 then BitVec.ofNat 8 (subsOfSlots mask) else 0 }
  | _, _ => none

/-- The state without a record in a core's table; a handler reservation kept for it ends (R38). -/
def State.dropRecord (s : State) (core : Nat) (x : SlotRecord) : State :=
  (s.modCore core (fun k => { k with slots := k.slots.erase x })).endHandlers core x.bind.lslot.toNat

/-- A record of a victim as the thief would start it (R431). -/
def State.stealable (s : State) (victim thief : Nat) (x : SlotRecord) : Option SlotRecord :=
  match s.launch? x.bind.lslot.toNat with
  | some l =>
    if !(s.context l.ctx).steal || l.coop then none
    else
      (s.rebind thief x l).bind (fun b =>
        let y : SlotRecord := { bind := b, restore := x.restore, stolen := true }
        let t := s.dropRecord victim x
        let pinned := ((t.recordImage y).map (fun i => bit (field i.group 2 2) 0)).getD false
        if t.bindCheck (s.dieOf thief) b true == 0 && !pinned && (t.slotFor thief y).isSome && t.claimsFree thief [t.claimOf thief y]
        then some y else none)
  | none => none

/-- STEAL_REQUEST of a victim and a thief that State.sel names (R431): the last record that qualifies moves to the thief and
starts at once. -/
def execStealRequest (s : State) : Host.Outcome State Fault Refusal :=
  let victim := s.sel.a
  let thief := s.sel.b
  if (s.core thief).asked != some victim then .next s
  else
    let s1 := s.modCore thief (fun k => { k with asked := none })
    match (s1.pending victim).reverse.findSome? (fun x => (s1.stealable victim thief x).map (fun y => (x, y))) with
    | some q =>
      let s2 := s1.dropRecord victim q.1
      let s3 := s2.modCore thief (fun k => { k with slots := k.slots ++ [q.2] })
      .next (s3.startRecord thief q.2)
    | none => .next s1

end Sys2Proof.Machine
end

