-- ==== Sys2Proof/Machine/Queues.lean ====
section
/-! DEFINITION. Work queues and their commands, launches and levels: doorbells, descriptors, waits, halts, the eight
commands, the readiness of a launch and the end of a cancel (R25 to R37, R42 to R48, R412 to R425, R432). -/

namespace Sys2Proof.Machine

/-! ### Descriptors -/

/-- A queue descriptor, read (R415). -/
structure QueueDesc where
  ring : Nat
  log2n : Nat
  prio : Nat
  ctx : Nat
  flags : Nat
  head : Nat
  tail : Nat
  rest : Nat
  deriving DecidableEq, Repr

/-- The address of a queue's descriptor (R415). -/
def State.descAddr (s : State) (q : Nat) : Nat := s.sched.qtbase.toNat + 64 * q

/-- The descriptor that 64 bytes hold (R415). -/
def queueDescOf (b : List Byte) : QueueDesc :=
  { ring := field b 0 8, log2n := field b 8 1, prio := field b 9 1, ctx := field b 0xA 2, flags := field b 0xC 4
    head := field b 0x10 4, tail := field b 0x14 4, rest := field b 0x1C 36 }

/-- A queue's descriptor; none where the queue table has no storage. -/
def State.queueDesc (s : State) (q : Nat) : Option QueueDesc :=
  if (s.storageAt (s.descAddr q)).isNone then none else some (queueDescOf (s.peek (.mem (s.descAddr q)) 64))

/-- A queue is enabled, not halted and not empty (R417). -/
def QueueDesc.live (d : QueueDesc) : Bool := bit d.flags 0 && !bit d.flags 2 && d.head != d.tail

/-- The queue engines of the device (R415). -/
def State.engineCount (s : State) : Nat := s.pkg.regs.engines.length

/-- ADMIN of a queue as ADMINQ honours it (R416). -/
def State.adminOf (s : State) (q : Nat) (d : QueueDesc) : Bool :=
  let a := s.pkg.regs.adminq.toNat
  bit d.flags 1 && bit a 31 && decide (bits a 13 0 ≤ q) && decide (q ≤ bits a 29 16)

/-- The state with a queue's registration changed. -/
def State.modQueue (s : State) (q : Nat) (f : QueueState → QueueState) : State :=
  { s with sched := { s.sched with queues := s.sched.queues.map (fun x => if x.q == q then f x else x) } }

/-- A queue registered with its engine, which is to look at it. -/
def State.register (s : State) (q : Nat) : State :=
  if s.sched.queues.any (fun x => x.q == q) then s
  else { s with sched := { s.sched with queues := s.sched.queues ++ [{ q := q, look := true, blockedAt := 0, fullSince := none }] } }

/-- A doorbell write (R416): TAIL takes the value's low word, and the engines read their blocked commands again; the doorbell of
a queue that does not exist is dropped and sets ACCERR (R415). -/
def State.ringDoorbell (s : State) (q : Nat) (value : BitVec 64) : State :=
  if 64 * s.engineCount ≤ q then
    { s with pkg := { s.pkg with regs := { s.pkg.regs with lock := s.pkg.regs.lock ||| (1 <<< 63) } } }
  else ((s.releaseWrite (s.descAddr q + 0x14) (toBytes 4 (bits value.toNat 31 0))).register q).relook

/-- DOORBELL_WRITE (R415, R416). -/
def execDoorbellWrite (q : Nat) (value : BitVec 64) (s : State) : Host.Outcome State Fault Refusal :=
  .next (s.ringDoorbell q value)

/-! ### The choice of an engine -/

/-- The queues that an engine may take a command from, with their descriptors. -/
def State.liveQueues (s : State) (engine : Nat) : List (Nat × QueueDesc) :=
  (s.sched.queues.filter (fun x => x.look && x.q / 64 == engine)).filterMap (fun x =>
    match s.queueDesc x.q with
    | some d => if d.live then some (x.q, d) else none
    | none => none)

/-- One queue goes before another: the higher PRIO, and round-robin after the last queue taken (R417). -/
def queueBefore (last : Nat) (x y : Nat × QueueDesc) : Bool :=
  decide (y.2.prio < x.2.prio) || (x.2.prio == y.2.prio && decide ((x.1 + 63 - last % 64) % 64 < (y.1 + 63 - last % 64) % 64))

/-- The queue that an engine takes its next command from (R417). -/
def State.nextQueue (s : State) (engine : Nat) : Option Nat :=
  let last := tget 63 s.sched.robin engine
  ((s.liveQueues engine).foldl (fun (m : Option (Nat × QueueDesc)) x =>
    match m with
    | none => some x
    | some y => if queueBefore last x y then some x else m) none).map (fun x => x.1)

/-- Queue engines start commands: no quiesce runs (R452, R462). -/
def State.queuesOpen (s : State) : Bool := s.sched.quiesce.stage == .none

/-- An engine takes a command from a queue now. -/
def State.takesFrom (s : State) (q : Nat) : Bool := s.queuesOpen && s.nextQueue (q / 64) == some q

/-! ### Commands -/

/-- What keeps a command from starting, or not: a halt with its code and offset (R422), a wait not met (R419), a refusal by a
wait, a table that is full (R423), or nothing. -/
inductive Verdict where
  | halt (code off : Nat)
  | blocked
  | refused
  | full
  | ready
  deriving DecidableEq, Repr

/-- The offset of a failed check that lies in the descriptor (R415). -/
def inDescriptor (off : Nat) : Nat := off + 2 ^ 23

/-- The first check of a list that fails. -/
def firstBad (l : List (Nat × Bool)) : Option Nat := (l.find? (fun x => !x.2)).map (fun x => x.1)

/-- The fields of a queue descriptor (R415, R422). -/
def QueueDesc.bad (d : QueueDesc) : Option Nat :=
  firstBad [(0, d.ring % 128 == 0), (8, decide (4 ≤ d.log2n) && decide (d.log2n ≤ 16)), (0xA, decide (d.ctx ≤ 4095)),
    (0xC, d.flags / 8 == 0), (0x1C, d.rest == 0)]

/-- What an operand must satisfy (R420). -/
inductive OperandRule where
  | aligned (n : Nat)
  | atMost (lo hi : Nat)
  deriving DecidableEq, Repr

/-- An operand's value satisfies its rule. -/
def OperandRule.ok (r : OperandRule) (v : Nat) : Bool :=
  match r with
  | .aligned n => v % n == 0
  | .atMost lo hi => decide (lo ≤ v) && decide (v ≤ hi)

/-- The operands of a command code: offset, bytes, rule (R420). -/
def operandsOf (opc : Nat) : List (Nat × Nat × OperandRule) :=
  match opc with
  | 1 => [(0x48, 8, .aligned 64), (0x50, 8, .aligned 32)]
  | 2 => [(0x48, 8, .atMost 2 4), (0x50, 8, .aligned 32), (0x58, 8, .aligned 32), (0x60, 8, .atMost 1 (2 ^ 64))]
  | 3 => [(0x48, 8, .aligned 32)]
  | 4 => [(0x48, 8, .aligned 8), (0x50, 8, .aligned 1)]
  | 5 => [(0x48, 2, .aligned 1)]
  | 6 => [(0x48, 8, .atMost 0 4095), (0x50, 8, .aligned 65536), (0x58, 8, .aligned 65536)]
  | 7 => [(0x48, 8, .atMost 0 4095), (0x50, 8, .aligned 8192), (0x58, 8, .aligned 1024), (0x60, 1, .atMost 0 63),
          (0x61, 1, .atMost 0 3)]
  | _ => []

/-- The bytes of a command, as numbers. -/
def opcOf (c : List Byte) : Nat := field c 0 1
/-- NWAIT. -/
def nwaitOf (c : List Byte) : Nat := field c 1 1
/-- The kind of wait w: 0 record, 1 word. -/
def waitKind (c : List Byte) (w : Nat) : Nat := bits (field c 2 1) (2 * w + 1) (2 * w)
/-- ADDR of wait w. -/
def waitAddr (c : List Byte) (w : Nat) : Nat := field c (8 + 16 * w) 8
/-- VALUE of wait w. -/
def waitValue (c : List Byte) (w : Nat) : Nat := field c (16 + 16 * w) 8

/-- The fields of a command that FIELD covers, in ascending offset (R418, R420, R422). -/
def commandBad (c : List Byte) : Option Nat :=
  let n := nwaitOf c
  let ops := operandsOf (opcOf c)
  firstBad ([(1, decide (n ≤ 4)),
      (2, (upTo 4).all (fun w => if w < n then decide (waitKind c w < 2) else waitKind c w == 0)),
      (3, field c 3 1 / 2 ^ n == 0), (4, field c 4 4 == 0)] ++
    (upTo 4).map (fun w => (8 + 16 * w,
      if w < n then waitAddr c w % (if waitKind c w == 1 then 8 else 32) == 0 else waitAddr c w == 0 && waitValue c w == 0)) ++
    ops.map (fun x => (x.1, x.2.2.ok (field c x.1 x.2.1))) ++
    (upTo 56).map (fun i => (0x48 + i, field c (0x48 + i) 1 == 0 || ops.any (fun x => decide (x.1 ≤ 0x48 + i) && decide (0x48 + i < x.1 + x.2.1)))))

/-- A command's address: physical for an admin queue, else of the queue's context (R420). -/
def commandAddr (admin : Bool) (ctx a : Nat) : RecAddr := if admin then .phys a else .virt ctx a

/-- What a wait reads (R419): none where the read faults. -/
def State.waitRead (s : State) (admin : Bool) (ctx : Nat) (c : List Byte) (w : Nat) : Option Nat :=
  let a := commandAddr admin ctx (waitAddr c w)
  if waitKind c w == 1 then (s.recRead a 8).map (fun x => ofBytes x.1) else (s.recRead (a.plus 0x10) 4).map (fun x => ofBytes x.1)

/-- The waits of a command, in order: the first that faults or is not met decides; a record that ended otherwise refuses (R419). -/
def State.waits (s : State) (admin : Bool) (ctx : Nat) (c : List Byte) : Verdict :=
  (upTo (nwaitOf c)).foldl (fun (v : Verdict) w =>
    match v with
    | .halt _ _ => v
    | .blocked => v
    | _ =>
      match s.waitRead admin ctx c w with
      | none => .halt 4 (8 + 16 * w)
      | some x =>
        if waitKind c w == 1 then (if waitValue c w ≤ x then v else .blocked)
        else if x == 0 then .blocked
        else if x != 1 && !bit (field c 3 1) w then .refused
        else v) .ready

/-- Two record addresses name one record: as written, or physically (R420). -/
def State.sameRec (s : State) (a b : RecAddr) : Bool :=
  a == b || (match s.recPa a false, s.recPa b false with
    | some x, some y => x.1 == y.1
    | _, _ => false)

/-- The open level of a context whose record lies at an address. -/
def State.levelAt (s : State) (ctx : Nat) (a : RecAddr) : Option (Nat × Level) :=
  s.sched.levels.find? (fun x => x.2.ctx == ctx && x.2.status.isNone && s.sameRec x.2.recAddr a)

/-- The open launch of a context whose record lies at an address. -/
def State.launchAt (s : State) (ctx : Nat) (a : RecAddr) : Option Nat :=
  (s.sched.launches.find? (fun x => x.2.ctx == ctx && x.2.status.isNone && s.sameRec x.2.recAddr a)).map (fun x => x.1)

/-- The level that a command names as GRAPH or PARENT: one of a kind, or none where the address is 0. -/
def State.namedLevel (s : State) (ctx : Nat) (admin : Bool) (a kind : Nat) : Option Nat :=
  if a == 0 then none
  else (s.levelAt ctx (commandAddr admin ctx a)).bind (fun x => if x.2.kind == kind then some x.1 else none)

/-- The lowest entry of a table of 4096 that is free. -/
def freeEntry {α : Type} (t : List (Nat × α)) : Option Nat := (upTo 4096).find? (fun i => (tfind t i).isNone)

/-- The check of a parent (R422): no open level, then a level that holds all its children. -/
def State.parentCheck (s : State) (ctx : Nat) (admin : Bool) (a kind off : Nat) : Option Verdict :=
  if a == 0 then none
  else
    match s.namedLevel ctx admin a kind with
    | none => some (.halt 5 off)
    | some i => if ((s.level? i).map (fun x => decide (x.target ≤ x.children))).getD false then some (.halt 6 off) else none

/-- The bytes of a launch descriptor, which may cross a page; none where the read faults. -/
def State.readDesc (s : State) (a : RecAddr) : Option (List Byte) :=
  match s.recRead a 64, s.recRead (a.plus 64) 64 with
  | some x, some y => some (x.1 ++ y.1)
  | _, _ => none

/-- The checks that LAUNCH and OPEN make before they take a table entry (R422, R423, R425). -/
def State.openCheck (s : State) (ctx : Nat) (admin : Bool) (c : List Byte) : Verdict :=
  if opcOf c == 1 then
    if (s.readDesc (commandAddr admin ctx (field c 0x48 8))).isNone then .halt 4 0x48
    else
      match s.parentCheck ctx admin (field c 0x50 8) 2 0x50 with
      | some v => v
      | none => if (freeEntry s.sched.launches).isNone then .full else .ready
  else
    let kind := field c 0x48 8
    match (if kind == 4 && field c 0x58 8 != 0 then some (.halt 5 0x58) else s.parentCheck ctx admin (field c 0x58 8) (kind + 1) 0x58) with
    | some v => v
    | none => if (freeEntry s.sched.levels).isNone then .full else .ready

/-- The verdict on a queue's next command, with the checks in order (R419, R422, R423). -/
def State.verdict (s : State) (q : Nat) (d : QueueDesc) (c : List Byte) : Verdict :=
  match d.bad with
  | some off => .halt 2 (inDescriptor off)
  | none =>
    if (s.storageAt (d.ring + 128 * (d.head % 2 ^ d.log2n))).isNone then .halt 4 0
    else if 7 < opcOf c then .halt 1 0
    else
      match commandBad c with
      | some off => .halt 2 off
      | none =>
        let admin := s.adminOf q d
        if 6 ≤ opcOf c && !admin then .halt 3 0
        else if !(s.context d.ctx).valid then .halt 4 0
        else
          match s.waits admin d.ctx c with
          | .ready =>
            if opcOf c == 1 || opcOf c == 2 then s.openCheck d.ctx admin c
            else if opcOf c == 4 && (s.recPa (commandAddr admin d.ctx (field c 0x48 8)) true).isNone then .halt 4 0x48
            else .ready
          | v => v

/-- The bytes of a queue's next command. -/
def State.commandBytes (s : State) (d : QueueDesc) : List Byte := s.peek (.mem (d.ring + 128 * (d.head % 2 ^ d.log2n))) 128

/-- The command code under whose row an engine's next command runs: a command that cannot be read, and a code that does not
exist, run under NOP's, which halts the queue. -/
def State.commandCode (s : State) (d : QueueDesc) : Nat :=
  if d.bad.isSome || 7 < opcOf (s.commandBytes d) then 0 else opcOf (s.commandBytes d)

/-- A queue halts (R422): HALTED and QERR are written. -/
def State.haltQueue (s : State) (q : Nat) (d : QueueDesc) (code off : Nat) : State :=
  (s.releaseWrite (s.descAddr q + 0xC) (toBytes 4 (d.flags ||| 4))).releaseWrite (s.descAddr q + 0x18) (toBytes 4 (code + 256 * off))

/-- HEAD advances past a command that starts, and its engine's round-robin goes on (R417). -/
def State.passCommand (s : State) (q : Nat) (d : QueueDesc) : State :=
  let s1 := s.releaseWrite (s.descAddr q + 0x10) (toBytes 4 ((d.head + 1) % 2 ^ 32))
  ({ s1 with sched := { s1.sched with robin := tset s1.sched.robin (q / 64) q } } : State).modQueue q (fun x => { x with fullSince := none })

/-- A refused LAUNCH or OPEN (R419, R425): STATUS 2 in its own record, and its parent counts it. A launch's statistics area,
with no counts, is written before its record (R144). -/
def State.refuse (s : State) (d : QueueDesc) (admin : Bool) (c : List Byte) : State :=
  let rec_ := fun (a : RecAddr) (st : State) => st.writeRecord a 0 0 (2, 0) 0
  let counts := fun (p : Option Nat) (st : State) =>
    match p with
    | some i => (st.modLevel i (fun x => { x with children := x.children + 1 })).childCounts 4 (some i)
    | none => st
  if opcOf c == 1 then
    match s.readDesc (commandAddr admin d.ctx (field c 0x48 8)) with
    | some b => counts (s.namedLevel d.ctx admin (field c 0x50 8) 2) (rec_ (.virt d.ctx (field b 0x28 8))
        (s.writeStats d.ctx (field b 0x30 8) (wordAt b 0x4C) []))
    | none => s
  else if opcOf c == 2 then
    counts (s.namedLevel d.ctx admin (field c 0x58 8) (field c 0x48 8 + 1)) (rec_ (commandAddr admin d.ctx (field c 0x50 8)) s)
  else s

/-- A refused LAUNCH whose descriptor cannot be read halts its queue instead (R422). -/
def State.refuseFaults (s : State) (d : QueueDesc) (admin : Bool) (c : List Byte) : Bool :=
  opcOf c == 1 && (s.readDesc (commandAddr admin d.ctx (field c 0x48 8))).isNone

/-- A queue's next command, of a code, whose effect is body (R417 to R423). -/
def State.queueCommand (s : State) (opc : Nat) (body : QueueDesc → Bool → List Byte → State → State) : Host.Outcome State Fault Refusal :=
  let q := s.sel.a
  match s.queueDesc q with
  | none => .next s
  | some d =>
    if !s.takesFrom q || s.commandCode d != opc then .next s
    else
      let c := s.commandBytes d
      let admin := s.adminOf q d
      match s.verdict q d c with
      | .halt code off => .next (s.haltQueue q d code off)
      | .blocked => .next (s.modQueue q (fun x => { x with look := false, blockedAt := s.cycle }))
      | .full => .next (s.modQueue q (fun x => { x with look := false, blockedAt := s.cycle, fullSince := some (x.fullSince.getD s.cycle) }))
      | .refused =>
        if s.refuseFaults d admin c then .next (s.haltQueue q d 4 0x48) else .next ((s.refuse d admin c).passCommand q d)
      | .ready => .next ((body d admin c s).passCommand q d)

/-- NOP_COMMAND (R420): no effect. -/
def execNopCommand (s : State) : Host.Outcome State Fault Refusal := s.queueCommand 0 (fun _ _ _ st => st)

/-! ### Levels -/

/-- The level that an OPEN opens (R420, R425). -/
def State.openLevel (s : State) (d : QueueDesc) (admin : Bool) (c : List Byte) : State :=
  let kind := field c 0x48 8
  let parent := s.namedLevel d.ctx admin (field c 0x58 8) (kind + 1)
  let order := (parent.bind (fun i => (s.level? i).map (fun x => x.children))).getD 0
  match freeEntry s.sched.levels with
  | none => s
  | some i =>
    let x : Level :=
      { kind := kind, ctx := d.ctx, recAddr := commandAddr admin d.ctx (field c 0x50 8), parent := parent, order := order
        target := field c 0x60 8, counter := 0, children := 0, status := none }
    let s1 := match parent with
      | some p => s.modLevel p (fun y => { y with children := y.children + 1 })
      | none => s
    { s1 with sched := { s1.sched with levels := tset s1.sched.levels i x } }

/-- OPEN (R420, R425). -/
def execOpenLevel (s : State) : Host.Outcome State Fault Refusal := s.queueCommand 2 (fun d admin c st => st.openLevel d admin c)

/-- A cancel of the open level whose record lies at an address (R30 to R32, R432). -/
def State.cancelAt (s : State) (ctx : Nat) (a : RecAddr) : State :=
  match s.levelAt ctx a, s.launchAt ctx a with
  | some x, _ => s.acceptLevel 4 x.1 (2, 0)
  | none, some l => s.acceptLaunch l (2, 0)
  | none, none => s

/-- CANCEL (R432). -/
def execCancelLevel (s : State) : Host.Outcome State Fault Refusal :=
  s.queueCommand 3 (fun d admin c st => st.cancelAt d.ctx (commandAddr admin d.ctx (field c 0x48 8)))

/-! ### Words, interrupts, contexts -/

/-- WRITE's store, performed as a release at system scope; waits are read again (R419, R420). -/
def State.storeWord (s : State) (a : RecAddr) (v : Nat) : State :=
  match s.recPa a true with
  | some x => (x.2.releaseWrite x.1 (toBytes 8 v)).relook
  | none => s

/-- WRITE (R420). -/
def execWriteWord (s : State) : Host.Outcome State Fault Refusal :=
  s.queueCommand 4 (fun d admin c st => st.storeWord (commandAddr admin d.ctx (field c 0x48 8)) (field c 0x50 8))

/-- NOTIFY (R420). -/
def execNotifyCores (s : State) : Host.Outcome State Fault Refusal := s.queueCommand 5 (fun _ _ c st => st.interrupt (field c 0x48 2))

/-- An address range of INVAL: the whole address space when its limit is 0 (R421). -/
def inInval (base limit lo hi : Nat) : Bool := limit == 0 || (decide (lo < limit) && decide (base < hi))

/-- A TLB entry that INVAL keeps (R421). -/
def TlbEntry.kept (t : TlbEntry) (ctx base limit : Nat) : Bool :=
  !(t.ctx == ctx && inInval base limit (t.vpn * 2 ^ t.size) ((t.vpn + 1) * 2 ^ t.size))

/-- INVAL's effect (R421): the entries of the context that overlap the range go from every core TLB and every cluster TLB,
with its LD transposition entries and its kept instructions of the range. A walk ends in the step that begins it. -/
def State.invalidate (s : State) (ctx base limit : Nat) : State :=
  let cores := s.cores.map (fun p => (p.1,
    ({ p.2 with
       tlb := p.2.tlb.filter (fun t => t.kept ctx base limit)
       subs := p.2.subs.map (fun b => ({ b with xpos := b.xpos.filter (fun x => !(x.ctx == ctx && x.crew.isSome)) } : Sub)) } : Core)))
  { s with
    cores := cores
    net := { s.net with tlbs := s.net.tlbs.map (fun p =>
      (p.1, { p.2 with entries := p.2.entries.filter (fun t => t.kept ctx base limit) })) }
    sched := { s.sched with kept := s.sched.kept.filter (fun k => !(k.ctx == ctx && inInval base limit k.va (k.va + 8))) } }

/-- INVAL (R421). -/
def execInval (s : State) : Host.Outcome State Fault Refusal :=
  s.queueCommand 6 (fun _ _ c st => st.invalidate (field c 0x48 8) (field c 0x50 8) (field c 0x58 8))

/-- CTXSET's effect (R412). -/
def State.setContext (s : State) (n : Nat) (x : Context) : State :=
  { s with sched := { s.sched with contexts := tset s.sched.contexts n x } }

/-- The context that a CTXSET command writes (R412, R420). -/
def contextOf (c : List Byte) : Context :=
  { root := longAt c 0x50, trapBase := longAt c 0x58, part := field c 0x60 1, steal := bit (field c 0x61 1) 0
    valid := bit (field c 0x61 1) 1 }

/-- CTXSET (R412, R420). -/
def execCtxset (s : State) : Host.Outcome State Fault Refusal := s.queueCommand 7 (fun _ _ c st => st.setContext (field c 0x48 8) (contextOf c))

/-! ### Timers -/

/-- A blocked command's waits are due to be read again (R419). -/
def QueueState.recheckDue (x : QueueState) (now : Nat) : Bool := !x.look && decide (x.blockedAt + 2 ^ 16 ≤ now)

/-- WAIT_RECHECK_TIMER of the queue that State.sel names (R419). -/
def execWaitRecheckTimer (s : State) : Host.Outcome State Fault Refusal :=
  .next (s.modQueue s.sel.a (fun x => if x.recheckDue s.cycle then { x with look := true } else x))

/-- A command has waited 2^20 cycles for a table (R422). -/
def QueueState.tableDue (x : QueueState) (now : Nat) : Bool := (x.fullSince.map (fun t => decide (t + 2 ^ 20 ≤ now))).getD false

/-- QUEUE_TABLE_TIMEOUT of the queue that State.sel names (R422): it halts with code TABLE. -/
def execQueueTableTimeout (s : State) : Host.Outcome State Fault Refusal :=
  let q := s.sel.a
  match s.sched.queues.find? (fun x => x.q == q), s.queueDesc q with
  | some x, some d =>
    if x.tableDue s.cycle then .next ((s.haltQueue q d 7 0).modQueue q (fun x => { x with look := true, fullSince := none })) else .next s
  | _, _ => .next s

end Sys2Proof.Machine
end

