-- ==== Sys2Proof/Machine/Launches.lean ====
section
/-! DEFINITION. Launches: the checks of image and descriptor, placeability, readiness, and the end of a cancelled level (R25
to R37, R42 to R48, R423, R424, R432, R490). -/

namespace Sys2Proof.Machine

/-! ### The image header and the descriptor -/

/-- An image header, read (R44). -/
def headerOf (h : List Byte) : ImageHeader :=
  { flags := field h 8 4, codeSize := field h 0x20 8, entry := field h 0x28 8, gx := field h 0x30 2, gy := field h 0x32 2
    gz := field h 0x34 2, regs := field h 0x36 1, barriers := field h 0x37 1, scratch := field h 0x38 4, priv := field h 0x3C 4
    tiles := field h 0x40 1, hcrews := field h 0x41 1, toexp := field h 0x42 1, hvalid := field h 0x44 2
    swtraph := field h 0x48 4, brkh := field h 0x4C 4, handlers := (upTo 16).map (fun i => field h (0x50 + 4 * i) 4) }

/-- A descriptor, read (R46). -/
def descriptorOf (d : List Byte) : Descriptor :=
  { image := longAt d 0, args := longAt d 8, nx := field d 0x10 4, ny := field d 0x14 4, nz := field d 0x18 4
    maxGroups := field d 0x1C 4, countAddr := field d 0x20 8, doneRec := field d 0x28 8, stats := field d 0x30 8
    diag := field d 0x38 8, privBase := field d 0x40 8, lflags := field d 0x48 4, launchId := wordAt d 0x4C, toexp := field d 0x50 1 }

/-- An offset of the image is 0, or even and within the code (R45). -/
def offsetOk (codeSize x : Nat) : Bool := x == 0 || (x % 2 == 0 && decide (0x100 ≤ x) && decide (x < 0x100 + codeSize))

/-- Thread extents are non-zero and their product meets R13 (R45). -/
def extentsOk (h : ImageHeader) : Bool :=
  let t := h.gx * h.gy * h.gz
  h.gx != 0 && h.gy != 0 && h.gz != 0 && t % 32 == 0 && decide (32 ≤ t) && decide (t ≤ 1024)

/-- A timeout exponent is 0 or from 12 to 30 (R44, R46). -/
def toexpOk (x : Nat) : Bool := x == 0 || (decide (12 ≤ x) && decide (x ≤ 30))

/-- The first check of R45's step 1 that a header fails, as its offset. The manual gives a zero ENTRY no meaning: the model
rejects it with CAUSE 0x28 (log 30). -/
def headerBad (b : List Byte) : Option Nat :=
  let h := headerOf b
  firstBad ([(0, field b 0 4 == 0x4B584749), (4, field b 4 2 == 1), (6, field b 6 2 == 256),
      (0xC, field b 0xC 4 == crc32c (b.take 12 ++ [0, 0, 0, 0] ++ (b.drop 16).take 240)),
      (8, h.flags &&& 0xFFFFFFF9 == 0), (0x20, h.codeSize != 0 && h.codeSize % 2 == 0),
      (0x28, h.entry != 0 && offsetOk h.codeSize h.entry), (0x30, extentsOk h), (0x36, h.regs == 32 || h.regs == 64),
      (0x37, decide (h.barriers ≤ 64)), (0x38, decide (h.scratch ≤ Config.scratchBytes) && h.scratch % 128 == 0),
      (0x3C, decide (h.priv ≤ 65536) && h.priv % 16 == 0), (0x40, decide (h.tiles ≤ 8)), (0x41, decide (h.hcrews ≤ 4)),
      (0x42, toexpOk h.toexp), (0x43, field b 0x43 1 == 0), (0x46, field b 0x46 2 == 0),
      (0x48, offsetOk h.codeSize h.swtraph), (0x4C, offsetOk h.codeSize h.brkh)] ++
    (upTo 16).map (fun i => (0x50 + 4 * i, offsetOk h.codeSize (h.handlers.getD i 0))) ++ [(0x90, field b 0x90 112 == 0)])

/-- The capability register (R490). -/
def State.capreg (s : State) : Nat :=
  0xFFFF + (if s.pkg.boot.phoacPorts != 0 then 2 ^ 16 else 0) + (if s.pkg.boot.pciePorts != 0 then 2 ^ 17 else 0)

/-- The lowest feature that an image needs and the device lacks (R45). -/
def State.missing (s : State) (b : List Byte) : Option Nat :=
  (upTo 128).find? (fun i => bit (field b 0x10 16) i && !bit s.capreg i)

/-- The launch takes its group counts from memory (R34). -/
def Descriptor.indirect (d : Descriptor) : Bool := bit d.lflags 0

/-- A group count is non-zero, or zero when counts come from memory (R47). -/
def Descriptor.countOk (d : Descriptor) (n : Nat) : Bool := if d.indirect then n == 0 else n != 0

/-- The first check of R47 that a descriptor fails after IMAGE, as its offset. -/
def descriptorBad (b : List Byte) (d : Descriptor) (priv : Nat) : Option Nat :=
  firstBad [(0x10, d.countOk d.nx), (0x14, d.countOk d.ny), (0x18, d.countOk d.nz), (0x1C, d.maxGroups != 0),
    (0x20, if d.indirect then d.countAddr % 4 == 0 else d.countAddr == 0), (0x28, d.doneRec % 32 == 0),
    (0x30, d.stats % 8 == 0), (0x38, d.diag % 64 == 0), (0x40, d.privBase % 16 == 0 && (priv != 0 || d.privBase == 0)),
    (0x48, d.lflags / 8 == 0), (0x50, toexpOk d.toexp), (0x51, field b 0x51 47 == 0)]

/-! ### Placeability -/

/-- R424's k: the launch's groups that fit together on one empty core, the handler crews counted once. -/
def Launch.perCore (l : Launch) : Nat :=
  let h := l.header
  let lim := fun (n d : Nat) => if d == 0 then 32 else n / d
  [lim (32 - h.hcrews) l.crewCount, lim Config.scratchBytes h.scratch, lim 256 h.barriers, lim 16 (2 * h.tiles),
   if h.regs == 64 then lim 16 ((l.crewCount + 7) / 8) else 32].foldl min 32

/-- A group can be placed on no core of the partition (R37). -/
def State.tooLarge (s : State) (l : Launch) : Bool := decide (32 < l.crewCount + l.header.hcrews) || (s.partCores l.ctx).isEmpty

/-- The groups of a cooperative launch cannot all be resident (R42, R424). -/
def State.coopTooLarge (s : State) (l : Launch) : Bool :=
  l.coop && decide (l.perCore * (s.partCores l.ctx).length < l.target)

/-- A launch with its group counts fixed (R24, R34). -/
def Launch.fix (l : Launch) (nx ny nz : Nat) : Launch :=
  let p := nx * ny * nz
  { l with groups := (nx, ny, nz), fixed := true, target := min p l.desc.maxGroups
           discarded := min (p - min p l.desc.maxGroups) (2 ^ 64 - 1) }

/-! ### LAUNCH -/

/-- The 256 bytes of the header that a descriptor names; none when IMAGE is misaligned or its read faults (R47). -/
def State.readHeader (s : State) (ctx : Nat) (d : Descriptor) : Option (List Byte) :=
  if d.image.toNat % 256 != 0 then none else (s.recRead (.virt ctx d.image.toNat) 256).map (fun x => x.1)

/-- The status with which a launch terminates as it is opened, if any (R37, R45, R47, R423, R424). -/
def State.launchFails (s : State) (header : Option (List Byte)) (descBytes : List Byte) (l : Launch) : Option Status :=
  match header with
  | none => some (6, 0)
  | some h =>
    match headerBad h with
    | some off => some (5, off)
    | none =>
      match s.missing h with
      | some i => some (4, i)
      | none =>
        match descriptorBad descBytes l.desc l.header.priv with
        | some off => some (6, off)
        | none => if s.tooLarge l then some (7, 0) else if l.fixed && s.coopTooLarge l then some (7, 1) else none

/-- A launch's target is fixed as it is opened: the checks have passed and its counts do not come from memory (R27). -/
def State.launchFixed (s : State) (header : Option (List Byte)) (descBytes : List Byte) (l : Launch) : Bool :=
  !l.desc.indirect &&
    (match header with
     | some h => (headerBad h).isNone && (s.missing h).isNone && (descriptorBad descBytes l.desc l.header.priv).isNone
     | none => false)

/-- A launch as its descriptor and image give it, not ready. -/
def launchEntry (ctx descAddr prio : Nat) (graph : Option Nat) (d : Descriptor) (h : ImageHeader) : Launch :=
  { ctx := ctx, descAddr := descAddr, desc := d, header := h, prio := prio, graph := graph, recAddr := .virt ctx d.doneRec
    groups := (0, 0, 0), fixed := false, ready := false, counter := 0, target := 0, discarded := 0, bound := [], done := []
    lostOnce := [], saved := [], status := none, stats := [], diagWritten := false }

/-- LAUNCH's effect (R423): a launch-table entry, the checks, the graph. A launch that fails a check terminates at once. -/
def State.openLaunch (s : State) (d : QueueDesc) (admin : Bool) (c : List Byte) : State :=
  let addr := commandAddr admin d.ctx (field c 0x48 8)
  match s.readDesc addr, freeEntry s.sched.launches with
  | some b, some i =>
    let x := descriptorOf b
    let hb := s.readHeader d.ctx x
    let graph := s.namedLevel d.ctx admin (field c 0x50 8) 2
    let l0 := launchEntry d.ctx (field c 0x48 8) d.prio graph x (headerOf (hb.getD []))
    let l := if s.launchFixed hb b l0 then l0.fix x.nx x.ny x.nz else l0
    let s1 := match graph with
      | some g => s.modLevel g (fun y => { y with children := y.children + 1 })
      | none => s
    let s2 : State := { s1 with sched := { s1.sched with launches := tset s1.sched.launches i l } }
    (match s.launchFails hb b l with
     | some st => s2.endLaunch i st
     | none => s2)
  | _, _ => s

/-- LAUNCH (R423). -/
def execLaunch (s : State) : Host.Outcome State Fault Refusal := s.queueCommand 1 (fun d admin c st => st.openLaunch d admin c)

/-! ### Readiness -/

/-- A phase is active: it has no job, or no earlier phase of its job is open (R423). -/
def State.phaseActive (s : State) (x : Level) : Bool :=
  x.status.isNone && (match x.parent with
    | some j => !s.sched.levels.any (fun y => y.2.kind == 3 && y.2.parent == some j && decide (y.2.order < x.order))
    | none => true)

/-- A launch's graph may dispatch (R423). -/
def State.graphDispatches (s : State) (l : Launch) : Bool :=
  match l.graph with
  | none => true
  | some g =>
    match s.level? g with
    | none => false
    | some x => x.status.isNone && (match x.parent with
      | some p => ((s.level? p).map s.phaseActive).getD false
      | none => true)

/-- A launch becomes ready now (R423). -/
def State.readyDue (s : State) (l : Launch) : Bool := !l.ready && l.status.isNone && s.queuesOpen && s.graphDispatches l

/-- The class of the trap that a read of the device raises at an address of a context, if it faults (R28, R34). -/
def State.readFaultClass (s : State) (ctx va : Nat) : Option Nat :=
  if bits va 63 56 != 0 then some 1
  else
    match s.walk ctx va 1 with
    | .error c => some c.1
    | .ok w => if !bit w.pte 2 || (s.storageAt w.pa).isNone then some 1 else none

/-- The three count words of an INDIRECT launch; an error is the class of the fault (R34). -/
def State.readCounts (s : State) (ctx va : Nat) : Except Nat (List Nat) :=
  (upTo 3).mapM (fun k => match s.readFaultClass ctx (va + 4 * k) with
    | some cls => (Except.error cls : Except Nat Nat)
    | none => .ok (((s.recRead (.virt ctx (va + 4 * k)) 4).map (fun x => ofBytes x.1)).getD 0))

/-- A launch made ready: no group is left where P is 0 (R34, R423, R424). -/
def State.becomeReady (s : State) (i : Nat) (l : Launch) : State :=
  let s1 := s.modLaunch i (fun _ => { l with ready := true })
  if l.target == 0 then s1.endLaunch i (1, 0)
  else if l.desc.indirect && s.coopTooLarge l then s1.endLaunch i (7, 1)
  else s1

/-- LAUNCH_READY of the launch slot that State.sel names (R34, R423, R424). -/
def execLaunchReady (s : State) : Host.Outcome State Fault Refusal :=
  match s.launch? s.sel.a with
  | none => .next s
  | some l =>
    if !s.readyDue l then .next s
    else if !l.desc.indirect then .next (s.becomeReady s.sel.a l)
    else
      match s.readCounts l.ctx l.desc.countAddr with
      | .error cls => .next (s.endLaunch s.sel.a (8, cls))
      | .ok n => .next (s.becomeReady s.sel.a (l.fix (n.getD 0 0) (n.getD 1 0) (n.getD 2 0)))

/-! ### The end of a cancel -/

/-- Everything that a stopped launch still had under way has released, landed or been discarded (R30), and its groups that
count have been counted (R31). -/
def State.launchDrained (s : State) (i : Nat) : Bool :=
  (s.launchRefs i).all (fun r => (s.crew r).drained) && !s.launchWrites i &&
    s.coreList.all (fun c => (s.groupSlots c i).all (fun g => s.opsQuiet c g && !((s.group c g).map (fun x => x.met)).getD false))

/-- The groups of a stopped launch returned without a save, each with an entry EVENT 5 when it was cancelled (R30, R432). -/
def State.endGroups (s : State) (i : Nat) (l : Launch) : State :=
  s.coreList.foldl (fun (st : State) c =>
    ((st.groupSlots c i).foldl (fun (t : State) g =>
      match t.group c g with
      | some x =>
        let u := t.killGroup c g
        if l.status == some (2, 0) then u.logPlacement c 5 l.ctx l.desc.launchId x.g else u
      | none => t) st).killHandlers c i) s

/-- A launch or level with an accepted cause other than DONE may terminate now: kind 0 a launch, 1 a level (R30, R31). -/
def State.cancelReady (s : State) (kind i : Nat) : Bool :=
  if kind == 0 then
    match s.launch? i with
    | some l => l.status.isSome && l.status != some (1, 0) && s.launchDrained i
    | none => false
  else
    match s.level? i with
    | some x => x.status.isSome && (s.launchesIn i).isEmpty && (s.levelsIn i).isEmpty
    | none => false

/-- A stopped level terminates: its record, then the levels above it take its status (R26, R29). -/
def State.endLevel (s : State) (i : Nat) (x : Level) (st : Status) : State :=
  ((s.writeRecord x.recAddr x.counter x.target st 0).dropLevel i).acceptUp 4 x.parent st

/-- CANCEL_COMPLETE of the launch or level that State.sel names, by kind and number (R30). -/
def execCancelComplete (s : State) : Host.Outcome State Fault Refusal :=
  let i := s.sel.b
  if !s.cancelReady s.sel.a i then .next s
  else if s.sel.a == 0 then
    match s.launch? i with
    | some l => .next ((s.endGroups i l).endLaunch i (l.status.getD (2, 0)))
    | none => .next s
  else
    match s.level? i with
    | some x => .next (s.endLevel i x (x.status.getD (2, 0)))
    | none => .next s

end Sys2Proof.Machine
end

