-- ==== Sys2Proof/Machine/Preempt.lean ====
section
/-! DEFINITION. Pre-emption, fences and the answers to page faults: requests and their checks, the drain's end and the images,
evacuation, the fault queue, uncorrectable errors (R29, R433, R436 to R451, R501, R504). -/

namespace Sys2Proof.Machine

/-! ### Victims -/

/-- A group is pinned to its core or to its slot (R447). -/
def State.pinned (s : State) (core gslot : Nat) : Bool :=
  ((s.group core gslot).map (fun g => g.pinCore)).getD false || s.pinnedSlot core gslot

/-- Every started group, as core and group slot. -/
def State.startedGroups (s : State) : List (Nat × Nat) :=
  s.coreList.flatMap (fun c => ((upTo 32).filter (fun g => (s.group c g).isSome)).map (fun g => (c, g)))

/-- A cooperative launch has a group on a core: its groups are pre-empted together (R43). -/
def State.coopOn (s : State) (core lslot : Nat) : Bool :=
  ((s.launch? lslot).map (fun l => l.coop)).getD false && (upTo 32).any (fun n => ((s.group core n).map (fun g => g.lslot)) == some lslot)

/-- A pre-emption names a group (R43, R440, R442, R452, R505). -/
def State.names (s : State) (die : Nat) (j : PreemptJob) (core gslot : Nat) : Bool :=
  match s.group core gslot with
  | none => false
  | some g =>
    let l := g.lslot == j.req.lslot.toNat
    let on := j.req.core.toNat
    match j.origin with
    | .port =>
      if j.req.mode == 0 then l && g.g == j.req.group.toNat else if j.req.mode == 1 then l
      else j.req.mode == 2 && (core == on || s.coopOn on g.lslot)
    | .quiesce => s.dieOf core == die
    | _ => if core == on then !s.pinned core gslot else s.coopOn on g.lslot

/-- A victim put in ascending g (R443). -/
def State.insertVictim (s : State) (x : Nat × Nat) : List (Nat × Nat) → List (Nat × Nat)
  | [] => [x]
  | y :: r =>
    let num := fun (z : Nat × Nat) => ((s.group z.1 z.2).map (fun g => g.g)).getD 0
    if num y ≤ num x then y :: s.insertVictim x r else x :: y :: r

/-- The groups that a pre-emption names, in ascending g (R443). -/
def State.victimsOf (s : State) (die : Nat) (j : PreemptJob) : List (Nat × Nat) :=
  (s.startedGroups.filter (fun x => s.names die j x.1 x.2)).foldl (fun l x => s.insertVictim x l) []

/-- The handler crews that are saved with groups, as core and launch slot (R443, R452). -/
def State.handlersWith (s : State) (die : Nat) (j : PreemptJob) (victims : List (Nat × Nat)) : List (Nat × Nat) :=
  if j.origin == .port && j.req.mode == 0 then []
  else
    s.coreList.flatMap (fun c => (((s.core c).handlers.map (fun h => h.lslot)).filter (fun l =>
      (j.origin == .quiesce && s.dieOf c == die) ||
        victims.any (fun v => v.1 == c && ((s.group c v.2).map (fun g => g.lslot)) == some l))).map (fun l => (c, l)))

/-! ### Images -/

/-- The bytes of records one after another. -/
def recordsBytes (l : List CastRecord) : List Byte := l.flatMap recordBytes

/-- The images of a pre-emption, each with its group: the handler crews of a core follow its last group (R443). -/
def State.imagesOf (s : State) (victims handlers : List (Nat × Nat)) : List ((Nat × Nat) × List Byte) :=
  (upTo victims.length).filterMap (fun i =>
    (victims[i]?).map (fun v =>
      let final := !(victims.drop (i + 1)).any (fun x => x.1 == v.1)
      (v, recordsBytes (s.groupImage v.1 v.2 ++
        (if final then (handlers.filter (fun h => h.1 == v.1)).flatMap (fun h => s.handlerImage h.1 h.2) else [])))))

/-- The bytes that a launch's handler crews need at most. -/
def State.handlerRoom (s : State) (handlers : List (Nat × Nat)) : Nat :=
  (handlers.map (fun h => (s.handlerRefs h.1 h.2).length * (16 + crewBytes + 4 + padding (crewBytes + 4)))).sum

/-- The largest image that the named groups can need: what saving all of them now would take, every handler crew busy (R443,
log 50). -/
def State.largestImage (s : State) (victims handlers : List (Nat × Nat)) : Nat :=
  ((s.imagesOf victims []).map (fun x => x.2.length)).sum + s.handlerRoom handlers

/-- The checks of a pre-emption request before anything stops: PSTAT and PLEN (R442, R443). The low bits of SAVEADDR count as
must-be-zero (log 49). -/
def State.preemptCheck (s : State) (r : PreemptRequest) (victims handlers : List (Nat × Nat)) : Nat × Nat :=
  let size := s.largestImage victims handlers
  let whole := ((s.launch? r.lslot.toNat).map (fun l => l.coop || l.header.hcrews != 0)).getD false
  if r.mbz != 0 || r.saveaddr.toNat % 4096 != 0 || victims.isEmpty then (1, 0)
  else if r.savelen.toNat < size then (2, size)
  else if r.mode == 0 && whole then (3, 0)
  else if !Config.armatureMemory r.saveaddr.toNat r.savelen.toNat then (4, 0)
  else (0, 0)

/-! ### The start of a pre-emption -/

/-- The groups and handler crews of a pre-emption stop (R444). -/
def State.drainGroups (s : State) (victims handlers : List (Nat × Nat)) : State :=
  let s1 := victims.foldl (fun (st : State) v => st.modGroup v.1 v.2 (fun g => { g with draining := true })) s
  let refs := victims.flatMap (fun v => ((s.group v.1 v.2).map (fun g => g.refs v.1)).getD []) ++
    handlers.flatMap (fun h => s.handlerRefs h.1 h.2)
  refs.foldl State.stopCrew s1

/-- A pre-emption begins on its die, or ends at once on a failed check (R442 to R444). -/
def State.beginJob (s : State) (die : Nat) (j : PreemptJob) : State :=
  let v := s.victimsOf die j
  let h := s.handlersWith die j v
  let n := s.preemptCheck j.req v h
  if j.origin == .port && n.1 != 0 then s.modDie die (fun d => { d with pstat := n.1, plen := n.2 })
  else (s.modDie die (fun d => { d with preempt := some { j with victims := v, handlers := h } })).drainGroups v h

/-- The waiting pre-emptions of a die begin, until one runs (R442). -/
def State.nextJob (s : State) (die : Nat) : Nat → State
  | 0 => s
  | fuel + 1 =>
    let d := s.die die
    match d.preempt, d.waiting with
    | none, j :: r => ((s.modDie die (fun d => { d with waiting := r })).beginJob die j).nextJob die fuel
    | _, _ => s

/-- A pre-emption asked of a die: it begins, or waits for the one that runs (R442). -/
def State.askJob (s : State) (die : Nat) (j : PreemptJob) : State :=
  (s.modDie die (fun d => { d with waiting := d.waiting ++ [j] })).nextJob die ((s.die die).waiting.length + 1)

/-- PREEMPT_REQUEST at a die's port (R442). -/
def execPreemptRequest (die : Nat) (req : PreemptRequest) (s : State) : Host.Outcome State Fault Refusal :=
  .next (s.askJob die { req := req, origin := .port, victims := [], handlers := [] })

/-- A pre-emption of every group of a core that Armature asks for in MODE 2 (R440, R505). -/
def coreJob (core : Nat) (o : PreemptOrigin) : PreemptJob :=
  { req := { lslot := 0, mode := 2, group := 0, core := BitVec.ofNat 16 core, saveaddr := 0, savelen := 0, mbz := 0 }
    origin := o, victims := [], handlers := [] }

/-! ### The end of a pre-emption -/

/-- A victim of a pre-emption that is still there to be saved. -/
def State.victimLeft (s : State) (v : Nat × Nat) : Bool := ((s.group v.1 v.2).map (fun g => g.draining)).getD false

/-- Released writes and arrivals of a group are still under way, or writes to its allocation (R453). -/
def State.writesUnderWay (s : State) (core gslot : Nat) (g : Group) : Bool :=
  let at_ := Loc.scratch core g.scrBase
  (s.core core).arrivals.any (fun a => a.gslot == gslot) ||
  s.net.txs.any (fun t => match t.req with
    | .read _ _ _ _ _ => false
    | .write w => (t.crew.map (fun r => (g.refs core).contains r)).getD false ||
        (t.answer.isNone && w.bytes.any (fun b => Loc.overlaps at_ g.scrLen b.1 b.2.length))
    | .atomic a _ _ _ _ => (t.crew.map (fun r => (g.refs core).contains r)).getD false ||
        (t.answer.isNone && a.lanes.any (fun x => Loc.overlaps at_ g.scrLen x.loc a.size))
    | _ => (t.crew.map (fun r => (g.refs core).contains r)).getD false)

/-- A victim has drained (R444). -/
def State.victimReady (s : State) (v : Nat × Nat) : Bool :=
  match s.group v.1 v.2 with
  | some g => s.crewsDrained v.1 g && s.opsQuiet v.1 v.2 && !s.writesUnderWay v.1 v.2 g &&
      !(s.core v.1).windowChanges.any (fun w => w.core == v.1 && w.gslot == v.2)
  | none => true

/-- The pre-emption of a die may end (R444). -/
def State.preemptDue (s : State) (die : Nat) : Bool :=
  match (s.die die).preempt with
  | some j => (j.victims.filter s.victimLeft).all s.victimReady && j.handlers.all (fun h => (s.handlerRefs h.1 h.2).all (fun r => (s.crew r).drained))
  | none => false

/-- The record that a saved group ran under, with the slots of its launch's handler crews there. -/
def State.savedBind (s : State) (core : Nat) (g : Group) : BindRecord :=
  let k := s.core core
  let h := slotMask ((k.handlers.filter (fun h => h.lslot == g.lslot)).flatMap (fun h => h.crews))
  match k.recordOf g with
  | some x => { x.bind with hslots := BitVec.ofNat 32 h }
  | none =>
    { lslot := BitVec.ofNat 16 g.lslot, group := BitVec.ofNat 32 g.g, core := BitVec.ofNat 16 core
      scrbase := BitVec.ofNat 16 (g.scrBase / 128), crews := BitVec.ofNat 32 (slotMask g.crews), hslots := BitVec.ofNat 32 h
      tiles := 0, barbase := 0, xsub := BitVec.ofNat 8 g.xsub, mbz := 0 }

/-- A group saved: its launch remembers its image, and its resources are free (R36, R444, R451). -/
def State.saveGroup (s : State) (v : Nat × Nat) (image len : Nat) (inPlace : Bool) : State :=
  match s.group v.1 v.2 with
  | none => s
  | some g =>
    let x : SavedGroup :=
      { g := g.g, image := image, len := len, core := v.1, gslot := v.2, bind := s.savedBind v.1 g, inPlace := inPlace }
    (s.modLaunch g.lslot (fun l => { l with saved := l.saved ++ [x] })).freeGroup v.1 v.2

/-- The handler crews of a launch leave a core, saved; its queued entries stay (R38, R443). -/
def State.freeHandlers (s : State) (core l : Nat) : State :=
  let s1 := (s.handlerRefs core l).foldl (fun (st : State) r =>
    (st.dropCircuits core (fun c => c.owner == .handler r)).leaveSlot r) s
  s1.modCore core (fun k => { k with handlers := k.handlers.filter (fun h => h.lslot != l) })

/-- Bytes reach storage at every line of a range. -/
def State.backed (s : State) (pa : Nat) (bs : List Byte) : Bool :=
  (lineRuns (bs.length / 128 + 2) pa bs).all (fun x => (s.storageAt x.1).isSome)

/-- The images of a pre-emption written one after another, and their groups freed (R443, R444). -/
def State.saveAll (s : State) (j : PreemptJob) (base : Nat) (images : List ((Nat × Nat) × List Byte)) : State :=
  let q := images.foldl (fun (a : State × Nat) x =>
    ((a.1.releaseWrite a.2 x.2).saveGroup x.1 a.2 x.2.length (j.origin == .quiesce), a.2 + x.2.length)) (s, base)
  j.handlers.foldl (fun (st : State) h => st.freeHandlers h.1 h.2) q.1

/-- A core is fenced: its evacuation has ended (R440). -/
def State.closeCore (s : State) (core : Nat) : State :=
  ((s.core core).handlers.foldl (fun (st : State) h => st.killHandlers core h.lslot) s).modCore core (fun k =>
    { k with fenced := true, evacuating := none })

/-- The end of a die's pre-emption: images, frees, PSTAT and PLEN, then the next one (R442 to R444). -/
def State.endJob (s : State) (die : Nat) (j : PreemptJob) : State :=
  let left := j.victims.filter s.victimLeft
  let images := s.imagesOf left j.handlers
  let total := (images.map (fun x => x.2.length)).sum
  let base := if j.origin == .port then j.req.saveaddr.toNat else Config.saveArea + s.sched.quiesce.saveAt
  let s0 := s.modDie die (fun d => { d with preempt := none })
  let s1 :=
    if j.origin == .port && !s.backed base (images.flatMap (fun x => x.2)) then
      (j.handlers.foldl (fun (st : State) h => st.killHandlers h.1 h.2)
        (left.foldl (fun (st : State) v => st.loseGroup v.1 v.2) s0)).modDie die (fun d => { d with pstat := 5, plen := 0 })
    else
      let t := s0.saveAll j base images
      match j.origin with
      | .port => t.modDie die (fun d => { d with pstat := 0, plen := total })
      | .fence => (t.closeCore j.req.core.toNat)
      | _ => t
  let s2 : State :=
    if j.origin == .port then s1
    else { s1 with sched := { s1.sched with quiesce := { s1.sched.quiesce with saveAt := s1.sched.quiesce.saveAt + total } } }
  s2.nextJob die ((s2.die die).waiting.length + 1)

/-- PREEMPT_COMPLETE on the die that State.sel names (R444). -/
def execPreemptComplete (s : State) : Host.Outcome State Fault Refusal :=
  match (s.die s.sel.a).preempt with
  | some j => if s.preemptDue s.sel.a then .next (s.endJob s.sel.a j) else .next s
  | none => .next s

/-! ### Fences -/

/-- Records that have not started leave a core, and their groups return to unbound; a saved group stays saved (R440, R452). -/
def State.unbindCore (s : State) (core : Nat) : State :=
  (s.pending core).foldl (fun (st : State) x =>
    (st.dropRecord core x).modLaunch x.bind.lslot.toNat (fun l =>
      if x.restore.isSome then l else { l with bound := l.bound.filter (fun n => n != x.bind.group.toNat) })) s

/-- The reason of a FENCE record (R504). -/
def reasonCode (r : FenceReason) : Nat :=
  match r with
  | .threshold => 1
  | .fieldTest => 2
  | .crossing => 3
  | .linkTraining => 4
  | .operator => 5

/-- The cell of a unit by its kind, in the order of R499, and its physical number (R150). -/
def unitCell (kind n : Nat) : Nat := ([0, 1024, 1280, 1536, 1792].getD kind 0) + n

/-- The DETAIL of a FENCE record (R504): the kind and physical number of the unit, and the reason. -/
def fenceDetail (kind n : Nat) (r : FenceReason) : List Byte := toBytes 2 kind ++ toBytes 2 n ++ toBytes 1 (reasonCode r)

/-- A FENCE record (R504). -/
def State.logFence (s : State) (kind n : Nat) (r : FenceReason) : State :=
  s.logRecord 4 0 (unitCell kind n) 0xFFFF (fenceDetail kind n r)

/-- The fence of a core begins (R440): its pinned groups are lost, the others evacuate; a core without groups is fenced at
once. -/
def State.fenceCore (s : State) (core : Nat) (r : FenceReason) : State :=
  let k := s.core core
  if k.fenced || k.evacuating.isSome then s
  else
    let s1 := ((s.logFence 0 (s.physCore core) r).unbindCore core).modCore core (fun k => { k with evacuating := some s.cycle })
    let s2 := ((upTo 32).filter (s1.pinned core)).foldl (fun (st : State) g => st.loseGroup core g) s1
    if (upTo 32).all (fun g => (s2.group core g).isNone) then s2.closeCore core
    else s2.askJob (s.dieOf core) (coreJob core .fence)

/-- The evacuation of a core has lasted 2^16 cycles (R440). -/
def State.evacuationLate (s : State) (core : Nat) : Bool :=
  ((s.core core).evacuating.map (fun t => decide (t + 2 ^ 16 ≤ s.cycle))).getD false

/-- FENCE_EVACUATION_TIMEOUT on the core that State.sel names (R440): the groups that are left are lost. -/
def execFenceEvacuationTimeout (s : State) : Host.Outcome State Fault Refusal :=
  let c := s.sel.a
  if s.evacuationLate c then
    .next (((upTo 32).foldl (fun (st : State) g => st.loseGroup c g) s).closeCore c)
  else .next s

/-! ### The fault queue -/

/-- The entries of the fault queue's ring; 0 disables it (R436). -/
def State.fqCapacity (s : State) : Nat :=
  let lg := bits s.sched.fq.base.toNat 3 0
  if lg == 0 then 0 else 2 ^ lg * 16

/-- A token (R437): generation, physical core, sub-core, crew slot. -/
def State.token (s : State) (r : CrewRef) : Nat :=
  (s.keep r).generation * 2 ^ 15 + s.physCore r.core * 32 + r.sub * 8 + r.slot

/-- The faulting address of a lane that the fault queue lists: for a private-window access the global alias on which the page
fault occurred (R55, R69, log 16). -/
def State.faultVa (s : State) (r : CrewRef) (f : LaneTrap) : Nat :=
  let va := f.addr.toNat
  if bits va 63 48 == 0xFFFD then (s.privAlias r f.lane (bits va 47 0)).getD va else va

/-- The entry of a parked crew (R437). -/
def State.fqEntry (s : State) (r : CrewRef) (p : Parked) : List Byte :=
  let first := p.faults.find? (fun f => f.cls == 2)
  let lanes := failLanes (p.faults.filter (fun f => f.cls == 2))
  toBytes 8 ((first.map (s.faultVa r)).getD 0) ++ toBytes 4 (s.token r) ++
    toBytes 1 ((first.map (fun f => f.code)).getD 0) ++ [0] ++ toBytes 2 (s.ctxOf r) ++
    toBytes 4 (((s.launchOf r).map (fun l => l.desc.launchId.toNat)).getD 0) ++ toBytes 2 r.core ++ [0, 0] ++
    toBytes 4 lanes.toNat ++ toBytes 4 (s.sched.fq.seq % 2 ^ 32)

/-- The parked crew that waits longest to be entered in the queue. -/
def State.nextParked (s : State) : Option (CrewRef × Parked) :=
  (s.coreList.flatMap coreRefs).foldl (fun (m : Option (CrewRef × Parked)) r =>
    match (s.crew r).parked, m with
    | some p, some x => if !p.listed && decide (p.order < x.2.order) then some (r, p) else m
    | some p, none => if p.listed then none else some (r, p)
    | none, _ => m) none

/-- A parked crew entered in the fault queue (R437). -/
def State.listOne (s : State) (r : CrewRef) (p : Parked) : State :=
  let q := s.sched.fq
  let at_ := q.base.toNat / 4096 * 4096 + 32 * (q.tail.toNat % s.fqCapacity)
  let s1 := (s.releaseWrite at_ (s.fqEntry r p)).modCrew r (fun w => { w with parked := some { p with listed := true } })
  ({ s1 with sched := { s1.sched with fq := { s1.sched.fq with tail := q.tail + 1, seq := q.seq + 1 } } } : State).interrupt q.vec.toNat

/-- Parked crews entered in parking order while the ring has room (R437). -/
def State.listParked (s : State) : Nat → State
  | 0 => s
  | fuel + 1 =>
    let q := s.sched.fq
    if decide (s.fqCapacity ≤ (q.tail - q.head).toNat) then s
    else
      match s.nextParked with
      | some x => (s.listOne x.1 x.2).listParked fuel
      | none => s

/-- The crew slots of the device, as a bound on what is listed at once. -/
def State.slotCount (s : State) : Nat := 32 * s.cores.length

/-- FQHEAD_WRITE (R437). -/
def execFqheadWrite (value : Word) (s : State) : Host.Outcome State Fault Refusal :=
  let s1 : State := { s with sched := { s.sched with fq := { s.sched.fq with head := value } } }
  .next (s1.listParked s.slotCount)

/-- The parked crew that a token names (R438). -/
def State.parkedAt (s : State) (token : Word) : Option (CrewRef × Parked) :=
  let t := token.toNat
  match s.logicalCore (bits t 14 5) with
  | some c =>
    let r : CrewRef := ⟨c, bits t 4 3, bits t 2 0⟩
    if (s.keep r).generation == bits t 31 15 then ((s.crew r).parked).map (fun p => (r, p)) else none
  | none => none

/-- A response that is ignored sets FRSTAT (R438). -/
def State.ignoreResponse (s : State) : State := { s with sched := { s.sched with fq := { s.sched.fq with stat := true } } }

/-- A crew's parked threads are ready to issue their access again. -/
def Crew.unpark (w : Crew) : Crew :=
  { w with parked := none, threads := w.threads.map (fun t => if t.run == .parked then { t with run := .ready } else t) }

/-- FAULTRESP with ACT replay (R438). -/
def execFaultrespReplay (token : Word) (s : State) : Host.Outcome State Fault Refusal :=
  match s.parkedAt token with
  | some x => .next (s.modCrew x.1 Crew.unpark)
  | none => .next s.ignoreResponse

/-- The issue group of a parked instruction. -/
def parkedIssue (r : CrewRef) (p : Parked) : Issue :=
  { core := r.core, sub := r.sub, slot := r.slot, part := p.part, pc := p.pc, len := p.ilen, word := p.iword }

/-- FAULTRESP with ACT decline (R438): PAGEFAULT as a trap. -/
def execFaultrespDecline (token : Word) (s : State) : Host.Outcome State Fault Refusal :=
  match s.parkedAt token with
  | some x => .next ((s.modCrew x.1 Crew.unpark).raiseTrap x.1 (trapOf (parkedIssue x.1 x.2) x.2.faults false x.2.part))
  | none => .next s.ignoreResponse

/-- FAULTRESP with ACT terminate (R438): the context ends with CAUSE 2. -/
def execFaultrespTerminate (token : Word) (s : State) : Host.Outcome State Fault Refusal :=
  match s.parkedAt token with
  | some x => .next (s.terminateContext (s.ctxOf x.1) (s.lslotOf x.1) 2)
  | none => .next s.ignoreResponse

/-- FRSTAT_READ (R438): the bit is returned and cleared. -/
def execFrstatRead (s : State) : Host.Outcome State Fault Refusal :=
  .next { s with
    sched := { s.sched with fq := { s.sched.fq with stat := false } }
    hostOut := s.hostOut ++ [{ party := .other, data := toBytes 8 (if s.sched.fq.stat then 1 else 0), ok := true }] }

/-! ### Uncorrectable errors -/

/-- The unit of a UE record for a physical address: vault, bulk, or L2 (R504). -/
def ueUnit (pa : Nat) : Nat := if pa < Config.bulkEnd then 1 else 0

/-- A UE record: contained to its context, or of no context (R502, R504). -/
def State.logUe (s : State) (cell ctx pa unit : Nat) : State :=
  (s.countCell cell 5 1).logRecord 2 (if ctx == 0xFFFF then 3 else 2) cell ctx (toBytes 8 pa ++ toBytes 1 unit)

/-- A block marked poisoned (R502). -/
def State.poison (s : State) (block : Nat) : State :=
  { s with mem := { s.mem with poisoned := insertUp s.mem.poisoned block } }

/-- The contexts with a request at a home in its last W cycles, served or still waiting there (R439). -/
def State.contextsAt (s : State) (h : HomeId) : List Nat :=
  let served := ((s.home h).responses.filter (fun x => decide (s.cycle < x.served + Config.window))).map (fun x =>
    match x.tx, x.write with
    | some t, _ => t.lslot
    | none, some w => s.lslotBehind w.crew
    | none, none => none)
  let waiting := (s.net.txs.filter (fun t => t.home == h && t.answer.isNone && t.hold.isNone && t.serveAt ≤ s.cycle)).map (fun t => t.lslot)
  ((served ++ waiting).filterMap (fun l => (l.bind s.launch?).map (fun x => x.ctx))).eraseDups

/-- UNCORRECTABLE_STORAGE_ERROR (R433, R439, R501, R504). -/
def execUncorrectableStorageError (what : StorageDamage) (s : State) : Host.Outcome State Fault Refusal :=
  match what with
  | .block pa => .next ((s.poison (pa / 64)).logUe (s.cellOf (s.homeOf (.mem pa) false)) 0xFFFF pa (ueUnit pa))
  | .group core gslot unit =>
    match s.group core gslot with
    | some g => .next ((s.logUe (s.physCore core) g.ctx 0 unit).loseGroup core gslot)
    | none => .next s
  | .homeRecord h =>
    .next ((s.contextsAt h).foldl (fun (st : State) c =>
      st.terminate6 c ((st.sched.launches.find? (fun l => l.2.ctx == c)).map (fun l => l.1)) (s.cellOf h))
      (s.countCell (s.cellOf h) 5 1))
  | .device die table =>
    .next ((s.logRecord 7 3 0xFFFF 0xFFFF (toBytes 1 die ++ toBytes 1 table)).modDie die (fun d => { d with dispatchStopped := true }))

end Sys2Proof.Machine
end

