-- ==== Sys2Proof/Machine/Cast.lean ====
section
/-! DEFINITION. The state cast: its records made from the state, its checks, and the state made from it (R453 to R463).
What the records name and State does not hold is as log 51 says. -/

namespace Sys2Proof.Machine

/-! ### Memory records -/

/-- The kind of a block: 0 ZERO, 1 MEM, 2 BAD (R455). -/
def State.blockKind (s : State) (b : Nat) : Nat :=
  if s.mem.poisoned.contains b then 2
  else if s.mem.cells.any (fun c => c.1 / 64 == b) || descGet s.mem.descs b != (0, 0) then 1 else 0

/-- The blocks that memory lists, in ascending order. -/
def State.touchedBlocks (s : State) : List Nat :=
  (s.mem.cells.map (fun (c : Host.Cell) => c.1 / 64) ++ s.mem.descs.map (fun (d : Nat × Nat × Nat) => d.1) ++ s.mem.poisoned).foldl insertUp []

/-- A half-open range without another. -/
def rangeMinus (x y : Nat × Nat) : List (Nat × Nat) :=
  if !rangesMeet x y then [x]
  else ((if x.1 < y.1 then [(x.1, y.1)] else []) ++ (if y.2 < x.2 then [(y.2, x.2)] else []))

/-- Ranges without others. -/
def rangesMinus (l holes : List (Nat × Nat)) : List (Nat × Nat) :=
  holes.foldl (fun m h => m.flatMap (fun x => rangeMinus x h)) l

/-- A range in ascending order among ranges. -/
def insertRange (x : Nat × Nat) : List (Nat × Nat) → List (Nat × Nat)
  | [] => [x]
  | y :: r => if y.1 ≤ x.1 then y :: insertRange x r else x :: y :: r

/-- The contexts that are VALID, by number. -/
def State.validContexts (s : State) : List (Nat × Context) := s.sched.contexts.filter (fun x => x.2.valid)

/-- The partitions in use: those of VALID contexts (R455). -/
def State.usedParts (s : State) : List (Nat × Partition) :=
  s.sched.parts.filter (fun p => s.validContexts.any (fun x => x.2.part == p.1))

/-- The logical vaults that a cast records: the working ones of the partitions in use (R455). -/
def State.castVaults (s : State) : List Nat :=
  (upTo 1024).filter (fun c => s.coreWorks c && s.usedParts.any (fun p => p.2.vaults.getLsbD c))

/-- The bulk regions and vault apertures that memory records cover, in ascending order, as byte ranges (R455, R462). -/
def State.memoryRanges (s : State) (vaults : List Nat) : List (Nat × Nat) :=
  (s.pkg.regs.regions.filterMap regionEntry).foldl (fun l g => insertRange (g.base, g.limit) l) [] ++
    vaults.map (fun c => (vaultAddr c 0, vaultAddr c Config.vaultLimit))

/-- The block ranges of a cast: without the excluded ranges and Plinth's save area (R452, R455). -/
def State.castRanges (s : State) (excluded : List (Nat × Nat)) : List (Nat × Nat) :=
  let save := (Config.saveArea, Config.saveArea + s.sched.quiesce.saveAt)
  rangesMinus ((s.memoryRanges s.castVaults).map (fun x => (x.1 / 64, x.2 / 64)))
    ((save :: excluded).map (fun x => (x.1 / 64, (x.2 + 63) / 64)))

/-- The header of a memory record. -/
def memHeader (block count : Nat) : List Byte := toBytes 8 (64 * block) ++ toBytes 4 count ++ [0, 0, 0, 0]

/-- ZERO records of a run of blocks; COUNT has 32 bits. -/
def zeroRecords : Nat → Nat → Nat → List CastRecord
  | 0, _, _ => []
  | fuel + 1, lo, hi =>
    if hi ≤ lo then []
    else
      let n := min (hi - lo) (2 ^ 31)
      recordOf 0x41 (memHeader lo n) :: zeroRecords fuel (lo + n) hi

/-- The record of one listed block. -/
def State.blockRecord (s : State) (b : Nat) : CastRecord :=
  if s.blockKind b == 2 then recordOf 0x42 (memHeader b 1)
  else
    let d := descGet s.mem.descs b
    recordOf 0x40 (memHeader b 1 ++ cellsRead s.mem.cells (64 * b) 64 ++ toBytes 2 d.1 ++ toBytes 2 d.2)

/-- The records of a block range: a record for each listed block, ZERO records between (R455). -/
def State.rangeRecords (s : State) (lo hi : Nat) : List Nat → List CastRecord
  | [] => zeroRecords 64 lo hi
  | b :: r =>
    if b < lo then s.rangeRecords lo hi r
    else if hi ≤ b then zeroRecords 64 lo hi
    else zeroRecords 64 lo b ++ s.blockRecord b :: s.rangeRecords (b + 1) hi r

/-! ### The other records -/

/-- A mask of 1024 bits as 128 bytes. -/
def maskBytes (m : BitVec 1024) : List Byte := toBytes 128 m.toNat

/-- A CONTEXT body (R455). -/
def contextBody (n : Nat) (x : Context) : List Byte :=
  toBytes 4 n ++ [0, 0, 0, 0] ++ toBytes 8 x.root.toNat ++ toBytes 8 x.trapBase.toNat ++ toBytes 8 x.part ++
    toBytes 8 ((if x.steal then 1 else 0) + (if x.valid then 2 else 0))

/-- The record address of a level, or 0. -/
def State.levelAddr (s : State) (i : Option Nat) : Nat := ((i.bind s.level?).map (fun x => x.recAddr.num)).getD 0

/-- A LEVEL body (R455). -/
def State.levelBody (s : State) (x : Level) : List Byte :=
  toBytes 4 x.kind ++ toBytes 4 x.ctx ++ toBytes 8 x.recAddr.num ++ toBytes 8 (s.levelAddr x.parent) ++ toBytes 8 x.target ++
    toBytes 8 x.counter ++ (if x.kind == 4 then toBytes 8 x.children else [])

/-- The ranges of a rising list of numbers: pairs of first and last. -/
def doneRanges : List Nat → List (Nat × Nat)
  | [] => []
  | n :: r =>
    match doneRanges r with
    | (a, b) :: t => if n + 1 == a then (n, b) :: t else (n, n) :: (a, b) :: t
    | [] => [(n, n)]

/-- A LAUNCH body (R459). -/
def State.launchBody (s : State) (i : Nat) (l : Launch) : List Byte :=
  let p := l.groups.1 * l.groups.2.1 * l.groups.2.2
  let d := doneRanges l.done
  toBytes 2 i ++ toBytes 2 l.ctx ++ toBytes 4 l.desc.launchId.toNat ++ toBytes 8 l.descAddr ++ toBytes 8 (s.levelAddr l.graph) ++
    toBytes 8 p ++ toBytes 8 l.desc.maxGroups ++ toBytes 8 l.counter ++ (upTo 256).flatMap (fun k => toBytes 8 (tget 0 l.stats k)) ++
    toBytes 4 d.length ++ [0, 0, 0, 0] ++ d.flatMap (fun x => toBytes 4 x.1 ++ toBytes 4 x.2)

/-- The HMSG records of a core: one for each launch with queued messages (R455). -/
def State.messageRecords (s : State) (core : Nat) : List CastRecord :=
  let q := (s.core core).inbound
  ((q.map (fun m => m.lslot)).eraseDups).map (fun l =>
    let mine := q.filter (fun m => m.lslot == l)
    recordOf 0x22 (toBytes 2 l ++ toBytes 2 core ++ toBytes 4 mine.length ++ mine.flatMap (fun m =>
      (upTo 32).flatMap (fun k => toBytes 4 (m.payload.getD k 0).toNat) ++ toBytes 4 m.src ++ toBytes 4 m.seq)))

/-- A bank word (R455): OPENING counts as OPEN. -/
def bankWord (b : Bank) : Nat :=
  match b.state with
  | .closed => 0
  | .opening r _ _ _ => 2 ^ 30 + r
  | .open_ r => 2 ^ 30 + r
  | .lost => 2 ^ 31

/-- A RISER record (R455). -/
def State.riserRecord (s : State) (core : Nat) : CastRecord :=
  recordOf 0x43 (toBytes 4 core ++ (s.core core).banks.flatMap (fun b => toBytes 4 (bankWord b)))

/-- The records of the saved groups, as their images hold them: the groups, and the handler crews (R455). -/
def State.savedRecords (s : State) : List CastRecord × List CastRecord :=
  let all := s.sched.launches.flatMap (fun l => l.2.saved.flatMap (fun g =>
    (readRecords (g.len / 16 + 1) (s.bytesAt (.mem g.image) g.len)).getD []))
  (all.filter (fun x => recordTag x != 0x36), all.filter (fun x => recordTag x == 0x36))

/-- One more than the highest number below 1024 with a property, or 0. -/
def topOf (p : Nat → Bool) : Nat := (upTo 1024).foldl (fun m i => if p i then i + 1 else m) 0

/-- A CASTHDR body (R456). -/
def State.headerBody (s : State) : List Byte :=
  let named := fun (c : Nat) => s.usedParts.any (fun p => p.2.cores.getLsbD c) || !(s.core c).inbound.isEmpty ||
    s.sched.launches.any (fun l => l.2.saved.any (fun g => g.core == c))
  toBytes 4 0x54534143 ++ toBytes 2 1 ++ [0, 0] ++ (Config.identity ++ List.replicate 16 0).take 16 ++ toBytes 16 s.capreg ++
    toBytes 4 (topOf named) ++ toBytes 4 (topOf (fun c => s.castVaults.contains c)) ++ toBytes 8 s.sched.qtbase.toNat ++
    toBytes 8 s.sched.quiesce.casts

/-- A level put in the order in which it was opened within its parent. -/
def insertLevel (x : Level) : List Level → List Level
  | [] => [x]
  | y :: r => if y.order ≤ x.order then y :: insertLevel x r else x :: y :: r

/-- The records of a cast before its signature, in the order of R455. -/
def State.castBody (s : State) (excluded : List (Nat × Nat)) : List CastRecord :=
  let saved := s.savedRecords
  let touched := s.touchedBlocks
  [recordOf 0x01 s.headerBody, recordOf 0x02 Config.certificate] ++
    s.usedParts.map (fun p => recordOf 0x10 (toBytes 4 p.1 ++ maskBytes p.2.cores ++ maskBytes p.2.vaults)) ++
    s.validContexts.map (fun x => recordOf 0x11 (contextBody x.1 x.2)) ++
    ((s.sched.levels.map (fun x => x.2)).foldl (fun l x => insertLevel x l) []).map (fun x => recordOf 0x20 (s.levelBody x)) ++
    s.sched.launches.map (fun l => recordOf 0x21 (s.launchBody l.1 l.2)) ++
    s.coreList.flatMap s.messageRecords ++ saved.1 ++ saved.2 ++
    (s.castRanges excluded).flatMap (fun x => s.rangeRecords x.1 x.2 touched) ++ s.castVaults.map s.riserRecord

/-- The cast (R454, R461): its records and the signature over every byte before it. -/
def State.castRecords (s : State) (excluded : List (Nat × Nat)) : List CastRecord :=
  let body := s.castBody excluded
  body ++ [recordOf 0xFF (Config.sign (Config.digest (recordsBytes body)))]

/-! ### Checks -/

/-- The parts of a cast, in the order of R455. -/
structure CastParts where
  header : List Byte
  cert : List Byte
  parts : List (List Byte)
  contexts : List (List Byte)
  levels : List (List Byte)
  launches : List (List Byte)
  messages : List (List Byte)
  groups : List (List CastRecord)
  handlers : List (List Byte)
  memory : List CastRecord
  risers : List (List Byte)
  sig : List Byte
  deriving DecidableEq, Repr

/-- A record belongs to a group's image after its GROUP record. -/
def inGroup (x : CastRecord) : Bool := decide (0x31 ≤ recordTag x) && decide (recordTag x ≤ 0x35)

/-- The group images at the front of a list, and the rest. -/
def takeGroups : Nat → List CastRecord → List (List CastRecord) × List CastRecord
  | 0, l => ([], l)
  | _, [] => ([], [])
  | fuel + 1, x :: r =>
    if recordTag x == 0x30 then
      let q := takeGroups fuel (r.dropWhile inGroup)
      ((x :: r.takeWhile inGroup) :: q.1, q.2)
    else ([], x :: r)

/-- A cast's records by kind; none when their order is not that of R455 (R462). -/
def castParts (l : List CastRecord) : Option CastParts :=
  let a := takeTag 0x01 l
  let b := takeTag 0x02 a.2
  let p := takeTag 0x10 b.2
  let c := takeTag 0x11 p.2
  let v := takeTag 0x20 c.2
  let n := takeTag 0x21 v.2
  let m := takeTag 0x22 n.2
  let g := takeGroups (m.2.length + 1) m.2
  let h := takeTag 0x36 g.2
  let isMem := fun (x : CastRecord) => decide (0x40 ≤ recordTag x) && decide (recordTag x ≤ 0x42)
  let y := (h.2.takeWhile isMem, h.2.dropWhile isMem)
  let r := takeTag 0x43 y.2
  let z := takeTag 0xFF r.2
  match a.1, b.1, z.1, z.2 with
  | [hd], [cert], [sig], [] =>
    some { header := hd, cert := cert, parts := p.1, contexts := c.1, levels := v.1, launches := n.1, messages := m.1
           groups := g.1, handlers := h.1, memory := y.1, risers := r.1, sig := sig }
  | _, _, _, _ => none

/-- The partition that a PART body names lies within the device's (R462). -/
def State.partOk (s : State) (b : List Byte) : Bool :=
  match tfind s.sched.parts (field b 0 4) with
  | some p => BitVec.ofNat 1024 (field b 4 128) &&& ~~~p.cores == 0 && BitVec.ofNat 1024 (field b 132 128) &&& ~~~p.vaults == 0
  | none => false

/-- A memory record's blocks lie in a region or a vault aperture (R462). -/
def State.memoryOk (s : State) (b : List Byte) : Bool :=
  let lo := field b 0 8
  let hi := lo + 64 * field b 8 4
  let works := (upTo 1024).filter s.coreWorks
  lo % 64 == 0 && (s.memoryRanges works).any (fun x => decide (x.1 ≤ lo) && decide (hi ≤ x.2))

/-- A cast passes the checks of R462. -/
def State.castOk (s : State) (l : List CastRecord) (p : CastParts) : Bool :=
  let works := ((upTo 1024).filter s.coreWorks).length
  field p.header 0 4 == 0x54534143 && field p.header 4 2 == 1 &&
    (upTo 128).all (fun i => !bit (field p.header 0x18 16) i || bit s.capreg i) &&
    decide (field p.header 0x28 4 ≤ works) && decide (field p.header 0x2C 4 ≤ works) && p.parts.all s.partOk &&
    p.memory.all (fun x => s.memoryOk x.body) && l.all recordOk && p.groups.all (fun g => (readImage g).isSome) &&
    Config.chainVerifies p.cert (Config.digest (recordsBytes l.dropLast)) p.sig

/-- The device takes a cast (R462): it is halted, or no context is VALID and no quiesce runs. -/
def State.castWelcome (s : State) : Bool :=
  s.sched.quiesce.stage == .halted || (s.sched.quiesce.stage == .none && s.validContexts.isEmpty)

/-! ### Restoring -/

/-- Memory with a record loaded (R463). -/
def State.loadMemory (s : State) (x : CastRecord) : State :=
  let b := x.body
  let first := field b 0 8 / 64
  let n := field b 8 4
  if recordTag x == 0x40 then
    (upTo n).foldl (fun (st : State) k =>
      let e := (b.drop (16 + 68 * k)).take 68
      { st with mem := { st.mem with
          cells := cellsWrite st.mem.cells (64 * (first + k)) (e.take 64)
          descs := descPut st.mem.descs (first + k) (field e 64 2, field e 66 2)
          poisoned := st.mem.poisoned.filter (fun q => q != first + k) } }) s
  else
    let out := fun (q : Nat) => !(decide (first ≤ q) && decide (q < first + n))
    let m := s.mem
    { s with mem := { m with
        cells := if recordTag x == 0x41 then m.cells.filter (fun c => out (c.1 / 64)) else m.cells
        descs := if recordTag x == 0x41 then m.descs.filter (fun d => out d.1) else m.descs
        poisoned := if recordTag x == 0x41 then m.poisoned.filter out else (upTo n).foldl (fun l k => insertUp l (first + k)) m.poisoned } }

/-- The context of a CONTEXT body. -/
def castContext (b : List Byte) : Nat × Context :=
  (field b 0 4, { root := longAt b 8, trapBase := longAt b 16, part := field b 24 8, steal := bit (field b 32 8) 0, valid := bit (field b 32 8) 1 })

/-- A level of a LEVEL body; its parent follows once every level is known. -/
def castLevel (b : List Byte) : Level :=
  { kind := field b 0 4, ctx := field b 4 4, recAddr := .virt (field b 4 4) (field b 8 8), parent := none, order := 0
    target := field b 24 8, counter := field b 32 8, children := field b 32 8, status := none }

/-- The number of the level of a context whose record lies at an address. -/
def castIndex (l : List (Nat × Level)) (ctx a : Nat) : Option Nat :=
  if a == 0 then none else (l.find? (fun x => x.2.ctx == ctx && x.2.recAddr.num == a)).map (fun x => x.1)

/-- The levels of a cast with their parents (R463), in the order in which they stand; the children of each count those done and
those open. -/
def castLevels (bs : List (List Byte)) (launches : List (List Byte)) : List (Nat × Level) :=
  let l0 := (upTo bs.length).map (fun i => (i, castLevel (bs.getD i [])))
  let l1 := (upTo bs.length).map (fun i => let b := bs.getD i []
    (i, { castLevel b with parent := castIndex l0 (field b 4 4) (field b 16 8) }))
  l1.map (fun x =>
    let kids := (l1.filter (fun y => y.2.parent == some x.1)).length +
      (launches.filter (fun b => castIndex l0 (field b 2 2) (field b 16 8) == some x.1)).length
    let before := match x.2.parent with
      | some j => (l1.filter (fun y => y.2.parent == some j && decide (y.1 < x.1))).length + ((tfind l1 j).map (fun y => y.counter)).getD 0
      | none => 0
    (x.1, { x.2 with order := before, children := x.2.counter + kids }))

/-- The launch of a LAUNCH body (R459): its descriptor and image are read again; PRIO, which the cast does not hold, is 0. -/
def State.castLaunch (s : State) (levels : List (Nat × Level)) (b : List Byte) : Nat × Launch :=
  let ctx := field b 2 2
  let d := (s.readDesc (.virt ctx (field b 8 8))).getD []
  let x := descriptorOf d
  let h := headerOf ((s.readHeader ctx x).getD [])
  let n := field b 2096 4
  let p := field b 24 8
  let done := (upTo n).flatMap (fun k =>
    let lo := field b (2104 + 8 * k) 4
    (upTo (field b (2108 + 8 * k) 4 + 1 - lo)).map (fun j => lo + j))
  let e := launchEntry ctx (field b 8 8) 0 (castIndex levels ctx (field b 16 8)) x h
  let l := if !x.indirect then e.fix x.nx x.ny x.nz else if p != 0 then { e.fix p 1 1 with ready := true } else e
  (field b 0 2, { l with
    counter := field b 40 8, done := done, bound := done
    stats := (upTo 256).foldl (fun m k => if field b (48 + 8 * k) 8 == 0 then m else tset m k (field b (48 + 8 * k) 8)) [] })

/-- The inbound entries of an HMSG body; the body holds no handler index, and handler 0 takes them. -/
def castMessages (b : List Byte) : List Message :=
  (upTo (field b 4 4)).map (fun k =>
    let e := b.drop (8 + 136 * k)
    { lslot := field b 0 2, src := field e 128 4, handler := 0, seq := field e 132 4
      payload := (upTo 32).map (fun j => wordAt e (4 * j)), sig := .invalidateAll })

/-- The banks of a RISER body opened with RACT timing, or LOST (R463). -/
def State.loadRiser (s : State) (b : List Byte) : State :=
  let core := field b 0 4
  (upTo 32).foldl (fun (st : State) k =>
    let w := field b (4 + 4 * k) 4
    if bits w 31 30 == 1 then st.activate core k (bits w 12 0)
    else st.modCore core (fun x => { x with banks := modifyAt x.banks k (fun y => { y with state := if bits w 31 30 == 2 then .lost else .closed }) })) s

/-- The record under which a group of a cast would start again where it was saved: what its image names of it. -/
def bindOfImage (b : List Byte) : BindRecord :=
  { lslot := BitVec.ofNat 16 (field b 0 2), group := BitVec.ofNat 32 (field b 4 4), core := BitVec.ofNat 16 (field b 8 2), scrbase := 0
    crews := 0, hslots := 0, tiles := 0, barbase := 0, xsub := 0, mbz := 0 }

/-- A group of a cast put into Plinth's save area and marked saved (R463). The handler crews of its core follow the last group
of the core. -/
def State.loadSaved (s : State) (g : List CastRecord) (handlers : List (List Byte)) : State :=
  let b := ((g.head?).map (fun x => x.body)).getD []
  let bytes := recordsBytes (g ++ handlers.map (recordOf 0x36))
  let at_ := Config.saveArea + s.sched.quiesce.saveAt
  let s1 := s.putBytes (.mem at_) bytes
  let x : SavedGroup :=
    { g := field b 4 4, image := at_, len := bytes.length, core := field b 8 2, gslot := field b 0xA 1, bind := bindOfImage b, inPlace := false }
  let s2 := s1.modLaunch (field b 0 2) (fun l =>
    { l with saved := l.saved ++ [x], bound := insertUp l.bound x.g
             lostOnce := if field b 0xC 1 == 0 then l.lostOnce else l.lostOnce ++ [(x.g, field b 0xC 1)] })
  { s2 with sched := { s2.sched with quiesce := { s2.sched.quiesce with saveAt := s2.sched.quiesce.saveAt + bytes.length } } }

/-- The groups of a cast marked saved, in order (R463). -/
def State.loadGroups (s : State) (handlers : List (List Byte)) : List (List CastRecord) → State
  | [] => s
  | g :: r =>
    let core := fun (x : List CastRecord) => ((x.head?).map (fun y => field y.body 8 2)).getD 0
    let last := !r.any (fun x => core x == core g)
    (s.loadSaved g (if last then handlers.filter (fun h => field h 2 2 == core g) else [])).loadGroups handlers r

/-- Every queue that the queue table now holds commands for is registered: the queue engines start (R463). -/
def State.startQueues (s : State) : State :=
  ((upTo (64 * s.engineCount)).filter (fun q => ((s.queueDesc q).map QueueDesc.live).getD false)).foldl State.register s

/-- A verified cast applied (R463): memory, QTBASE, contexts, levels, launches, banks, messages and saved groups; homes start
empty; then the queue engines start. No core keeps a cached line or a translation of what the cast replaces (log 52). -/
def State.applyCast (s : State) (p : CastParts) : State :=
  let s0 := p.memory.foldl State.loadMemory s
  let s1 : State :=
    { s0 with
      cores := s0.cores.map (fun k => (k.1, { k.2.forget with tlb := [] }))
      net := { s0.net with homes := [], tlbs := [] }
      sched := { s0.sched with
        qtbase := longAt p.header 0x30
        contexts := (p.contexts.map castContext).foldl (fun t x => tset t x.1 x.2) []
        levels := castLevels p.levels p.launches, launches := [], queues := [], kept := []
        quiesce := { s0.sched.quiesce with stage := .none, saveAt := 0 } } }
  let s2 : State := { s1 with sched := { s1.sched with
    launches := (p.launches.map (s1.castLaunch s1.sched.levels)).foldl (fun t x => tset t x.1 x.2) [] } }
  let s3 := p.messages.foldl (fun (st : State) b =>
    st.modCore (field b 2 2) (fun k => { k with inbound := k.inbound ++ castMessages b })) s2
  let s4 := p.risers.foldl State.loadRiser s3
  (s4.loadGroups p.handlers p.groups).startQueues

/-- RESTORE_CAST (R462, R463): a cast that fails a check changes nothing and is refused. -/
def execRestoreCast (records : List CastRecord) (s : State) : Host.Outcome State Fault Refusal :=
  let answer := fun (st : State) (ok : Bool) => { st with hostOut := st.hostOut ++ [{ party := .armature, data := [], ok := ok }] }
  if !s.castWelcome then .next (answer s false)
  else
    match castParts records with
    | none => .next (answer s false)
    | some p =>
      if !s.castOk records p then .next (answer s false)
      else
        let held := s.sched.quiesce.held
        let t := s.applyCast p
        .next (answer { t with
          inputs := held.map (fun i => ⟨t.cycle, ⟨i, ⟨0, 0, 0⟩⟩⟩) ++ t.inputs
          sched := { t.sched with quiesce := { t.sched.quiesce with held := [] } } } true)

end Sys2Proof.Machine
end

