-- ==== Sys2Proof/Machine/Quiesce.lean ====
section
/-! DEFINITION. The quiesce: its start, what it holds, its stages and its end; the fence of a unit (R440, R441, R452, R453,
R509). -/

namespace Sys2Proof.Machine

/-- An answer to an outside party. -/
def State.reply (s : State) (who : Party) (data : List Byte) (ok : Bool) : State :=
  { s with hostOut := s.hostOut ++ [{ party := who, data := data, ok := ok }] }

/-- An act held until the quiesce ends (R452, R509). -/
def State.holdAct (s : State) (i : Instr) : State :=
  { s with sched := { s.sched with quiesce := { s.sched.quiesce with held := s.sched.quiesce.held ++ [i] } } }

/-- A quiesce runs, or the device is halted. -/
def State.quiescing (s : State) : Bool := s.sched.quiesce.stage != .none

/-- The dies on which a quiesce has groups or handler crews to save. -/
def State.busyDies (s : State) : List Nat :=
  (upTo 8).filter (fun d => s.coreList.any (fun c => s.dieOf c == d &&
    ((upTo 32).any (fun g => (s.group c g).isSome) || !(s.core c).handlers.isEmpty)))

/-- The pre-emption that Plinth asks of a die during a quiesce (R442, R452). -/
def quiesceJob : PreemptJob :=
  { req := { lslot := 0, mode := 2, group := 0, core := 0, saveaddr := 0, savelen := 0, mbz := 0 }
    origin := .quiesce, victims := [], handlers := [] }

/-- Steps 1 to 3 of a quiesce (R452): records not started return, the cut, every started group and handler crew pre-empted. -/
def State.beginQuiesce (s : State) (req : QuiesceRequest) : State :=
  let s1 := s.coreList.foldl State.unbindCore s
  let s2 : State := { s1 with sched := { s1.sched with quiesce := { s1.sched.quiesce with stage := .draining, request := some req } } }
  s2.busyDies.foldl (fun (st : State) d => st.askJob d quiesceJob) s2

/-- QUIESCE (R452, R509): a second one while one runs is refused, and so are more than 8 excluded ranges. -/
def execQuiesce (req : QuiesceRequest) (s : State) : Host.Outcome State Fault Refusal :=
  if s.quiescing || 8 < req.excluded.length then .next (s.reply .armature [] false) else .next (s.beginQuiesce req)

/-- No pre-emption runs or waits. -/
def State.groupsSaved (s : State) : Bool := s.sched.dies.all (fun d => d.2.preempt.isNone && d.2.waiting.isEmpty)

/-- No transaction, clear, redo notice or update is in flight, and every home's undo record is empty (R452). -/
def State.netQuiet (s : State) : Bool :=
  s.net.txs.isEmpty && s.net.packets.isEmpty && s.net.clears.isEmpty && s.net.redos.isEmpty && s.net.updates.isEmpty &&
    s.net.homes.all (fun h => h.2.responses.isEmpty)

/-- The dirty lines of the slices, as slice and line. -/
def State.dirtyLines (s : State) : List (Nat × Nat) :=
  s.net.homes.flatMap (fun h => match h.1 with
    | .slice n => (h.2.lines.filter (fun x => x.dirty)).map (fun x => (n, x.line))
    | _ => [])

/-- Every dirty L2 line goes back to its stack (R452). -/
def State.writeBack (s : State) : State := s.dirtyLines.foldl (fun (st : State) x => st.l2WriteBack x.1 x.2 false) s

/-- A slice removed from the list S (R441): every line's home follows from the new list, so that no slice holds a line or a
signature entry. -/
def State.removeSlice (s : State) (n : Nat) : State :=
  { s with
    net := { s.net with homes := s.net.homes.map (fun h => match h.1 with
      | .slice k => (.slice k, { h.2 with lines := [], sigs := [] })
      | _ => h) }
    pkg := { s.pkg with regs := { s.pkg.regs with sliceMask := s.pkg.regs.sliceMask &&& ~~~(1#256 <<< n) } } }

/-- The cast emitted to the sink of the request (R452). -/
def State.emitCast (s : State) (req : QuiesceRequest) : State :=
  let c := s.castRecords req.excluded
  let s1 := s.reply .armature (recordsBytes c) true
  { s1 with sched := { s1.sched with quiesce := { s1.sched.quiesce with cast := c, casts := s1.sched.quiesce.casts + 1 } } }

/-- The groups that the quiesce saved put back into their cores' slot tables, to be restored in place (R452). -/
def State.restoreInPlace (s : State) : State :=
  let all := s.sched.launches.flatMap (fun l => (l.2.saved.filter (fun g => g.inPlace)))
  let s1 := all.foldl (fun (st : State) g => st.placeRecord g.bind (some (g.image, g.len)) false) s
  { s1 with sched := { s1.sched with launches := s1.sched.launches.map (fun l =>
      (l.1, { l.2 with saved := l.2.saved.map (fun g => { g with inPlace := false }) })) } }

/-- The quiesce ends: the device resumes and takes the held acts, or is halted (R452). -/
def State.endQuiesce (s : State) (req : QuiesceRequest) : State :=
  let s2 := match req.dropSlice with
    | some n => s.removeSlice n
    | none => s
  let s3 := if req.emitCast then s2.emitCast req else s2.reply .armature [] true
  if req.resume then
    let s4 := s3.restoreInPlace
    { s4 with
      inputs := s4.sched.quiesce.held.map (fun i => ⟨s4.cycle, ⟨i, ⟨0, 0, 0⟩⟩⟩) ++ s4.inputs
      sched := { s4.sched with quiesce := { s4.sched.quiesce with stage := .none, request := none, held := [] } } }
  else { s3 with sched := { s3.sched with quiesce := { s3.sched.quiesce with stage := .halted, request := none } } }

/-- The stages of a quiesce as cycles pass (R452): once the network is empty, the dirty lines go back, and when the controllers
have cleared them it ends. -/
def State.quiesceTick (s : State) : State :=
  match s.sched.quiesce.stage, s.sched.quiesce.request with
  | .draining, some _ =>
    if s.groupsSaved then { s with sched := { s.sched with quiesce := { s.sched.quiesce with stage := .network } } } else s
  | .network, some req => if !s.netQuiet then s else if s.dirtyLines.isEmpty then s.endQuiesce req else s.writeBack
  | _, _ => s

/-! ### Fences of units -/

/-- FENCE_UNIT (R440, R441, R509): a core by its physical number, or a slice through a quiesce without a cast; during a quiesce
it waits. -/
def execFenceUnit (kind : FenceKind) (n : Nat) (reason : FenceReason) (s : State) : Host.Outcome State Fault Refusal :=
  if s.quiescing then .next (s.holdAct (.fenceUnit kind n reason))
  else
    match kind with
    | .core =>
      match s.logicalCore n with
      | some c => .next (s.fenceCore c reason)
      | none => .next s
    | .slice =>
      if s.pkg.regs.sliceMask.getLsbD n then
        .next ((s.logFence 1 n reason).beginQuiesce { excluded := [], emitCast := false, resume := true, dropSlice := some n })
      else .next s

/-- An address lies outside the excluded ranges of the quiesce that runs (R452). -/
def State.cutOff (s : State) (addr size : Nat) : Bool :=
  match s.sched.quiesce.stage, s.sched.quiesce.request with
  | .none, _ => false
  | .halted, _ => true
  | _, some r => !r.excluded.any (fun x => decide (x.1 ≤ addr) && decide (addr + size ≤ x.2))
  | _, none => true

end Sys2Proof.Machine
end

