-- ==== Sys2Proof/Machine/Package.lean ====
section
/-! DEFINITION. The device registers and their locks, the region table's checks, the capability list, and the bring-up of the
device (R415, R416, R436, R481 to R491, R496, R499, R503, R507, R508, R510). -/

namespace Sys2Proof.Machine

/-! ### LOCK -/

/-- The state with the device registers changed. -/
def State.modRegs (s : State) (f : Regs → Regs) : State := { s with pkg := { s.pkg with regs := f s.pkg.regs } }

/-- Bits of LOCK set. -/
def State.setLock (s : State) (bits : BitVec 64) : State := s.modRegs (fun r => { r with lock := r.lock ||| bits })

/-- A write that is dropped sets ACCERR (R481, R482). -/
def State.accErr (s : State) : State := s.setLock (1 <<< 63)

/-- A lock bit of LOCK (R482). -/
def State.locked (s : State) (i : Nat) : Bool := s.pkg.regs.lock.getLsbD i

/-- A half-open range of numbers that meets none of a list. -/
def apart (x : Nat × Nat) (l : List (Nat × Nat)) : Bool := l.all (fun y => !rangesMeet x y)

/-- The range that an entry takes on each of its sockets (R484). -/
def RegionEntry.localRange (g : RegionEntry) : Nat × Nat :=
  let n := 2 ^ g.strideLog * g.sockets.length
  (g.localBase, g.localBase + (g.limit - g.base + n - 1) / n * 2 ^ g.strideLog)

/-- An entry's own checks (R484). -/
def State.entryOk (s : State) (g : RegionEntry) : Bool :=
  decide (g.base < g.limit) && decide (g.limit ≤ Config.bulkEnd) && decide (12 ≤ g.strideLog) && decide (g.strideLog ≤ 30) &&
    (g.limit - g.base) % (2 ^ g.strideLog * 2 ^ (4 * g.hm)) == 0 && decide (1 ≤ g.sockets.length) && decide (g.sockets.length ≤ 8) &&
    g.sockets.eraseDups.length == g.sockets.length &&
    g.sockets.all (fun k => decide (8 ≤ k) && decide (k < 16) && s.pkg.regs.bulkMask.getLsbD (k - 8)) &&
    decide (g.localRange.2 ≤ 48 * 2 ^ 30)

/-- Two entries share no address, and no place on a socket (R484). -/
def entriesApart (g h : RegionEntry) : Bool :=
  !rangesMeet (g.base, g.limit) (h.base, h.limit) &&
    !(g.sockets.any (fun k => h.sockets.contains k) && rangesMeet g.localRange h.localRange)

/-- Every valid entry of the region table passes R484. -/
def State.regionsOk (s : State) : Bool :=
  let l := s.pkg.regs.regions.filterMap regionEntry
  l.all s.entryOk && l.Pairwise (fun g h => entriesApart g h = true)

/-- A lock bit requested by a party (R482). -/
def State.lockBit (s : State) (who : Party) (i : Nat) : State := if who == .plinth then s.setLock (1 <<< i) else s.accErr

/-- REGION requested (R482): it fails with LOCKERR unless the table passes its checks. -/
def State.lockRegions (s : State) (who : Party) : State :=
  if who != .plinth then s.accErr
  else if s.locked 0 || s.regionsOk then s.setLock 1
  else s.setLock (1 <<< 62)

/-- LOCK_REGION (R482, R484). -/
def execLockRegion (who : Party) (s : State) : Host.Outcome State Fault Refusal := .next (s.lockRegions who)

/-- LOCK_PART (R482). -/
def execLockPart (who : Party) (s : State) : Host.Outcome State Fault Refusal := .next (s.lockBit who 1)

/-- LOCK_LMAP (R482). -/
def execLockLmap (who : Party) (s : State) : Host.Outcome State Fault Refusal := .next (s.lockBit who 2)

/-- LOCK_SENSORS (R482). -/
def execLockSensors (who : Party) (s : State) : Host.Outcome State Fault Refusal := .next (s.lockBit who 3)

/-- LOCK_CLOCK (R482). -/
def execLockClock (who : Party) (s : State) : Host.Outcome State Fault Refusal := .next (s.lockBit who 4)

/-- LOCK_PHOAC (R482). -/
def execLockPhoac (who : Party) (s : State) : Host.Outcome State Fault Refusal := .next (s.lockBit who 5)

/-- ACCERR and LOCKERR cleared where a one is written (R482). -/
def State.clearErrors (s : State) (value : BitVec 64) : State :=
  s.modRegs (fun r => { r with lock := r.lock &&& ~~~(value &&& (3#64 <<< 62)) })

/-- LOCK_ERROR_CLEAR (R482). -/
def execLockErrorClear (value : BitVec 64) (s : State) : Host.Outcome State Fault Refusal := .next (s.clearErrors value)

/-! ### Writes of registers -/

/-- A word of a long register set. -/
def setWord (w n : Nat) (x : BitVec w) (v : BitVec 64) : BitVec w :=
  BitVec.ofNat w (x.toNat - bits x.toNat (64 * n + 63) (64 * n) * 2 ^ (64 * n) + v.toNat * 2 ^ (64 * n))

/-- The bits of a region-table entry that can be written (R483). -/
def regionBits : BitVec 256 :=
  BitVec.ofNat 256 ((2 ^ 36 - 1) * 2 ^ 192 + (2 ^ 32 - 1) * 2 ^ 160 + (2 ^ 11 - 1) * 2 ^ 149 + (2 ^ 36 - 1) * 2 ^ 76 + (2 ^ 36 - 1) * 2 ^ 12 + 1)

/-- The bits of ADMINQ (R416). -/
def adminqBits : BitVec 64 := 0xBFFF3FFF#64

/-- A write by a party with the right, or dropped (R481). -/
def State.ifRight (s : State) (right : Bool) (t : State) : State := if right then t else s.accErr

/-- A partition's masks with a word written. -/
def State.writePart (s : State) (off : Nat) (v : BitVec 64) : State :=
  let n := off / 256
  let p := (tfind s.sched.parts n).getD ⟨0, 0⟩
  let k := off % 128 / 8
  let q : Partition := if off % 256 < 128 then { p with cores := setWord 1024 k p.cores v } else { p with vaults := setWord 1024 k p.vaults v }
  { s with sched := { s.sched with parts := tset s.sched.parts n q } }

/-- The FAULTRESP register (R436, R438): its ACT chooses the answer. -/
def State.writeFaultresp (s : State) (v : BitVec 64) : State :=
  let token : Word := v.setWidth 32
  let run := fun (x : Host.Outcome State Fault Refusal) => match x with
    | .next t => t
    | _ => s
  match bits v.toNat 33 32 with
  | 0 => run (execFaultrespReplay token s)
  | 1 => run (execFaultrespDecline token s)
  | 2 => run (execFaultrespTerminate token s)
  | _ => s

/-- The fault queue's registers (R436). -/
def State.writeFq (s : State) (off : Nat) (v : BitVec 64) : State :=
  let mod := fun (f : FaultQueue → FaultQueue) => ({ s with sched := { s.sched with fq := f s.sched.fq } } : State)
  match off with
  | 0x00 => mod (fun q => { q with base := v &&& ~~~0xFF0#64 })
  | 0x08 => (mod (fun q => { q with head := v.setWidth 32 })).listParked s.slotCount
  | 0x18 => mod (fun q => { q with vec := v.setWidth 16 })
  | 0x20 => s.writeFaultresp v
  | _ => s.accErr

/-- A die's registers (R427, R429, R430, R481). BINDSTAT, PSTAT and PLEN are the device's to write. A new seed starts the
die's shift registers again. -/
def State.writeDie (s : State) (die off : Nat) (v : BitVec 64) : State :=
  match off with
  | 0x100 =>
    let s1 := s.modDie die (fun d => { d with seed := v.setWidth 16 })
    { s1 with cores := s1.cores.map (fun p => if s1.dieOf p.1 == die then (p.1, ({ p.2 with lfsr := 0 } : Core)) else p) }
  | 0x140 => s.modDie die (fun d => { d with logBase := v })
  | 0x148 => s.modDie die (fun d => { d with logSize := v })
  | 0x150 => if v == 0 then s.modDie die (fun d => { d with overrun := false }) else s
  | _ => s

/-- The records of bring-up written once the log is enabled (R503, R507, log 54). -/
def State.flushBoot (s : State) : State :=
  if bits s.pkg.log.base.toNat 3 0 == 0 then s
  else
    let s1 : State := { s with pkg := { s.pkg with boot := { s.pkg.boot with unlogged := [] } } }
    s.pkg.boot.unlogged.foldl (fun (st : State) x => st.logRecord x.1 0 x.2.1 0xFFFF x.2.2) s1

/-- The error log's registers (R503). -/
def State.writeLog (s : State) (off : Nat) (v : BitVec 64) : State :=
  let mod := fun (f : ErrorLog → ErrorLog) => ({ s with pkg := { s.pkg with log := f s.pkg.log } } : State)
  match off with
  | 0x00 => (mod (fun g => { g with base := v &&& ~~~0xFF0#64 })).flushBoot
  | 0x08 => mod (fun g => { g with head := v.setWidth 32 })
  | 0x18 => mod (fun g => { g with vec := v.setWidth 16 })
  | 0x20 => if v == 0 then mod (fun g => { g with lost := 0 }) else s
  | _ => s.accErr

/-- A performance selector written (R508). -/
def State.writePerf (s : State) (off : Nat) (v : BitVec 64) : State :=
  match s.logicalCore (off / 128) with
  | some c =>
    if off % 128 < 64 then s.accErr
    else s.modCore c (fun k => { k with perf := { k.perf with pmsel := modifyAt k.perf.pmsel (off % 64 / 8) (fun _ => v.setWidth 21) } })
  | none => s.accErr

/-- A cell counter's field written (R498). -/
def State.writeCounter (s : State) (cell fld : Nat) (value : Word) : State :=
  if value != 0 then s.accErr
  else
    let c := tget (List.replicate 8 0) s.pkg.cells cell
    { s with pkg := { s.pkg with cells := tset s.pkg.cells cell (modifyAt c fld (fun _ => 0)) } }

/-- A threshold register written (R499). -/
def State.writeThreshold (s : State) (kind index : Nat) (value : BitVec 64) : State :=
  let wexp := bits value.toNat 5 0
  if wexp < 20 || 40 < wexp then s.accErr
  else { s with pkg := { s.pkg with thresholds := tset s.pkg.thresholds (thresholdKey kind index) ⟨bits value.toNat 63 32, wexp⟩ } }

/-- The scrubber's period written (R502): SEXP from 36 to 44. -/
def State.writeScrub (s : State) (v : BitVec 64) : State :=
  let e := bits v.toNat 5 0
  if e < 36 || 44 < e then s.accErr else { s with pkg := { s.pkg with scrub := BitVec.ofNat 64 e } }

/-- The maps that Plinth writes, until they are locked (R481, R485). -/
def State.writeMaps (s : State) (who : Party) (off : Nat) (v : BitVec 64) : State :=
  let plinth := who == .plinth
  if off == 0x10 then s.ifRight (plinth && !s.locked 4) (s.modRegs (fun r => { r with pkgid := v &&& 0xF }))
  else if off == 0x30 then s.ifRight (plinth && !s.locked 1) (s.modRegs (fun r => { r with adminq := v &&& adminqBits }))
  else if 0x1000 ≤ off && off < 0x1800 then
    let n := (off - 0x1000) / 32
    s.ifRight (plinth && !s.locked 0) (s.modRegs (fun r =>
      { r with regions := modifyAt r.regions n (fun e => setWord 256 (off % 32 / 8) e v &&& regionBits) }))
  else if 0x1800 ≤ off && off < 0x1820 then
    s.ifRight (plinth && (!s.locked 0 || s.quiescing)) (s.modRegs (fun r => { r with sliceMask := setWord 256 (off % 32 / 8) r.sliceMask v }))
  else if 0x10000 ≤ off && off < 0x14000 then s.ifRight (plinth && !s.locked 1) (s.writePart (off - 0x10000) v)
  else if 0x20000 ≤ off && off < 0x21000 then
    let k := (off - 0x20000) / 4
    let lo : BitVec 32 := v.setWidth 32 &&& 0x800003FF
    let hi : BitVec 32 := (v >>> 32).setWidth 32 &&& 0x800003FF
    s.ifRight (plinth && !s.locked 2) (s.modRegs (fun r => { r with lmap := modifyAt (modifyAt r.lmap k (fun _ => lo)) (k + 1) (fun _ => hi) }))
  else if 0x50000 ≤ off && off < 0x60000 then
    let k := (off - 0x50000) / 8
    s.ifRight (plinth && !s.locked 4) (s.modRegs (fun r =>
      { r with phase := modifyAt (r.phase ++ List.replicate (k + 1 - r.phase.length) 0) k (fun _ => v) }))
  else if 0x80000 ≤ off && off < 0x80080 then
    s.ifRight (plinth && !s.locked 5) (s.modRegs (fun r => { r with phoac := modifyAt r.phoac ((off - 0x80000) / 8) (fun _ => v &&& 0xFFF) }))
  else s.accErr

/-- A party is an application core. -/
def partyIsApp (p : Party) : Bool := match p with
  | .app _ => true
  | _ => false

/-- LOCK written whole (R482): Plinth's requests, and the errors' clears by any party that reaches the aperture. -/
def State.writeLock (s : State) (who : Party) (v : BitVec 64) : State :=
  let s1 := s.clearErrors v
  let s2 := if v.getLsbD 0 then s1.lockRegions who else s1
  ([1, 2, 3, 4, 5].filter (fun i => v.getLsbD i)).foldl (fun (st : State) i => st.lockBit who i) s2

/-- A write of 8 bytes at an offset of the register aperture (R481), or of the 4 bytes of a counter's field (R498). Where a rule names no writer, every party that reaches the
aperture has the right (DEDUCED, log 60). -/
def State.writeRegister (s : State) (who : Party) (off : Nat) (v : BitVec 64) (wide : Bool := true) : State :=
  let app := partyIsApp who
  let arm := who == .armature || who == .plinth
  if who == .other then s.accErr
  else if off == 0x20 then s.writeLock who v
  else if off == 0x30000 then s.ifRight app { s with sched := { s.sched with qtbase := v &&& ~~~0xFFFFF#64 } }
  else if 0x30100 ≤ off && off < 0x30130 then s.ifRight app (s.writeFq (off - 0x30100) v)
  else if 0x40000 ≤ off && off < 0x48000 then
    let die := (off - 0x40000) / 0x1000
    s.ifRight (who == .armature || who == .tempo die) (s.writeDie die (off % 0x1000) v)
  else if off == 0x60000 then s.ifRight (who == .armature) { s with pkg := { s.pkg with power := { s.pkg.power with cap := v &&& 0x1FFFF } } }
  else if off == 0x60010 then s.ifRight (who == .plinth) { s with pkg := { s.pkg with power := { s.pkg.power with tlimit := v } } }
  else if 0x70000 ≤ off && off < 0x70800 then
    s.ifRight app (s.modRegs (fun r => { r with pcie := modifyAt r.pcie ((off - 0x70000) / 32) (fun e => setWord 256 (off % 32 / 8) e v) }))
  else if 0x200000 ≤ off && off < 0x220000 then
    let cell := (off - 0x200000) / 32
    let s1 := s.writeCounter cell (off % 32 / 4) (v.setWidth 32)
    if wide then s1.writeCounter cell (off % 32 / 4 + 1) ((v >>> 32).setWidth 32) else s1
  else if 0x220000 ≤ off && off < 0x220140 then s.ifRight arm (s.writeThreshold ((off - 0x220000) / 64) (off % 64 / 8) v)
  else if 0x230000 ≤ off && off < 0x230028 then s.ifRight (who == .armature || off != 0x230000) (s.writeLog (off - 0x230000) v)
  else if off == 0x250000 then s.writeScrub v
  else if 0x280000 ≤ off && off < 0x2A0000 then s.writePerf (off - 0x280000) v
  else s.writeMaps who off v

/-- REGISTER_WRITE (R481). -/
def execRegisterWrite (who : Party) (off : Nat) (value : BitVec 64) (s : State) : Host.Outcome State Fault Refusal :=
  .next (s.writeRegister who off value)

/-- COUNTER_WRITE (R498). -/
def execCounterWrite (cell field : Nat) (value : Word) (s : State) : Host.Outcome State Fault Refusal :=
  .next (s.writeCounter cell field value)

/-- THRESHOLD_WRITE (R499). -/
def execThresholdWrite (kind index : Nat) (value : BitVec 64) (s : State) : Host.Outcome State Fault Refusal :=
  .next (s.writeThreshold kind index value)

/-- ELLOST_CLEAR (R503): a write of zero clears the count. -/
def execEllostClear (value : Word) (s : State) : Host.Outcome State Fault Refusal :=
  if value == 0 then .next { s with pkg := { s.pkg with log := { s.pkg.log with lost := 0 } } } else .next s

/-! ### Reads of registers -/

/-- The capability structures (R491) as identifier and body, in order. The widths that R491 leaves open are the model's (log 56). -/
def State.capabilities (s : State) : List (Nat × List Byte) :=
  let works := ((upTo 1024).filter s.coreWorks).length
  let r := s.pkg.regs
  let b := s.pkg.boot
  let towers := ((upTo 8).filter (fun t => !b.towersOff.contains t)).foldl (fun m t => m + 2 ^ t) 0
  [(1, toBytes 4 works ++ toBytes 4 works ++ toBytes 4 s.slices.length ++ toBytes 4 r.bulkMask.toNat ++ toBytes 4 towers ++ toBytes 4 s.engineCount),
   (2, (upTo 8).flatMap (fun k => toBytes 8 (if r.bulkMask.getLsbD k then 48 * 2 ^ 30 else 0))),
   (3, toBytes 4 b.phoacPorts.toNat ++ (upTo 12).flatMap (fun k => toBytes 1 (if !b.phoacPorts.getLsbD k then 0 else if (s.port (80 + k)).half then 4 else 8))),
   (4, (upTo 4).flatMap (fun k => toBytes 4 (if b.pciePorts.getLsbD k then 16 + 64 * 2 ^ 16 else 0))),
   (5, toBytes 4 100 ++ toBytes 4 2400 ++ toBytes 8 s.pkg.power.tlimit.toNat), (6, toBytes 8 0x200000)]

/-- The capability list as bytes from an aperture offset on (R491). -/
def capabilityBytes : Nat → List (Nat × List Byte) → List Byte
  | _, [] => []
  | at_, (id, body) :: r =>
    let next := at_ + 8 + body.length
    toBytes 2 id ++ [1, 0] ++ toBytes 4 (if r.isEmpty then 0 else next) ++ body ++ capabilityBytes next r

/-- A die's registers as they read (R481). -/
def DieState.read (d : DieState) (off : Nat) : Nat :=
  match off with
  | 0x040 => d.bindStat
  | 0x0C0 => d.pstat
  | 0x0C8 => d.plen
  | 0x100 => d.seed.toNat
  | 0x140 => d.logBase.toNat
  | 0x148 => d.logSize.toNat
  | 0x150 => if d.overrun then 1 else 0
  | _ => 0

/-- The sensor, counter and error-log block, and the performance counters, as they read (R498 to R508); the place of IFTSTAT is the
model's (log 56). -/
def State.readSensors (s : State) (off : Nat) : Nat :=
  if off < 0x220000 then
    let c := tget (List.replicate 8 0) s.pkg.cells ((off - 0x200000) / 32)
    c.getD (off % 32 / 4) 0 + 2 ^ 32 * c.getD (off % 32 / 4 + 1) 0
  else if off < 0x220140 then
    let t := tget ⟨0, 32⟩ s.pkg.thresholds (thresholdKey ((off - 0x220000) / 64) (off % 64 / 8))
    t.limit * 2 ^ 32 + t.wexp
  else if off == 0x230000 then s.pkg.log.base.toNat
  else if off == 0x230008 then s.pkg.log.head.toNat
  else if off == 0x230010 then s.pkg.log.tail.toNat
  else if off == 0x230018 then s.pkg.log.vec.toNat
  else if off == 0x230020 then s.pkg.log.lost.toNat
  else if 0x240000 ≤ off && off < 0x240800 && off % 0x100 == 8 then
    ((s.pkg.tests.find? (fun t => t.die == (off - 0x240000) / 0x100)).map (fun t => t.stat)).getD 0
  else if off == 0x250000 then s.pkg.scrub.toNat
  else if 0x280000 ≤ off && off < 0x2A0000 then
    match s.logicalCore ((off - 0x280000) / 128) with
    | some c =>
      if off % 128 < 64 then ((s.core c).perf.pmc.getD (off % 64 / 8) 0).toNat else ((s.core c).perf.pmsel.getD (off % 64 / 8) 0).toNat
    | none => 0
  else if 0x2A0000 ≤ off && off < 0x2A4000 then
    let n := (off - 0x2A0000) / 64
    let x := s.net.router n
    (match off % 64 / 8 with
     | 5 => x.stalls
     | 6 => tget 0 s.pkg.routerDrops n
     | 7 => x.circuit
     | k => x.forwarded.getD k 0) % 2 ^ 64
  else 0

/-- The 8 bytes at an aligned offset of the register aperture; an offset that R481 does not list reads as zero. PWRSTAT gives the
duty of die 0 (log 56). -/
def State.readRegister (s : State) (off : Nat) : Nat :=
  let r := s.pkg.regs
  if off < 0x10 then bits s.capreg (8 * off + 63) (8 * off)
  else if off == 0x10 then r.pkgid.toNat
  else if off == 0x20 then r.lock.toNat
  else if off == 0x30 then r.adminq.toNat
  else if 0x1000 ≤ off && off < 0x1800 then
    let k := off % 32 / 8
    bits (r.regions.getD ((off - 0x1000) / 32) 0).toNat (64 * k + 63) (64 * k)
  else if 0x1800 ≤ off && off < 0x1820 then bits r.sliceMask.toNat (64 * (off % 32 / 8) + 63) (64 * (off % 32 / 8))
  else if 0x10000 ≤ off && off < 0x14000 then
    let p := (tfind s.sched.parts ((off - 0x10000) / 256)).getD ⟨0, 0⟩
    let m := if off % 256 < 128 then p.cores else p.vaults
    bits m.toNat (64 * (off % 128 / 8) + 63) (64 * (off % 128 / 8))
  else if 0x20000 ≤ off && off < 0x21000 then
    (r.lmap.getD ((off - 0x20000) / 4) 0).toNat + 2 ^ 32 * (r.lmap.getD ((off - 0x20000) / 4 + 1) 0).toNat
  else if off == 0x30000 then s.sched.qtbase.toNat
  else if off == 0x30100 then s.sched.fq.base.toNat
  else if off == 0x30108 then s.sched.fq.head.toNat
  else if off == 0x30110 then s.sched.fq.tail.toNat
  else if off == 0x30118 then s.sched.fq.vec.toNat
  else if off == 0x30128 then (if s.sched.fq.stat then 1 else 0)
  else if 0x40000 ≤ off && off < 0x48000 then (s.die ((off - 0x40000) / 0x1000)).read (off % 0x1000)
  else if 0x50000 ≤ off && off < 0x60000 then (r.phase.getD ((off - 0x50000) / 8) 0).toNat
  else if off == 0x60000 then s.pkg.power.cap.toNat
  else if off == 0x60008 then s.pkg.power.watts % 2 ^ 16 + 2 ^ 16 * s.pkg.power.dutyOf 0
  else if off == 0x60010 then s.pkg.power.tlimit.toNat
  else if 0x70000 ≤ off && off < 0x70800 then
    let k := off % 32 / 8
    bits (r.pcie.getD ((off - 0x70000) / 32) 0).toNat (64 * k + 63) (64 * k)
  else if 0x80000 ≤ off && off < 0x80080 then (r.phoac.getD ((off - 0x80000) / 8) 0).toNat
  else if 0x100000 ≤ off && off < 0x101000 then field (capabilityBytes 0x100000 s.capabilities) (off - 0x100000) 8
  else if 0x200000 ≤ off then s.readSensors off
  else 0

/-! ### Bring-up -/

/-- The tower of a slice: the die of its cluster's router (R464). -/
def sliceTower (n : Nat) : Nat := n / 16 / 8 * 4 + n % 16 / 4

/-- The physical cores that bring-up leaves working, in ascending order (R485, R510). -/
def workingCores (b : BootConfig) : List Nat := (upTo 1024).filter (fun p => !b.coresOff.contains p && !b.towersOff.contains (p / 128))

/-- The working slices as a mask (R485, R510). -/
def workingSlices (b : BootConfig) : List Nat := (upTo 256).filter (fun n => !b.slicesOff.contains n && !b.towersOff.contains (sliceTower n))

/-- The working bulk stacks. -/
def workingStacks (b : BootConfig) : List Nat := (upTo 8).filter (fun k => !b.stacksOff.contains k)

/-- The clusters whose queue engines work, in ascending order (R415, R510). -/
def workingEngines (b : BootConfig) : List Nat := (upTo 256).filter (fun n => !b.enginesOff.contains n && !b.towersOff.contains (n / 32))

/-- The default threshold of a counter and a cell kind, in the order of R499; 0 disables it. -/
def defaultThreshold (kind index : Nat) : Threshold :=
  let limit := match index with
    | 0 => 256
    | 1 => 1024
    | 2 => 64
    | 3 => if kind < 2 then 4096 else if kind == 4 then 65536 else 0
    | 4 => if kind < 2 then 2 else if kind == 4 then 16 else 0
    | _ => if kind == 0 then 16 else 0
  { limit := limit, wexp := if index == 4 then 36 else 32 }

/-- The thresholds that Plinth writes at boot (R499). -/
def defaultThresholds : List (Nat × Threshold) :=
  (upTo 5).flatMap (fun k => (upTo 6).map (fun i => (thresholdKey k i, defaultThreshold k i)))

/-- An image is accepted: its signature verifies under the root key, and its version is not below the fused counter (R486). -/
def imageOk (fused : Nat) (x : FirmwareImage) : Bool := Config.rootVerifies (Config.digest x.data) x.signature && decide (fused ≤ x.version)

/-- What a reset keeps: the fused counter, the flash slots once an image stands in them, the boot configuration's marks, and the
number of casts emitted since manufacture (R456, R486, R500). -/
def State.afterPower (s : State) (b : BootConfig) : State :=
  let pick := fun (old new : FirmwareImage) => if old == blankImage then new else old
  let boot := s.pkg.boot
  { State.reset with
    freeCtr := s.freeCtr
    inputs := s.inputs
    hostOut := s.hostOut
    sched := { Sched.reset with quiesce := { Sched.reset.quiesce with casts := s.sched.quiesce.casts } }
    pkg := { Package.reset with boot := { Package.reset.boot with
      slotA := pick boot.slotA b.slotA, slotB := pick boot.slotB b.slotB, fused := max boot.fused b.fused, marks := boot.marks } } }

/-- A configuration with the routers, stacks and ports that Armature has marked fenced as well (R500). -/
def withMarks (b : BootConfig) (marks : List Nat) : BootConfig :=
  let at_ := fun (lo hi : Nat) => (marks.filter (fun m => decide (lo ≤ m) && decide (m < hi))).map (fun m => m - lo)
  { b with
    routersOff := b.routersOff ++ (at_ 1280 1536).filter (fun n => !b.routersOff.contains n)
    stacksOff := b.stacksOff ++ (at_ 1792 1800).filter (fun n => !b.stacksOff.contains n)
    pciePorts := (at_ 1612 1616).foldl (fun m n => m &&& ~~~(1#4 <<< n)) b.pciePorts
    phoacPorts := (at_ 1616 1628).foldl (fun m n => m &&& ~~~(1#12 <<< n)) b.phoacPorts
    reasons := b.reasons ++ marks.map (fun m => (m, .threshold)) }

/-- The image slot that the boot ROM loads Plinth from, if one is accepted (R486). -/
def Boot.choose (x : Boot) : Option Nat := if imageOk x.fused x.slotA then some 0 else if imageOk x.fused x.slotB then some 1 else none

/-- The units that must work for bring-up to succeed do (R487). -/
def enoughWorks (b : BootConfig) : Bool := b.socket16 && (upTo 8).any (fun t => !b.towersOff.contains t) && !(workingStacks b).isEmpty

/-- The registers that bring-up writes and locks (R487). -/
def State.bringUp (s : State) (b : BootConfig) (active : Nat) : State :=
  let map := workingCores b
  let s1 : State := { s with
    sched := { s.sched with parts := b.parts.foldl (fun t p => tset t p.1 ⟨p.2.1, p.2.2⟩) [] }
    pkg := { s.pkg with
      regs := { s.pkg.regs with
        pkgid := b.pkgid.setWidth 64, adminq := b.adminq &&& adminqBits
        regions := (upTo 64).map (fun i => b.regions.getD i 0 &&& regionBits)
        sliceMask := (workingSlices b).foldl (fun m n => m ||| (1#256 <<< n)) 0
        lmap := (upTo 1024).map (fun c => match map[c]? with
          | some p => BitVec.ofNat 32 (2 ^ 31 + p)
          | none => 0)
        phase := b.phase, phoac := (upTo 16).map (fun i => b.phoac.getD i 0 &&& 0xFFF), engines := workingEngines b
        bulkMask := (workingStacks b).foldl (fun m k => m ||| (1#8 <<< k)) 0 }
      boot := { s.pkg.boot with
        stage := .running, active := active, phoacPorts := b.phoacPorts, pciePorts := b.pciePorts, rails := b.rails, towersOff := b.towersOff }
      power := { s.pkg.power with tlimit := b.tlimit }
      thresholds := defaultThresholds } }
  ((s1.setLock 0x3E).lockRegions .plinth)

/-- The records of a degraded boot (R507): one for each unit fenced, then the figures. The log is not set up yet, since its
registers are Armature's and reset to a disabled log: the records wait for it (R503, log 54). -/
def State.logBoot (s : State) (b : BootConfig) : State :=
  let reason := fun (u : Nat × Nat) => (tfind b.reasons (unitCell u.1 u.2)).getD .fieldTest
  let units := ((upTo 1024).filter (fun p => !(workingCores b).contains p)).map (fun p => (0, p)) ++
    ((upTo 256).filter (fun n => !(workingSlices b).contains n)).map (fun n => (1, n)) ++ b.routersOff.map (fun n => (2, n)) ++
    b.stacksOff.map (fun n => (4, n))
  let towers := ((upTo 8).filter (fun t => !b.towersOff.contains t)).foldl (fun m t => m + 2 ^ t) 0
  let figures := (toBytes 4 (workingCores b).length ++ toBytes 4 (workingSlices b).length ++ toBytes 1 s.pkg.regs.bulkMask.toNat ++
    toBytes 1 towers ++ toBytes 2 b.phoacPorts.toNat ++ toBytes 1 b.pciePorts.toNat ++ (upTo 8).flatMap (fun i => toBytes 1 (b.rails.getD i 0)))
  { s with pkg := { s.pkg with boot := { s.pkg.boot with
      unlogged := units.map (fun u => (4, unitCell u.1 u.2, fenceDetail u.1 u.2 (reason u))) ++ [(11, 0xFFFF, figures)] } } }

/-- POWER_ON (R486, R487, R507, R510): the boot ROM picks an image, Plinth brings the device up, or it stays in recovery. -/
def execPowerOn (config : BootConfig) (s : State) : Host.Outcome State Fault Refusal :=
  let t := s.afterPower config
  let b := withMarks config s.pkg.boot.marks
  match t.pkg.boot.choose with
  | some active => if enoughWorks b then .next ((t.bringUp b active).logBoot b)
    else .next { t with pkg := { t.pkg with boot := { t.pkg.boot with stage := .recovery, active := active } } }
  | none => .next { t with pkg := { t.pkg with boot := { t.pkg.boot with stage := .recovery } } }

end Sys2Proof.Machine
end

