-- ==== Sys2Proof/Machine/HostSide.lean ====
section
/-! DEFINITION. What outside parties do: accesses of application cores, PCIe agents and other packages, and SPDM requests
(R175, R318, R475, R480, R481, R486, R489, R492 to R494). -/

namespace Sys2Proof.Machine

/-! ### Accesses -/

/-- The first byte and the length of an access. -/
def accessRange (a : HostAccess) : Nat × Nat :=
  match a with
  | .read addr n => (addr, n)
  | .write addr d => (addr, d.length)
  | .fetchAdd addr n _ => (addr, n)
  | .swap addr n _ => (addr, n)
  | .cas addr n _ _ => (addr, n)

/-- The access at another address. -/
def accessAt (a : HostAccess) (pa : Nat) : HostAccess :=
  match a with
  | .read _ n => .read pa n
  | .write _ d => .write pa d
  | .fetchAdd _ n x => .fetchAdd pa n x
  | .swap _ n x => .swap pa n x
  | .cas _ n x y => .cas pa n x y

/-- What an atomic leaves in place of an old value (R493). -/
def accessNew (a : HostAccess) (old : Nat) : Nat :=
  match a with
  | .fetchAdd _ n x => (old + x) % 2 ^ (8 * n)
  | .swap _ n x => x % 2 ^ (8 * n)
  | .cas _ n x y => if old == y % 2 ^ (8 * n) then x % 2 ^ (8 * n) else old
  | _ => old

/-- A read for an outside party at the home of a run of one line: the answer leaves once the home has cleared it (R175). -/
def State.readRun (s : State) (who : Party) (x : Nat × Nat) : State :=
  let p := Loc.mem x.1
  let h := s.homeOf p false
  let r : HeldReply := ⟨who, s.peek p x.2⟩
  match h with
  | .outside _ => s.spend.sendReply (some r)
  | _ =>
    let q := s.reach h p Page.plain false
    (q.2.respond h { Response.for_ deviceCrew.core s.cycle .none with reply := some r, fill := q.1 }).2

/-- A write for an outside party; its answer, with the data it carries, rests on its last line (R175). -/
def State.writeOut (s : State) (who : Party) (pa : Nat) (bs data : List Byte) : State :=
  let l := lineRuns (bs.length / 128 + 2) pa bs
  let s1 := l.dropLast.foldl (fun (st : State) x => st.releaseRun x none) s
  match l.getLast? with
  | none => s1.sendReply (some ⟨who, data⟩)
  | some x =>
    match s.homeOf (.mem x.1) false with
    | .outside _ => (s1.releaseRun x none).sendReply (some ⟨who, data⟩)
    | _ => s1.releaseRun x (some ⟨who, data⟩)

/-- An access performed at its home, uncached, without a tag, with system-scope ordering (R175, R492 to R494). A read answers
line by line. -/
def State.perform (s : State) (who : Party) (a : HostAccess) : State :=
  match a with
  | .read addr n => (lineRuns (n / 128 + 2) addr (List.replicate n 0)).foldl (fun (st : State) x => st.readRun who (x.1, x.2.length)) s
  | .write addr d => s.writeOut who addr d []
  | _ =>
    let r := accessRange a
    let old := s.peek (.mem r.1) r.2
    s.writeOut who r.1 (toBytes r.2 (accessNew a (ofBytes old))) old

/-- Every line of an access lies in storage. -/
def State.reaches (s : State) (a : HostAccess) : Bool :=
  let r := accessRange a
  r.2 != 0 && (s.storageAt r.1).isSome && (s.storageAt (r.1 + r.2 - 1)).isSome

/-- A poisoned block in the way of a read: its data is an error (R439, R502). -/
def State.readsPoison (s : State) (a : HostAccess) : Bool :=
  match a with
  | .write _ _ => false
  | _ => (blocksOf (accessRange a).1 (accessRange a).2).any (fun b => s.mem.poisoned.contains b)

/-- A read or write of a register or a doorbell by an application core (R480, R481). -/
def State.accessDevice (s : State) (hart : Nat) (a : HostAccess) : State :=
  let r := accessRange a
  let who : Party := .app hart
  if r.1 < 0x400010000000 then
    let off := r.1 - 0x400000000000
    match a with
    | .read _ n =>
      if off == 0x30128 then
        let s1 := s.reply who (toBytes n (s.readRegister off)) true
        { s1 with sched := { s1.sched with fq := { s1.sched.fq with stat := false } } }
      else s.reply who (toBytes n (s.readRegister off)) true
    | .write _ d => (s.writeRegister who off (BitVec.ofNat 64 (ofBytes d)) (4 < d.length)).reply who [] true
    | _ => s.reply who [] false
  else
    match a with
    | .write _ d => (s.ringDoorbell ((r.1 - 0x400100000000) / 0x10000) (BitVec.ofNat 64 (ofBytes d))).reply who [] true
    | _ => s.reply who [0, 0, 0, 0, 0, 0, 0, 0] true

/-- An address of the register or doorbell aperture (R480). -/
def inAperture (a : Nat) : Bool :=
  (decide (0x400000000000 ≤ a) && decide (a < 0x400010000000)) || (decide (0x400100000000 ≤ a) && decide (a < 0x400140000000))

/-- APP_CORE_ACCESS (R492): a request that a quiesce cuts off is held (R452). -/
def execAppCoreAccess (hart : Nat) (acc : HostAccess) (s : State) : Host.Outcome State Fault Refusal :=
  let r := accessRange acc
  if inAperture r.1 then .next (s.accessDevice hart acc)
  else if s.cutOff r.1 r.2 then .next (s.holdAct (.appCoreAccess hart acc))
  else if !s.reaches acc || s.readsPoison acc then .next (s.reply (.app hart) [] false)
  else .next (s.perform (.app hart) acc)

/-! ### PCIe -/

/-- A word of an inbound window: BASE, LIMIT, TARGET, permissions (R493). -/
def pcieWord (e : BitVec 256) (k : Nat) : Nat := bits e.toNat (64 * k + 63) (64 * k)

/-- A window allows an access: [0] reads, [1] writes, [2] atomics of 4 or 8 bytes (R493). -/
def pcieAllows (e : BitVec 256) (a : HostAccess) : Bool :=
  match a with
  | .read _ _ => bit (pcieWord e 3) 0
  | .write _ _ => bit (pcieWord e 3) 1
  | _ => bit (pcieWord e 3) 2 && ((accessRange a).2 == 4 || (accessRange a).2 == 8)

/-- The device address of an inbound request: the first of the port's 16 windows that holds it, when it allows it (R493). -/
def State.inbound (s : State) (port : Nat) (a : HostAccess) : Option Nat :=
  let r := accessRange a
  let w := (s.pkg.regs.pcie.drop (16 * port)).take 16
  match w.find? (fun e => decide (pcieWord e 0 ≤ r.1) && decide (r.1 + r.2 ≤ pcieWord e 1)) with
  | some e => if pcieAllows e a then some (pcieWord e 2 + (r.1 - pcieWord e 0)) else none
  | none => none

/-- PCIE_INBOUND_REQUEST (R493): an unmatched or unpermitted request receives Unsupported Request. -/
def execPcieInboundRequest (port : Nat) (acc : HostAccess) (s : State) : Host.Outcome State Fault Refusal :=
  match s.inbound port acc with
  | none => .next (s.reply .other [] false)
  | some pa =>
    if s.cutOff pa (accessRange acc).2 then .next (s.holdAct (.pcieInboundRequest port acc))
    else if !s.reaches (accessAt acc pa) || s.readsPoison (accessAt acc pa) then .next (s.reply .other [] false)
    else .next (s.perform .other (accessAt acc pa))

/-! ### Other packages -/

/-- The requester under which a home keeps a package's requests (R494). -/
def packageKey (k : Nat) : Nat := 4096 + k

/-- An access changes memory. -/
def accessWrites (a : HostAccess) : Bool :=
  match a with
  | .read _ _ => false
  | _ => true

/-- PHOAC_REQUEST (R494): performed at its home, once for each identifier (R318, R475). -/
def execPhoacRequest (package txid : Nat) (acc : HostAccess) (s : State) : Host.Outcome State Fault Refusal :=
  let r := accessRange acc
  let h := s.homeOf (.mem r.1) false
  if s.quiescing then .next (s.holdAct (.phoacRequest package txid acc))
  else if !s.reaches acc || s.readsPoison acc then .next (s.reply .other [] false)
  else
    match (s.home h).atoms.find? (fun k => k.core == packageKey package && k.serial == txid) with
    | some k => .next (s.reply .other (toBytes r.2 ((k.vals.map (fun v => v.2)).headD 0)) true)
    | none =>
      let old := match acc with
        | .write _ _ => 0
        | _ => ofBytes (s.peek (.mem r.1) r.2)
      let kept : Kept := { core := packageKey package, serial := txid, vals := [(0, old)] }
      let s1 := s.perform .other acc
      .next (if accessWrites acc then s1.modHome h (fun x => { x with atoms := keepLast x.atoms kept }) else s1)

/-! ### SPDM -/

/-- Plinth runs. -/
def State.plinthUp (s : State) : Bool := s.pkg.boot.stage == .running

/-- A measured digest (R489). -/
def State.measurement (s : State) (i : Nat) : List Byte :=
  let r := s.pkg.regs
  let b := s.pkg.boot
  match i with
  | 2 => Config.digest (if b.active == 0 then b.slotA.data else b.slotB.data)
  | 6 => Config.digest (toBytes 8 r.adminq.toNat ++ r.regions.flatMap (fun e => toBytes 32 e.toNat) ++ toBytes 32 r.sliceMask.toNat ++
      s.sched.parts.flatMap (fun p => maskBytes p.2.cores ++ maskBytes p.2.vaults) ++ r.lmap.flatMap (fun w => toBytes 4 w.toNat) ++
      r.phoac.flatMap (fun w => toBytes 8 w.toNat) ++ Config.measured 6)
  | 7 => Config.digest (toBytes 8 b.fused)
  | _ => Config.digest (Config.measured i)

/-- An SPDM request answered by Plinth, or not at all before it runs. -/
def State.spdm (s : State) (data : List Byte) (ok : Bool) : State := if s.plinthUp then s.reply .other data ok else s

/-- GET_VERSION (R489): answered in recovery as well (R486). -/
def execGetVersion (s : State) : Host.Outcome State Fault Refusal :=
  if s.pkg.boot.stage == .off then .next s else .next (s.reply .other (Config.answer 0x84 []) true)

/-- GET_CAPABILITIES (R489). -/
def execGetCapabilities (s : State) : Host.Outcome State Fault Refusal := .next (s.spdm (Config.answer 0xE1 []) true)

/-- NEGOTIATE_ALGORITHMS (R489): Ed25519 and SHA-512 are selected. -/
def execNegotiateAlgorithms (sig hash : Nat) (s : State) : Host.Outcome State Fault Refusal :=
  if s.plinthUp then
    .next (({ s with pkg := { s.pkg with boot := { s.pkg.boot with algorithms := true } } } : State).reply .other
      (Config.answer 0xE3 (toBytes 4 sig ++ toBytes 4 hash)) true)
  else .next s

/-- GET_DIGESTS (R489): the digest of the chain in slot 0. -/
def execGetDigests (s : State) : Host.Outcome State Fault Refusal := .next (s.spdm (Config.digest Config.certificate) true)

/-- GET_CERTIFICATE (R489): slot 0 only. -/
def execGetCertificate (slot offset length : Nat) (s : State) : Host.Outcome State Fault Refusal :=
  if slot == 0 then .next (s.spdm ((Config.certificate.drop offset).take length) true) else .next (s.spdm [] false)

/-- CHALLENGE (R489): a signed response. -/
def execChallenge (slot : Nat) (nonce : List Byte) (s : State) : Host.Outcome State Fault Refusal :=
  let body := Config.answer 0x83 nonce
  if slot == 0 then .next (s.spdm (body ++ Config.sign (Config.digest body)) true) else .next (s.spdm [] false)

/-- GET_MEASUREMENTS (R489): the number of measurements for index 0, one for an index, all of them for 255. -/
def execGetMeasurements (index : Nat) (s : State) : Host.Outcome State Fault Refusal :=
  if index == 0 then .next (s.spdm [7] true)
  else if index == 255 then .next (s.spdm ((upTo 7).flatMap (fun i => s.measurement (i + 1))) true)
  else if index ≤ 7 then .next (s.spdm (s.measurement index) true)
  else .next (s.spdm [] false)

/-- Any other SPDM request receives ERROR with UnsupportedRequest (R489). -/
def execSpdmUnsupported (code : Nat) (s : State) : Host.Outcome State Fault Refusal :=
  .next (s.spdm ([0x7F, 0x07] ++ toBytes 1 code) false)

end Sys2Proof.Machine
end

