-- ==== Sys2Proof/Machine/Fleet.lean ====
section
/-! DEFINITION. Fleet operation: power and heat, scrubbing, counters, in-field test and suspect intervals, cluster reset,
firmware (R477, R496 to R509). -/

namespace Sys2Proof.Machine

/-! ### Power -/

/-- The state with the power control changed. -/
def State.modPower (s : State) (f : Power → Power) : State := { s with pkg := { s.pkg with power := f s.pkg.power } }

/-- SET_POWER_CAP (R496, R509): PWRCAP takes the cap, enabled; watts outside 100 to 2400 are refused. -/
def execSetPowerCap (watts : Nat) (s : State) : Host.Outcome State Fault Refusal :=
  if watts < 100 || 2400 < watts then .next (s.reply .armature [] false)
  else .next ((s.modPower (fun p => { p with cap := BitVec.ofNat 64 (watts + 2 ^ 16) })).reply .armature [] true)

/-- POWER_CONTROL_PERIOD (R496): every 2^16 cycles the measured watts, and a die's duty from 8 to 64. -/
def execPowerControlPeriod (die watts duty : Nat) (s : State) : Host.Outcome State Fault Refusal :=
  if s.cycle % 2 ^ 16 != 0 || duty < 8 || 64 < duty then .next s
  else .next (s.modPower (fun p => { p with watts := watts, duty := modifyAt p.duty die (fun _ => duty) }))

/-- THERMAL_THROTTLE (R497): a die above TLIMIT has its duty forced to 8. -/
def execThermalThrottle (die celsius : Nat) (s : State) : Host.Outcome State Fault Refusal :=
  if celsius ≤ s.pkg.power.tlimit.toNat then .next s
  else .next (s.modPower (fun p => { p with hot := insertUp p.hot die }))

/-- THERMAL_RELEASE (R497): 5 degrees below TLIMIT the forced duty ends. -/
def execThermalRelease (die celsius : Nat) (s : State) : Host.Outcome State Fault Refusal :=
  if s.pkg.power.tlimit.toNat < celsius + 5 then .next s
  else .next (s.modPower (fun p => { p with hot := p.hot.filter (fun d => d != die) }))

/-! ### Scrubbing -/

/-- The version bit of a block (R502). -/
def State.versionOf (s : State) (block : Nat) : Bool := s.mem.versions.contains block

/-- A block of vault or bulk memory, which the scrubber visits (R502). -/
def State.scrubbed (s : State) (block : Nat) : Bool :=
  match s.storageAt (64 * block) with
  | some .bulk => true
  | some (.vaultSram _) => true
  | some (.vaultDram _) => true
  | _ => false

/-- A descriptor mismatch that the scrubber finds is logged (R76, R502). -/
def State.scrubDesc (s : State) (block : Nat) : State :=
  let d := descGet s.mem.descs block
  if d.1 == d.2 then s
  else s.logRecord 3 1 (s.cellOf (s.homeOf (.mem (64 * block)) false)) 0xFFFF (toBytes 8 (64 * block) ++ toBytes 2 d.1 ++ toBytes 2 d.2)

/-- SCRUB_VISIT (R502): the block read with its version bit; what the codes found. -/
def execScrubVisit (block : Nat) (ecc : EccResult) (s : State) : Host.Outcome State Fault Refusal :=
  if !s.scrubbed block then .next s
  else
    let cell := s.cellOf (s.homeOf (.mem (64 * block)) false)
    let s1 := s.scrubDesc block
    match ecc with
    | .clean => .next s1
    | .correctable =>
      let t := s1.countCell cell 4 1
      .next { t with pkg := { t.pkg with scrubRead := some (block, s.versionOf block, s.bytesAt (.mem (64 * block)) 64) } }
    | .uncorrectable => .next ((s1.poison block).logUe cell 0xFFFF (64 * block) (ueUnit (64 * block)))

/-- SCRUB_WRITEBACK of the block that State.sel names (R502): performed only if the version bit is still the one read. -/
def execScrubWriteback (s : State) : Host.Outcome State Fault Refusal :=
  match s.pkg.scrubRead with
  | some (b, v, data) =>
    if b != s.sel.a then .next s
    else
      let t : State := { s with pkg := { s.pkg with scrubRead := none } }
      .next (if s.versionOf b == v then t.putBytes (.mem (64 * b)) data else t)
  | none => .next s

/-! ### Counters and firmware -/

/-- CLEAR_COUNTERS (R509): zero to every counter of a range of cells. -/
def execClearCounters (lo hi : Nat) (s : State) : Host.Outcome State Fault Refusal :=
  .next { s with pkg := { s.pkg with cells := s.pkg.cells.map (fun c =>
    if decide (lo ≤ c.1) && decide (c.1 ≤ hi) then (c.1, List.replicate 8 0) else c) } }

/-- UPDATE_FIRMWARE (R486, R509): an image written to the inactive slot. In recovery no slot is active. -/
def execUpdateFirmware (image : FirmwareImage) (slot : Nat) (s : State) : Host.Outcome State Fault Refusal :=
  let b := s.pkg.boot
  if b.stage == .off then .next s
  else if 1 < slot || (b.stage == .running && b.active == slot) then .next (s.reply .armature [] false)
  else
    let b1 := if slot == 0 then { b with slotA := image } else { b with slotB := image }
    .next (({ s with pkg := { s.pkg with boot := b1 } } : State).reply .armature [] true)

/-! ### In-field test -/

/-- A die's test (R505). -/
def State.fieldTest (s : State) (die : Nat) : FieldTest :=
  (s.pkg.tests.find? (fun t => t.die == die)).getD { die := die, running := none, waiting := [], stat := 0 }

/-- The state with a die's test changed. -/
def State.modTest (s : State) (die : Nat) (f : FieldTest → FieldTest) : State :=
  { s with pkg := { s.pkg with tests := s.pkg.tests.filter (fun t => t.die != die) ++ [f (s.fieldTest die)] } }

/-- No group and no handler crew is left on a cluster. -/
def State.clusterIdle (s : State) (cluster : Nat) : Bool :=
  (s.clusterCores cluster).all (fun c => (upTo 32).all (fun g => (s.group c g).isNone) &&
    (s.core c).handlers.all (fun h => (s.handlerRefs c h.lslot).all (fun r => (s.crew r).owner.isNone)))

/-- A die's waiting test starts once none runs and its cluster is idle (R505). -/
def State.startTest (s : State) (die : Nat) : State :=
  let t := s.fieldTest die
  match t.running, t.waiting with
  | none, c :: r =>
    if s.clusterIdle c then
      (s.modTest die (fun x => { x with running := some (c, s.cycle), waiting := r, stat := 0 })).modCluster c (fun m => { m with testing := true })
    else s
  | _, _ => s

/-- IFTCTL_START (R505): a second test waits. -/
def execIftctlStart (die cluster : Nat) (s : State) : Host.Outcome State Fault Refusal :=
  if cluster / 32 != die then .next s
  else .next ((s.modTest die (fun x => { x with waiting := x.waiting ++ [cluster] })).startTest die)

/-- RUN_FIELD_TEST (R505, R509): binding to the cluster stops, its groups are pre-empted in MODE 2 but for pinned ones, and the
test is started; during a quiesce it waits. -/
def execRunFieldTest (cluster : Nat) (s : State) : Host.Outcome State Fault Refusal :=
  if s.quiescing then .next (s.holdAct (.runFieldTest cluster))
  else
    let s1 := s.modCluster cluster (fun m => { m with stopped := true })
    let s2 := (s1.clusterCores cluster).foldl (fun (st : State) c => st.askJob (st.dieOf c) (coreJob c .test)) s1
    let die := cluster / 32
    .next ((s2.modTest die (fun x => { x with waiting := x.waiting ++ [cluster] })).startTest die)

/-- An entry of the placement log (R429): its number, context, event, launch, and physical core. -/
structure Placement where
  seq : Nat
  ctx : Nat
  event : Nat
  launch : Nat
  pcore : Nat
  deriving DecidableEq, Repr

/-- The placement-log entry that bytes hold (R429). -/
def placementOf (b : List Byte) : Placement :=
  { seq := field b 0 8, ctx := field b 8 2, event := field b 0xA 1, launch := field b 0xC 4, pcore := field b 0x16 2 }

/-- The starts on a cluster that a die's placement log shows since a number (R429, R506). -/
def State.startsSince (s : State) (die cluster mark : Nat) : List Placement :=
  let d := s.die die
  ((upTo (d.seq - mark)).map (fun k =>
    placementOf (s.bytesAt (.mem (d.logBase.toNat + 32 * ((mark + k) % d.logSize.toNat))) 32))).filter (fun p =>
      (p.event == 1 || p.event == 2 || p.event == 3) && p.pcore / 4 == cluster)

/-- Entries after the mark have been overwritten, or the log has overrun (R429, R506). -/
def DieState.overwritten (d : DieState) (mark : Nat) : Bool := d.overrun || decide (d.logSize.toNat < d.seq - mark)

/-- A SUSPECT record (R504, R506). -/
def State.logSuspect (s : State) (cluster ctx launch flags first last n : Nat) : State :=
  s.logRecord 6 2 0xFFFF ctx (toBytes 4 launch ++ toBytes 2 cluster ++ toBytes 2 flags ++ toBytes 8 first ++ toBytes 8 last ++ toBytes 4 n)

/-- The SUSPECT records of a failed cluster (R506). What a record with ALL set gives as its range is the model's (log 56). -/
def State.logSuspects (s : State) (die cluster : Nat) : State :=
  let m := s.cluster cluster
  let d := s.die die
  if d.overwritten m.mark then
    m.seen.foldl (fun (st : State) c => st.logSuspect cluster c 0xFFFFFFFF 3 m.mark (d.seq - 1) 0) s
  else
    let all := s.startsSince die cluster m.mark
    m.seen.foldl (fun (st : State) c =>
      let mine := all.filter (fun p => p.ctx == c)
      ((mine.map (fun p => p.launch)).eraseDups).foldl (fun (t : State) l =>
        let x := mine.filter (fun p => p.launch == l)
        t.logSuspect cluster c l 0 ((x.head?.map (fun p => p.seq)).getD 0) ((x.getLast?.map (fun p => p.seq)).getD 0) x.length) st) s

/-- IFT_COMPLETE (R505, R506): after 2^22 cycles the cluster passes, or its cores are fenced with the failing block named. -/
def execIftComplete (die : Nat) (fault : Option Nat) (s : State) : Host.Outcome State Fault Refusal :=
  match (s.fieldTest die).running with
  | none => .next s
  | some (c, t) =>
    if s.cycle < t + 2 ^ 22 then .next s
    else
      let s1 := s.modTest die (fun x => { x with running := none, stat := if fault.isNone then 1 else 2 })
      match fault with
      | none =>
        .next ((s1.modCluster c (fun m =>
          { m with mark := (s.die die).seq, seen := [], stopped := false, testing := false })).startTest die)
      | some b =>
        let s2 := (s1.clusterCores c).foldl (fun (st : State) x => st.fenceCore x .fieldTest) s1
        let s3 := s2.logRecord 5 2 0xFFFF 0xFFFF (toBytes 2 c ++ [0, 0] ++ toBytes 1 b)
        .next (((s3.logSuspects die c).modCluster c (fun m => { m with testing := false })).startTest die)

/-! ### Cluster reset -/

/-- A home that lies in a cluster. -/
def State.homeInCluster (s : State) (cluster : Nat) (h : HomeId) : Bool :=
  match h with
  | .vault c => s.coreWorks c && s.clusterOf c == cluster
  | .port c => s.coreWorks c && s.clusterOf c == cluster
  | _ => false

/-- A core after its cluster's reset (R477): its counter restarts, what outlives its crews' slots and its fence stay. -/
def State.resetCore (s : State) (k : Core) : Core :=
  { Core.reset with
    resetAt := s.cycle, fenced := k.fenced, perf := k.perf, banks := k.banks, serial := k.serial
    subs := (upTo 4).map (fun b => { Sub.reset with keep := (k.sub b).keep }) }

/-- A unit of these cores' cluster is injecting a packet that the reset covers: it waits at the router's local input (R477). -/
def State.injecting (s : State) (cores : List Nat) (p : Packet) : Bool :=
  p.isLocal && ((s.tx p.tx).map (fun t => if p.reply then (match t.home with
    | .vault c => cores.contains c
    | .port c => cores.contains c
    | _ => false) else cores.contains t.core)).getD false

/-- The reset of a fenced cluster (R477): circuits, transactions with an end in it, packets that it was injecting, the tables
of its vault controllers, its cores' counters; requests for its vaults wait at the router. -/
def State.clusterReset (s : State) (cluster : Nat) : State :=
  let cores := s.clusterCores cluster
  let ends := fun (c : Nat) => cores.contains c
  let gone := fun (core : Nat) (x : Circuit) => ends core || ends x.dest
  let s1 := s.coreList.foldl (fun (st : State) c =>
    let ids := ((st.core c).circuits.filter (gone c)).map (fun x => x.id)
    let st1 := st.modCore c (fun k => { k with circuits := k.circuits.map (fun x => if gone c x then { x with reserved := false } else x) })
    { st1 with net := { st1.net with circuits := st1.net.circuits.filter (fun x => !(x.2.1 == c && ids.contains x.2.2)) } }) s
  let s2 : State := { s1 with
    net := { s1.net with
      txs := s1.net.txs.map (fun t =>
        if t.answer.isNone && (ends t.core || s.homeInCluster cluster t.home) then { t with lost := true, resends := 7 } else t)
      packets := s1.net.packets.filter (fun p => !s.injecting cores p) }
    pkg := { s1.pkg with routerDrops := (s.net.packets.filter (s.injecting cores)).foldl (fun t p =>
      tset t p.router (tget 0 t p.router + 1)) s1.pkg.routerDrops } }
  let lose := fun (h : Home) => { h.lose with heldUntil := s.cycle + 2 ^ 12 }
  let s3 := cores.foldl (fun (st : State) c => (st.modHome (.vault c) lose).modHome (.port c) lose) s2
  (cores.foldl (fun (st : State) c => st.modCore c s.resetCore) s3).modCluster cluster (fun m => { m with resetUntil := some (s.cycle + 2 ^ 12) })

/-- RESET_CLUSTER (R477, R509): refused unless the cluster's cores are fenced. -/
def execResetCluster (cluster : Nat) (s : State) : Host.Outcome State Fault Refusal :=
  if (s.clusterCores cluster).all (fun c => (s.core c).fenced) && (s.cluster cluster).resetUntil.isNone then
    .next ((s.clusterReset cluster).reply .armature [] true)
  else .next (s.reply .armature [] false)

/-- CLUSTER_RESET_END of the cluster that State.sel names (R477). -/
def execClusterResetEnd (s : State) : Host.Outcome State Fault Refusal :=
  let n := s.sel.a
  if ((s.cluster n).resetUntil.map (fun t => decide (t ≤ s.cycle))).getD false then
    let s1 := s.modCluster n (fun m => { m with resetUntil := none })
    .next { s1 with net := { s1.net with homes := s1.net.homes.map (fun h =>
      if s.homeInCluster n h.1 then (h.1, { h.2 with heldUntil := s.cycle }) else h) } }
  else .next s

end Sys2Proof.Machine
end

