-- ==== Sys2Proof/Machine/Dispatch.lean ====
section
/-! DEFINITION. One arm for each row of the table of operations and events: its meaning. -/

namespace Sys2Proof.Machine

/-- The meaning of each row: an instruction acts for the issue group that the state holds, a step of the device on the
unit that State.sel names, an act of an outside party with what the party supplies. -/
def exec (i : Instr) (s : State) : Host.Outcome State Fault Refusal :=
  match i with
  | .powerOn b => Sys2Proof.Machine.execPowerOn b s
  | .sensorEventCore cls cell => Sys2Proof.Machine.execSensorEventCore cls cell s
  | .sensorEventHome cls cell => Sys2Proof.Machine.execSensorEventHome cls cell s
  | .sensorEventRouterPort cls cell => Sys2Proof.Machine.execSensorEventRouterPort cls cell s
  | .crossingSlip cell => Sys2Proof.Machine.execCrossingSlip cell s
  | .linkCrcFail port lane => Sys2Proof.Machine.execLinkCrcFail port lane s
  | .laneRemap port lane lost => Sys2Proof.Machine.execLaneRemap port lane lost s
  | .subscriptionUpdateApply upd damaged => Sys2Proof.Machine.execSubscriptionUpdateApply upd damaged s
  | .uncorrectableStorageError what => Sys2Proof.Machine.execUncorrectableStorageError what s
  | .doorbellWrite q value => Sys2Proof.Machine.execDoorbellWrite q value s
  | .bindRecordWrite die rec => Sys2Proof.Machine.execBindRecordWrite die rec s
  | .restoreRecordWrite die rec => Sys2Proof.Machine.execRestoreRecordWrite die rec s
  | .logOverrunClear die value => Sys2Proof.Machine.execLogOverrunClear die value s
  | .fqheadWrite value => Sys2Proof.Machine.execFqheadWrite value s
  | .faultrespReplay token => Sys2Proof.Machine.execFaultrespReplay token s
  | .faultrespDecline token => Sys2Proof.Machine.execFaultrespDecline token s
  | .faultrespTerminate token => Sys2Proof.Machine.execFaultrespTerminate token s
  | .preemptRequest die req => Sys2Proof.Machine.execPreemptRequest die req s
  | .fenceUnit kind n reason => Sys2Proof.Machine.execFenceUnit kind n reason s
  | .quiesce req => Sys2Proof.Machine.execQuiesce req s
  | .restoreCast records => Sys2Proof.Machine.execRestoreCast records s
  | .runFieldTest cluster => Sys2Proof.Machine.execRunFieldTest cluster s
  | .iftctlStart die cluster => Sys2Proof.Machine.execIftctlStart die cluster s
  | .iftComplete die fault => Sys2Proof.Machine.execIftComplete die fault s
  | .resetCluster cluster => Sys2Proof.Machine.execResetCluster cluster s
  | .clearCounters lo hi => Sys2Proof.Machine.execClearCounters lo hi s
  | .updateFirmware image slot => Sys2Proof.Machine.execUpdateFirmware image slot s
  | .setPowerCap watts => Sys2Proof.Machine.execSetPowerCap watts s
  | .powerControlPeriod die watts duty => Sys2Proof.Machine.execPowerControlPeriod die watts duty s
  | .thermalThrottle die celsius => Sys2Proof.Machine.execThermalThrottle die celsius s
  | .thermalRelease die celsius => Sys2Proof.Machine.execThermalRelease die celsius s
  | .scrubVisit block ecc => Sys2Proof.Machine.execScrubVisit block ecc s
  | .counterWrite cell field value => Sys2Proof.Machine.execCounterWrite cell field value s
  | .thresholdWrite kind index value => Sys2Proof.Machine.execThresholdWrite kind index value s
  | .ellostClear value => Sys2Proof.Machine.execEllostClear value s
  | .lockRegion who => Sys2Proof.Machine.execLockRegion who s
  | .lockPart who => Sys2Proof.Machine.execLockPart who s
  | .lockLmap who => Sys2Proof.Machine.execLockLmap who s
  | .lockSensors who => Sys2Proof.Machine.execLockSensors who s
  | .lockClock who => Sys2Proof.Machine.execLockClock who s
  | .lockPhoac who => Sys2Proof.Machine.execLockPhoac who s
  | .lockErrorClear value => Sys2Proof.Machine.execLockErrorClear value s
  | .registerWrite who off value => Sys2Proof.Machine.execRegisterWrite who off value s
  | .appCoreAccess hart acc => Sys2Proof.Machine.execAppCoreAccess hart acc s
  | .pcieInboundRequest port acc => Sys2Proof.Machine.execPcieInboundRequest port acc s
  | .phoacRequest package txid acc => Sys2Proof.Machine.execPhoacRequest package txid acc s
  | .negotiateAlgorithms sig hash => Sys2Proof.Machine.execNegotiateAlgorithms sig hash s
  | .getCertificate slot offset length => Sys2Proof.Machine.execGetCertificate slot offset length s
  | .challenge slot nonce => Sys2Proof.Machine.execChallenge slot nonce s
  | .getMeasurements index => Sys2Proof.Machine.execGetMeasurements index s
  | .spdmUnsupported code => Sys2Proof.Machine.execSpdmUnsupported code s
  | .reservedOpcode op long => Sys2Proof.Machine.execReservedOpcode op long s
  | .iadd f => Sys2Proof.Machine.execIadd f s
  | .iaddS32 f => Sys2Proof.Machine.execIaddS32 f s
  | .iaddC16 f => Sys2Proof.Machine.execIaddC16 f s
  | .isub f => Sys2Proof.Machine.execIsub f s
  | .isubS32 f => Sys2Proof.Machine.execIsubS32 f s
  | .isubC16 f => Sys2Proof.Machine.execIsubC16 f s
  | .iaddi f => Sys2Proof.Machine.execIaddi f s
  | .iaddiI32 f => Sys2Proof.Machine.execIaddiI32 f s
  | .imul f => Sys2Proof.Machine.execImul f s
  | .imulS32 f => Sys2Proof.Machine.execImulS32 f s
  | .imulh f => Sys2Proof.Machine.execImulh f s
  | .imulhS32 f => Sys2Proof.Machine.execImulhS32 f s
  | .imac f => Sys2Proof.Machine.execImac f s
  | .imacw f => Sys2Proof.Machine.execImacw f s
  | .imin f => Sys2Proof.Machine.execImin f s
  | .iminS32 f => Sys2Proof.Machine.execIminS32 f s
  | .iminC16 f => Sys2Proof.Machine.execIminC16 f s
  | .imax f => Sys2Proof.Machine.execImax f s
  | .imaxS32 f => Sys2Proof.Machine.execImaxS32 f s
  | .imaxC16 f => Sys2Proof.Machine.execImaxC16 f s
  | .iabs f => Sys2Proof.Machine.execIabs f s
  | .iabsS32 f => Sys2Proof.Machine.execIabsS32 f s
  | .and f => Sys2Proof.Machine.execAnd f s
  | .andS32 f => Sys2Proof.Machine.execAndS32 f s
  | .andC16 f => Sys2Proof.Machine.execAndC16 f s
  | .or f => Sys2Proof.Machine.execOr f s
  | .orS32 f => Sys2Proof.Machine.execOrS32 f s
  | .orC16 f => Sys2Proof.Machine.execOrC16 f s
  | .xor f => Sys2Proof.Machine.execXor f s
  | .xorS32 f => Sys2Proof.Machine.execXorS32 f s
  | .xorC16 f => Sys2Proof.Machine.execXorC16 f s
  | .logi f => Sys2Proof.Machine.execLogi f s
  | .logiS32 f => Sys2Proof.Machine.execLogiS32 f s
  | .shl f => Sys2Proof.Machine.execShl f s
  | .shlS32 f => Sys2Proof.Machine.execShlS32 f s
  | .shlC16 f => Sys2Proof.Machine.execShlC16 f s
  | .shr f => Sys2Proof.Machine.execShr f s
  | .shrS32 f => Sys2Proof.Machine.execShrS32 f s
  | .shrC16 f => Sys2Proof.Machine.execShrC16 f s
  | .funl f => Sys2Proof.Machine.execFunl f s
  | .bext f => Sys2Proof.Machine.execBext f s
  | .bextS32 f => Sys2Proof.Machine.execBextS32 f s
  | .bins f => Sys2Proof.Machine.execBins f s
  | .bcnt f => Sys2Proof.Machine.execBcnt f s
  | .bcntS32 f => Sys2Proof.Machine.execBcntS32 f s
  | .bscan f => Sys2Proof.Machine.execBscan f s
  | .bscanS32 f => Sys2Proof.Machine.execBscanS32 f s
  | .brev f => Sys2Proof.Machine.execBrev f s
  | .brevS32 f => Sys2Proof.Machine.execBrevS32 f s
  | .bperm f => Sys2Proof.Machine.execBperm f s
  | .bpermS32 f => Sys2Proof.Machine.execBpermS32 f s
  | .icmp f => Sys2Proof.Machine.execIcmp f s
  | .sel f => Sys2Proof.Machine.execSel f s
  | .adds f => Sys2Proof.Machine.execAdds f s
  | .addsS32 f => Sys2Proof.Machine.execAddsS32 f s
  | .idot4 f => Sys2Proof.Machine.execIdot4 f s
  | .fadd f => Sys2Proof.Machine.execFadd f s
  | .faddS32 f => Sys2Proof.Machine.execFaddS32 f s
  | .faddC16 f => Sys2Proof.Machine.execFaddC16 f s
  | .fsubC16 f => Sys2Proof.Machine.execFsubC16 f s
  | .fmul f => Sys2Proof.Machine.execFmul f s
  | .fmulS32 f => Sys2Proof.Machine.execFmulS32 f s
  | .fmulC16 f => Sys2Proof.Machine.execFmulC16 f s
  | .ffma f => Sys2Proof.Machine.execFfma f s
  | .ffms f => Sys2Proof.Machine.execFfms f s
  | .fnma f => Sys2Proof.Machine.execFnma f s
  | .fmin f => Sys2Proof.Machine.execFmin f s
  | .fminS32 f => Sys2Proof.Machine.execFminS32 f s
  | .fminC16 f => Sys2Proof.Machine.execFminC16 f s
  | .fmax f => Sys2Proof.Machine.execFmax f s
  | .fmaxS32 f => Sys2Proof.Machine.execFmaxS32 f s
  | .fmaxC16 f => Sys2Proof.Machine.execFmaxC16 f s
  | .fcmp f => Sys2Proof.Machine.execFcmp f s
  | .fclass f => Sys2Proof.Machine.execFclass f s
  | .fclassS32 f => Sys2Proof.Machine.execFclassS32 f s
  | .sfn f => Sys2Proof.Machine.execSfn f s
  | .sfnS32 f => Sys2Proof.Machine.execSfnS32 f s
  | .fint f => Sys2Proof.Machine.execFint f s
  | .fintS32 f => Sys2Proof.Machine.execFintS32 f s
  | .ftoi f => Sys2Proof.Machine.execFtoi f s
  | .ftoiS32 f => Sys2Proof.Machine.execFtoiS32 f s
  | .itof f => Sys2Proof.Machine.execItof f s
  | .itofS32 f => Sys2Proof.Machine.execItofS32 f s
  | .fscale f => Sys2Proof.Machine.execFscale f s
  | .fscaleS32 f => Sys2Proof.Machine.execFscaleS32 f s
  | .padd f => Sys2Proof.Machine.execPadd f s
  | .paddS32 f => Sys2Proof.Machine.execPaddS32 f s
  | .paddC16 f => Sys2Proof.Machine.execPaddC16 f s
  | .pmul f => Sys2Proof.Machine.execPmul f s
  | .pmulS32 f => Sys2Proof.Machine.execPmulS32 f s
  | .pfma f => Sys2Proof.Machine.execPfma f s
  | .pmnx f => Sys2Proof.Machine.execPmnx f s
  | .pmnxS32 f => Sys2Proof.Machine.execPmnxS32 f s
  | .cvt f => Sys2Proof.Machine.execCvt f s
  | .cvtS32 f => Sys2Proof.Machine.execCvtS32 f s
  | .pack f => Sys2Proof.Machine.execPack f s
  | .packS32 f => Sys2Proof.Machine.execPackS32 f s
  | .unpk f => Sys2Proof.Machine.execUnpk f s
  | .unpkS32 f => Sys2Proof.Machine.execUnpkS32 f s
  | .qnt f => Sys2Proof.Machine.execQnt f s
  | .dqnt f => Sys2Proof.Machine.execDqnt f s
  | .plog f => Sys2Proof.Machine.execPlog f s
  | .pget f => Sys2Proof.Machine.execPget f s
  | .pput f => Sys2Proof.Machine.execPput f s
  | .cvote f => Sys2Proof.Machine.execCvote f s
  | .cvoteS32 f => Sys2Proof.Machine.execCvoteS32 f s
  | .lxch f => Sys2Proof.Machine.execLxch f s
  | .lxchS32 f => Sys2Proof.Machine.execLxchS32 f s
  | .lred f => Sys2Proof.Machine.execLred f s
  | .lmatch f => Sys2Proof.Machine.execLmatch f s
  | .pick f => Sys2Proof.Machine.execPick f s
  | .maskLanes f => Sys2Proof.Machine.execMaskLanes f s
  | .maskLanesS32 f => Sys2Proof.Machine.execMaskLanesS32 f s
  | .mov f => Sys2Proof.Machine.execMov f s
  | .movS32 f => Sys2Proof.Machine.execMovS32 f s
  | .movC16 f => Sys2Proof.Machine.execMovC16 f s
  | .movi f => Sys2Proof.Machine.execMovi f s
  | .moviI32 f => Sys2Proof.Machine.execMoviI32 f s
  | .sread f => Sys2Proof.Machine.execSread f s
  | .sreadI32 f => Sys2Proof.Machine.execSreadI32 f s
  | .locq f => Sys2Proof.Machine.execLocq f s
  | .br f => Sys2Proof.Machine.execBr f s
  | .brJ32 f => Sys2Proof.Machine.execBrJ32 f s
  | .jr f => Sys2Proof.Machine.execJr f s
  | .jrS32 f => Sys2Proof.Machine.execJrS32 f s
  | .call f => Sys2Proof.Machine.execCall f s
  | .callJ32 f => Sys2Proof.Machine.execCallJ32 f s
  | .ret f => Sys2Proof.Machine.execRet f s
  | .retS32 f => Sys2Proof.Machine.execRetS32 f s
  | .rjoin f => Sys2Proof.Machine.execRjoin f s
  | .rjoinS32 f => Sys2Proof.Machine.execRjoinS32 f s
  | .exitThread f => Sys2Proof.Machine.execExitThread f s
  | .nop f => Sys2Proof.Machine.execNop f s
  | .pause f => Sys2Proof.Machine.execPause f s
  | .region f => Sys2Proof.Machine.execRegion f s
  | .tryGambit f => Sys2Proof.Machine.execTryGambit f s
  | .commit f => Sys2Proof.Machine.execCommit f s
  | .abort f => Sys2Proof.Machine.execAbort f s
  | .trap f => Sys2Proof.Machine.execTrap f s
  | .brk f => Sys2Proof.Machine.execBrk f s
  | .brkI32 f => Sys2Proof.Machine.execBrkI32 f s
  | .tret f => Sys2Proof.Machine.execTret f s
  | .sysR f => Sys2Proof.Machine.execSysR f s
  | .sysW f => Sys2Proof.Machine.execSysW f s
  | .ld f => Sys2Proof.Machine.execLd f s
  | .st f => Sys2Proof.Machine.execSt f s
  | .stBlk f => Sys2Proof.Machine.execStBlk f s
  | .ldc f => Sys2Proof.Machine.execLdc f s
  | .lda f => Sys2Proof.Machine.execLda f s
  | .sld f => Sys2Proof.Machine.execSld f s
  | .sst f => Sys2Proof.Machine.execSst f s
  | .atom f => Sys2Proof.Machine.execAtom f s
  | .atomn f => Sys2Proof.Machine.execAtomn f s
  | .satom f => Sys2Proof.Machine.execSatom f s
  | .fence f => Sys2Proof.Machine.execFence f s
  | .cache f => Sys2Proof.Machine.execCache f s
  | .bari f => Sys2Proof.Machine.execBari f s
  | .bara f => Sys2Proof.Machine.execBara f s
  | .barx f => Sys2Proof.Machine.execBarx f s
  | .barw f => Sys2Proof.Machine.execBarw f s
  | .bart f => Sys2Proof.Machine.execBart f s
  | .cpy f => Sys2Proof.Machine.execCpy f s
  | .cpyt f => Sys2Proof.Machine.execCpyt f s
  | .cpyg f => Sys2Proof.Machine.execCpyg f s
  | .tlwait f => Sys2Proof.Machine.execTlwait f s
  | .tmac f => Sys2Proof.Machine.execTmac f s
  | .tconv f => Sys2Proof.Machine.execTconv f s
  | .tdrain f => Sys2Proof.Machine.execTdrain f s
  | .tctlZero f => Sys2Proof.Machine.execTctlZero f s
  | .tctlLoad f => Sys2Proof.Machine.execTctlLoad f s
  | .tctlStat f => Sys2Proof.Machine.execTctlStat f s
  | .ract f => Sys2Proof.Machine.execRact f s
  | .rcon f => Sys2Proof.Machine.execRcon f s
  | .rpre f => Sys2Proof.Machine.execRpre f s
  | .wopen f => Sys2Proof.Machine.execWopen f s
  | .subsOn f => Sys2Proof.Machine.execSubsOn f s
  | .subsOff f => Sys2Proof.Machine.execSubsOff f s
  | .amsg f => Sys2Proof.Machine.execAmsg f s
  | .circSetup f => Sys2Proof.Machine.execCircSetup f s
  | .circSend f => Sys2Proof.Machine.execCircSend f s
  | .circRel f => Sys2Proof.Machine.execCircRel f s
  | .xblkAcq f => Sys2Proof.Machine.execXblkAcq f s
  | .xblkRel f => Sys2Proof.Machine.execXblkRel f s
  | .issueArbitration => Sys2Proof.Machine.execIssueArbitration s
  | .recordStart => Sys2Proof.Machine.execRecordStart s
  | .regionRelease => Sys2Proof.Machine.execRegionRelease s
  | .groupComplete => Sys2Proof.Machine.execGroupComplete s
  | .handlerCrewStart => Sys2Proof.Machine.execHandlerCrewStart s
  | .trapEntry => Sys2Proof.Machine.execTrapEntry s
  | .contextTerminate => Sys2Proof.Machine.execContextTerminate s
  | .redoNoticeReceive => Sys2Proof.Machine.execRedoNoticeReceive s
  | .clearSend => Sys2Proof.Machine.execClearSend s
  | .clearReceive => Sys2Proof.Machine.execClearReceive s
  | .homeServeRead => Sys2Proof.Machine.execHomeServeRead s
  | .homePerformWrite => Sys2Proof.Machine.execHomePerformWrite s
  | .homePerformAtomic => Sys2Proof.Machine.execHomePerformAtomic s
  | .loadValueReturn => Sys2Proof.Machine.execLoadValueReturn s
  | .writeAckReceive => Sys2Proof.Machine.execWriteAckReceive s
  | .releasePointComplete => Sys2Proof.Machine.execReleasePointComplete s
  | .atomicResendTimeout => Sys2Proof.Machine.execAtomicResendTimeout s
  | .transactionTimeout => Sys2Proof.Machine.execTransactionTimeout s
  | .linkResend => Sys2Proof.Machine.execLinkResend s
  | .laneRemapEnd => Sys2Proof.Machine.execLaneRemapEnd s
  | .l1LeaseExpiry => Sys2Proof.Machine.execL1LeaseExpiry s
  | .epochRotate => Sys2Proof.Machine.execEpochRotate s
  | .subscriptionUpdateSend => Sys2Proof.Machine.execSubscriptionUpdateSend s
  | .subscriptionNackResend => Sys2Proof.Machine.execSubscriptionNackResend s
  | .windowTableUpdate => Sys2Proof.Machine.execWindowTableUpdate s
  | .amsgAccept => Sys2Proof.Machine.execAmsgAccept s
  | .xblkGrant => Sys2Proof.Machine.execXblkGrant s
  | .asyncTrapDue => Sys2Proof.Machine.execAsyncTrapDue s
  | .barrierTimeout => Sys2Proof.Machine.execBarrierTimeout s
  | .engineOpStart => Sys2Proof.Machine.execEngineOpStart s
  | .engineLand => Sys2Proof.Machine.execEngineLand s
  | .activationStart => Sys2Proof.Machine.execActivationStart s
  | .rowReady => Sys2Proof.Machine.execRowReady s
  | .refreshSlotStart => Sys2Proof.Machine.execRefreshSlotStart s
  | .circuitIdleTeardown => Sys2Proof.Machine.execCircuitIdleTeardown s
  | .launchReady => Sys2Proof.Machine.execLaunchReady s
  | .cancelComplete => Sys2Proof.Machine.execCancelComplete s
  | .nopCommand => Sys2Proof.Machine.execNopCommand s
  | .launch => Sys2Proof.Machine.execLaunch s
  | .openLevel => Sys2Proof.Machine.execOpenLevel s
  | .cancelLevel => Sys2Proof.Machine.execCancelLevel s
  | .writeWord => Sys2Proof.Machine.execWriteWord s
  | .notifyCores => Sys2Proof.Machine.execNotifyCores s
  | .inval => Sys2Proof.Machine.execInval s
  | .ctxset => Sys2Proof.Machine.execCtxset s
  | .waitRecheckTimer => Sys2Proof.Machine.execWaitRecheckTimer s
  | .queueTableTimeout => Sys2Proof.Machine.execQueueTableTimeout s
  | .stealAttempt => Sys2Proof.Machine.execStealAttempt s
  | .stealRequest => Sys2Proof.Machine.execStealRequest s
  | .frstatRead => Sys2Proof.Machine.execFrstatRead s
  | .preemptComplete => Sys2Proof.Machine.execPreemptComplete s
  | .fenceEvacuationTimeout => Sys2Proof.Machine.execFenceEvacuationTimeout s
  | .clusterResetEnd => Sys2Proof.Machine.execClusterResetEnd s
  | .scrubWriteback => Sys2Proof.Machine.execScrubWriteback s
  | .getVersion => Sys2Proof.Machine.execGetVersion s
  | .getCapabilities => Sys2Proof.Machine.execGetCapabilities s
  | .getDigests => Sys2Proof.Machine.execGetDigests s
  | .rjoinRelease => Sys2Proof.Machine.execRjoinRelease s
  | .subscriptionAckReceive => Sys2Proof.Machine.execSubscriptionAckReceive s
  | .refreshSlotEnd => Sys2Proof.Machine.execRefreshSlotEnd s
  | .unitCompleteInStaging => Sys2Proof.Machine.execUnitCompleteInStaging s
  | .exitThreadS32 => Sys2Proof.Machine.execExitThreadS32 s
  | .nopS32 => Sys2Proof.Machine.execNopS32 s
  | .pauseS32 => Sys2Proof.Machine.execPauseS32 s
  | .regionS32 => Sys2Proof.Machine.execRegionS32 s
  | .commitS32 => Sys2Proof.Machine.execCommitS32 s
  | .tretS32 => Sys2Proof.Machine.execTretS32 s
  | .xblkAcqS32 => Sys2Proof.Machine.execXblkAcqS32 s
  | .xblkRelS32 => Sys2Proof.Machine.execXblkRelS32 s

end Sys2Proof.Machine
end

