-- ==== Sys2Proof/Machine/Due.lean ====
section
/-! DEFINITION. The order of the device's own steps (log 3): the chosen issue group's instruction first; then what is due of
the device; then an act of an outside party whose time has come; then the arbitration of the sub-cores in turn; then the next
cycle begins. -/

namespace Sys2Proof.Machine

/-- A step of the device's own on a unit, when a condition holds. -/
def dueIf (p : Bool) (row : Instr) (a : Nat) (b : Nat := 0) (c : Nat := 0) : Option Act :=
  if p then some { row := row, sel := ⟨a, b, c⟩ } else none

/-! ### Crews and cores -/

/-- A crew's pending trap can take its next part (R296). -/
def State.trapDue (s : State) (r : CrewRef) : Bool :=
  let w := s.crew r
  match w.pendingTrap with
  | some p => if p.headed then decide (w.creditsFor [0, 1, 2, 3] ≤ w.creditsFree) else w.entrySettled
  | none => false

/-- An asynchronous cause is due in a crew: at an instruction boundary, outside a gambit unless a pending trap holds or drops it
(R304). -/
def Crew.causeDue (w : Crew) : Bool :=
  (lowestCause w.async).isSome && w.dying.isNone && w.point.isNone && (w.gambit.isNone || w.pendingTrap.isSome)

/-- The step that is due in a crew: its end, a release, an answer, a cause, a timeout, a trap, a rejoin. -/
def State.crewDue (s : State) (r : CrewRef) : Option Act :=
  let w := s.crew r
  if w.owner.isNone then none
  else
    let at_ := fun (p : Bool) (row : Instr) => dueIf p row r.core r.sub r.slot
    ([at_ w.dead .contextTerminate, at_ (w.releasable s.cycle) .regionRelease, at_ (s.pointReady r) .releasePointComplete,
      at_ w.causeDue .asyncTrapDue,
      at_ (s.timeoutDue r) .barrierTimeout, at_ (s.trapDue r) .trapEntry,
      at_ (w.rejoinReady != 0 && w.pendingTrap.isNone && w.dying.isNone) .rjoinRelease] : List (Option Act)).findSome? id

/-- The engines' step that is due in a core (R167, R337). -/
def State.unitDue (s : State) (core unit : Nat) : Option Act :=
  ([dueIf (s.stepDue core unit).isSome .unitCompleteInStaging core unit, dueIf (s.landDue core unit).isSome .engineLand core unit,
    dueIf (s.startable core unit).isSome .engineOpStart core unit] : List (Option Act)).findSome? id

/-- The step that is due at a bank of a core's row riser (R364 to R367). -/
def State.bankDue (s : State) (core bank : Nat) : Option Act :=
  ([dueIf (s.refreshBegins core bank && (s.bank core bank).holdsRow) .refreshSlotStart core bank,
    dueIf (s.refreshEnds core bank && s.net.txs.any (s.waitsForBank core bank)) .refreshSlotEnd core bank,
    dueIf (s.activationDue core bank) .activationStart core bank,
    dueIf (s.rowDue core bank) .rowReady core bank] : List (Option Act)).findSome? id

/-- A line of a core's L1 whose lease has ended (R84). -/
def State.leaseDue (s : State) (core : Nat) : Option Nat :=
  ((s.core core).l1.find? (fun x => decide (x.filled + Config.lease ≤ s.cycle))).map (fun x => x.line)

/-- The step that is due in a core beside its crews, engines and banks. -/
def State.coreDue (s : State) (core : Nat) : Option Act :=
  let k := s.core core
  ([(s.leaseDue core).bind (fun l => dueIf true .l1LeaseExpiry core l),
    dueIf (decide (k.acc.rotateAt + Config.epoch ≤ s.clock core)) .epochRotate core,
    dueIf (!k.windowChanges.isEmpty && (s.windowDue (s.clusterOf core)).isSome) .windowTableUpdate (s.clusterOf core),
    (upTo 4).findSome? (fun i => dueIf (s.grantDue core i).isSome .xblkGrant core i),
    (k.circuits.find? (fun c => c.idleDue s.cycle)).bind (fun c => dueIf true .circuitIdleTeardown core c.id),
    (upTo 32).findSome? (fun g => dueIf (s.groupDone core g) .groupComplete core g),
    dueIf (s.evacuationLate core) .fenceEvacuationTimeout core,
    dueIf (!(s.startPlan core).isEmpty) .recordStart core,
    dueIf (s.handlerDue core).isSome .handlerCrewStart core,
    k.asked.bind (fun v => dueIf true .stealRequest v core),
    dueIf (s.stealDue core) .stealAttempt core] : List (Option Act)).findSome? id

/-- The first step that is due in the cores, in ascending order. -/
def State.coresDue (s : State) : Option Act :=
  s.coreList.findSome? (fun c =>
    ((((coreRefs c).findSome? s.crewDue).or (s.coreDue c)).or ((upTo 5).findSome? (s.unitDue c))).or
      ((upTo 32).findSome? (s.bankDue c)))

/-! ### Homes and the network -/

/-- The step that is due for a request or its answer. -/
def State.txDue (s : State) (t : Tx) : Option Act :=
  if s.overdue t then dueIf true (if t.req.isAtomic then .atomicResendTimeout else .transactionTimeout) t.id
  else if s.answered t then
    match t.req with
    | .read _ _ _ _ _ => dueIf true .loadValueReturn t.id
    | _ => dueIf (!s.ofPoint t) .writeAckReceive t.id
  else if !s.servable t then none
  else
    match t.req with
    | .read _ _ _ _ _ => dueIf true .homeServeRead t.id
    | .write _ => dueIf true .homePerformWrite t.id
    | .atomic _ _ _ _ _ => dueIf true .homePerformAtomic t.id
    | .message m r l h => dueIf (s.acceptMessage t m r l h).isSome .amsgAccept t.id
    | .setup _ _ => none

/-- A home that inside parties are homed at sends a clear (R171). -/
def State.homeDue (s : State) (h : HomeId × Home) : Option Act :=
  match h.1 with
  | .outside _ => none
  | _ => (h.2.responses.head?).bind (fun x => dueIf (x.clearDue s.cycle) .clearSend (selOfHome h.1))

/-- The step that is due for a subscription update (R112, R113, R472). -/
def State.updateDue (s : State) (u : Update) : Option Act :=
  ([dueIf (s.sendable u) .subscriptionUpdateSend u.id, dueIf (u.nacked && decide (u.due ≤ s.cycle)) .subscriptionNackResend u.id,
    dueIf (u.applied && decide (u.due ≤ s.cycle)) .subscriptionAckReceive u.id,
    dueIf (s.applicable u) (.subscriptionUpdateApply u.id false) 0] : List (Option Act)).findSome? id

/-- The receipt of the first notice of a list that has arrived. -/
def State.noticeDue (s : State) (l : List Notice) (row : Instr) : Option Act :=
  (l.find? (fun n => decide (n.due ≤ s.cycle))).bind (fun n => dueIf true row n.core)

/-- A redo notice has arrived at a core or a slice: after the releases of its cycle (R158, R174). -/
def State.redoDue (s : State) : Option Act := s.noticeDue s.net.redos .redoNoticeReceive

/-- The first step that is due in the network: clears, requests, homes, updates, links. -/
def State.netDue (s : State) : Option Act :=
  (((s.noticeDue s.net.clears .clearReceive).or (s.net.txs.findSome? s.txDue)).or
    (s.net.homes.findSome? s.homeDue)).or ((s.net.updates.findSome? s.updateDue).or (s.net.ports.findSome? (fun p =>
      (dueIf (s.linkDue p.1) .linkResend p.1).or
        (dueIf (p.2.pausedUntil != 0 && decide (p.2.pausedUntil ≤ s.cycle)) .laneRemapEnd p.1))))

/-! ### Scheduling and the package -/

/-- The row of a queue command code. -/
def commandRow (opc : Nat) : Instr :=
  match opc with
  | 1 => .launch
  | 2 => .openLevel
  | 3 => .cancelLevel
  | 4 => .writeWord
  | 5 => .notifyCores
  | 6 => .inval
  | 7 => .ctxset
  | _ => .nopCommand

/-- The queue command that an engine takes now (R417). -/
def State.engineDue (s : State) (engine : Nat) : Option Act :=
  (s.nextQueue engine).bind (fun q => (s.queueDesc q).bind (fun d => dueIf true (commandRow (s.commandCode d)) q))

/-- The first step that is due in scheduling. -/
def State.schedDue (s : State) : Option Act :=
  let queues := s.sched.queues.findSome? (fun x =>
    (dueIf (x.tableDue s.cycle && (s.queueDesc x.q).isSome) .queueTableTimeout x.q).or
      (dueIf (x.recheckDue s.cycle) .waitRecheckTimer x.q))
  let engines := if s.queuesOpen then s.sched.queues.findSome? (fun x => s.engineDue (x.q / 64)) else none
  let launches := s.sched.launches.findSome? (fun l =>
    (dueIf (s.readyDue l.2) .launchReady l.1).or (dueIf (s.cancelReady 0 l.1) .cancelComplete 0 l.1))
  let levels := s.sched.levels.findSome? (fun l => dueIf (s.cancelReady 1 l.1) .cancelComplete 1 l.1)
  let dies := s.sched.dies.findSome? (fun d => dueIf (s.preemptDue d.1) .preemptComplete d.1)
  (((queues.or engines).or launches).or levels).or dies

/-- The first step that is due in the package. -/
def State.pkgDue (s : State) : Option Act :=
  (s.pkg.scrubRead.bind (fun x => dueIf true .scrubWriteback x.1)).or (s.pkg.clusters.findSome? (fun c =>
    dueIf ((c.resetUntil.map (fun t => decide (t ≤ s.cycle))).getD false) .clusterResetEnd c.cluster))

/-- The first step of the device's own that is due. -/
def State.due (s : State) : Option Act :=
  ([State.netDue, State.coresDue, State.redoDue, State.schedDue, State.pkgDue] : List (State → Option Act)).findSome? (fun f => f s)

/-! ### The plan of a step -/

/-- The state in which a step's unit has been selected. -/
def State.select (s : State) (x : Sel) : State := { s with sel := x }

/-- The next cycle: every sub-core has arbitrated, and the torus moves its packets on (R467, R469). A core that is not idle
starts its count of idle cycles anew (R430); parked crews, a quiesce and waiting field tests go on. -/
def State.tick (s : State) : State :=
  let busy := s.coreList.filter (fun c => (s.core c).newest.isSome && !s.idleCore c)
  let s0 := s.netTick
  let s1 : State := { s0 with cycle := s.cycle + 1, arb := 0 }
  let s2 := busy.foldl (fun (st : State) c => st.modCore c (fun k => { k with idleSince := s1.cycle })) s1
  let s3 := (s2.listParked s2.slotCount).quiesceTick
  (s3.pkg.tests.filter (fun t => !t.waiting.isEmpty)).foldl (fun (st : State) t => st.startTest t.die) s3

/-- The arbitration of the next sub-core of the cycle, if one is left: the latest once more, when the group that it chose was
not ready (R14, R207). -/
def State.nextSub (s : State) : Option (Sel × State) :=
  let again := (s.cores[(s.arb - 1) / 4]?).any (fun p => 0 < s.arb && (s.sub p.1 ((s.arb - 1) % 4)).again)
  let n := if again then s.arb - 1 else s.arb
  (s.cores[n / 4]?).map (fun p => (⟨p.1, n % 4, 0⟩, { s with arb := n + 1 }))

/-- A row that is a step or an act, not an instruction of a program. -/
def isAct (i : Instr) : Bool := (encode i).isNone

/-- The outside act whose time has come, and the state without it. -/
def State.nextInput (s : State) : Option (Act × State) :=
  match s.inputs with
  | x :: r => if x.time ≤ s.cycle then some (x.act, { s with inputs := r }) else none
  | [] => none

/-- What the next step runs: the chosen issue group's instruction, a step that is due, an act of an outside party whose
time has come (so a release or a clear of its cycle goes first, R158 and R171), or the arbitration of a sub-core. The error is the state after a step in which no row runs: a failed fetch, an input that is
no act, or the end of a cycle. -/
def State.plan (s : State) : Except State (Instr × State) :=
  match s.issue with
  | some i => s.fetchDecode i
  | none =>
    match s.due with
    | some a => .ok (a.row, s.select a.sel)
    | none =>
      match s.nextInput with
      | some x => if isAct x.1.row then .ok (x.1.row, x.2.select x.1.sel) else .error x.2
      | none =>
        match s.nextSub with
        | some x => .ok (.issueArbitration, x.2.select x.1)
        | none => .error s.tick

end Sys2Proof.Machine
end

