-- ==== Sys2Proof/Machine/Step.lean ====
section
/-! DEFINITION. One step of the device. -/

namespace Sys2Proof.Machine

/-- One step: what the plan names runs as its row's meaning. -/
def step (s : State) : Host.Outcome State Fault Refusal :=
  match s.plan with
  | .error t => .next t
  | .ok x => exec x.1 x.2

/-- The state in which the next step fetches the instruction whose bits are w (log 7). -/
def State.withFetchWord (s : State) (nbits w : Nat) : State := s.place (w % 2 ^ nbits)

end Sys2Proof.Machine
end

