-- ==== Sys2Proof/Safety.lean ====
section
/-! DEFINITION. What a safe run is, in the terms that claims use: the invariant that every step keeps, when an
instruction's own effect takes place, and what an instruction of a crew leaves alone. -/

namespace Sys2Proof.Machine

/-- Memory, and every core's scratchpad, are in the one canonical form. -/
def State.wf (s : State) : Bool := s.mem.wf && s.cores.all (fun p => cellsWf p.2.scratch && descsWf p.2.descs)

/-- The crew slot is one of the device's, with its 32 threads and its 64 map entries (R3, R10, R191). -/
def State.hasCrew (s : State) (r : CrewRef) : Bool :=
  decide (r.sub < (s.core r.core).subs.length) && decide (r.slot < (s.sub r.core r.sub).crews.length) &&
    (s.crew r).threads.length == 32 && (s.crew r).map.length == 64

/-- What an open gambit asks of an instruction before it executes (R153, R178, R182, R185): below 256 instructions
so far, nothing that a gambit bars in its lanes, and no head outside it. -/
def State.gambitAllows (s : State) (i : Issue) (n : Needs) : Bool :=
  match (s.crew i.ref).gambit with
  | none => true
  | some g =>
    (i.part &&& g.lanes == 0 || decide (g.count < Config.gambitLimit)) &&
      !(n.bare && (s.bareLanes i n) &&& g.lanes != 0) && !(n.head && (s.part i n) != 0 && (s.part i n) &&& g.lanes == 0)

/-- The issue group's instruction executes in this step: its group has been chosen, decoding found nothing, the block
of G32 to G63 is held when they are named (R188), the slots it waits on are 0 and the slot it sets has room (R211), no
implicit head comes first (R153), an open gambit allows it, a head has a snapshot (R155), and the credits that its
register writes take are free (R197). -/
def State.issues (s : State) (i : Issue) (n : Needs) : Bool :=
  s.issue == some i && s.hasCrew i.ref && n.early.isNone &&
    ((s.crew i.ref).ext || n.names.all (fun k => decide (k < 32) || decide (64 ≤ k))) &&
    (s.crew i.ref).slotsClear n.sbw i.part && !(s.crew i.ref).slotFull n.sbs i.part &&
    !(s.crew i.ref).headDue && decide ((s.crew i.ref).retired < Config.headRetired) &&
    decide ((s.crew i.ref).entriesUsed < Config.headEntries) && s.gambitAllows i n &&
    (!n.head || (s.crew i.ref).canHead) &&
    decide ((s.crew i.ref).creditsFor n.writes ≤ (s.crew i.ref).creditsFree)

/-- Outside the sub-core of a crew slot nothing differs but the issue group, the count of free values and the next
number of a request; inside it, no other crew slot differs, nor do the side buffers or the extended blocks. -/
structure SameElse (s t : State) (r : CrewRef) : Prop where
  cycle : t.cycle = s.cycle
  inputs : t.inputs = s.inputs
  sel : t.sel = s.sel
  arb : t.arb = s.arb
  net : t.net = s.net
  mem : t.mem = s.mem
  sched : t.sched = s.sched
  pkg : t.pkg = s.pkg
  hostOut : t.hostOut = s.hostOut
  cores : ∀ c, c ≠ r.core → t.core c = s.core c
  core : t.core r.core = { s.core r.core with subs := (t.core r.core).subs }
  subs : ∀ b, b ≠ r.sub → t.sub r.core b = s.sub r.core b
  crews : ∀ k, k ≠ r.slot → (t.sub r.core r.sub).crew k = (s.sub r.core r.sub).crew k
  keep : (t.sub r.core r.sub).keep = (s.sub r.core r.sub).keep
  blocks : (t.sub r.core r.sub).blocks = (s.sub r.core r.sub).blocks

/-- Of a crew, whose it is, its mode, its extended block, its release point, its traps and its timers have not
changed. -/
structure CrewSame (w v : Crew) : Prop where
  owner : v.owner = w.owner
  trapMode : v.trapMode = w.trapMode
  ext : v.ext = w.ext
  point : v.point = w.point
  pendingTrap : v.pendingTrap = w.pendingTrap
  async : v.async = w.async
  handling : v.handling = w.handling
  entryClosed : v.entryClosed = w.entryClosed
  dying : v.dying = w.dying
  headDue : v.headDue = w.headDue
  parked : v.parked = w.parked
  stopped : v.stopped = w.stopped
  xwait : v.xwait = w.xwait

/-- An instruction of a crew has retired: its group's threads stand at the next instruction, no other thread has
moved, no predicate, run state or high clock word has changed. Of the scoreboard only the slot that it sets (0 names none),
when some lane is effective, has risen in the threads of its group, until the cycle in which the result is written (R106,
R211). -/
structure Retired (s t : State) (i : Issue) (slot : Nat := 0) (m : Mask := 0) : Prop where
  issue : t.issue = none
  elsewhere : SameElse s t i.ref
  crew : CrewSame (s.crew i.ref) (t.crew i.ref)
  resumeAt : (t.crew i.ref).resumeAt = (s.crew i.ref).resumeAt
  retired : (t.crew i.ref).retired = (s.crew i.ref).retired + 1
  setters : ((slot = 0 ∨ m = 0) → (t.crew i.ref).setters = (s.crew i.ref).setters) ∧
    (slot ≠ 0 → m ≠ 0 → ∃ n, (t.crew i.ref).setters = (s.crew i.ref).setters ++
      [{ id := s.nextId, slot := slot, lanes := i.part, left := 1, due := some (s.cycle + n) }])
  regions : (t.crew i.ref).regions.map (fun g => { g with credits := [] }) =
    (s.crew i.ref).regions.map (fun g => { g with credits := [] })
  pc : ∀ l, l < 32 → ((t.crew i.ref).thread l).pc =
    if i.part.getLsbD l then ((s.crew i.ref).thread l).pc + BitVec.ofNat 64 i.len else ((s.crew i.ref).thread l).pc
  run : ∀ l, l < 32 → ((t.crew i.ref).thread l).run = ((s.crew i.ref).thread l).run
  sb : ∀ l, l < 32 → ((t.crew i.ref).thread l).sb =
    if slot ≠ 0 ∧ m ≠ 0 ∧ i.part.getLsbD l = true then modifyAt ((s.crew i.ref).thread l).sb (slot - 1) (· + 1)
    else ((s.crew i.ref).thread l).sb
  clockHi : ∀ l, l < 32 → ((t.crew i.ref).thread l).clockHi = ((s.crew i.ref).thread l).clockHi

/-- Of a crew's registers only the lanes of a mask of one register have changed: they hold what a function gives.
Register 64 and above names none. -/
structure OneReg (w v : Crew) (d : Nat) (part : Mask) (val : Nat → Word) : Prop where
  dest : d < 64 → ∀ l, l < 32 → lane (v.reg d).content l = if part.getLsbD l then val l else lane (w.reg d).content l
  others : ∀ k, k ≠ d → v.reg k = w.reg k
  taints : ∀ l k, l < 32 → k ≠ d → (v.thread l).taint.getLsbD k = (w.thread l).taint.getLsbD k

/-- No predicate of a crew has changed. -/
def SamePreds (w v : Crew) : Prop := ∀ l, l < 32 → (v.thread l).preds = (w.thread l).preds

end Sys2Proof.Machine
end

