-- ==== Sys2Proof/Certificates/Slice0/Obligations.lean ====
section
/-! DEFINITION. The statements about this model for the provers. -/

open Sys2Proof Sys2Proof.Machine

namespace Sys2Proof.Claims

/-! ### What the statements about instructions say -/

/-- What a 64-bit register instruction asks before it executes: the registers that its fields name, and the one it
writes. -/
def regNeeds (f : L64) (ua ub uc : Bool) : Needs :=
  lNeeds f (f.d.toNat :: ((if ua then [f.a.toNat] else []) ++ (if ub then [f.b.toNat] else []) ++
    (if uc then [f.c.toNat] else []))) (if f.nwb == 1 then [] else [f.d.toNat])

/-- The content that the transposition table gives a register instruction instead of computing it (R200 to R202). -/
def tableHit (s : State) (i : Issue) (op : BitVec 7) (f : L64) (ua ub uc memo : Bool) (part : Mask) : Option Content :=
  (if memo then s.memoKey i (lKeyWord op f ua ub uc) ((if ua then [f.a.toNat] else []) ++
      (if ub then [f.b.toNat] else []) ++ (if uc then [f.c.toNat] else [])) f.d.toNat part none
    else none).bind (fun k => (s.sub i.core i.sub).hit k s.cycle)

/-- A register instruction executes: the effective lanes of its destination take the result of its sources, or what
the transposition table holds for them, and its taint; its slot rises; nothing else is written. With NWB no register is
written. -/
def RegOp (ins : Instr) (op : BitVec 7) (f : L64) (ua ub uc memo : Bool) (res : Srcs → Content × Mask) : Prop :=
  ∀ (s : State) (i : Issue) (x : Srcs), s.issues i (regNeeds f ua ub uc) = true → s.sources i f ua ub uc = .ok x →
    ∃ t, exec ins s = .next t ∧ Retired s t i (slotOf f.sbs) x.part ∧ SamePreds (s.crew i.ref) (t.crew i.ref) ∧
      OneReg (s.crew i.ref) (t.crew i.ref) (if f.nwb == 1 then 67 else f.d.toNat) x.part
        (fun l => lane ((tableHit s i op f ua ub uc memo x.part).getD (res x).1) l) ∧
      (f.nwb = 0 → f.d.toNat < 64 → ∀ l, l < 32 → x.part.getLsbD l = true →
        ((t.crew i.ref).thread l).taint.getLsbD f.d.toNat = (res x).2.getLsbD l)

/-- A register instruction of one source A, eligible for the transposition table. -/
def RegOp1 (ins : Instr) (op : BitVec 7) (f : L64) (g : Word → Word) : Prop :=
  RegOp ins op f true false false true (perLane (fun a _ _ => g a))

/-- A register instruction of two sources, eligible for the transposition table. -/
def RegOp2 (ins : Instr) (op : BitVec 7) (f : L64) (g : Word → Word → Word) : Prop :=
  RegOp ins op f true true false true (perLane (fun a b _ => g a b))

/-- A register instruction of three sources, eligible for the transposition table. -/
def RegOp3 (ins : Instr) (op : BitVec 7) (f : L64) (g : Word → Word → Word → Word) : Prop :=
  RegOp ins op f true true true true (perLane g)

/-- An immediate instruction executes: the effective lanes of its destination take the result of its source A (zero when
it has none), or what the transposition table holds, and the taint of that source; its slot rises; nothing else is
written. -/
def ImmOp (ins : Instr) (op : BitVec 7) (f : K64) (ua : Bool) (g : Word → Word) : Prop :=
  ∀ (s : State) (i : Issue) (x : Content × Mask),
    s.issues i (kNeeds f (f.d.toNat :: (if ua then [f.a.toNat] else [])) [f.d.toNat]) = true →
    s.operandIf i ua f.a.toNat = .ok x →
    let part := (s.crew i.ref).effective i.part f.pred.toNat (f.pn == 1)
    let hit := (s.memoKey i (kKeyWord op f ua) (if ua then [f.a.toNat] else []) f.d.toNat part none).bind
      (fun k => (s.sub i.core i.sub).hit k s.cycle)
    ∃ t, exec ins s = .next t ∧ Retired s t i (slotOf f.sbs) part ∧ SamePreds (s.crew i.ref) (t.crew i.ref) ∧
      OneReg (s.crew i.ref) (t.crew i.ref) f.d.toNat part
        (fun l => lane (hit.getD (contentOf (fun l => g (lane x.1 l)))) l) ∧
      (f.d.toNat < 64 → ∀ l, l < 32 → part.getLsbD l = true →
        ((t.crew i.ref).thread l).taint.getLsbD f.d.toNat = x.2.getLsbD l)

/-- Of a crew's predicates only the lanes of a mask of one predicate have changed; a write to P31 is discarded (R10). -/
def OnePred (w v : Crew) (d : Nat) (part : Mask) (val : Nat → Bool) : Prop :=
  ∀ l n, l < 32 → n < 32 →
    (v.thread l).pred n = if n = d ∧ n ≠ 31 ∧ part.getLsbD l = true then val l else (w.thread l).pred n

/-- No register of a crew has changed, nor its taint. -/
def SameRegs (w v : Crew) : Prop :=
  (∀ k, v.reg k = w.reg k) ∧ ∀ l, l < 32 → (v.thread l).taint = (w.thread l).taint

/-- A compare executes: each effective lane's condition, combined with the old predicate as MX says, is written to the
predicate; no register is written (R253, R257). -/
def CompareOp (ins : Instr) (f : L64) (cond : Word → Word → Bool) : Prop :=
  ∀ (s : State) (i : Issue) (x : Srcs), s.issues i (lNeeds f [f.a.toNat, f.b.toNat] []) = true →
    s.sources i f true true false = .ok x →
    ∃ t, exec ins s = .next t ∧ Retired s t i (slotOf f.sbs) x.part ∧ SameRegs (s.crew i.ref) (t.crew i.ref) ∧
      OnePred (s.crew i.ref) (t.crew i.ref) f.d.toNat x.part (fun l =>
        let old := ((s.crew i.ref).thread l).pred f.d.toNat
        let c := cond (lane x.a l) (lane x.b l)
        if f.mx = 1 then old && c else if f.mx = 2 then old || c else c)

/-- Memory and every scratchpad, with their descriptors, are as they were. -/
def SameMemory (s t : State) : Prop :=
  t.mem = s.mem ∧ ∀ c, (t.core c).scratch = (s.core c).scratch ∧ (t.core c).descs = (s.core c).descs

/-- A half of a word, and a byte of one, as a signed or unsigned number. -/
def halfOf (sgn : Bool) (k : Nat) (a : Word) : Int :=
  if sgn then (a.extractLsb' (16 * k) 16).toInt else ((a.extractLsb' (16 * k) 16).toNat : Int)

/-- A byte of a word as a signed or unsigned number. -/
def byteOf (sgn : Bool) (k : Nat) (a : Word) : Int :=
  if sgn then (a.extractLsb' (8 * k) 8).toInt else ((a.extractLsb' (8 * k) 8).toNat : Int)

/-- All ones when a bit of the table of LOGI is set. -/
def tableMask (tt : Nat) (k : Nat) : Word := if tt.testBit k then BitVec.allOnes 32 else 0

end Sys2Proof.Claims

open Sys2Proof.Claims

/-! ### Integer and logic instructions -/

/-- R246: IADD, ISUB and IMUL in every form, and IADDI, write their sum, difference or product mod 2^32. Completes:
iadd, iaddS32, iaddC16, isub, isubS32, isubC16, imul, imulS32, iaddi, iaddiI32. -/
def Obligations.IntegerSumsAndProducts : Prop :=
  (∀ f, RegOp2 (.iadd f) 0x00 f (fun a b => a + b)) ∧
  (∀ f, RegOp2 (.iaddS32 f) 0x00 (f.expand Shape.alu2) (fun a b => a + b)) ∧
  (∀ f, RegOp2 (.iaddC16 f) 0x00 (f.expand false 0) (fun a b => a + b)) ∧
  (∀ f, RegOp2 (.isub f) 0x01 f (fun a b => a - b)) ∧
  (∀ f, RegOp2 (.isubS32 f) 0x01 (f.expand Shape.alu2) (fun a b => a - b)) ∧
  (∀ f, RegOp2 (.isubC16 f) 0x01 (f.expand false 0) (fun a b => a - b)) ∧
  (∀ f, RegOp2 (.imul f) 0x03 f (fun a b => a * b)) ∧
  (∀ f, RegOp2 (.imulS32 f) 0x03 (f.expand Shape.alu2) (fun a b => a * b)) ∧
  (∀ f, ImmOp (.iaddi f) 0x02 f true (fun a => a + f.imm)) ∧
  (∀ f, ImmOp (.iaddiI32 f) 0x02 (f.expand true true) true (fun a => a + f.imm.signExtend 32))

/-- R246 and R248: IMULH takes bits [63:32] of the exact product, IMAC, IMACW and IDOT4 accumulate mod 2^32.
Completes: imulh, imulhS32, imac, imacw, idot4. -/
def Obligations.WideProductsAndAccumulates : Prop :=
  (∀ f, RegOp2 (.imulh f) 0x04 f (fun a b =>
    if f.c.getLsbD 0 then BitVec.ofInt 32 (a.toInt * b.toInt / 2 ^ 32) else BitVec.ofNat 32 (a.toNat * b.toNat / 2 ^ 32))) ∧
  (∀ f, RegOp2 (.imulhS32 f) 0x04 (f.expand Shape.alu2) (fun a b =>
    if f.mod.getLsbD 2 then BitVec.ofInt 32 (a.toInt * b.toInt / 2 ^ 32)
    else BitVec.ofNat 32 (a.toNat * b.toNat / 2 ^ 32))) ∧
  (∀ f, RegOp3 (.imac f) 0x05 f (fun a b c => a * b + c)) ∧
  (∀ f, RegOp3 (.imacw f) 0x06 f (fun a b c => c + BitVec.ofInt 32
    (halfOf (f.mx.getLsbD 0) 0 a * halfOf (f.mx.getLsbD 0) 0 b +
      halfOf (f.mx.getLsbD 0) 1 a * halfOf (f.mx.getLsbD 0) 1 b))) ∧
  (∀ f, RegOp3 (.idot4 f) 0x1A f (fun a b c => c + BitVec.ofInt 32
    (byteOf (f.mx.getLsbD 0) 0 a * byteOf (f.mx.getLsbD 1) 0 b +
      byteOf (f.mx.getLsbD 0) 1 a * byteOf (f.mx.getLsbD 1) 1 b +
      byteOf (f.mx.getLsbD 0) 2 a * byteOf (f.mx.getLsbD 1) 2 b +
      byteOf (f.mx.getLsbD 0) 3 a * byteOf (f.mx.getLsbD 1) 3 b)))

/-- R246 and R247: the smaller and the larger operand, the absolute value, and the saturating sum and difference. -/
def Sys2Proof.Claims.IntegerSelections : Prop :=
  (∀ f, RegOp2 (.imin f) 0x07 f (fun a b => if f.c.getLsbD 0 then (if b.slt a then b else a) else if b.ult a then b else a)) ∧
  (∀ f, RegOp2 (.iminS32 f) 0x07 (f.expand Shape.alu2) (fun a b =>
    if f.mod.getLsbD 2 then (if b.slt a then b else a) else if b.ult a then b else a)) ∧
  (∀ f, RegOp2 (.iminC16 f) 0x07 (f.expand false 1) (fun a b => if b.slt a then b else a)) ∧
  (∀ f, RegOp2 (.imax f) 0x08 f (fun a b => if f.c.getLsbD 0 then (if a.slt b then b else a) else if a.ult b then b else a)) ∧
  (∀ f, RegOp2 (.imaxS32 f) 0x08 (f.expand Shape.alu2) (fun a b =>
    if f.mod.getLsbD 2 then (if a.slt b then b else a) else if a.ult b then b else a)) ∧
  (∀ f, RegOp2 (.imaxC16 f) 0x08 (f.expand false 1) (fun a b => if a.slt b then b else a)) ∧
  (∀ f, RegOp1 (.iabs f) 0x09 f (fun a =>
    if f.c.getLsbD 0 && a == 0x80000000#32 then 0x7FFFFFFF#32 else a.abs)) ∧
  (∀ f, RegOp1 (.iabsS32 f) 0x09 (f.expand Shape.alu1) (fun a =>
    if f.mod.getLsbD 2 && a == 0x80000000#32 then 0x7FFFFFFF#32 else a.abs)) ∧
  (∀ f, RegOp2 (.adds f) 0x19 f (fun a b =>
    if f.c.getLsbD 0 then BitVec.ofInt 32 (min (max (if f.c.getLsbD 1 then a.toInt - b.toInt else a.toInt + b.toInt)
      (-2 ^ 31)) (2 ^ 31 - 1))
    else if f.c.getLsbD 1 then BitVec.ofNat 32 (a.toNat - b.toNat) else BitVec.ofNat 32 (min (a.toNat + b.toNat) (2 ^ 32 - 1)))) ∧
  (∀ f, RegOp2 (.addsS32 f) 0x19 (f.expand Shape.alu2) (fun a b =>
    if f.mod.getLsbD 2 then BitVec.ofInt 32 (min (max (if f.mod.getLsbD 3 then a.toInt - b.toInt else a.toInt + b.toInt)
      (-2 ^ 31)) (2 ^ 31 - 1))
    else if f.mod.getLsbD 3 then BitVec.ofNat 32 (a.toNat - b.toNat)
    else BitVec.ofNat 32 (min (a.toNat + b.toNat) (2 ^ 32 - 1))))

/-- R246 and R249: AND, OR, XOR in every form, and LOGI by its table, bit 2 a[i] + b[i] of which is bit i. -/
def Sys2Proof.Claims.LogicInstructions : Prop :=
  (∀ f, RegOp2 (.and f) 0x0A f (fun a b => a &&& b)) ∧
  (∀ f, RegOp2 (.andS32 f) 0x0A (f.expand Shape.alu2) (fun a b => a &&& b)) ∧
  (∀ f, RegOp2 (.andC16 f) 0x0A (f.expand false 0) (fun a b => a &&& b)) ∧
  (∀ f, RegOp2 (.or f) 0x0B f (fun a b => a ||| b)) ∧
  (∀ f, RegOp2 (.orS32 f) 0x0B (f.expand Shape.alu2) (fun a b => a ||| b)) ∧
  (∀ f, RegOp2 (.orC16 f) 0x0B (f.expand false 0) (fun a b => a ||| b)) ∧
  (∀ f, RegOp2 (.xor f) 0x0C f (fun a b => a ^^^ b)) ∧
  (∀ f, RegOp2 (.xorS32 f) 0x0C (f.expand Shape.alu2) (fun a b => a ^^^ b)) ∧
  (∀ f, RegOp2 (.xorC16 f) 0x0C (f.expand false 0) (fun a b => a ^^^ b)) ∧
  (∀ f, RegOp2 (.logi f) 0x0D f (fun a b =>
    let tt := f.mx.toNat + 4 * (f.c.toNat % 4)
    (tableMask tt 3 &&& a &&& b) ||| (tableMask tt 2 &&& a &&& ~~~b) ||| (tableMask tt 1 &&& ~~~a &&& b) |||
      (tableMask tt 0 &&& ~~~a &&& ~~~b))) ∧
  (∀ f, RegOp2 (.logiS32 f) 0x0D (f.expand Shape.alu2) (fun a b =>
    let tt := f.mod.toNat % 16
    (tableMask tt 3 &&& a &&& b) ||| (tableMask tt 2 &&& a &&& ~~~b) ||| (tableMask tt 1 &&& ~~~a &&& b) |||
      (tableMask tt 0 &&& ~~~a &&& ~~~b)))

/-- R250: SHL and SHR shift by the whole of b, FUNL shifts the 64-bit value with b high by c[5:0]. -/
def Sys2Proof.Claims.Shifts : Prop :=
  (∀ f, RegOp2 (.shl f) 0x0E f (fun a b => if b.toNat < 32 then BitVec.ofNat 32 (a.toNat * 2 ^ b.toNat) else 0)) ∧
  (∀ f, RegOp2 (.shlS32 f) 0x0E (f.expand Shape.alu2) (fun a b =>
    if b.toNat < 32 then BitVec.ofNat 32 (a.toNat * 2 ^ b.toNat) else 0)) ∧
  (∀ f, RegOp2 (.shlC16 f) 0x0E (f.expand false 0) (fun a b =>
    if b.toNat < 32 then BitVec.ofNat 32 (a.toNat * 2 ^ b.toNat) else 0)) ∧
  (∀ f, RegOp2 (.shr f) 0x0F f (fun a b =>
    if f.c.getLsbD 0 then BitVec.ofInt 32 (a.toInt / 2 ^ (min b.toNat 31))
    else if b.toNat < 32 then BitVec.ofNat 32 (a.toNat / 2 ^ b.toNat) else 0)) ∧
  (∀ f, RegOp2 (.shrS32 f) 0x0F (f.expand Shape.alu2) (fun a b =>
    if f.mod.getLsbD 2 then BitVec.ofInt 32 (a.toInt / 2 ^ (min b.toNat 31))
    else if b.toNat < 32 then BitVec.ofNat 32 (a.toNat / 2 ^ b.toNat) else 0)) ∧
  (∀ f, RegOp2 (.shrC16 f) 0x0F (f.expand false 0) (fun a b =>
    if b.toNat < 32 then BitVec.ofNat 32 (a.toNat / 2 ^ b.toNat) else 0)) ∧
  (∀ f, RegOp3 (.funl f) 0x10 f (fun a b c =>
    let v : BitVec 64 := b ++ a
    if f.mx.getLsbD 0 then (v <<< (c.toNat % 64)).extractLsb' 32 32 else (v >>> (c.toNat % 64)).extractLsb' 0 32))

/-- R246, R249 and R250: logic instructions and shifts. Completes: and, andS32, andC16, or, orS32, orC16, xor, xorS32,
xorC16, logi, logiS32, shl, shlS32, shlC16, shr, shrS32, shrC16, funl. -/
def Obligations.LogicAndShifts : Prop := Sys2Proof.Claims.LogicInstructions ∧ Sys2Proof.Claims.Shifts

/-- R246, R251 and R252: bit fields by position and length, the number of set bits, the scans, the reversal of bits
and the permutation of bytes. Completes: bext, bextS32, bins, bcnt, bcntS32, bscan, bscanS32, brev, brevS32, bperm,
bpermS32. -/
def Obligations.BitFieldsAndScans : Prop :=
  (∀ f, RegOp2 (.bext f) 0x11 f (fun a b =>
    let x := a.toNat / 2 ^ (b.toNat % 32)
    let len := min (b.toNat / 256 % 64) 32
    if f.c.getLsbD 0 then BitVec.ofInt 32 (Int.bmod x (2 ^ len)) else BitVec.ofNat 32 (x % 2 ^ len))) ∧
  (∀ f, RegOp2 (.bextS32 f) 0x11 (f.expand Shape.alu2) (fun a b =>
    let x := a.toNat / 2 ^ (b.toNat % 32)
    let len := min (b.toNat / 256 % 64) 32
    if f.mod.getLsbD 2 then BitVec.ofInt 32 (Int.bmod x (2 ^ len)) else BitVec.ofNat 32 (x % 2 ^ len))) ∧
  (∀ f, RegOp3 (.bins f) 0x12 f (fun a b c =>
    let m : Word := BitVec.ofNat 32 (2 ^ (min (b.toNat / 256 % 64) 32) - 1) <<< (b.toNat % 32)
    (c &&& ~~~m) ||| ((a <<< (b.toNat % 32)) &&& m))) ∧
  (∀ f, RegOp1 (.bcnt f) 0x13 f (fun a => BitVec.ofNat 32 ((List.range 32).countP a.getLsbD))) ∧
  (∀ f, RegOp1 (.bcntS32 f) 0x13 (f.expand Shape.alu1) (fun a => BitVec.ofNat 32 ((List.range 32).countP a.getLsbD))) ∧
  (∀ f, RegOp1 (.bscan f) 0x14 f (bscanWord (f.c.toNat % 4))) ∧
  (∀ f, RegOp1 (.bscanS32 f) 0x14 (f.expand Shape.alu1) (bscanWord (f.mod.toNat / 4 % 4))) ∧
  (∀ (a : Word) (k : Nat), k < 32 → a.getLsbD k = true → (∀ j, k < j → j < 32 → a.getLsbD j = false) →
    bscanWord 0 a = BitVec.ofNat 32 (31 - k) ∧ bscanWord 2 a = BitVec.ofNat 32 k) ∧
  (∀ (a : Word) (k : Nat), k < 32 → a.getLsbD k = true → (∀ j, j < k → a.getLsbD j = false) →
    bscanWord 1 a = BitVec.ofNat 32 k) ∧
  (∀ f, RegOp1 (.brev f) 0x15 f (fun a => a.reverse)) ∧
  (∀ f, RegOp1 (.brevS32 f) 0x15 (f.expand Shape.alu1) (fun a => a.reverse)) ∧
  (∀ f, RegOp2 (.bperm f) 0x16 f bpermWord) ∧
  (∀ f, RegOp2 (.bpermS32 f) 0x16 (f.expand Shape.alu2) bpermWord)

/-- R254, R281 and R273: SEL chooses by a predicate, MOV copies, MOVI writes its immediate, PGET the predicates. -/
def Sys2Proof.Claims.MovesAndSelection : Prop :=
  (∀ f, RegOp1 (.mov f) 0x49 f (fun a => a)) ∧
  (∀ f, RegOp1 (.movS32 f) 0x49 (f.expand Shape.alu1) (fun a => a)) ∧
  (∀ f, RegOp1 (.movC16 f) 0x49 (f.expand true 0) (fun a => a)) ∧
  (∀ f, ImmOp (.movi f) 0x4A f false (fun _ => f.imm)) ∧
  (∀ f, ImmOp (.moviI32 f) 0x4A (f.expand true false) false (fun _ => f.imm.signExtend 32)) ∧
  (∀ (f : L64) (s : State) (i : Issue) (x : Srcs), s.issues i (regNeeds f true true false) = true →
    s.sources i f true true false = .ok x →
    ∃ t, exec (.sel f) s = .next t ∧ Retired s t i (slotOf f.sbs) x.part ∧ SamePreds (s.crew i.ref) (t.crew i.ref) ∧
      OneReg (s.crew i.ref) (t.crew i.ref) (if f.nwb == 1 then 67 else f.d.toNat) x.part (fun l =>
        if ((s.crew i.ref).thread l).pred (f.c.toNat % 32) != f.c.getLsbD 5 then lane x.a l else lane x.b l)) ∧
  (∀ (f : L64) (s : State) (i : Issue), s.issues i (regNeeds f false false false) = true →
    ∃ t, exec (.pget f) s = .next t ∧
      Retired s t i (slotOf f.sbs) ((s.crew i.ref).effective i.part f.pred.toNat (f.pn == 1)) ∧ SamePreds (s.crew i.ref) (t.crew i.ref) ∧
      OneReg (s.crew i.ref) (t.crew i.ref) (if f.nwb == 1 then 67 else f.d.toNat)
        ((s.crew i.ref).effective i.part f.pred.toNat (f.pn == 1))
        (fun l => ((s.crew i.ref).thread l).preds ||| 0x80000000#32))

/-- R246, R247, R254, R273 and R281: moves and integer selections. Completes: mov, movS32, movC16, movi, moviI32, sel,
pget, imin, iminS32, iminC16, imax, imaxS32, imaxC16, iabs, iabsS32, adds, addsS32. -/
def Obligations.MovesAndIntegerSelections : Prop := Sys2Proof.Claims.MovesAndSelection ∧ Sys2Proof.Claims.IntegerSelections

/-! ### Floating-point and packed instructions -/

/-- R255 and R256: the FP32 arithmetic of two and three operands rounds the exact value once in the mode of MX; the
smaller and the larger operand. The rounding itself is the model's function (R129, R130). Completes: fadd, faddS32,
faddC16, fsubC16, fmul, fmulS32, fmulC16, ffma, ffms, fnma, fmin, fminS32, fminC16, fmax, fmaxS32, fmaxC16. -/
def Obligations.FloatArithmetic : Prop :=
  (∀ f, RegOp2 (.fadd f) 0x20 f (fun a b =>
    fword (mxMode f) (FVal.add (mxMode f) (negIf (f.c.getLsbD 1) a) (negIf (f.c.getLsbD 0) b)))) ∧
  (∀ f, RegOp2 (.faddS32 f) 0x20 (f.expand Shape.alu2) (fun a b => let g := f.expand Shape.alu2
    fword (mxMode g) (FVal.add (mxMode g) (negIf (f.mod.getLsbD 3) a) (negIf (f.mod.getLsbD 2) b)))) ∧
  (∀ f, RegOp2 (.faddC16 f) 0x20 (f.expand false 0) (fun a b => fword .rn (FVal.add .rn (fval a) (fval b)))) ∧
  (∀ f, RegOp2 (.fsubC16 f) 0x20 (f.expand false 1) (fun a b => fword .rn (FVal.add .rn (fval a) (fval b).neg))) ∧
  (∀ f, RegOp2 (.fmul f) 0x21 f (fun a b =>
    fword (mxMode f) (FVal.mul (negIf (f.c.getLsbD 1) a) (negIf (f.c.getLsbD 0) b)))) ∧
  (∀ f, RegOp2 (.fmulS32 f) 0x21 (f.expand Shape.alu2) (fun a b =>
    fword (mxMode (f.expand Shape.alu2)) (FVal.mul (negIf (f.mod.getLsbD 3) a) (negIf (f.mod.getLsbD 2) b)))) ∧
  (∀ f, RegOp2 (.fmulC16 f) 0x21 (f.expand false 0) (fun a b => fword .rn (FVal.mul (fval a) (fval b)))) ∧
  (∀ f, RegOp3 (.ffma f) 0x22 f (fun a b c =>
    fword (mxMode f) (FVal.add (mxMode f) (FVal.mul (fval a) (fval b)) (fval c)))) ∧
  (∀ f, RegOp3 (.ffms f) 0x35 f (fun a b c =>
    fword (mxMode f) (FVal.add (mxMode f) (FVal.mul (fval a) (fval b)) (fval c).neg))) ∧
  (∀ f, RegOp3 (.fnma f) 0x36 f (fun a b c =>
    fword (mxMode f) (FVal.add (mxMode f) (FVal.mul (fval a) (fval b)).neg (fval c)))) ∧
  (∀ f, RegOp2 (.fmin f) 0x23 f (fun a b => BitVec.ofNat 32 (minMax fp32 false (f.c.getLsbD 0) a.toNat b.toNat))) ∧
  (∀ f, RegOp2 (.fminS32 f) 0x23 (f.expand Shape.alu2) (fun a b =>
    BitVec.ofNat 32 (minMax fp32 false (f.mod.getLsbD 2) a.toNat b.toNat))) ∧
  (∀ f, RegOp2 (.fminC16 f) 0x23 (f.expand false 0) (fun a b => BitVec.ofNat 32 (minMax fp32 false false a.toNat b.toNat))) ∧
  (∀ f, RegOp2 (.fmax f) 0x24 f (fun a b => BitVec.ofNat 32 (minMax fp32 true (f.c.getLsbD 0) a.toNat b.toNat))) ∧
  (∀ f, RegOp2 (.fmaxS32 f) 0x24 (f.expand Shape.alu2) (fun a b =>
    BitVec.ofNat 32 (minMax fp32 true (f.mod.getLsbD 2) a.toNat b.toNat))) ∧
  (∀ f, RegOp2 (.fmaxC16 f) 0x24 (f.expand false 0) (fun a b => BitVec.ofNat 32 (minMax fp32 true false a.toNat b.toNat)))

/-- R258 to R262: the class bit, the special functions, integral values, conversions and scaling. -/
def Sys2Proof.Claims.FloatConversions : Prop :=
  (∀ f, RegOp1 (.fclass f) 0x26 f (fun a => BitVec.ofNat 32 (2 ^ classBit a))) ∧
  (∀ f, RegOp1 (.fclassS32 f) 0x26 (f.expand Shape.alu1) (fun a => BitVec.ofNat 32 (2 ^ classBit a))) ∧
  (∀ f, RegOp1 (.sfn f) 0x27 f (fun a => sfn (f.c.toNat % 8) a)) ∧
  (∀ f, RegOp1 (.sfnS32 f) 0x27 (f.expand Shape.alu1) (fun a => sfn (f.mod.toNat / 4 % 8) a)) ∧
  (∀ f, RegOp1 (.fint f) 0x28 f (fintWord (mxMode f))) ∧
  (∀ f, RegOp1 (.fintS32 f) 0x28 (f.expand Shape.alu1) (fintWord (mxMode (f.expand Shape.alu1)))) ∧
  (∀ f, RegOp1 (.ftoi f) 0x29 f (ftoiWord (f.c.getLsbD 0) (mxMode f))) ∧
  (∀ f, RegOp1 (.ftoiS32 f) 0x29 (f.expand Shape.alu1) (ftoiWord (f.mod.getLsbD 2) (mxMode (f.expand Shape.alu1)))) ∧
  (∀ f, RegOp1 (.itof f) 0x2A f (fun a =>
    fword (mxMode f) (FVal.ofInt (if f.c.getLsbD 0 then a.toInt else (a.toNat : Int))))) ∧
  (∀ f, RegOp1 (.itofS32 f) 0x2A (f.expand Shape.alu1) (fun a =>
    fword (mxMode (f.expand Shape.alu1)) (FVal.ofInt (if f.mod.getLsbD 2 then a.toInt else (a.toNat : Int))))) ∧
  (∀ f, RegOp2 (.fscale f) 0x2B f (fscaleWord (mxMode f))) ∧
  (∀ f, RegOp2 (.fscaleS32 f) 0x2B (f.expand Shape.alu2) (fscaleWord (mxMode (f.expand Shape.alu2))))

/-- R263 to R267: the packed halves act each on its own; PACK, UNPK and CVT convert, and CVT, with no gambit open, adds its
counts, each under the identifier in b[5:0], to the crew's current region. -/
def Sys2Proof.Claims.PackedAndConverted : Prop :=
  (∀ f, RegOp (.padd f) 0x2C f true true false true (paddRes f)) ∧
  (∀ f, RegOp (.paddS32 f) 0x2C (f.expand Shape.alu2) true true false true (paddRes (f.expand Shape.alu2))) ∧
  (∀ f, RegOp (.paddC16 f) 0x2C (f.expand false 0) true true false true (paddRes (f.expand false 0))) ∧
  (∀ f, RegOp (.pmul f) 0x2D f true true false true (pmulRes f)) ∧
  (∀ f, RegOp (.pmulS32 f) 0x2D (f.expand Shape.alu2) true true false true (pmulRes (f.expand Shape.alu2))) ∧
  (∀ f, RegOp (.pfma f) 0x2E f true true true true (pfmaRes f)) ∧
  (∀ f, RegOp (.pmnx f) 0x2F f true true false true (pmnxRes f)) ∧
  (∀ f, RegOp (.pmnxS32 f) 0x2F (f.expand Shape.alu2) true true false true (pmnxRes (f.expand Shape.alu2))) ∧
  (∀ f, RegOp2 (.pack f) 0x31 f (packWord f)) ∧
  (∀ f, RegOp2 (.packS32 f) 0x31 (f.expand Shape.alu2) (packWord (f.expand Shape.alu2))) ∧
  (∀ f, RegOp (.unpk f) 0x32 f true false false true (unpkRes f)) ∧
  (∀ f, RegOp (.unpkS32 f) 0x32 (f.expand Shape.alu1) true false false true (unpkRes (f.expand Shape.alu1))) ∧
  (∀ (ins : Instr) (f : L64), ((ins = .cvt f) ∨ ∃ g : S32, ins = .cvtS32 g ∧ f = g.expand Shape.alu2) →
    ∀ (s : State) (i : Issue) (x : Srcs), s.issues i (regNeeds f true true false) = true →
    s.sources i f true true false = .ok x →
    ∃ t, exec ins s = .next t ∧ t.issue = none ∧ SameElse s t i.ref ∧ SamePreds (s.crew i.ref) (t.crew i.ref) ∧
      OneReg (s.crew i.ref) (t.crew i.ref) (if f.nwb == 1 then 67 else f.d.toNat) x.part
        (fun l => (BitVec.ofNat 32 (cvtLane f (lane x.a l)).1)) ∧
      ((s.crew i.ref).gambit = none → ∀ q, (s.crew i.ref).regions.getLast? = some q → ∃ h,
        (t.crew i.ref).regions.getLast? = some h ∧ h.stats = q.stats ++ x.part.lanes.filterMap (fun l =>
          ((cvtLane f (lane x.a l)).2).map (fun k => (⟨bits (lane x.b l).toNat 5 0, k, 1⟩ : StatAdd)))))

/-- R258 to R267: conversions and packed arithmetic. Completes: fclass, fclassS32, sfn, sfnS32, fint, fintS32, ftoi,
ftoiS32, itof, itofS32, fscale, fscaleS32, padd, paddS32, paddC16, pmul, pmulS32, pfma, pmnx, pmnxS32, pack, packS32,
unpk, unpkS32, cvt, cvtS32. -/
def Obligations.ConversionsAndPackedArithmetic : Prop := Sys2Proof.Claims.FloatConversions ∧ Sys2Proof.Claims.PackedAndConverted

/-! ### Predicates, lanes and special registers -/

/-- R253 and R257: ICMP and FCMP write each effective lane's condition, combined by MX, to a predicate. -/
def Sys2Proof.Claims.ComparesWritePredicates : Prop :=
  (∀ f, CompareOp (.icmp f) f (fun a b =>
    let lt := if f.c.getLsbD 3 then a.slt b else decide (a < b)
    match f.c.toNat % 8 with
    | 0 => a == b
    | 1 => a != b
    | 2 => lt
    | 3 => lt || a == b
    | 4 => !lt && a != b
    | _ => !lt)) ∧
  (∀ f, CompareOp (.fcmp f) f (floatCond (f.c.toNat % 8)))

/-- R272 and R274: PLOG takes a table of two predicates; PPUT writes one predicate from a ≠ 0, or P0 to P30 from the bits
of a. No register is written. -/
def Sys2Proof.Claims.PredicateInstructions : Prop :=
  (∀ (f : L64) (s : State) (i : Issue), s.issues i (lNeeds f [] []) = true →
    ∃ t, exec (.plog f) s = .next t ∧
      Retired s t i (slotOf f.sbs) ((s.crew i.ref).effective i.part f.pred.toNat (f.pn == 1)) ∧ SameRegs (s.crew i.ref) (t.crew i.ref) ∧
      OnePred (s.crew i.ref) (t.crew i.ref) f.d.toNat ((s.crew i.ref).effective i.part f.pred.toNat (f.pn == 1))
        (fun l => (f.c.toNat % 16).testBit ((if ((s.crew i.ref).thread l).pred f.a.toNat then 2 else 0) +
          (if ((s.crew i.ref).thread l).pred f.b.toNat then 1 else 0)))) ∧
  (∀ (f : L64) (s : State) (i : Issue) (x : Srcs), s.issues i (lNeeds f [f.a.toNat] []) = true →
    s.sources i f true false false = .ok x →
    ∃ t, exec (.pput f) s = .next t ∧ Retired s t i (slotOf f.sbs) x.part ∧ SameRegs (s.crew i.ref) (t.crew i.ref) ∧
      (f.c.getLsbD 0 = false → OnePred (s.crew i.ref) (t.crew i.ref) f.d.toNat x.part (fun l => lane x.a l != 0)) ∧
      (f.c.getLsbD 0 = true → ∀ l n, l < 32 → n < 31 → ((t.crew i.ref).thread l).pred n =
        if x.part.getLsbD l then (lane x.a l).getLsbD n else ((s.crew i.ref).thread l).pred n))

/-- R253, R257, R272 and R274: compares and predicate instructions write predicates. Completes: icmp, fcmp, plog,
pput. -/
def Obligations.ComparesAndPredicateInstructions : Prop := Sys2Proof.Claims.ComparesWritePredicates ∧ Sys2Proof.Claims.PredicateInstructions

/-- R275, R276, R279 and R280: votes, exchanges and picks among the lanes, and the masks. Completes: cvote, cvoteS32,
lxch, lxchS32, pick, maskLanes, maskLanesS32. -/
def Obligations.LaneInstructions : Prop :=
  (∀ f, RegOp (.cvote f) 0x43 f true false false true (cvoteRes f)) ∧
  (∀ f, RegOp (.cvoteS32 f) 0x43 (f.expand Shape.alu1) true false false true (cvoteRes (f.expand Shape.alu1))) ∧
  (∀ f, RegOp (.lxch f) 0x44 f true true false true (lxchRes f)) ∧
  (∀ f, RegOp (.lxchS32 f) 0x44 (f.expand Shape.alu2) true true false true (lxchRes (f.expand Shape.alu2))) ∧
  (∀ f, RegOp (.pick f) 0x47 f true true true true (pickRes f)) ∧
  (∀ f, RegOp (.maskLanes f) 0x48 f false false false false
    (fun x => (contentOf (fun _ => if f.c.getLsbD 0 then x.part else x.group), 0))) ∧
  (∀ f, RegOp (.maskLanesS32 f) 0x48 (f.expand Shape.alu0) false false false false
    (fun x => (contentOf (fun _ => if f.mod.getLsbD 2 then x.part else x.group), 0)))

/-- R282, R238 to R240: SREAD writes the effective lanes of its destination with the special register, a pair for one
of 64 bits; reading clock.lo latches the high word of the same value in the thread. Completes: sread, sreadI32. -/
def Obligations.SpecialRegisterReads : Prop :=
  ∀ (ins : Instr) (f : K64), ((ins = .sread f) ∨ ∃ g : I32, ins = .sreadI32 g ∧ f = g.expand true false) →
    let wide := f.imm.toNat == 0x020 || f.imm.toNat == 0x024
    let dst := if wide && f.d.toNat < 64 then [f.d.toNat, f.d.toNat + 1] else [f.d.toNat]
    (wide = true → f.d.toNat % 2 = 0 ∨ f.d.toNat = 67) →
    ∀ (s : State) (i : Issue), s.issues i (kNeeds f dst dst) = true →
    let part := (s.crew i.ref).effective i.part f.pred.toNat (f.pn == 1)
    ∃ t, exec ins s = .next t ∧ t.issue = none ∧ SameElse s t i.ref ∧ SamePreds (s.crew i.ref) (t.crew i.ref) ∧
      (∀ k, k ∉ dst → (t.crew i.ref).reg k = (s.crew i.ref).reg k) ∧
      (f.d.toNat < 64 → ∀ l, l < 32 → part.getLsbD l = true →
        lane ((t.crew i.ref).reg f.d.toNat).content l = (s.special i.ref f.imm.toNat l).1 ∧
        (wide = true → lane ((t.crew i.ref).reg (f.d.toNat + 1)).content l = (s.special i.ref f.imm.toNat l).2)) ∧
      (∀ l, l < 32 → ((t.crew i.ref).thread l).clockHi =
        if f.imm.toNat = 0x010 ∧ part.getLsbD l = true then BitVec.ofNat 32 (s.clock i.core / 2 ^ 32)
        else ((s.crew i.ref).thread l).clockHi)

namespace Sys2Proof.Claims

/-- A head has retired (R153, R154): the crew's current region closes with its effects kept, a new region without
effects opens, its snapshot holds the crew as it now is, every register is pinned and the count of instructions restarts. -/
def TookHead (w v : Crew) (cycle : Nat) : Prop :=
  v.regions.length = w.regions.length + 1 ∧ v.pinned = BitVec.allOnes 64 ∧ v.retired = 0 ∧
  (∀ g, w.regions.getLast? = some g → ∃ h, v.regions[w.regions.length - 1]? = some h ∧ h.closed = some cycle ∧
    h.id = g.id ∧ h.effects = g.effects ∧ h.entries = g.entries) ∧
  ∃ g, v.regions.getLast? = some g ∧ g.head = cycle ∧ g.closed = none ∧ g.effects = [] ∧ g.entries = 0 ∧ g.tags = [] ∧
    g.credits = [] ∧ g.snapshot.map = v.map ∧ g.snapshot.pcs = v.threads.map (fun t => t.pc) ∧
    g.snapshot.preds = v.threads.map (fun t => t.preds) ∧ g.snapshot.runs = v.threads.map (fun t => t.run)

/-- Control has moved: the effective lanes stand at their targets, the others of the group at the next instruction; no
other thread, no predicate and no run state has changed (R287). -/
structure Transferred (s t : State) (i : Issue) (part : Mask) (target : Nat → Addr) : Prop where
  issue : t.issue = none
  elsewhere : SameElse s t i.ref
  crew : CrewSame (s.crew i.ref) (t.crew i.ref)
  preds : SamePreds (s.crew i.ref) (t.crew i.ref)
  pc : ∀ l, l < 32 → ((t.crew i.ref).thread l).pc =
    if part.getLsbD l then target l
    else if i.part.getLsbD l then ((s.crew i.ref).thread l).pc + BitVec.ofNat 64 i.len
    else ((s.crew i.ref).thread l).pc
  run : ∀ l, l < 32 → ((t.crew i.ref).thread l).run = ((s.crew i.ref).thread l).run

/-- The effective mask of a K64 instruction and of an L64 instruction (R192). -/
def partK (s : State) (i : Issue) (f : K64) : Mask := (s.crew i.ref).effective i.part f.pred.toNat (f.pn == 1)
/-- The effective mask of an L64 instruction (R192). -/
def partL (s : State) (i : Issue) (f : L64) : Mask := (s.crew i.ref).effective i.part f.pred.toNat (f.pn == 1)
/-- The effective mask of a memory instruction (R192). -/
def partM (s : State) (i : Issue) (f : M64) : Mask := (s.crew i.ref).effective i.part f.pred.toNat (f.pn == 1)

/-- The group's instruction may issue and no gambit is open, so that a trap of it is raised in its crew (R182, R294). -/
def traps (s : State) (i : Issue) (n : Needs) : Bool :=
  s.issues i n && (s.crew i.ref).gambit.isNone && (s.crew i.ref).handling.isNone

/-- A trap has been raised and nothing else has happened: the crew's pending trap has this class and these lanes, its
registers, predicates and PCs are as they were, and so is all that lies elsewhere (R294, R296). -/
structure Raised (s t : State) (i : Issue) (cls : Nat) (lanes : List LaneTrap) (after : Bool) : Prop where
  issue : t.issue = none
  elsewhere : SameElse s t i.ref
  regs : SameRegs (s.crew i.ref) (t.crew i.ref)
  preds : SamePreds (s.crew i.ref) (t.crew i.ref)
  pc : ∀ l, l < 32 → ((t.crew i.ref).thread l).pc = ((s.crew i.ref).thread l).pc
  pending : ∃ p, (t.crew i.ref).pendingTrap = some p ∧ p.cls = cls ∧ p.lanes = lanes ∧ p.async = false ∧ p.tpc = i.pc ∧
    p.resume = (if after then i.pc + BitVec.ofNat 64 i.len else i.pc) ∧ p.iword = i.word ∧ p.ilen = i.len ∧
    p.pmask = i.part ∧ p.headed = false

/-- The crew slot that the state's selector names. -/
def selCrew (s : State) : CrewRef := ⟨s.sel.a, s.sel.b, s.sel.c⟩

end Sys2Proof.Claims

/-! ### Control -/

/-- R286 and R287: BR goes to the instruction's address plus its signed offset; CALL does too, and writes the return
address to its pair, untainted. -/
def Sys2Proof.Claims.BranchesAndCalls : Prop :=
  (∀ (ins : Instr) (f : K64), ((ins = .br f) ∨ ∃ g : J32, ins = .brJ32 g ∧ f = g.expand false) →
    ∀ (s : State) (i : Issue), s.issues i (kNeeds f [] []) = true →
    ∃ t, exec ins s = .next t ∧ Transferred s t i (partK s i f) (fun _ => i.pc + f.imm.signExtend 64) ∧
      SameRegs (s.crew i.ref) (t.crew i.ref)) ∧
  (∀ (ins : Instr) (f : K64), ((ins = .call f) ∨ ∃ g : J32, ins = .callJ32 g ∧ f = g.expand true) →
    f.d.toNat < 64 → f.d.toNat % 2 = 0 → ∀ (s : State) (i : Issue),
    s.issues i (kNeeds f [f.d.toNat, f.d.toNat + 1] [f.d.toNat, f.d.toNat + 1]) = true →
    ∃ t, exec ins s = .next t ∧ Transferred s t i (partK s i f) (fun _ => i.pc + f.imm.signExtend 64) ∧
      (∀ k, k ≠ f.d.toNat → k ≠ f.d.toNat + 1 → (t.crew i.ref).reg k = (s.crew i.ref).reg k) ∧
      ∀ l, l < 32 →
        lane ((t.crew i.ref).reg f.d.toNat).content l =
          (if (partK s i f).getLsbD l then (i.pc + BitVec.ofNat 64 i.len).setWidth 32
           else lane ((s.crew i.ref).reg f.d.toNat).content l) ∧
        lane ((t.crew i.ref).reg (f.d.toNat + 1)).content l =
          (if (partK s i f).getLsbD l then ((i.pc + BitVec.ofNat 64 i.len) >>> 32).setWidth 32
           else lane ((s.crew i.ref).reg (f.d.toNat + 1)).content l))

/-- R286, R287 and R214: JR and RET go to the value of their pair in each effective lane; where some lane's value is odd
they raise ALIGN with cause 2 in those lanes, and nothing else happens. -/
def Sys2Proof.Claims.JumpsAndReturns : Prop :=
  ∀ (ins : Instr) (f : L64), ((ins = .jr f) ∨ (∃ g : S32, ins = .jrS32 g ∧ f = g.expand Shape.jr) ∨ (ins = .ret f) ∨
      ∃ g : S32, ins = .retS32 g ∧ f = g.expand Shape.ret) →
    ∀ (s : State) (i : Issue),
    let target := fun l => BitVec.ofNat 64 ((s.crew i.ref).pair s.freeCtr f.a.toNat l)
    let odd := (partL s i f).lanes.filter (fun l => (target l).getLsbD 0)
    (s.issues i (lNeeds f [f.a.toNat, f.a.toNat + 1] []) = true → odd = [] →
      ∃ t, exec ins s = .next t ∧ Transferred s t i (partL s i f) target ∧ SameRegs (s.crew i.ref) (t.crew i.ref)) ∧
    (traps s i (lNeeds f [f.a.toNat, f.a.toNat + 1] []) = true → odd ≠ [] →
      ∃ t, exec ins s = .next t ∧ Raised s t i 3 (odd.map (fun l => ⟨l, 3, 2, 0, 0⟩)) false)

/-- R214, R286 and R287: branches, calls, jumps and returns. Completes: br, brJ32, call, callJ32, jr, jrS32, ret,
retS32. -/
def Obligations.ControlTransfers : Prop := Sys2Proof.Claims.BranchesAndCalls ∧ Sys2Proof.Claims.JumpsAndReturns

/-- R18, R19 and R288: RJOIN holds the effective threads in REJOIN with their masks; RJOIN_RELEASE lets go, together,
every held thread all of whose named peers have exited or are held at the same PC, and each goes to the next
instruction. Completes: rjoin, rjoinS32, rjoinRelease. -/
def Obligations.RejoinHoldsAndReleases : Prop :=
  (∀ (ins : Instr) (f : L64), ((ins = .rjoin f) ∨ ∃ g : S32, ins = .rjoinS32 g ∧ f = g.expand Shape.rjoin) →
    ∀ (s : State) (i : Issue) (x : Srcs), s.issues i (lNeeds f [f.a.toNat] []) = true →
    s.sources i f true false false = .ok x →
    ∃ t, exec ins s = .next t ∧ t.issue = none ∧ SameElse s t i.ref ∧ SameRegs (s.crew i.ref) (t.crew i.ref) ∧
      SamePreds (s.crew i.ref) (t.crew i.ref) ∧ ∀ l, l < 32 →
        (x.part.getLsbD l = true → ((t.crew i.ref).thread l).run = .rejoin (lane x.a l) i.len ∧
          ((t.crew i.ref).thread l).pc = ((s.crew i.ref).thread l).pc) ∧
        (x.part.getLsbD l = false → ((t.crew i.ref).thread l).run = ((s.crew i.ref).thread l).run)) ∧
  (∀ (s : State), s.hasCrew (selCrew s) = true →
    let w := s.crew (selCrew s)
    let held := fun (l : Nat) => ∃ m n, (w.thread l).run = .rejoin m n
    let met := fun (l : Nat) => ∃ m n, (w.thread l).run = .rejoin m n ∧ ∀ j, j < 32 → m.getLsbD j = true → j = l ∨
      (w.thread j).run = .exited ∨ (held j ∧ (w.thread j).pc = (w.thread l).pc)
    ∃ t, exec .rjoinRelease s = .next t ∧ SameElse s t (selCrew s) ∧
      SameRegs w (t.crew (selCrew s)) ∧ ∀ l, l < 32 →
        (∀ m n, (w.thread l).run = .rejoin m n → met l → ((t.crew (selCrew s)).thread l).run = .ready ∧
          ((t.crew (selCrew s)).thread l).pc = (w.thread l).pc + BitVec.ofNat 64 n) ∧
        (¬ met l → (t.crew (selCrew s)).thread l = w.thread l))

/-- R289: NOP retires with no effect; PAUSE retires and its crew is to be passed over until 8 cycles later; REGION retires as
a head, and as a NOP where every effective lane is in gambit. -/
def Sys2Proof.Claims.NopPauseAndRegion : Prop :=
  (∀ (ins : Instr) (f : L64), ((ins = .nop f) ∨ (ins = .nopS32 ∧ f = L64.neutral)) →
    ∀ (s : State) (i : Issue), s.issues i (lNeeds f [] []) = true →
    ∃ t, exec ins s = .next t ∧ Retired s t i ∧ SameRegs (s.crew i.ref) (t.crew i.ref) ∧
      SamePreds (s.crew i.ref) (t.crew i.ref)) ∧
  (∀ (ins : Instr) (f : L64), ((ins = .pause f) ∨ (ins = .pauseS32 ∧ f = L64.neutral)) →
    ∀ (s : State) (i : Issue), s.issues i (lNeeds f [] []) = true →
    ∃ t, exec ins s = .next t ∧ Retired s t i ∧ SameRegs (s.crew i.ref) (t.crew i.ref) ∧
      SamePreds (s.crew i.ref) (t.crew i.ref) ∧
      (partL s i f ≠ 0 → (t.crew i.ref).pausedUntil = s.cycle + 8)) ∧
  (∀ (ins : Instr) (f : L64), ((ins = .region f) ∨ (ins = .regionS32 ∧ f = L64.neutral)) →
    ∀ (s : State) (i : Issue), s.issues i { lNeeds f [] [] with head := true } = true →
    ((s.crew i.ref).inGambit = 0 → partL s i f ≠ 0 →
      ∃ t, exec ins s = .next t ∧ SameElse s t i.ref ∧ SameRegs (s.crew i.ref) (t.crew i.ref) ∧
        SamePreds (s.crew i.ref) (t.crew i.ref) ∧ TookHead (s.crew i.ref) (t.crew i.ref) s.cycle) ∧
    (partL s i f &&& ~~~ (s.crew i.ref).inGambit = 0 →
      ∃ t, exec ins s = .next t ∧ Retired s t i ∧ SameRegs (s.crew i.ref) (t.crew i.ref) ∧
        SamePreds (s.crew i.ref) (t.crew i.ref)))

/-- R21 and R289: EXIT moves its effective threads to EXITED; the exit of the crew's last thread is a head, which closes
the crew's last region. -/
def Sys2Proof.Claims.ExitEndsThreads : Prop :=
  ∀ (ins : Instr) (f : L64), ((ins = .exitThread f) ∨ (ins = .exitThreadS32 ∧ f = L64.neutral)) →
    ∀ (s : State) (i : Issue), s.issues i (lNeeds f [] []) = true → (s.crew i.ref).gambit = none → partL s i f ≠ 0 →
    (s.crew i.ref).canHead = true →
    ∃ t, exec ins s = .next t ∧ t.issue = none ∧ SameElse s t i.ref ∧ SameRegs (s.crew i.ref) (t.crew i.ref) ∧
      SamePreds (s.crew i.ref) (t.crew i.ref) ∧
      (∀ l, l < 32 → ((t.crew i.ref).thread l).run =
        if (partL s i f).getLsbD l then .exited else ((s.crew i.ref).thread l).run) ∧
      ((s.crew i.ref).aliveLanes &&& ~~~ (partL s i f) ≠ 0 →
        (t.crew i.ref).regions = (s.crew i.ref).regions) ∧
      ((s.crew i.ref).aliveLanes &&& ~~~ (partL s i f) = 0 → ∀ g, (s.crew i.ref).regions.getLast? = some g →
        ∃ h, (t.crew i.ref).regions[(s.crew i.ref).regions.length - 1]? = some h ∧ h.last = true ∧
          h.closed = some s.cycle ∧
          h.effects = g.effects ++ (if (s.crew i.ref).ext then [Effect.freeBlock] else []))

/-- R21 and R289: NOP, PAUSE, REGION and EXIT. Completes: nop, nopS32, pause, pauseS32, region, regionS32, exitThread,
exitThreadS32. -/
def Obligations.NopPauseRegionAndExit : Prop := Sys2Proof.Claims.NopPauseAndRegion ∧ Sys2Proof.Claims.ExitEndsThreads

/-- R177 and R290: TRY writes 0 to its code register in the participating lanes, retires as a head whose snapshot holds
that 0, and those lanes are in gambit with the fail target and the code register that it names. -/
def Sys2Proof.Claims.TryOpensAGambit : Prop :=
  ∀ (f : K64) (s : State) (i : Issue), f.d.toNat < 64 →
    s.issues i { kNeeds f [f.d.toNat] [f.d.toNat] with bare := true, head := true, opens := true } = true →
    partK s i f ≠ 0 →
    ∃ t, exec (.tryGambit f) s = .next t ∧ SameElse s t i.ref ∧ SamePreds (s.crew i.ref) (t.crew i.ref) ∧
      OneReg (s.crew i.ref) (t.crew i.ref) f.d.toNat (partK s i f) (fun _ => 0) ∧
      TookHead (s.crew i.ref) (t.crew i.ref) s.cycle ∧
      ∃ g, (t.crew i.ref).gambit = some g ∧ g.lanes = partK s i f ∧ g.crewKind = f.imm.getLsbD 0 ∧
        g.fail = i.pc + (f.imm &&& 0xFFFFFFFE#32).signExtend 64 ∧ g.code = f.d.toNat ∧ g.count = 0 ∧ g.buffer = [] ∧
        g.records = []

/-- R184 and R291: COMMIT hands the stores of its in-gambit lanes to the gambit's region and takes the lanes out; ABORT
takes its in-gambit lanes out, to the fail target, READY there with code 0x80 + imm7 when that register needs no credit or one
is free. Both retire as a NOP when no effective lane is in gambit. -/
def Sys2Proof.Claims.CommitAndAbort : Prop :=
  (∀ (ins : Instr) (f : L64), ((ins = .commit f) ∨ (ins = .commitS32 ∧ f = L64.neutral)) →
    ∀ (s : State) (i : Issue), s.issues i (lNeeds f [] []) = true →
    (partL s i f &&& (s.crew i.ref).inGambit = 0 →
      ∃ t, exec ins s = .next t ∧ Retired s t i ∧ SameRegs (s.crew i.ref) (t.crew i.ref) ∧
        SamePreds (s.crew i.ref) (t.crew i.ref)) ∧
    (∀ g, (s.crew i.ref).gambit = some g → partL s i f &&& g.lanes ≠ 0 →
      let m := commitClosure g 32 (partL s i f &&& g.lanes)
      (s.crew i.ref).entriesUsed + (handedStores g m).length ≤ Config.quarantineEntries →
      (s.crew i.ref).canHead = true → ∀ q, (s.crew i.ref).regions.getLast? = some q →
      ∃ t, exec ins s = .next t ∧ SameElse s t i.ref ∧ SameRegs (s.crew i.ref) (t.crew i.ref) ∧
        SamePreds (s.crew i.ref) (t.crew i.ref) ∧ (t.crew i.ref).inGambit = g.lanes &&& ~~~ m ∧
        ∃ h, (t.crew i.ref).regions[(s.crew i.ref).regions.length - 1]? = some h ∧
          h.effects = q.effects ++ (handedStores g m).map Effect.store)) ∧
  (∀ (f : K64) (s : State) (i : Issue), s.issues i (kNeeds f [] []) = true →
    (partK s i f &&& (s.crew i.ref).inGambit = 0 →
      ∃ t, exec (.abort f) s = .next t ∧ Retired s t i ∧ SameRegs (s.crew i.ref) (t.crew i.ref) ∧
        SamePreds (s.crew i.ref) (t.crew i.ref)) ∧
    (∀ g, (s.crew i.ref).gambit = some g → partK s i f &&& g.lanes ≠ 0 → g.code < 64 →
      (s.crew i.ref).regions ≠ [] →
      ∃ t, exec (.abort f) s = .next t ∧ SameElse s t i.ref ∧ ∀ l, l < 32 →
        (partK s i f &&& g.lanes).getLsbD l = true →
        ((t.crew i.ref).thread l).pc = g.fail ∧ (t.crew i.ref).inGambit.getLsbD l = false ∧
        ((s.crew i.ref).pinned.getLsbD g.code = false ∨ (s.crew i.ref).creditsUsed < Config.credits →
          ((t.crew i.ref).thread l).run = .ready ∧
          lane ((t.crew i.ref).reg g.code).content l = BitVec.ofNat 32 (0x80 + f.imm.toNat % 128))))

/-- R177, R184, R290 and R291: TRY, COMMIT and ABORT. Completes: tryGambit, commit, commitS32, abort. -/
def Obligations.GambitsOpenAndClose : Prop := Sys2Proof.Claims.TryOpensAGambit ∧ Sys2Proof.Claims.CommitAndAbort

/-- R299: TRAP and BRK, in the encodings that the rule gives them, raise their class in every effective lane and in no
other, with the code in AUX, to be resumed after them; with no effective lane they retire with no effect. Completes:
trap, brk, brkI32. -/
def Obligations.SoftwareTraps : Prop :=
  (∀ (ins : Instr) (f : K64) (cls : Nat), ((ins = .trap f ∧ cls = 8) ∨ (ins = .brk f ∧ cls = 9) ∨
      ∃ g : I32, ins = .brkI32 g ∧ f = g.expand false false ∧ cls = 9) →
    ∀ (s : State) (i : Issue),
    (traps s i (kNeeds f [] []) = true → partK s i f ≠ 0 →
      ∃ t, exec ins s = .next t ∧
        Raised s t i cls ((partK s i f).lanes.map (fun l => ⟨l, cls, 0, 0, f.imm.setWidth 64⟩)) true) ∧
    (s.issues i (kNeeds f [] []) = true → partK s i f = 0 →
      ∃ t, exec ins s = .next t ∧ Retired s t i ∧ SameRegs (s.crew i.ref) (t.crew i.ref) ∧
        SamePreds (s.crew i.ref) (t.crew i.ref))) ∧
  (∀ (f : K64) (rest : List Byte), ((Instr.trap f).wellFormed = true ∨ (Instr.brk f).wellFormed = true →
      f.d = 67 ∧ f.a = 67) ∧
    (f.sbs.toNat ≤ 6 → f.d = 67 → f.a = 67 → decode (toBytes 8 (f.toWord 0x5C).toNat ++ rest) = .ok (.trap f, 8) ∧
      decode (toBytes 8 (f.toWord 0x5E).toNat ++ rest) = .ok (.brk f, 8))) ∧
  (∀ (g : I32) (rest : List Byte), ((Instr.brkI32 g).wellFormed = true → g.gd = 0 ∧ g.ga = 0) ∧
    (g.gd = 0 → g.ga = 0 → decode (toBytes 4 (g.toWord 0x5E).toNat ++ rest) = .ok (.brkI32 g, 4))) ∧
  (∀ (w : BitVec 32) (rest : List Byte), w.toNat % 4 = 1 → w.toNat / 4 % 128 = 0x5C →
    decode (toBytes 4 w.toNat ++ rest) = .error .form)

/-- R293 and R296: taking a trap. First its head: the crew keeps the trap, and its region closes. Then the handler: the
side buffer takes the header and the lane records; in every thread that has not exited G0 holds the cause, G1 the class,
G2 and G3 the address, P0 tells whether it trapped, P1 to P3 are 0, and it stands READY at the handler's address; the
mode becomes the handler's, and the crew issues again from 32 cycles later. -/
def Sys2Proof.Claims.TrapEntryStartsTheHandler : Prop :=
  ∀ (s : State) (p : PendingTrap) (h : Addr × Bool), s.hasCrew (selCrew s) = true →
    (s.crew (selCrew s)).pendingTrap = some p → s.handlerOf (selCrew s) p.cls = some h →
    (p.headed = false → (s.crew (selCrew s)).entrySettled = true →
      ∃ t, exec .trapEntry s = .next t ∧ TookHead (s.crew (selCrew s)) (t.crew (selCrew s)) s.cycle ∧
        (t.crew (selCrew s)).pendingTrap = some { p with headed := true }) ∧
    (p.headed = true → (s.crew (selCrew s)).creditsFor [0, 1, 2, 3] ≤ (s.crew (selCrew s)).creditsFree →
      ∃ t, exec .trapEntry s = .next t ∧ t.mem = s.mem ∧ (t.crew (selCrew s)).trapMode = h.2 ∧
        (t.crew (selCrew s)).handling = some p.cls ∧ (t.crew (selCrew s)).pendingTrap = none ∧
        (t.crew (selCrew s)).turn = 0 ∧ (t.crew (selCrew s)).run = 0 ∧
        (t.crew (selCrew s)).resumeAt = s.cycle + 32 ∧ (t.keep (selCrew s)).side = s.sideAt (selCrew s) p ∧
        ∀ l, l < 32 → ((s.crew (selCrew s)).thread l).run ≠ .exited →
          ((t.crew (selCrew s)).thread l).pc = h.1 ∧ ((t.crew (selCrew s)).thread l).run = .ready ∧
          (((t.crew (selCrew s)).thread l).preds.getLsbD 0 = p.lanes.any (fun f => f.lane == l)) ∧
          (∀ k, 1 ≤ k → k < 4 → ((t.crew (selCrew s)).thread l).preds.getLsbD k = false) ∧
          (∀ k, k < 4 → lane ((t.crew (selCrew s)).reg k).content l = lane (trapArg p k) l ∧
            ((t.crew (selCrew s)).thread l).taint.getLsbD k = false)) ∧
    (∀ l, l < 32 → lane (trapArg p 1) l = BitVec.ofNat 32 p.cls ∧
      (∀ x, p.lanes.find? (fun f => f.lane == l) = some x → lane (trapArg p 0) l = causeWord (x.cls, x.code) ∧
        lane (trapArg p 3) l ++ lane (trapArg p 2) l = x.addr) ∧
      (p.lanes.find? (fun f => f.lane == l) = none → ∀ k, k < 4 → k ≠ 1 → lane (trapArg p k) l = 0))

/-- R296 to R298: what the side buffer holds when a trap of an instruction is taken: the class, the trapping PC, the mask
of trapped lanes and of participants, the turn pointer and run counter, the sequence number one higher, handler scratch
zero; in the record of a thread that has not exited G0 to G3, and its resume PC. -/
def Sys2Proof.Claims.SideBufferAtEntry : Prop :=
  ∀ (s : State) (r : CrewRef) (p : PendingTrap), s.hasCrew r = true → p.async = false →
    let b := s.sideAt r p
    b.cls = BitVec.ofNat 32 p.cls ∧ b.tpc = p.tpc ∧ b.pmask = p.pmask ∧ b.seq = (s.keep r).side.seq + 1 ∧
    (∀ l, l < 32 → b.tmask.getLsbD l = p.lanes.any (fun f => f.lane == l)) ∧
    (∀ w ∈ b.hscr, w = 0) ∧ ((s.crew r).turn < 32 → (s.crew r).run < 128 →
      b.turn.toNat % 32 = (s.crew r).turn ∧ b.turn.toNat / 256 = (s.crew r).run) ∧
    b.flags.getLsbD 1 = (s.crew r).trapMode ∧
    ∀ l, l < 32 → ((s.crew r).thread l).run ≠ .exited → ∃ x, b.lanes[l]? = some x ∧
      x.spc = (if p.lanes.any (fun f => f.lane == l) then p.resume else ((s.crew r).thread l).pc) ∧
      (∀ k, k < 4 → x.saveG[k]? = some (lane ((s.crew r).reg k).content l)) ∧
      (p.lanes.any (fun f => f.lane == l) = false → x.cause = 0 ∧ x.addr = 0)

/-- R293, R296 to R298: taking a trap: the handler's start and the side buffer. Completes: trapEntry. -/
def Obligations.TrapEntryAndItsSideBuffer : Prop := Sys2Proof.Claims.TrapEntryStartsTheHandler ∧ Sys2Proof.Claims.SideBufferAtEntry

/-- R300: a TRET by some of the crew's threads holds them; once every thread that has not exited has issued it, and the
class is not terminal, each gets back G0 to G3, P0 to P3 and its PC from its lane record, the crew its mode, turn pointer
and run counter from the header, and it leaves the handler, to issue 16 cycles later. Outside a handler it raises
ILLEGAL with cause PRIV. -/
def Sys2Proof.Claims.TretReturns : Prop :=
  ∀ (ins : Instr) (f : L64), ((ins = .tret f) ∨ (ins = .tretS32 ∧ f = L64.neutral)) →
    ∀ (s : State) (i : Issue) (cls : Nat),
    (s.issues i { lNeeds f [] [] with head := true } = true → (s.crew i.ref).handling = some cls →
      (s.crew i.ref).gambit = none → (s.crew i.ref).dying = none → partL s i f ≠ 0 →
      partL s i f &&& ~~~ (s.crew i.ref).aliveLanes = 0 →
      let others := (s.crew i.ref).aliveLanes &&& ~~~ (partL s i f)
      let side := (s.keep i.ref).side
      ((∃ l, l < 32 ∧ others.getLsbD l = true ∧ ((s.crew i.ref).thread l).run ≠ .trap true) →
        ∃ t, exec ins s = .next t ∧ t.issue = none ∧ SameElse s t i.ref ∧ SameRegs (s.crew i.ref) (t.crew i.ref) ∧
          (t.crew i.ref).handling = some cls ∧
          ∀ l, l < 32 → (partL s i f).getLsbD l = true → ((t.crew i.ref).thread l).run = .trap true) ∧
      ((∀ l, l < 32 → others.getLsbD l = true → ((s.crew i.ref).thread l).run = .trap true) →
        terminalClass cls = false → (s.crew i.ref).creditsFor [0, 1, 2, 3] ≤ (s.crew i.ref).creditsFree →
        (∀ l, l < 32 → (s.crew i.ref).aliveLanes.getLsbD l = true → (side.lanes.getD l .zero).spc.getLsbD 0 = false) →
        ∃ t, exec ins s = .next t ∧ SameElse s t i.ref ∧ (t.crew i.ref).handling = none ∧
          (t.crew i.ref).trapMode = side.flags.getLsbD 1 ∧ (t.crew i.ref).turn = side.turn.toNat % 32 ∧
          (t.crew i.ref).run = side.turn.toNat / 256 % 128 ∧ (t.crew i.ref).resumeAt = s.cycle + 16 ∧
          ∀ l, l < 32 → (s.crew i.ref).aliveLanes.getLsbD l = true →
            ((t.crew i.ref).thread l).pc = (side.lanes.getD l .zero).spc ∧ ((t.crew i.ref).thread l).run = .ready ∧
            (∀ k, k < 4 → lane ((t.crew i.ref).reg k).content l = (side.lanes.getD l .zero).saveG.getD k 0 ∧
              ((t.crew i.ref).thread l).preds.getLsbD k = (side.lanes.getD l .zero).state.getLsbD (24 + k) ∧
              ((t.crew i.ref).thread l).taint.getLsbD k = (side.lanes.getD l .zero).state.getLsbD (28 + k)))) ∧
    (s.issue = some i → s.hasCrew i.ref = true → (s.crew i.ref).handling = none → (s.crew i.ref).gambit = none →
      i.part ≠ 0 → ∃ t, exec ins s = .next t ∧ Raised s t i 0 (sameCause i.part (0, 7)) false)

/-- R301 and R302: in a handler SYS.R writes the effective lanes of its destination with the header's word, the lane's
record or the trap control word; SYS.W begins a release point that carries its lanes' values. Outside a handler both raise
ILLEGAL with cause PRIV; for the trap control words in a handler in user mode that trap ends the context (R302). -/
def Sys2Proof.Claims.SideBufferInstructions : Prop :=
  (∀ (f : K64) (s : State) (i : Issue), s.issues i (kNeeds f [f.d.toNat] [f.d.toNat]) = true →
    (s.crew i.ref).handling.isSome = true → (sysSpace f = 2 → (s.crew i.ref).trapMode = true) →
    ∃ t, exec (.sysR f) s = .next t ∧ Retired s t i (slotOf f.sbs) (partK s i f) ∧ SamePreds (s.crew i.ref) (t.crew i.ref) ∧
      OneReg (s.crew i.ref) (t.crew i.ref) f.d.toNat (partK s i f)
        (fun l => s.sysWord i.ref (sysSpace f) (sysIndex f) l)) ∧
  (∀ (f : K64) (s : State) (i : Issue) (x : Content × Mask),
    s.issues i { kNeeds f [f.a.toNat] [] with bare := true, head := true } = true →
    (s.crew i.ref).handling.isSome = true → (sysSpace f = 2 → (s.crew i.ref).trapMode = true) →
    s.operand i f.a.toNat = .ok x → partK s i f ≠ 0 →
    ∃ t, exec (.sysW f) s = .next t ∧ SameMemory s t ∧ SameRegs (s.crew i.ref) (t.crew i.ref) ∧
      (∃ p, (t.crew i.ref).point = some p ∧ p.kind = .sysWrite (sysSpace f) (sysIndex f) x.1 ∧ p.lanes = partK s i f ∧
        p.sent = false) ∧
      (∀ l, l < 32 → i.part.getLsbD l = true → ((t.crew i.ref).thread l).run = .release .point)) ∧
  (∀ (ins : Instr) (f : K64), ((ins = .sysR f) ∨ (ins = .sysW f)) → ∀ (s : State) (i : Issue), s.issue = some i →
    s.hasCrew i.ref = true → (s.crew i.ref).handling = none → (s.crew i.ref).gambit = none → i.part ≠ 0 →
    ∃ t, exec ins s = .next t ∧ Raised s t i 0 (sameCause i.part (0, 7)) false) ∧
  (∀ (ins : Instr) (f : K64), ((ins = .sysR f) ∨ (ins = .sysW f)) → ∀ (s : State) (i : Issue) (cls : Nat),
    s.issue = some i → s.hasCrew i.ref = true → (s.crew i.ref).handling = some cls → sysSpace f = 2 →
    (s.crew i.ref).trapMode = false → (s.crew i.ref).gambit = none → i.part ≠ 0 →
    ∃ t, exec ins s = .next t ∧ (t.crew i.ref).dying = some 0)

/-- R300 to R302: TRET, SYS.R and SYS.W. Completes: tret, tretS32, sysR, sysW. -/
def Obligations.TrapReturnAndSideBufferInstructions : Prop := Sys2Proof.Claims.TretReturns ∧ Sys2Proof.Claims.SideBufferInstructions

/-- R188, R190 and R381: XBLK.ACQ gives a crew without a block the one its group reserved, or else a free one that no
waiting crew would get: G32 to G63 read as zero in every lane; it retires as a head, as it does when the crew holds
the block. XBLK.REL retires as a head, and the region before that head takes the effect that frees the block when it
releases. Completes: xblkAcq, xblkAcqS32, xblkRel, xblkRelS32. -/
def Obligations.ExtendedBlocks : Prop :=
  (∀ (ins : Instr) (f : L64), ((ins = .xblkAcq f) ∨ (ins = .xblkAcqS32 ∧ f = L64.neutral)) →
    ∀ (s : State) (i : Issue), s.issues i { lNeeds f [] [] with bare := true, head := true } = true →
    partL s i f ≠ 0 → (s.gslotOf i.ref).isSome = true → (s.launchOf i.ref).map (fun l => l.header.regs) = some 64 →
    ((s.crew i.ref).ext = true →
      ∃ t, exec ins s = .next t ∧ SameElse s t i.ref ∧ SameRegs (s.crew i.ref) (t.crew i.ref) ∧
        TookHead (s.crew i.ref) (t.crew i.ref) s.cycle) ∧
    (∀ k, (s.crew i.ref).ext = false → (s.sub i.core i.sub).granted i.slot = false →
      (s.sub i.core i.sub).blockFor (s.gslotOf i.ref) = some k →
      (∀ n w, (s.sub i.core i.sub).crews[n]? = some w → w.xwait.isSome = true → w.ext = false →
        (s.sub i.core i.sub).blockFor (s.gslotOf ⟨i.core, i.sub, n⟩) ≠ some k) →
      ∃ t, exec ins s = .next t ∧ SameMemory s t ∧ (t.crew i.ref).ext = true ∧
        (((t.sub i.core i.sub).blocks)[k]?).map (fun b => b.holder) = some (some i.slot) ∧
        (t.crew i.ref).regions.length = (s.crew i.ref).regions.length + 1 ∧
        ∀ l j, l < 32 → 32 ≤ j → j < 64 → lane ((t.crew i.ref).reg j).content l = 0 ∧
          ((t.crew i.ref).thread l).taint.getLsbD j = false)) ∧
  (∀ (ins : Instr) (f : L64), ((ins = .xblkRel f) ∨ (ins = .xblkRelS32 ∧ f = L64.neutral)) →
    ∀ (s : State) (i : Issue), s.issues i { lNeeds f [] [] with bare := true, head := true } = true →
    partL s i f ≠ 0 → (s.gslotOf i.ref).isSome = true →
    (∀ g, (s.crew i.ref).ext = true → (s.crew i.ref).regions.getLast? = some g →
      ∃ t, exec ins s = .next t ∧ SameMemory s t ∧ (t.crew i.ref).ext = false ∧
        ∃ h, (t.crew i.ref).regions[(s.crew i.ref).regions.length - 1]? = some h ∧ h.closed = some s.cycle ∧
          h.effects = g.effects ++ [Effect.freeBlock]) ∧
    ((s.crew i.ref).ext = false →
      ∃ t, exec ins s = .next t ∧ SameElse s t i.ref ∧ SameRegs (s.crew i.ref) (t.crew i.ref) ∧
        TookHead (s.crew i.ref) (t.crew i.ref) s.cycle))

namespace Sys2Proof.Claims

/-! ### What the statements about accesses say -/

/-- An instruction has issued and its group has gone on: no register, predicate or run state of its crew has changed, and
no other crew. -/
structure Issued (s t : State) (i : Issue) : Prop where
  issue : t.issue = none
  cycle : t.cycle = s.cycle
  crews : ∀ r, r ≠ i.ref → t.crew r = s.crew r
  crew : CrewSame (s.crew i.ref) (t.crew i.ref)
  regs : SameRegs (s.crew i.ref) (t.crew i.ref)
  preds : SamePreds (s.crew i.ref) (t.crew i.ref)
  pc : ∀ l, l < 32 → ((t.crew i.ref).thread l).pc =
    if i.part.getLsbD l then ((s.crew i.ref).thread l).pc + BitVec.ofNat 64 i.len else ((s.crew i.ref).thread l).pc
  run : ∀ l, l < 32 → ((t.crew i.ref).thread l).run = ((s.crew i.ref).thread l).run

/-- Every byte outside some ranges reads as before. -/
def SameBytesOutside (s t : State) (ranges : List (Loc × Nat)) : Prop :=
  ∀ p : Loc, (∀ x ∈ ranges, Loc.overlaps p 1 x.1 x.2 = false) → t.bytesAt p 1 = s.bytesAt p 1

/-- The page table entries that accesses mark as accessed (R67). -/
def marked (acc : List Access) : List (Loc × Nat) :=
  acc.filterMap (fun a => a.target.walk.map (fun w => (Loc.mem w.pteAddr, 8)))

/-- The lanes' accesses that passed their checks, and those that failed. -/
def checked (m : Mask) (f : Nat → Except LaneTrap Access) : List LaneTrap × List Access := splitLanes f m.lanes

/-- Accesses with the victim priority that the hint .LAST gives their lines (R312). -/
def hinted (f : M64) (x : List LaneTrap × List Access) : List LaneTrap × List Access :=
  (x.1, x.2.map (fun a => a.hinted (f.hint == 2)))

/-- A result is due in registers of lanes at a cycle: its content is fixed (R191). -/
def DueValue (s t : State) (i : Issue) (dst : List Nat) (part : Mask) (c : Content) (delay : Nat) : Prop :=
  ∃ q, (t.crew i.ref).loads.getLast? = some q ∧ q.kind = .value c (s.cycle + delay) ∧ q.dst = dst.map (fun k => (k, part)) ∧
    q.pc = i.pc

/-- A load has been requested: no memory has changed but the accessed marks of its translations, and it is the youngest
result due in the crew, for its destination registers, its lanes and their places; the slot it sets has risen (R211,
R305). -/
def LoadStarted (s t : State) (i : Issue) (part : Mask) (slot : Nat) (kind : LoadKind) (dst : List Nat) (size : Nat)
    (sx : Bool) (acc : List Access) : Prop :=
  Issued s t i ∧ SameBytesOutside s t (marked acc) ∧
  ∃ q, (t.crew i.ref).loads.getLast? = some q ∧ q.kind = kind ∧ q.dst = dst.map (fun k => (k, part)) ∧ q.size = size ∧
    q.sx = sx ∧ q.pc = i.pc ∧ q.part = i.part ∧
    q.reads.map (fun x => (x.lane, x.loc)) = acc.map (fun a => (a.lane, a.target.loc)) ∧
    ∃ e ∈ (t.crew i.ref).setters, e.id = q.setter ∧ e.slot = slot ∧ e.lanes = i.part

/-- What a load by address asks before it issues: no failing lane, nothing earlier to wait for, credits for its
destination, room for the records of an advance load. -/
def loadReady (s : State) (i : Issue) (part : Mask) (dst : List Nat) (size : Nat) (tainted : Mask) (advance : Bool)
    (x : List LaneTrap × List Access) : Prop :=
  part ≠ 0 ∧ x.1 = [] ∧ s.atomnOrder i x.2 size = none ∧ s.orderWait i x.2 tainted = none ∧
    (s.crew i.ref).creditsFor (dst.filter (fun k => k < 64)) ≤ (s.crew i.ref).creditsFree ∧
    (advance = true → newRecords (s.crew i.ref).inGambit size x.2 = [] ∨
      (((s.crew i.ref).gambit.map (fun g => g.records.length)).getD 0) +
        (newRecords (s.crew i.ref).inGambit size x.2).length ≤ Config.gambitEntries)

/-- A load instruction by an address pair is requested. l1 tells that it may take its data from L1 (R83). -/
def LoadOp (ins : Instr) (f : M64) (kind : LoadKind) (l1 memo advance : Bool) : Prop :=
  ∀ (s : State) (i : Issue), s.issues i (mNeeds f (pairRegs f.a.toNat ++ groupRegs f.d.toNat (groupLen f.sz.toNat)) []) = true →
    let size := sizeBytes f.sz.toNat
    let dst := groupRegs f.d.toNat (groupLen f.sz.toNat)
    let x := hinted f (checked (partM s i f) (fun l =>
      s.readAccess i.ref (s.memAccess i.ref .load size size l (s.addr i f l)) l1 false))
    loadReady s i (partM s i f) dst size ((s.crew i.ref).pairTaint f.a.toNat &&& partM s i f) advance x →
    (memo = true → ∀ k, s.ldKey i f (partM s i f) = some k → (s.sub i.core i.sub).hit k s.cycle = none) →
    ∃ t, exec ins s = .next t ∧ LoadStarted s t i (partM s i f) (slotOf f.sbs) kind (dst.filter (fun k => k < 64)) size
        (f.sx == 1) x.2 ∧
      (advance = true → ∀ g, (s.crew i.ref).gambit = some g → ∃ h, (t.crew i.ref).gambit = some h ∧
        h.records = g.records ++ newRecords g.lanes size x.2)

/-- A store is held (R156): without an open gambit it is one effect of its crew's current region, with one entry for each
line it touches; of lanes that are all in gambit it is in the gambit's buffer. No byte of memory has changed but the marks of
the translations it used. -/
def StoreHeld (ins : Instr) (s : State) (i : Issue) (e : StoreEff) (acc : List Access) : Prop :=
  ((s.crew i.ref).gambit = none → (s.crew i.ref).entriesUsed + (linesOf e.writes).length ≤ Config.quarantineEntries →
    ∀ q, (s.crew i.ref).regions.getLast? = some q →
    ∃ t, exec ins s = .next t ∧ Issued s t i ∧ SameBytesOutside s t (marked acc) ∧ ∃ h id,
      (t.crew i.ref).regions.getLast? = some h ∧ h.id = q.id ∧ h.effects = q.effects ++ [.store { e with setter := id }] ∧
      h.entries = q.entries + (linesOf e.writes).length) ∧
  (∀ g, (s.crew i.ref).gambit = some g → e.lanes &&& ~~~ g.lanes = 0 → g.storeAbort e = none → e.lanes ≠ 0 →
    ∃ t, exec ins s = .next t ∧ Issued s t i ∧ SameBytesOutside s t (marked acc) ∧
      ∃ h, (t.crew i.ref).gambit = some h ∧ h.lanes = g.lanes ∧ h.buffer = g.buffer ++ e.byLine)

/-- What a store instruction holds: for each lane its place and the bytes of its data registers (R306, R308). -/
def storeOf (s : State) (i : Issue) (f : M64) (desc : Option Nat) (acc : List Access) : StoreEff :=
  { setter := 0, desc := desc, rel := if f.ord = 1 then some f.scope.toNat else none, stats := [], qnt := false,
    lanes := partM s i f
    writes := acc.map (fun a => { lane := a.lane, loc := a.target.loc, page := a.target.page,
                                  bytes := (s.crew i.ref).dataBytes s.freeCtr f.d.toNat (sizeBytes f.sz.toNat) a.lane }) }

/-- A release point has begun (R165): its first head has retired, and its group waits in RELEASE. -/
def PointBegun (s t : State) (i : Issue) (kind : PointKind) (part : Mask) : Prop :=
  SameRegs (s.crew i.ref) (t.crew i.ref) ∧ SamePreds (s.crew i.ref) (t.crew i.ref) ∧
  (t.crew i.ref).regions.length = (s.crew i.ref).regions.length + 1 ∧ t.issue = none ∧
  (∃ p, (t.crew i.ref).point = some p ∧ p.kind = kind ∧ p.lanes = part ∧ p.issue = i.part ∧ p.sent = false ∧
    p.next = i.pc + BitVec.ofNat 64 i.len) ∧
  ∀ l, l < 32 → ((t.crew i.ref).thread l).pc = ((s.crew i.ref).thread l).pc ∧
    ((t.crew i.ref).thread l).run = if i.part.getLsbD l then .release .point else ((s.crew i.ref).thread l).run

/-- An effect is held in the crew's current region with some entries; nothing else of the device has changed. -/
def EffectHeld (s t : State) (i : Issue) (n : Nat) (p : Effect → Prop) : Prop :=
  Issued s t i ∧ SameMemory s t ∧ ∀ q, (s.crew i.ref).regions.getLast? = some q → ∃ h e, (t.crew i.ref).regions.getLast? = some h ∧
    h.id = q.id ∧ p e ∧ h.effects = q.effects ++ [e] ∧ h.entries = q.entries + n

/-- The issue group's threads that an instruction holds wait; the others of the group stand at the next instruction. -/
def HeldIn (s t : State) (i : Issue) (stay : Mask) (q : Nat → RunState) : Prop :=
  t.issue = none ∧ SameMemory s t ∧ SameRegs (s.crew i.ref) (t.crew i.ref) ∧ SamePreds (s.crew i.ref) (t.crew i.ref) ∧
  ∀ l, l < 32 →
    ((t.crew i.ref).thread l).pc = (if i.part.getLsbD l && !stay.getLsbD l then
      ((s.crew i.ref).thread l).pc + BitVec.ofNat 64 i.len else ((s.crew i.ref).thread l).pc) ∧
    ((t.crew i.ref).thread l).run = if stay.getLsbD l then q l else ((s.crew i.ref).thread l).run

end Sys2Proof.Claims

/-! ### Results of variable latency, loads and stores -/

/-- R277, R278 and R283: the results of LRED and LMATCH are due 10 cycles after issue, that of LOCQ 12 cycles after; LOCQ
gives 0 where a load of one byte would fault, and never traps. With NWB, or to a discarded destination, LRED and LMATCH
write no register. -/
def Sys2Proof.Claims.ResultsOfVariableLatency : Prop :=
  (∀ (ins : Instr) (f : L64) (g : Srcs → Content × Mask), ((ins = .lred f ∧ g = lredRes f) ∨ (ins = .lmatch f ∧ g = lmatchRes f)) →
    ∀ (s : State) (i : Issue) (x : Srcs),
    s.issues i (lNeeds f [f.d.toNat, f.a.toNat] (if f.nwb == 1 then [] else [f.d.toNat])) = true →
    s.sources i f true false false = .ok x →
    (f.nwb = 0 → f.d.toNat < 64 → x.part ≠ 0 →
      ∃ t, exec ins s = .next t ∧ Issued s t i ∧ SameMemory s t ∧ DueValue s t i [f.d.toNat] x.part (g x).1 10) ∧
    (f.nwb = 1 ∨ 64 ≤ f.d.toNat ∨ x.part = 0 → ∃ t, exec ins s = .next t ∧ Retired s t i (slotOf f.sbs) x.part ∧ SameRegs (s.crew i.ref) (t.crew i.ref) ∧
      SamePreds (s.crew i.ref) (t.crew i.ref))) ∧
  (∀ (f : M64) (s : State) (i : Issue), s.issues i (mNeeds f (pairRegs f.a.toNat ++ groupRegs f.d.toNat 1) []) = true →
    partM s i f ≠ 0 → f.d.toNat < 64 → (s.crew i.ref).creditsFor [f.d.toNat] ≤ (s.crew i.ref).creditsFree →
    ∃ t c, exec (.locq f) s = .next t ∧ Issued s t i ∧ SameMemory s t ∧ DueValue s t i [f.d.toNat] (partM s i f) c 12 ∧
      ∀ l, l < 32 → (partM s i f).getLsbD l = true →
        (∀ y, s.resolve i.ref l .load (s.addr i f l) 1 = .ok y → lane c l = s.locqWord i.core y) ∧
        (∀ e, s.resolve i.ref l .load (s.addr i f l) 1 = .error e → lane c l = 0))

/-- R191 and R196: a result that was computed at issue, written when it is due: in the lanes it is still due in, its
destination holds it; no other register changes. -/
def Sys2Proof.Claims.LateResultsAreWritten : Prop :=
  ∀ (s : State) (r : CrewRef) (q : LoadRec) (c : Content) (due d : Nat) (m : Mask), s.hasCrew r = true →
    q.kind = .value c due → q.dst = [(d, m)] → q.reads = [] → q.snaps = [] → q.memo = none → d < 64 → m ≠ 0 →
    (∀ l, l < 32 → lane (((s.finishLoad r q).crew r).reg d).content l =
      if m.getLsbD l then lane c l else lane ((s.crew r).reg d).content l) ∧
    (∀ k, k ≠ d → ((s.finishLoad r q).crew r).reg k = (s.crew r).reg k) ∧ SameMemory s (s.finishLoad r q) ∧
    SamePreds (s.crew r) ((s.finishLoad r q).crew r)

/-- R191, R196, R277, R278 and R283: results of variable latency, and results that are written late. Completes: lred,
lmatch, locq. -/
def Obligations.VariableLatencyAndLateResults : Prop := Sys2Proof.Claims.ResultsOfVariableLatency ∧ Sys2Proof.Claims.LateResultsAreWritten

/-- R307, R310, R311 and R271: LD, plain or acquire, LDC, LDA, SLD and DQNT whose lanes pass every check are
requested; an LDA of in-gambit lanes takes its advance records; an LD that the transposition table holds takes its
result from there. Completes: ld, ldc, lda, sld, dqnt. -/
def Obligations.LoadsAreRequested : Prop :=
  (∀ f : M64, f.ord = 1 → LoadOp (.ld f) f (.acquire f.scope.toNat) false false false) ∧
  (∀ f : M64, f.ord ≠ 1 → LoadOp (.ld f) f .plain true true false) ∧
  (∀ f : M64, LoadOp (.ldc f) f (.consume f.scope.toNat) false false false) ∧
  (∀ f : M64, LoadOp (.lda f) f .plain true false true) ∧
  (∀ (f : M64) (s : State) (i : Issue),
    s.issues i (mNeeds f (namesOf [f.a.toNat] ++ groupRegs f.d.toNat (groupLen f.sz.toNat)) []) = true →
    let size := sizeBytes f.sz.toNat
    let dst := groupRegs f.d.toNat (groupLen f.sz.toNat)
    let x := checked (partM s i f) (fun l =>
      s.readAccess i.ref (s.offAccess i.ref .load size size l (s.offset i f l)) false false)
    loadReady s i (partM s i f) dst size ((s.crew i.ref).sourceTaint f.a.toNat &&& partM s i f) false x →
    ∃ t, exec (.sld f) s = .next t ∧ LoadStarted s t i (partM s i f) (slotOf f.sbs)
      (if f.ord = 1 then .scratchAcquire f.scope.toNat else .scratch) (dst.filter (fun k => k < 64)) size (f.sx == 1) x.2) ∧
  (∀ (f : M64) (s : State) (i : Issue), s.issues i (mNeeds f (pairRegs f.a.toNat ++ groupRegs f.d.toNat 4) []) = true →
    let l0 := Mask.lowest (partM s i f)
    let x := splitLanes (fun l => s.readAccess i.ref (s.memAccess i.ref .load 64 64 l (s.addr i f l)) true true) [l0]
    loadReady s i (partM s i f) (groupRegs f.d.toNat 4) 64
      (if ((s.crew i.ref).pairTaint f.a.toNat).getLsbD l0 then BitVec.allOnes 32 else 0) false x →
    ∃ t, exec (.dqnt f) s = .next t ∧ LoadStarted s t i (partM s i f) (slotOf f.sbs) .dequant
      ((groupRegs f.d.toNat 4).filter (fun k => k < 64)) 64 false x.2) ∧
  (∀ (f : M64) (s : State) (i : Issue) (k : XEntry) (c : Content), f.ord ≠ 1 →
    s.issues i (mNeeds f (pairRegs f.a.toNat ++ groupRegs f.d.toNat (groupLen f.sz.toNat)) []) = true →
    partM s i f ≠ 0 → f.d.toNat < 64 → (s.crew i.ref).creditsFor [f.d.toNat] ≤ (s.crew i.ref).creditsFree →
    s.ldKey i f (partM s i f) = some k → (s.sub i.core i.sub).hit k s.cycle = some c →
    ∃ t, exec (.ld f) s = .next t ∧ Retired s t i (slotOf f.sbs) (partM s i f) ∧ SamePreds (s.crew i.ref) (t.crew i.ref) ∧ SameMemory s t ∧
      OneReg (s.crew i.ref) (t.crew i.ref) f.d.toNat (partM s i f) (fun l => lane c l))

/-- R306 to R311, R268 and R269: ST, ST.BLK, SST and QNT whose lanes pass every check are held with their lanes'
places and bytes; QNT with the block and the descriptor that it makes of its crew's elements. Completes: st, stBlk,
sst, qnt. -/
def Obligations.StoresAreHeld : Prop :=
  (∀ (ins : Instr) (f : M64) (desc : Option Nat) (va : State → Issue → Nat → Nat),
    ((ins = .st f ∧ desc = none ∧ va = fun s i l => s.addr i f l) ∨
     (ins = .stBlk f ∧ desc = some f.off.toNat ∧ va = fun s i l => (s.crew i.ref).pair s.freeCtr f.a.toNat l)) →
    ∀ (s : State) (i : Issue),
    s.issues i (mNeeds f (pairRegs f.a.toNat ++ groupRegs f.d.toNat (groupLen f.sz.toNat)) []) = true → partM s i f ≠ 0 →
    let size := sizeBytes f.sz.toNat
    let x := hinted f (checked (partM s i f) (fun l => s.memAccess i.ref .store size size l (va s i l)))
    x.1 = [] → s.windowOrder i x.2 = none → StoreHeld ins s i (storeOf s i f desc x.2) x.2) ∧
  (∀ (f : M64) (s : State) (i : Issue),
    s.issues i (mNeeds f (namesOf [f.a.toNat] ++ groupRegs f.d.toNat (groupLen f.sz.toNat)) []) = true → partM s i f ≠ 0 →
    let size := sizeBytes f.sz.toNat
    let x := hinted f (checked (partM s i f) (fun l => s.offAccess i.ref .store size size l (s.offset i f l)))
    x.1 = [] → s.windowOrder i x.2 = none → StoreHeld (.sst f) s i (storeOf s i f none x.2) x.2) ∧
  (∀ (f : M64) (s : State) (i : Issue) (a : Access),
    s.issues i (mNeeds f (pairRegs f.a.toNat ++ groupRegs f.d.toNat 5) []) = true → partM s i f ≠ 0 →
    let w := s.crew i.ref
    let l0 := Mask.lowest (partM s i f)
    let c := (w.read s.freeCtr (f.d.toNat + 4) l0).toNat
    let b := qntBlock c (partM s i f) (fun k l => w.read s.freeCtr (f.d.toNat + k) l)
    (partM s i f &&& w.inGambit = 0 ∨ partM s i f &&& w.inGambit = partM s i f) → qntBad c = false →
    s.memAccess i.ref .store 64 64 l0 (s.addr i f l0) = .ok a → s.windowOrder i [a] = none →
    StoreHeld (.qnt f) s i
      { setter := 0, desc := some b.2.1, rel := none, stats := b.2.2, qnt := true, lanes := partM s i f,
        writes := [{ lane := l0, loc := a.target.loc, page := a.target.page, bytes := b.1 }] } [a])

/-- R313 to R317: ATOM and SATOM whose lanes pass every check begin a release point with their operands; ATOMN is held
with one entry for each line. No byte of memory has changed but the marks of the translations. Completes: atom, satom,
atomn. -/
def Obligations.AtomicsAsIssued : Prop :=
  (∀ (f : M64) (s : State) (i : Issue),
    s.issues i { mNeeds f (pairRegs f.a.toNat ++ atomRegs f) [] with bare := true, head := true } = true → partM s i f ≠ 0 →
    let n := sizeBytes f.sz.toNat
    let x := checked (partM s i f) (fun l =>
      s.readAccess i.ref (s.memAccess i.ref .atomic n n l ((s.crew i.ref).pair s.freeCtr f.a.toNat l)) false false)
    x.1 = [] → ∃ t, exec (.atom f) s = .next t ∧ SameBytesOutside s t (marked x.2) ∧
      PointBegun s t i (.atom (s.atomEffect i f x.2) f.d.toNat (f.d.toNat < 64)) (partM s i f)) ∧
  (∀ (f : M64) (s : State) (i : Issue),
    s.issues i { mNeeds f (namesOf [f.a.toNat] ++ atomRegs f) [] with bare := true, head := true } = true → partM s i f ≠ 0 →
    let n := sizeBytes f.sz.toNat
    let x := checked (partM s i f) (fun l => s.readAccess i.ref (s.offAccess i.ref .atomic n n l
      ((lane ((s.crew i.ref).source s.freeCtr f.a.toNat) l).toNat : Nat)) false false)
    x.1 = [] → ∃ t, exec (.satom f) s = .next t ∧ SameBytesOutside s t (marked x.2) ∧
      PointBegun s t i (.atom (s.atomEffect i f x.2) f.d.toNat (f.d.toNat < 64)) (partM s i f)) ∧
  (∀ (f : M64) (s : State) (i : Issue) (q : Region),
    s.issues i { mNeeds f (pairRegs f.a.toNat ++ atomRegs f) [] with bare := true } = true → partM s i f ≠ 0 →
    (s.crew i.ref).regions.getLast? = some q →
    let n := sizeBytes f.sz.toNat
    let x := checked (partM s i f) (fun l =>
      s.readAccess i.ref (s.memAccess i.ref .atomic n n l ((s.crew i.ref).pair s.freeCtr f.a.toNat l)) false false)
    let lines := ((x.2.map (fun a => a.target.loc.line)).eraseDups).length
    x.1 = [] → (s.crew i.ref).entriesUsed + lines ≤ Config.quarantineEntries →
    ∃ t id h, exec (.atomn f) s = .next t ∧ Issued s t i ∧ SameBytesOutside s t (marked x.2) ∧
      (t.crew i.ref).regions.getLast? = some h ∧ h.id = q.id ∧ h.entries = q.entries + lines ∧
      h.effects = q.effects ++ [.atomn { s.atomEffect i f x.2 with setter := id }])

/-- R102, R322 and R323: a FENCE with no covered access left goes on, and at cluster scope or wider leaves no line in
its core's L1; while a request of its threads is covered, its group waits. CACHE goes on, and its first two operations
leave no named line, or no line, in L1. Completes: fence, cache. -/
def Obligations.FencesAndCacheOperations : Prop :=
  (∀ (f : M64) (s : State) (i : Issue), s.issues i { mNeeds f [] [] with bare := true } = true → partM s i f ≠ 0 →
    let q := s.fenceBlocked i.ref (partM s i f) (f.hint == 1) f.scope.toNat
    (q.1 = false → q.2 = false → ∃ t, exec (.fence f) s = .next t ∧ Issued s t i ∧ SameMemory s t ∧
      (f.scope ≠ 0 → (t.core i.core).l1 = [])) ∧
    (q.1 = false → q.2 = true → ∃ t, exec (.fence f) s = .next t ∧ HeldIn s t i i.part (fun _ => .release .fence))) ∧
  (∀ (f : M64) (s : State) (i : Issue), s.issues i (mNeeds f (pairRegs f.a.toNat) []) = true → partM s i f ≠ 0 →
    ∃ t, exec (.cache f) s = .next t ∧ Issued s t i ∧ SameMemory s t ∧
      (f.sx = 0 → f.hint = 0 → ∀ l x a, l < 32 → (partM s i f).getLsbD l = true →
        s.resolve i.ref l .load (s.addr i f l) 1 = .ok x → x.loc = .mem a → ∀ y ∈ (t.core i.core).l1, y.line ≠ a / 128) ∧
      (f.sx = 0 → f.hint = 1 → (t.core i.core).l1 = []))

/-! ### Barriers -/

/-- R325 to R328: BARI, BARA and BARX hold their update in the current region with one entry: the binding of an object with
its EXPECT and WCLASS, an arrival of a count, an arrival that adds expected bytes. -/
def Sys2Proof.Claims.BarrierUpdatesAreHeld : Prop :=
  (∀ (f : M64) (s : State) (i : Issue) (g : Group) (off : Nat),
    s.issues i { mNeeds f (namesOf [f.a.toNat, f.d.toNat]) [] with bare := true } = true → partM s i f ≠ 0 →
    (s.gslotOf i.ref).isSome = true → s.groupOf i.ref = some g →
    let l0 := Mask.lowest (partM s i f)
    let v := (lane ((s.crew i.ref).source s.freeCtr f.d.toNat) l0).toNat
    s.barOffset i f l0 true = .ok off → v % 65536 ≠ 0 → (v / 65536 = 0 ∨ (12 ≤ v / 65536 ∧ v / 65536 ≤ 30)) →
    (off :: (g.barriers ++ s.pendingBinds i.core g)).eraseDups.length ≤ g.barrierLimit →
    (s.crew i.ref).entriesUsed + 1 ≤ Config.quarantineEntries →
    ∃ t, exec (.bari f) s = .next t ∧ EffectHeld s t i 1 (fun e => e = .bari off (v % 65536) (v / 65536))) ∧
  (∀ (f : M64) (s : State) (i : Issue) (off : Nat),
    s.issues i { mNeeds f (namesOf (f.a.toNat :: (if f.hint == 0 then [f.d.toNat] else []))) [] with bare := true } = true →
    partM s i f ≠ 0 → (s.gslotOf i.ref).isSome = true →
    let l0 := Mask.lowest (partM s i f)
    s.barOffset i f l0 false = .ok off → (s.crew i.ref).entriesUsed + 1 ≤ Config.quarantineEntries →
    ∃ t, exec (.bara f) s = .next t ∧ EffectHeld s t i 1 (fun e => e = .bara off
      (if f.hint = 0 then (lane ((s.crew i.ref).source s.freeCtr f.d.toNat) l0).toNat % 65536
       else if f.hint = 1 then (partM s i f).lanes.length else 1) (partM s i f))) ∧
  (∀ (f : M64) (s : State) (i : Issue) (off : Nat),
    s.issues i { mNeeds f (namesOf [f.a.toNat, f.d.toNat]) [] with bare := true } = true → partM s i f ≠ 0 →
    (s.gslotOf i.ref).isSome = true →
    let l0 := Mask.lowest (partM s i f)
    s.barOffset i f l0 false = .ok off → (s.crew i.ref).entriesUsed + 1 ≤ Config.quarantineEntries →
    ∃ t, exec (.barx f) s = .next t ∧ EffectHeld s t i 1 (fun e => e = .barx off
      (lane ((s.crew i.ref).source s.freeCtr f.d.toNat) l0) (partM s i f)))

/-- R329, R330 and R348: BARW holds the effective threads whose Gd[0] is the object's PARITY, and TLWAIT those whose number
the counter has not reached; the other effective ones return 24 and 8 cycles after issue, at the next instruction. BART gives
bits 95 to 64 of the object. -/
def Sys2Proof.Claims.BarrierAndTimelineWaits : Prop :=
  (∀ (f : M64) (s : State) (i : Issue) (g : Group) (off : Nat),
    s.issues i { mNeeds f (namesOf [f.a.toNat, f.d.toNat]) [] with bare := true } = true → partM s i f ≠ 0 →
    (s.gslotOf i.ref).isSome = true → s.groupOf i.ref = some g → (s.crew i.ref).canHead = true → (s.crew i.ref).gambit = none →
    s.barOffset i f (Mask.lowest (partM s i f)) false = .ok off →
    let par := (s.barObj i.core g off).parity
    ∃ t, exec (.barw f) s = .next t ∧ HeldIn s t i (partM s i f) (fun l => .barrier
      (if (lane ((s.crew i.ref).source s.freeCtr f.d.toNat) l).getLsbD 0 == par then .parity off par
       else .returns (s.cycle + 24)) s.cycle)) ∧
  (∀ (f : M64) (s : State) (i : Issue) (g : Group) (off : Nat), f.d.toNat < 64 →
    s.issues i { mNeeds f (namesOf [f.a.toNat, f.d.toNat]) [] with bare := false } = true → partM s i f ≠ 0 →
    (s.gslotOf i.ref).isSome = true → s.groupOf i.ref = some g →
    let l0 := Mask.lowest (partM s i f)
    s.barOffset i f l0 false = .ok off →
    s.orderWait i [{ lane := l0, va := off, target := { loc := .scratch i.core (g.scrBase + off), page := .window, walk := none,
                                                        ownVault := false } }] 0 = none →
    (s.crew i.ref).creditsFor [f.d.toNat] ≤ (s.crew i.ref).creditsFree →
    ∃ t, exec (.bart f) s = .next t ∧ Issued s t i ∧ SameMemory s t ∧ ∃ c, DueValue s t i [f.d.toNat] (partM s i f) c 24 ∧
      ∀ l, l < 32 → (lane c l).toNat = (s.barObj i.core g off).toNum / 2 ^ 64 % 2 ^ 32) ∧
  (∀ (f : L64) (s : State) (i : Issue) (g : Group) (tl : Timeline),
    s.issues i { lNeeds f [f.a.toNat, f.a.toNat + 1] [] with bare := true } = true → partL s i f ≠ 0 →
    (s.gslotOf i.ref).isSome = true → s.groupOf i.ref = some g → g.timelines[f.c.toNat % 8]? = some tl →
    (s.crew i.ref).canHead = true → (s.crew i.ref).gambit = none →
    let n := fun l => (s.crew i.ref).pair s.freeCtr f.a.toNat l
    ∃ t, exec (.tlwait f) s = .next t ∧ HeldIn s t i (partL s i f) (fun l => .barrier
      (if tl.counter < n l then .timeline (f.c.toNat % 8) (n l) else .returns (s.cycle + 8)) s.cycle)) ∧
  (∀ (w : Crew) (l at_ since now : Nat), l < w.threads.length → (w.thread l).run = .barrier (.returns at_) since → at_ ≤ now →
    (w.wake now).thread l = { w.thread l with pc := (w.thread l).pc + 8, run := .ready })

/-- R325 to R330 and R348: barrier updates are held; waits hold their threads, and let them go. Completes: bari, bara,
barx, barw, bart, tlwait. -/
def Obligations.BarrierUpdatesAndWaits : Prop := Sys2Proof.Claims.BarrierUpdatesAreHeld ∧ Sys2Proof.Claims.BarrierAndTimelineWaits

/-- R327: the end of an update: a phase completes when neither arrivals nor bytes remain: the parity flips, the count of
phases rises, the arrivals expected start again; an arrival of more than remain sets OVF. -/
def Obligations.BarrierPhases : Prop :=
  ∀ (o : BarObj) (c : Nat) (b : Word),
    (c < o.remain → o.arrive c = { o with remain := o.remain - c }) ∧
    (c = o.remain → o.bytes ≠ 0 → o.arrive c = { o with remain := 0 }) ∧
    (c = o.remain → o.bytes = 0 → o.arrive c =
      { o with parity := !o.parity, pcount := (o.pcount + 1) % 2 ^ 31, remain := o.expect, bytes := 0 }) ∧
    (o.remain < c → (o.arrive c).ovf = true) ∧
    (1 < o.remain → o.bytes + b.toNat < 2 ^ 32 → o.expectBytes b = { o with remain := o.remain - 1, bytes := o.bytes + b.toNat }) ∧
    (∀ n, n < 2 ^ 32 → n < o.bytes → o.bytes < 2 ^ 32 → o.credit n = { o with bytes := o.bytes - n }) ∧
    (∀ n, n < 2 ^ 32 → n = o.bytes → o.remain = 0 → (o.credit n).parity = !o.parity ∧ (o.credit n).remain = o.expect)

namespace Sys2Proof.Claims

/-! ### What the statements about engines say -/

/-- What an engine instruction needs before it issues (R334). -/
def engNeeds (f : L64) (names writes : List Nat) : Needs := { lNeeds f names writes with bare := true }

/-- The issuing lane of an engine instruction: the lowest effective one (R334). -/
def lane0 (s : State) (i : Issue) (f : L64) : Nat := Mask.lowest (partL s i f)

/-- A command has been accepted (R336): it is the youngest of its unit, with the number its timeline gives it and its
operands as read, not yet started; its release is one effect of the crew's current region. -/
structure Accepted (s t : State) (i : Issue) (gslot unit tl : Nat) (work : EngWork) : Prop where
  issue : t.issue = none
  cycle : t.cycle = s.cycle
  crew : CrewSame (s.crew i.ref) (t.crew i.ref)
  preds : SamePreds (s.crew i.ref) (t.crew i.ref)
  pc : ∀ l, l < 32 → ((t.crew i.ref).thread l).pc =
    if i.part.getLsbD l then ((s.crew i.ref).thread l).pc + BitVec.ofNat 64 i.len else ((s.crew i.ref).thread l).pc
  run : ∀ l, l < 32 → ((t.crew i.ref).thread l).run = ((s.crew i.ref).thread l).run
  queued : ∀ e g, (s.core i.core).engines[unit]? = some e → s.group i.core gslot = some g → ∃ e' op,
    (t.core i.core).engines[unit]? = some e' ∧ e'.ops = e.ops ++ [op] ∧ op.work = work ∧ op.tl = tl ∧ op.gslot = gslot ∧
    op.crew = i.ref ∧ op.pc = i.pc ∧ op.released = false ∧ op.started = none ∧ op.step = 0 ∧ op.landed = 0 ∧ op.dead = false ∧
    op.num = ((g.timelines.getD tl .reset).take).1 ∧
    ∀ q, (s.crew i.ref).regions.getLast? = some q → ∃ h, (t.crew i.ref).regions.getLast? = some h ∧ h.id = q.id ∧
      h.effects = q.effects ++ [.engine unit op.id] ∧ h.entries = q.entries + 1

/-- An engine instruction may act: it issues, some lane is effective, and its crew is of a group that holds a group slot. -/
def engReady (s : State) (i : Issue) (f : L64) (names writes : List Nat) (gslot : Nat) : Prop :=
  s.issues i (engNeeds f names writes) = true ∧ partL s i f ≠ 0 ∧ s.gslotOf i.ref = some gslot

/-- A copy of some runs is accepted by the context that MX names, when every range passes its checks. -/
def CopyOp (ins : Instr) (f : L64) (s : State) (i : Issue) (gslot : Nat) (runs : List VRun) : Prop :=
  ∀ l credit, s.resolveRuns i.ref (lane0 s i f) (pieces runs) = .ok l → s.creditOf i f (lane0 s i f) = .ok credit →
    s.acceptWait i (lane0 s i f) f.mx.toNat
      ((((s.crew i.ref).pairTaint f.a.toNat ||| (s.crew i.ref).pairTaint f.d.toNat) &&& partL s i f).getLsbD (lane0 s i f)) = none →
    s.strongFirst i (lane0 s i f) (l.flatMap (fun x => [x.1.srcPage, x.1.dstPage])) = none →
    ∃ t, exec ins s = .next t ∧ Accepted s t i gslot f.mx.toNat f.mx.toNat (.copy (l.map (fun x => x.1)) credit) ∧
      SameRegs (s.crew i.ref) (t.crew i.ref) ∧
      SameBytesOutside s t (l.flatMap (fun x => (x.2.1.walk.toList ++ x.2.2.1.walk.toList).map (fun w => (Loc.mem w.pteAddr, 8))))

end Sys2Proof.Claims

/-! ### Engine commands -/

/-- R336, R342 to R347: CPY of a number of bytes, CPYT of a shape and CPYG of a gather record are accepted with the runs that
they copy, when their operands are aligned, their records are in bounds and in their limits, and every range passes. -/
def Sys2Proof.Claims.CopiesAreAccepted : Prop :=
  (∀ (f : L64) (s : State) (i : Issue) (gslot : Nat),
    engReady s i f [f.d.toNat, f.d.toNat + 1, f.a.toNat, f.a.toNat + 1, f.b.toNat, f.c.toNat] [] gslot →
    let src := s.pairL0 i f.a (lane0 s i f)
    let dst := s.pairL0 i f.d (lane0 s i f)
    let n := (s.regL0 i f.b (lane0 s i f)).toNat
    src % 16 = 0 → dst % 16 = 0 → n % 16 = 0 → CopyOp (.cpy f) f s i gslot (if n = 0 then [] else [⟨src, dst, n⟩])) ∧
  (∀ (f : L64) (s : State) (i : Issue) (gslot : Nat) (b : List Byte),
    engReady s i f [f.d.toNat, f.d.toNat + 1, f.a.toNat, f.a.toNat + 1, f.b.toNat, f.c.toNat] [] gslot →
    let src := s.pairL0 i f.a (lane0 s i f)
    let dst := s.pairL0 i f.d (lane0 s i f)
    s.record i (lane0 s i f) (s.regL0 i f.b (lane0 s i f)).toNat 128 64 = .ok b → shapeBad b = false →
    shapeMisaligned b src dst = none → CopyOp (.cpyt f) f s i gslot (shapeRuns b src dst)) ∧
  (∀ (f : L64) (s : State) (i : Issue) (gslot : Nat) (b idx : List Byte),
    engReady s i f [f.d.toNat, f.d.toNat + 1, f.a.toNat, f.a.toNat + 1, f.b.toNat, f.c.toNat] [] gslot →
    let src := s.pairL0 i f.a (lane0 s i f)
    let dst := s.pairL0 i f.d (lane0 s i f)
    s.record i (lane0 s i f) (s.regL0 i f.b (lane0 s i f)).toNat 32 16 = .ok b → gatherBad b = false →
    s.record i (lane0 s i f) (field b 0 4) (4 * field b 4 4) 4 = .ok idx → src % 16 = 0 → dst % 16 = 0 →
    CopyOp (.cpyg f) f s i gslot (gatherRuns b idx src dst))

/-- R338 and R340: CPY raises ALIGN with cause 3 in its issuing lane when its source, its destination or its length is not a
multiple of 16; CPY, CPYT and CPYG of a handler crew raise RESOURCE HANDLER. -/
def Sys2Proof.Claims.CopiesTrap : Prop :=
  (∀ (f : L64) (s : State) (i : Issue) (gslot : Nat),
    engReady s i f [f.d.toNat, f.d.toNat + 1, f.a.toNat, f.a.toNat + 1, f.b.toNat, f.c.toNat] [] gslot →
    (s.crew i.ref).gambit = none → (s.crew i.ref).handling = none →
    let src := s.pairL0 i f.a (lane0 s i f)
    let dst := s.pairL0 i f.d (lane0 s i f)
    let n := (s.regL0 i f.b (lane0 s i f)).toNat
    ∀ x, (src % 16 ≠ 0 ∧ x = src) ∨ (src % 16 = 0 ∧ dst % 16 ≠ 0 ∧ x = dst) ∨
        (src % 16 = 0 ∧ dst % 16 = 0 ∧ n % 16 ≠ 0 ∧ x = n) →
      ∃ t, exec (.cpy f) s = .next t ∧ Raised s t i 3 [⟨lane0 s i f, 3, 3, BitVec.ofNat 64 x, 0⟩] false) ∧
  (∀ (ins : Instr) (f : L64), (ins = .cpy f ∨ ins = .cpyt f ∨ ins = .cpyg f) → ∀ (s : State) (i : Issue),
    s.issues i (engNeeds f [f.d.toNat, f.d.toNat + 1, f.a.toNat, f.a.toNat + 1, f.b.toNat, f.c.toNat] []) = true →
    (s.crew i.ref).gambit = none → (s.crew i.ref).handling = none → partL s i f ≠ 0 → s.gslotOf i.ref = none →
    ∃ t, exec ins s = .next t ∧ Raised s t i 11 (sameCause (partL s i f) (11, 3)) false)

/-- R336, R338, R340, R342 to R347: copies: accepted, or trapped. Completes: cpy, cpyt, cpyg. -/
def Obligations.CopiesAreAcceptedOrTrap : Prop := Sys2Proof.Claims.CopiesAreAccepted ∧ Sys2Proof.Claims.CopiesTrap

/-- R349 to R361: TMAC, TCONV, TDRAIN, TCTL.ZERO, TCTL.LOAD and TCTL.STAT are accepted by the tile engine with what
their blocks and records name, when these pass their checks; TCTL.STAT's register is due. Completes: tmac, tconv,
tdrain, tctlZero, tctlLoad, tctlStat. -/
def Obligations.TileCommandsAreAccepted : Prop :=
  (∀ (ins : Instr) (f : L64) (s : State) (i : Issue) (gslot : Nat) (p : TileMul), engReady s i f [f.a.toNat] [] gslot →
    ((ins = .tmac f ∧ s.tmacBlock i (lane0 s i f) (s.regL0 i f.a (lane0 s i f)).toNat = .ok p) ∨
     (ins = .tconv f ∧ s.tconvBlock i (lane0 s i f) (s.regL0 i f.a (lane0 s i f)).toNat = .ok p)) →
    s.acceptWait i (lane0 s i f) 4 false = none →
    ∃ t, exec ins s = .next t ∧ Accepted s t i gslot 4 4 (.mul p) ∧ SameMemory s t ∧
      SameRegs (s.crew i.ref) (t.crew i.ref)) ∧
  (∀ (f : L64) (s : State) (i : Issue) (gslot : Nat) (b : List Byte) (rows : List (List (Target × Nat))),
    engReady s i f [f.a.toNat] [] gslot →
    let off := (s.regL0 i f.a (lane0 s i f)).toNat
    let p := drainOf b
    let dst := field b 0 8
    let dld := field b 8 4
    s.record i (lane0 s i f) off 32 32 = .ok b → drainBad b = false → p.tile < s.tilesOf i.ref → dst % 64 = 0 →
    s.drainRows i (lane0 s i f) dst dld p = .ok rows → (p.add = true → s.addRange dst dld p rows.flatten = true) →
    s.strongFirst i (lane0 s i f) (rows.flatten.map (fun x => x.1.page)) = none →
    s.acceptWait i (lane0 s i f) 4 false = none →
    ∃ t, exec (.tdrain f) s = .next t ∧
      Accepted s t i gslot 4 4 (.drain { p with rows := rows.map (fun r => r.map (fun x => (x.1.loc, x.1.page))) }) ∧
      SameRegs (s.crew i.ref) (t.crew i.ref)) ∧
  (∀ (f : L64) (s : State) (i : Issue) (gslot : Nat), engReady s i f [] [] gslot → f.c.toNat / 8 % 8 < s.tilesOf i.ref →
    s.acceptWait i (lane0 s i f) 4 false = none →
    ∃ t, exec (.tctlZero f) s = .next t ∧ Accepted s t i gslot 4 4 (.tzero (f.c.toNat / 8 % 8)) ∧ SameMemory s t ∧
      SameRegs (s.crew i.ref) (t.crew i.ref)) ∧
  (∀ (f : L64) (s : State) (i : Issue) (gslot : Nat), engReady s i f [f.a.toNat] [] gslot → f.c.toNat / 8 % 8 < s.tilesOf i.ref →
    let off := (s.regL0 i f.a (lane0 s i f)).toNat
    off % 64 = 0 → s.inAllocation i off (if f.c.getLsbD 2 then 16900 else 16384) = true →
    s.acceptWait i (lane0 s i f) 4 false = none →
    ∃ t, exec (.tctlLoad f) s = .next t ∧ Accepted s t i gslot 4 4 (.tload (f.c.toNat / 8 % 8) off (f.c.getLsbD 2)) ∧
      SameMemory s t ∧ SameRegs (s.crew i.ref) (t.crew i.ref)) ∧
  (∀ (f : L64) (s : State) (i : Issue) (gslot : Nat), engReady s i f [f.d.toNat] [] gslot → f.d.toNat < 64 →
    f.c.toNat / 8 % 8 < s.tilesOf i.ref → s.acceptWait i (lane0 s i f) 4 false = none →
    (s.crew i.ref).creditsFor [f.d.toNat] ≤ (s.crew i.ref).creditsFree →
    ∃ t setter, exec (.tctlStat f) s = .next t ∧
      Accepted s t i gslot 4 4 (.tstat (f.c.toNat / 8 % 8) f.d.toNat (partL s i f) setter) ∧ SameMemory s t ∧
      SameRegs (s.crew i.ref) (t.crew i.ref) ∧ ∃ q ∈ (t.crew i.ref).loads, q.setter = setter ∧ q.dst = [(f.d.toNat, partL s i f)])

/-- R364 to R371: RACT opens a closed bank's row, 22 cycles after it starts, and leaves an open row as it is; RPRE
closes the bank; RCON of an open row is accepted by the tile engine with the row's bytes, and gives 0 with .ST; RCON
of a closed bank gives status 3 with .ST, and raises ROW with cause 3 without. Completes: ract, rpre, rcon. -/
def Obligations.RowRiserInstructions : Prop :=
  (∀ (f : L64) (s : State) (i : Issue), s.issues i (engNeeds f [f.a.toNat, f.b.toNat] []) = true → partL s i f ≠ 0 →
    s.vaultOn (s.ctxOf i.ref) i.core = true →
    let bank := (s.regL0 i f.a (lane0 s i f)).toNat
    let row := (s.regL0 i f.b (lane0 s i f)).toNat
    bank < 32 → row ≤ 6143 → bank < (s.core i.core).banks.length →
    ((s.bank i.core bank).state = .closed → ∃ t start, exec (.ract f) s = .next t ∧ Issued s t i ∧ SameMemory s t ∧
      s.clock i.core ≤ start ∧ (t.bank i.core bank).state = .opening row start (start + 22) false) ∧
    ((s.bank i.core bank).state = .open_ row → ∃ t, exec (.ract f) s = .next t ∧ Issued s t i ∧ SameMemory s t ∧
      (t.bank i.core bank).state = .open_ row)) ∧
  (∀ (f : L64) (s : State) (i : Issue), s.issues i (engNeeds f [f.a.toNat] []) = true → partL s i f ≠ 0 →
    s.vaultOn (s.ctxOf i.ref) i.core = true → (s.regL0 i f.a (lane0 s i f)).toNat < 32 →
    (s.regL0 i f.a (lane0 s i f)).toNat < (s.core i.core).banks.length →
    ∃ t, exec (.rpre f) s = .next t ∧ Issued s t i ∧ SameMemory s t ∧
      (t.bank i.core (s.regL0 i f.a (lane0 s i f)).toNat).state = .closed) ∧
  (∀ (f : L64) (s : State) (i : Issue) (gslot : Nat) (dst : Option Nat),
    let st := f.c.getLsbD 2
    let writes := if st then [f.d.toNat] else []
    engReady s i f ([f.a.toNat, f.b.toNat] ++ writes) writes gslot → s.vaultOn (s.ctxOf i.ref) i.core = true →
    let l0 := lane0 s i f
    let bank := (s.regL0 i f.a l0).toNat
    bank < 32 → (f.c.getLsbD 1 = false ∧ dst = none ∨ ∃ x, f.c.getLsbD 1 = true ∧ dst = some x ∧
      s.rconDest i l0 (s.regL0 i f.b l0).toNat = .ok x) →
    (∀ row, (s.bank i.core bank).rcon bank (s.clock i.core) = .ok row → s.acceptWait i l0 4 false = none →
      let block := fun k => Loc.mem (rowAddr i.core bank row + 64 * k)
      ∃ t bad, exec (.rcon f) s = .next t ∧ SameMemory s t ∧
        Accepted s t i gslot 4 4 (.rcon dst s.cycle (s.engineBytes i.ref l0 (.mem (rowAddr i.core bank row)) 2048)
          ((upTo 32).map (fun k => s.engineDesc i.ref l0 (block k))) bad) ∧
        ((∀ k, k < 32 → s.blockFault (s.engineDesc i.ref l0 (block k)) (block k) = none) → bad = none) ∧
        (st = false → SameRegs (s.crew i.ref) (t.crew i.ref)) ∧
        (st = true → f.d.toNat < 64 → ∀ l, l < 32 → (partL s i f).getLsbD l = true →
          lane ((t.crew i.ref).reg f.d.toNat).content l = 0)) ∧
    ((s.bank i.core bank).state = .closed → st = true → f.d.toNat < 64 → ∃ t, exec (.rcon f) s = .next t ∧ SameMemory s t ∧
      ∀ l, l < 32 → (partL s i f).getLsbD l = true → lane ((t.crew i.ref).reg f.d.toNat).content l = 3) ∧
    ((s.bank i.core bank).state = .closed → st = false → (s.crew i.ref).gambit = none → (s.crew i.ref).handling = none →
      ∃ t p, exec (.rcon f) s = .next t ∧ (t.crew i.ref).pendingTrap = some p ∧ p.cls = 4 ∧ p.lanes = [⟨l0, 4, 3, 0, 0⟩]))

/-! ### Windows, subscriptions, messages and circuits -/

/-- R372 to R375: WOPEN in bounds with a proper grant is held and gives the window's cluster address; SUBS.ON is
accepted with the lowest free identifier, which it gives; SUBS.OFF of a held subscription is held. Completes: wopen,
subsOn, subsOff. -/
def Obligations.WindowsAndSubscriptions : Prop :=
  (∀ (f : L64) (s : State) (i : Issue) (gslot : Nat),
    let writes := if f.d.toNat < 64 then [f.d.toNat, f.d.toNat + 1] else []
    engReady s i f (writes ++ f.a.toNat :: (if f.mx == 2 then [f.b.toNat] else [])) writes gslot →
    f.d.toNat % 2 = 0 ∨ 64 ≤ f.d.toNat →
    let l0 := lane0 s i f
    let off := (s.regL0 i f.a l0).toNat
    let grant := if f.mx = 2 then s.regL0 i f.b l0 else 0
    off % 128 = 0 → s.inAllocation i off 128 = true → (f.mx = 2 → s.grantOk i.core grant = true) →
    (f.mx ≠ 0 → s.windowRoom i.core gslot off = true) → (s.crew i.ref).entriesUsed + 1 ≤ Config.quarantineEntries →
    ∀ q, (s.crew i.ref).regions.getLast? = some q →
    ∃ t h id, exec (.wopen f) s = .next t ∧ SameMemory s t ∧ (t.crew i.ref).regions.getLast? = some h ∧
      h.effects = q.effects ++ [.wopen f.mx.toNat off grant id] ∧
      (f.d.toNat < 64 → ∀ l, l < 32 → (partL s i f).getLsbD l = true →
        lane ((t.crew i.ref).reg f.d.toNat).content l = BitVec.ofNat 32 (s.clusterVa i.core gslot off) ∧
        lane ((t.crew i.ref).reg (f.d.toNat + 1)).content l = BitVec.ofNat 32 (s.clusterVa i.core gslot off / 2 ^ 32))) ∧
  (∀ (f : L64) (s : State) (i : Issue) (gslot id : Nat) (g : Group) (x : List (HomeId × Nat × Loc) × List (Target × Nat)),
    engReady s i f [f.d.toNat, f.a.toNat, f.a.toNat + 1, f.b.toNat, f.b.toNat + 1, f.c.toNat] [f.d.toNat] gslot →
    f.d.toNat < 64 → s.groupOf i.ref = some g → s.group i.core gslot = some g →
    let l0 := lane0 s i f
    let loc := s.pairL0 i f.a l0
    let glob := s.pairL0 i f.b l0
    let len := (s.regL0 i f.c l0).toNat
    subOperandsOk loc glob len = true → s.subLines i l0 loc glob len = .ok x → s.subCount i.core < 64 →
    (∀ n, n < id → g.subs.any (fun y => y.id == n) = true) → g.subs.any (fun y => y.id == id) = false → id < 16 →
    s.acceptWait i l0 f.mx.toNat (((s.crew i.ref).pairTaint f.a.toNat ||| (s.crew i.ref).pairTaint f.b.toNat).getLsbD l0) = none →
    ∃ t g' y, exec (.subsOn f) s = .next t ∧ t.group i.core gslot = some g' ∧ g'.subs = g.subs ++ [y] ∧ y.id = id ∧
      y.released = false ∧ y.tl = f.mx.toNat ∧ y.len = len ∧ y.lva = loc ∧ y.gva = glob ∧ y.parts = rangeParts x.1 ∧
      (∀ l, l < 32 → (partL s i f).getLsbD l = true → lane ((t.crew i.ref).reg f.d.toNat).content l = BitVec.ofNat 32 id)) ∧
  (∀ (f : L64) (s : State) (i : Issue) (gslot : Nat) (g : Group), engReady s i f [f.a.toNat] [] gslot →
    s.groupOf i.ref = some g →
    let id := (s.regL0 i f.a (lane0 s i f)).toNat
    g.subs.any (fun x => x.id == id) = true →
    (∀ r ∈ (s.crew i.ref).regions, ∀ e ∈ r.effects, ∀ n, e ≠ .subsOff id n) →
    (s.crew i.ref).entriesUsed + 1 ≤ Config.quarantineEntries →
    ∃ t, exec (.subsOff f) s = .next t ∧ EffectHeld s t i 1 (fun e => ∃ n, e = .subsOff id n))

/-- R376 to R380: AMSG, CIRC.SETUP and CIRC.SEND begin a release point with their parameters and the payload of their
effective lanes, zero elsewhere; CIRC.REL of a circuit that its group holds is held. Completes: amsg, circSetup,
circSend, circRel. -/
def Obligations.MessagesAndCircuits : Prop :=
  (∀ (f : L64) (s : State) (i : Issue),
    s.issues i { lNeeds f [f.a.toNat, f.b.toNat] [] with bare := true, head := true } = true → partL s i f ≠ 0 →
    (s.gslotOf i.ref).isSome = true →
    ∃ t, exec (.amsg f) s = .next t ∧ SameMemory s t ∧ PointBegun s t i (.amsg
      { dest := (s.regL0 i f.a (lane0 s i f)).toNat, index := f.c.toNat % 16, seq := 0, addr := 0,
        payload := (upTo 32).map (fun l => if (partL s i f).getLsbD l then (s.crew i.ref).read s.freeCtr f.b.toNat l else 0) })
      (partL s i f)) ∧
  (∀ (f : L64) (s : State) (i : Issue),
    s.issues i { lNeeds f [f.d.toNat, f.a.toNat, f.b.toNat] [] with bare := true, head := true } = true → partL s i f ≠ 0 →
    let n := (s.regL0 i f.b (lane0 s i f)).toNat
    1 ≤ n → n ≤ 4096 →
    ∃ t, exec (.circSetup f) s = .next t ∧ SameMemory s t ∧ PointBegun s t i (.circSetup
      { dest := (s.regL0 i f.a (lane0 s i f)).toNat, index := n, seq := 0, payload := [], addr := 0 } f.d.toNat)
      (partL s i f)) ∧
  (∀ (f : L64) (s : State) (i : Issue) (c : Circuit) (x : Nat × Target),
    s.issues i { lNeeds f [f.a.toNat, f.b.toNat, f.c.toNat, f.c.toNat + 1] [] with bare := true, head := true } = true →
    partL s i f ≠ 0 →
    let l0 := lane0 s i f
    let id := (s.regL0 i f.a l0).toNat
    s.ownCircuit i.ref id = some c → s.circuitTarget i l0 (s.pairL0 i f.c l0) c.dest = .ok x →
    ∃ t, exec (.circSend f) s = .next t ∧ PointBegun s t i (.circSend
      { dest := c.dest, index := id, seq := 0, addr := x.1,
        payload := (upTo 32).map (fun l => if (partL s i f).getLsbD l then (s.crew i.ref).read s.freeCtr f.b.toNat l else 0) })
      (partL s i f)) ∧
  (∀ (f : L64) (s : State) (i : Issue) (c : Circuit), s.issues i (engNeeds f [f.a.toNat] []) = true → partL s i f ≠ 0 →
    let id := (s.regL0 i f.a (lane0 s i f)).toNat
    s.ownCircuit i.ref id = some c → (s.crew i.ref).entriesUsed + 1 ≤ Config.quarantineEntries →
    ∃ t, exec (.circRel f) s = .next t ∧ EffectHeld s t i 1 (fun e => ∃ n, e = .circRel id n))

namespace Sys2Proof.Claims

/-! ### What the statements about the device's steps say -/

/-- No crew, no group and no launch has changed but those of a crew slot. -/
def OtherCrewsSame (s t : State) (r : CrewRef) : Prop := ∀ q, q ≠ r → t.crew q = s.crew q

/-- A crew has started (R11, R39): every thread is READY at an address with no predicate set, the first registers hold
what is given and the others of G0 to G31 zero, one region is open, and no gambit, trap or release point. -/
structure Started (t : State) (r : CrewRef) (o : Owner) (pc : Addr) (args : List Content) : Prop where
  owner : (t.crew r).owner = some o
  ready : ∀ l, l < 32 → ((t.crew r).thread l).run = .ready ∧ ((t.crew r).thread l).pc = pc ∧
    ((t.crew r).thread l).preds = 0 ∧ ((t.crew r).thread l).taint = 0
  regs : ∀ k l, k < 32 → l < 32 → lane ((t.crew r).reg k).content l = lane (args.getD k zeroContent) l
  region : (t.crew r).regions.length = 1
  gambit : (t.crew r).gambit = none
  point : (t.crew r).point = none
  mode : (t.crew r).trapMode = false
  turn : (t.crew r).turn = 0
  ext : (t.crew r).ext = false

/-- A cause that a crew's next trap has: its class, whether it is asynchronous, its lanes (R296, R304). -/
def PendingIs (w : Crew) (cls : Nat) (async : Bool) (lanes : List LaneTrap) : Prop :=
  ∃ p, w.pendingTrap = some p ∧ p.cls = cls ∧ p.async = async ∧ p.lanes = lanes ∧ p.headed = false

end Sys2Proof.Claims

/-! ### Crews and groups -/

/-- R15 and R207: an issue group that arbitration chooses is of the sub-core it is for and consists of READY threads
of its crew at the group's PC, at least one, and of all of them when no run is locked; and where no wait of the crews
has ended, no run is locked, no latch, bank or unit is in use, and a candidate stands, its group is chosen and no crew
has changed. Completes: issueArbitration. -/
def Obligations.ArbitrationChoosesAGroup : Prop :=
  (∀ (s t : State) (i : Issue), s.issue = none → (∀ x, (s.sub s.sel.a s.sel.b).locked = some x → x.part ≠ 0) →
    exec .issueArbitration s = .next t → t.issue = some i →
    i.core = s.sel.a ∧ i.sub = s.sel.b ∧ i.part ≠ 0 ∧ ∀ l, l < 32 →
      (i.part.getLsbD l = true → ((t.crew i.ref).thread l).run = .ready ∧ ((t.crew i.ref).thread l).pc = i.pc) ∧
      ((s.sub s.sel.a s.sel.b).locked = none → ((t.crew i.ref).thread l).run = .ready → ((t.crew i.ref).thread l).pc = i.pc →
        i.part.getLsbD l = true)) ∧
  (∀ (s : State) (k : Nat) (i : Issue), s.issue = none → s.dutyOn s.sel.a = true → (s.core s.sel.a).fenced = false →
    let b := s.sub s.sel.a s.sel.b
    (∀ j, j < 8 → s.settleCrew ⟨s.sel.a, s.sel.b, j⟩ = s) → b.locked = none → b.claims = [] → b.ready = [] →
    b.writes = [] → b.unitFree = [0, 0] → (∀ x ∈ b.latches, x = none) → b.candidate s.cycle = some k → s.groupOfSlot s.sel.a s.sel.b k = some i →
    ∃ t, exec .issueArbitration s = .next t ∧ t.issue = some i ∧ SameMemory s t ∧ ∀ q, t.crew q = s.crew q)

/-- R11, R36, R39, R190 and R428: a record that may start takes its group slot and its crews start at the image's
entry with the argument block's address in G0 and G1 (stated where the placement log is off); an inbound entry's
handler crew starts at its handler with the payload, the sender and the sequence number; the crew that waits longest
for an extended block gets one and its XBLK.ACQ issues again. Completes: recordStart, handlerCrewStart, xblkGrant. -/
def Obligations.RecordsAndHandlersStart : Prop :=
  (∀ (s : State) (core gslot : Nat) (x : SlotRecord) (l : Launch), s.startPlan s.sel.a = [(core, x)] →
    s.launch? x.bind.lslot.toNat = some l → s.slotFor core x = some gslot → x.restore = none →
    (s.die (s.dieOf core)).logSize = 0 → gslot < (s.core core).groups.length →
    (∀ c ∈ slotsOf x.bind.crews.toNat, c.1 < (s.core core).subs.length ∧ c.2 < (s.sub core c.1).crews.length) →
    ∃ t, exec .recordStart s = .next t ∧ SameMemory s t ∧ t.group core gslot = some (groupOfRecord l x.bind) ∧
      ∀ k c, (slotsOf x.bind.crews.toNat)[k]? = some c →
        Started t ⟨core, c.1, c.2⟩ { ctx := l.ctx, lslot := x.bind.lslot.toNat, gslot := some gslot, index := k }
          (l.imageAt l.header.entry)
          [sameWord (l.desc.args.setWidth 32), sameWord ((l.desc.args >>> 32).setWidth 32)]) ∧
  (∀ (s : State) (n : Nat) (m : Message) (r : CrewRef) (j : Nat) (l : Launch), s.handlerDue s.sel.a = some (n, m, r, j) →
    s.launch? m.lslot = some l → r.sub < (s.core r.core).subs.length → r.slot < (s.sub r.core r.sub).crews.length →
    ∃ t, exec .handlerCrewStart s = .next t ∧ SameMemory s t ∧
      (t.core s.sel.a).inbound = (s.core s.sel.a).inbound.eraseIdx n ∧
      Started t r { ctx := l.ctx, lslot := m.lslot, gslot := none, index := j }
        (l.imageAt (l.header.handlers.getD m.handler 0))
        [contentOf (fun i => m.payload.getD i 0), sameWord (BitVec.ofNat 32 m.src), sameWord (BitVec.ofNat 32 m.seq)]) ∧
  (∀ (s : State) (k n : Nat), s.grantDue s.sel.a s.sel.b = some (k, n) →
    let r : CrewRef := ⟨s.sel.a, s.sel.b, k⟩
    ∃ t, exec .xblkGrant s = .next t ∧ SameMemory s t ∧ OtherCrewsSame s t r ∧ (t.crew r).xwait = none ∧
      (t.crew r).threads = (s.crew r).threads.map (fun h => if h.run == .xblock then { h with run := .ready } else h) ∧
      ∃ b, (t.sub s.sel.a s.sel.b).blocks[n]? = some b ∧ b.holder = some k ∧ b.freeing = false)

/-- R157, R165 and R327: when the oldest region of a crew releases it leaves the crew, with an arrival that it holds
applied to its barrier object, or its engine command marked as released; and a release point whose message has been
accepted ends, and one whose atomic has been answered writes the old values, with only the region of its second head
left. Completes: regionRelease, releasePointComplete. -/
def Obligations.RegionsReleaseAndPointsComplete : Prop :=
  (∀ (s : State) (o : Owner) (g : Region) (rest : List Region), s.wf = true →
    let r := selCrew s
    (s.crew r).owner = some o → (s.crew r).regions = g :: rest → (s.crew r).releasable s.cycle = true → g.last = false →
    (s.crew r).point = none →
    (g.effects = [] →
      ∃ t, exec .regionRelease s = .next t ∧ SameMemory s t ∧ OtherCrewsSame s t r ∧
        (t.crew r).regions = rest.filter (fun x => x.id != g.id)) ∧
    (∀ off c m gs gr, g.effects = [.bara off c m] → o.gslot = some gs → s.group r.core gs = some gr →
      s.pendingTxs r m (fun x => x.ord != 2 && x.req.openAtGroup) = [] →
      let p := Loc.scratch r.core (gr.scrBase + off)
      ∃ t, exec .regionRelease s = .next t ∧ (t.crew r).regions = rest.filter (fun x => x.id != g.id) ∧
        t.bytesAt p 16 = toBytes 16 ((s.barObj r.core gr off).arrive c).toNum ∧ SameBytesOutside s t [(p, 16)]) ∧
    (∀ u op e, g.effects = [.engine u op] → (s.core r.core).engines[u]? = some e →
      ∃ t e', exec .regionRelease s = .next t ∧ SameMemory s t ∧ (t.core r.core).engines[u]? = some e' ∧
        (t.crew r).regions = rest.filter (fun x => x.id != g.id) ∧
        e'.ops = e.ops.map (fun x => if x.id == op then { x with released := true } else x))) ∧
  (∀ (s : State) (p : Point),
    let r := selCrew s
    let released := fun (t : State) => SameMemory s t ∧ (t.crew r).point = none ∧ (t.crew r).regions.length = 1 ∧
      ∀ l, l < 32 → ((t.crew r).thread l).pc = (if p.issue.getLsbD l then p.next else ((s.crew r).thread l).pc) ∧
        ((t.crew r).thread l).run = if p.issue.getLsbD l then .ready else ((s.crew r).thread l).run
    s.hasCrew r = true → (s.crew r).point = some p → s.pointReady r = true → (s.core r.core).arrivals = [] →
    (∀ m, p.kind = .amsg m → (∀ x ∈ s.pointTxs r, x.answer = some (.accepted true)) →
      ∃ t, exec .releasePointComplete s = .next t ∧ released t ∧ SameRegs (s.crew r) (t.crew r)) ∧
    (∀ e d back, p.kind = .atom e d back → e.size = 4 → d < 64 → uncertainLanes (s.pointTxs r) = [] →
      damagedLanes (s.pointTxs r) = [] →
      let vals := oldValues (s.pointTxs r)
      ∃ t, exec .releasePointComplete s = .next t ∧ released t ∧ ∀ k l, k < 64 → l < 32 →
        lane ((t.crew r).reg k).content l =
          if k = d ∧ p.lanes.getLsbD l = true ∧ vals.any (fun x => x.1 == l) = true then oldWord vals 0 l
          else lane ((s.crew r).reg k).content l))

/-- R23, R303, R304 and R332: a group that has met every condition leaves its slot and its launch counts it; a trap in
a handler ends the launch with TRAPPED and the class; the lowest asynchronous cause becomes the crew's trap; a barrier
wait that has lasted its time raises class 5. Completes: groupComplete, contextTerminate, asyncTrapDue,
barrierTimeout. -/
def Obligations.GroupsCompleteAndContextsEnd : Prop :=
  (∀ (s : State) (g : Group) (l : Launch), s.group s.sel.a s.sel.b = some g → s.groupDone s.sel.a s.sel.b = true →
    s.launch? g.lslot = some l → l.counter + 1 ≠ l.target → l.status ≠ some (1, 0) →
    ∃ t, exec .groupComplete s = .next t ∧ SameMemory s t ∧ t.group s.sel.a s.sel.b = none ∧
      t.launch? g.lslot = some { l with counter := l.counter + 1, done := insertUp l.done g.g }) ∧
  (∀ (s : State) (cls : Nat) (o : Owner) (l : Launch),
    let r := selCrew s
    (s.crew r).dying = some cls → (s.crew r).owner = some o → (s.crew r).dead = true → s.launch? o.lslot = some l →
    l.ctx = o.ctx → l.status = none →
    ∃ t, exec .contextTerminate s = .next t ∧ (t.crew r).dying = none ∧ (t.crew r).stopped = true ∧
      (t.launch? o.lslot).map (fun x => x.status) = some (some (3, cls))) ∧
  (∀ (s : State) (c : AsyncCause),
    let r := selCrew s
    let of := fun (xs : List (Nat × Addr)) (l : Nat) => ((xs.find? (fun x => x.1 == l)).map (fun x => x.2)).getD 0
    lowestCause (s.crew r).async = some c → (s.crew r).pendingTrap = none → (s.crew r).handling = none →
    (s.crew r).gambit = none →
    ∃ t, exec .asyncTrapDue s = .next t ∧ SameMemory s t ∧ OtherCrewsSame s t r ∧
      PendingIs (t.crew r) c.cls true (c.lanes.lanes.map (fun l => ⟨l, c.cls, c.code, of c.addrs l, of c.auxs l⟩))) ∧
  (∀ (s : State) (l : Nat) (a : Await),
    let r := selCrew s
    s.timeoutDue r = true → s.firstTimeout r = some (l, a) → (s.crew r).pendingTrap = none →
    (∀ x, s.launchOf r = some x → x.desc.diag = 0 ∨ x.diagWritten = true) →
    ∃ t c, exec .barrierTimeout s = .next t ∧ OtherCrewsSame s t r ∧ (t.crew r).async = (s.crew r).async ++ [c] ∧
      c.cls = 5 ∧ c.lanes.getLsbD l = true ∧ c.held = false)

/-! ### Homes and their answers -/

/-- R81, R82, R315 and R376: a home answers a read with the line it holds (an outside party with free values, log 10,
and no tag); it performs a write's bytes, and no others, and acknowledges it; it applies an atomic to the old value,
which it answers; a message is queued at a core that holds handlers of its launch and has room, and answered as
accepted, and refused where it holds none. Completes: homeServeRead, homePerformWrite, homePerformAtomic,
amsgAccept. -/
def Obligations.HomesServeRequests : Prop :=
  (∀ (s : State) (x : Tx) (p : Loc) (why : ReadFor) (install past acq : Bool), s.tx s.sel.a = some x →
    x.req = .read p why install past acq → s.servable x = true → s.together x = [x] → (∀ n, x.home ≠ .outside n) →
    ∃ t y sig, exec .homeServeRead s = .next t ∧ SameMemory s t ∧ t.tx s.sel.a = some y ∧ y.answer =
      some (.line (s.bytesAt p.line 128) [s.descAt p.line, s.descAt (p.line.plus 64)]
        [s.poisoned p.line, s.poisoned (p.line.plus 64)] sig) ∧ (sig.isSome = acq)) ∧
  (∀ (s : State) (x : Tx) (p : Loc) (why : ReadFor) (install past acq : Bool) (n : Nat), s.tx s.sel.a = some x →
    x.req = .read p why install past acq → s.servable x = true → s.together x = [x] → x.home = .outside n →
    ∃ t y descs bad sig, exec .homeServeRead s = .next t ∧ SameMemory s t ∧ t.tx s.sel.a = some y ∧
      y.answer = some (.line (s.peek p.line 128) descs bad sig) ∧ y.tag = none) ∧
  (∀ (s : State) (x : Tx) (w : WriteReq) (p : Loc) (bs : List Byte), s.wf = true → s.tx s.sel.a = some x →
    x.req = .write w → s.servable x = true → s.together x = [x] → (∀ n, x.home ≠ .outside n) → w.bytes = [(p, bs)] →
    s.touchesObject p bs.length = false →
    (s.home x.home).writes.any (fun k => k.core == x.core && k.serial == x.id) = false → x.resends = 0 →
    ∃ t y, exec .homePerformWrite s = .next t ∧ t.bytesAt p bs.length = bs ∧ SameBytesOutside s t [(p, bs.length)] ∧
      t.tx s.sel.a = some y ∧ y.answer = some .ack) ∧
  (∀ (s : State) (x : Tx) (e : AtomEff) (crew : CrewRef) (point : Bool) (ident : Nat × Nat) (a : AtomLane), s.wf = true →
    s.tx s.sel.a = some x → x.req = .atomic e crew point ident false → s.servable x = true → s.together x = [x] →
    (∀ n, x.home ≠ .outside n) → (∀ n, s.homeOf a.loc false ≠ .outside n) → e.lanes = [a] →
    isPair e.fn = false → x.lows = none → s.touchesObject a.loc e.size = false →
    s.blockFault (s.descAt a.loc.block) a.loc.block = none →
    (s.home x.home).atoms.find? (fun k => k.core == ident.1 && k.serial == ident.2) = none →
    let old := s.numAt a.loc e.size
    ∃ t y sig counts, exec .homePerformAtomic s = .next t ∧ t.tx s.sel.a = some y ∧
      y.answer = some (.olds [(a.lane, old)] sig counts []) ∧ SameBytesOutside s t [(a.loc, e.size)] ∧
      t.bytesAt a.loc e.size = match atomNew e.fn e.size old a.v a.cmp with
        | some v => toBytes e.size v
        | none => s.bytesAt a.loc e.size) ∧
  (∀ (s : State) (x : Tx) (m : MessageReq) (crew : CrewRef) (lslot handler : Nat), s.tx s.sel.a = some x →
    x.req = .message m crew lslot handler → s.servable x = true →
    let here := s.inPartition (((s.launch? lslot).map (fun l => l.ctx)).getD 0) m.dest &&
      (s.core m.dest).handlers.any (fun h => h.lslot == lslot)
    (here = true → (s.core m.dest).inbound.length < 64 →
      ∃ t y e, exec .amsgAccept s = .next t ∧ SameMemory s t ∧ t.tx s.sel.a = some y ∧ y.answer = some (.accepted true) ∧
        (t.core m.dest).inbound = (s.core m.dest).inbound ++ [e] ∧ e.lslot = lslot ∧ e.handler = handler ∧
        e.src = crew.core ∧ e.payload = m.payload) ∧
    (here = false → ∃ t y, exec .amsgAccept s = .next t ∧ SameMemory s t ∧ t.tx s.sel.a = some y ∧
      y.answer = some (.accepted false) ∧ (t.core m.dest).inbound = (s.core m.dest).inbound))

namespace Sys2Proof.Claims

/-- A crew has restarted at the head of a region (R154, R160): that region alone is open, and registers, predicates, PCs,
taint, trap mode, pending entry and side buffer are those of its snapshot; no slot is set, and it issues 8 cycles later. -/
def Restarted (s t : State) (r : CrewRef) (g : Region) : Prop :=
  let h := g.snapshot
  (t.crew r).regions = [Region.open_ g.id g.head h] ∧ (t.crew r).map = h.map ∧ (t.crew r).setters = [] ∧
  (t.crew r).trapMode = h.trapMode ∧ (t.crew r).pendingTrap = h.entry ∧ (t.crew r).resumeAt = s.cycle + 8 ∧
  (t.keep r).side = h.side ∧ ∀ k, k < (s.crew r).threads.length →
    let old := (s.crew r).thread k
    let u := (t.crew r).thread k
    u.pc = h.pcs.getD k old.pc ∧ u.preds = h.preds.getD k old.preds ∧ u.taint = h.taint.getD k old.taint ∧
    u.sb = [0, 0, 0, 0, 0, 0]

end Sys2Proof.Claims

/-- R154, R160, R171, R173 and R175: a home sends the clear of its oldest response W cycles after it, and the answer
to an outside party that the response held leaves then; the clear takes from the regions of the core's crews every tag
that it covers; a redo notice restarts at its oldest head a crew that received a named tag, which brings back that
head's snapshot (stated where the error log is off). Completes: clearSend, clearReceive, redoNoticeReceive. -/
def Obligations.ClearsAndRedos : Prop :=
  (∀ (s : State) (x : Response) (rest : List Response), (s.home (homeOfSel s.sel.a)).responses = x :: rest →
    x.clearAt ≤ s.cycle → x.fill = none →
    ∃ t, exec .clearSend s = .next t ∧ SameMemory s t ∧ (t.home (homeOfSel s.sel.a)).responses = rest ∧
      t.hostOut = s.hostOut ++ x.reply.toList.map (fun q => { party := q.party, data := q.data, ok := true }) ∧
      (x.tagged = true → ∃ n, t.net.clears = s.net.clears ++ [n] ∧ n.core = x.core ∧
        n.tag = ⟨s.cellOf (homeOfSel s.sel.a), x.serial⟩) ∧ (x.tagged = false → t.net.clears = s.net.clears)) ∧
  (∀ (s : State) (n : Notice), arrived s.net.clears s.sel.a s.cycle = some n → s.sel.a < 1024 →
    ∃ t, exec .clearReceive s = .next t ∧ SameMemory s t ∧ t.net.clears = s.net.clears.erase n ∧
      ∀ r : CrewRef, r.core = s.sel.a → (t.crew r).regions.map (fun g => g.tags) =
        (s.crew r).regions.map (fun g => g.tags.filter (fun x => !(x.clearedBy n.tag)))) ∧
  (∀ (s : State) (n : Notice) (r : CrewRef) (g : Region) (rest : List Region),
    arrived s.net.redos s.sel.a s.cycle = some n → s.sel.a < 1024 → bits s.pkg.log.base.toNat 3 0 = 0 → r.core = s.sel.a →
    r.sub < 4 → r.slot < 8 → (s.crew r).owner.isSome = true → (s.crew r).regions = g :: rest → (s.crew r).point = none →
    (s.crew r).regions.any (fun h => h.tags.any (fun x => x.named n.tag)) = true →
    ∃ t, exec .redoNoticeReceive s = .next t ∧ SameMemory s t ∧ t.net.redos = s.net.redos.erase n ∧ Restarted s t r g)

namespace Sys2Proof.Claims

/-- Nothing else of its core or its launch ends with a request: no arrival waits, and the launch is not about to be done. -/
def EndsAlone (s : State) (x : Tx) : Prop :=
  (s.core x.core).arrivals = [] ∧
    ∀ n l, x.lslot = some n → s.launch? n = some l → l.status ≠ some (1, 0) ∧ l.counter ≠ l.target

end Sys2Proof.Claims

/-- R84, R95, R106, R318 and R474: the value of a load's last line is written to its register in the load's lanes; a
write's acknowledgement finishes its setter; a request for which nothing has come in 2^16 cycles is sent again, an
atomic at most 3 times, with a RESEND mark, and others at most 7 times, and then fails; a line of L1 whose lease has
ended goes; E2 takes E1, E1 takes E0 and E0 is cleared. Completes: loadValueReturn, writeAckReceive,
atomicResendTimeout, transactionTimeout, l1LeaseExpiry, epochRotate. -/
def Obligations.AnswersReturn : Prop :=
  (∀ (s : State) (x : Tx) (p : Loc) (r : CrewRef) (setter d : Nat) (m : Mask) (install past acq : Bool) (q : LoadRec)
      (data : List Byte) (descs : List (Nat × Nat)) (bad : List Bool) (sig : Option Sig), s.tx s.sel.a = some x →
    x.req = .read p (.load r setter) install past acq → s.answered x = true → x.answer = some (.line data descs bad sig) →
    EndsAlone s x → s.hasCrew r = true → (s.crew r).loads.find? (fun y => y.setter == setter) = some q → q.setter = setter →
    let q' := q.take p data descs bad sig
    q.left = 1 → q'.failures = [] → q.snaps = [] → q.memo = none → q.dst = [(d, m)] → m ≠ 0 → d < 64 →
    ∃ t, exec .loadValueReturn s = .next t ∧ SameMemory s t ∧ t.tx s.sel.a = none ∧
      (t.crew r).loads.all (fun y => y.setter != setter) = true ∧ ∀ k l, k < 64 → l < 32 →
        lane ((t.crew r).reg k).content l =
          if k = d ∧ m.getLsbD l = true then lane (q'.content 0) l else lane ((s.crew r).reg k).content l) ∧
  (∀ (s : State) (x : Tx) (w : WriteReq), s.tx s.sel.a = some x → x.req = .write w → s.answered x = true →
    s.ofPoint x = false → x.answer = some .ack → EndsAlone s x → s.hasCrew w.crew = true →
    ∃ t, exec .writeAckReceive s = .next t ∧ SameMemory s t ∧ t.tx s.sel.a = none ∧
      t.crew w.crew = (s.crew w.crew).finish w.setter 1) ∧
  (∀ (s : State) (x : Tx) (e : AtomEff) (crew : CrewRef) (point : Bool) (ident : Nat × Nat) (again : Bool),
    s.tx s.sel.a = some x → x.req = .atomic e crew point ident again → s.overdue x = true →
    ∃ t y, exec .atomicResendTimeout s = .next t ∧ t.tx s.sel.a = some y ∧ SameMemory s t ∧ y.lost = false ∧
      (x.resends < 3 → y.resends = x.resends + 1 ∧ y.sent = s.cycle ∧ y.answer = x.answer ∧
        y.req = if x.lost then .atomic e crew point ident true else x.req) ∧
      (3 ≤ x.resends → y.answer = some .failed)) ∧
  (∀ (s : State) (x : Tx) (w : WriteReq), s.tx s.sel.a = some x → x.req = .write w → s.overdue x = true →
    ∃ t y, exec .transactionTimeout s = .next t ∧ t.tx s.sel.a = some y ∧ SameMemory s t ∧ y.lost = false ∧
      (x.resends < 7 → y.req = x.req ∧ y.resends = x.resends + 1 ∧ y.sent = s.cycle ∧ y.answer = x.answer) ∧
      (7 ≤ x.resends → y.answer = some .failed)) ∧
  (∀ s : State, ∃ t, exec .l1LeaseExpiry s = .next t ∧ SameMemory s t ∧ ∀ x ∈ (s.core s.sel.a).l1,
    (x ∈ (t.core s.sel.a).l1 ↔ ¬(x.line = s.sel.b ∧ x.filled + Config.lease ≤ s.cycle))) ∧
  (∀ s : State, (s.core s.sel.a).acc.rotateAt + Config.epoch ≤ s.clock s.sel.a →
    let a := (s.core s.sel.a).acc
    ∃ t, exec .epochRotate s = .next t ∧ SameMemory s t ∧ (t.core s.sel.a).acc =
      { a with e2 := a.e1, e1 := a.e0, e0 := .empty, rotateAt := a.rotateAt + Config.epoch })

/-! ### Engines and the row riser -/

/-- R167, R168, R337, R347 and R352: the operation that a unit may start starts, with the cycle of its first step;
TCTL.ZERO's step clears its tile and leaves it with valid checksums; a copy's step stages the bytes that it has read;
a landing chunk writes its bytes and no others, and with its last chunk a copy leaves the unit and its number lands on
its timeline. Completes: engineOpStart, unitCompleteInStaging, engineLand. -/
def Obligations.EnginesStartStageAndLand : Prop :=
  (∀ (s : State) (o : EngOp), s.startable s.sel.a s.sel.b = some o →
    ∃ t, exec .engineOpStart s = .next t ∧ SameMemory s t ∧ t.engineOps s.sel.a s.sel.b =
      (s.engineOps s.sel.a s.sel.b).map (fun x => if x.id == o.id then
        { x with started := some s.cycle, nextAt := s.firstStepAt s.sel.a o, readDone := s.readAtStart o } else x)) ∧
  (∀ (s : State) (o : EngOp) (k : Nat) (g : Group), s.stepDue s.sel.a s.sel.b = some o → o.work = .tzero k → o.done = false →
    s.group s.sel.a o.gslot = some g → k < g.tiles.length →
    ∃ t p, exec .unitCompleteInStaging s = .next t ∧ SameMemory s t ∧ (t.tile s.sel.a o.gslot k).live = zeroTile ∧
      (t.tile s.sel.a o.gslot k).status = 1 ∧ p ∈ t.engineOps s.sel.a s.sel.b ∧ p.id = o.id ∧ p.step = o.step + 1 ∧
      p.staged = o.staged ++ [s.emptyUnit]) ∧
  (∀ (s : State) (o : EngOp) (runs : List CopyRun) (credit : Option Nat), s.stepDue s.sel.a s.sel.b = some o →
    o.work = .copy runs credit → o.done = false →
    let l := sliceRuns (Config.chunk * o.step) Config.chunk runs
    (∀ x ∈ l, s.opFault o x.1.src.block = none) →
    ∃ t p u, exec .unitCompleteInStaging s = .next t ∧ SameMemory s t ∧ p ∈ t.engineOps s.sel.a s.sel.b ∧ p.id = o.id ∧
      p.step = o.step + 1 ∧ p.staged = o.staged ++ [u] ∧ u.writes = l.map (fun x => (x.1.dst, s.opBytes o x.1.src x.1.len))) ∧
  (∀ (s : State) (o : EngOp) (runs : List CopyRun) (u : Staged) (rest : List Staged) (p : Loc) (bs : List Byte), s.wf = true →
    s.landDue s.sel.a s.sel.b = some o → o.work = .copy runs none → o.staged = u :: rest → o.crew.core = s.sel.a →
    u.writes = [(p, bs)] → u.descs = [] → u.add = none → s.touchesObject p bs.length = false →
    (∀ n, s.homeOf p (o.thg p) ≠ .outside n) →
    ∃ t, exec .engineLand s = .next t ∧ t.bytesAt p bs.length = bs ∧ SameBytesOutside s t [(p, bs.length)] ∧
      (rest = [] → o.total ≤ o.step → ((t.engineOps s.sel.a s.sel.b).all (fun x => x.id != o.id) = true ∧
        ∀ g, s.group s.sel.a o.gslot = some g → o.tl < g.timelines.length → ∃ h, t.group s.sel.a o.gslot = some h ∧
          h.timelines.getD o.tl .reset = (g.timelines.getD o.tl .reset).land o.num)) ∧
      (rest ≠ [] → t.engineOps s.sel.a s.sel.b = (s.engineOps s.sel.a s.sel.b).map (fun x => if x.id == o.id then
        { x with staged := rest, landed := x.landed + 1 } else x)))

/-- R364, R366, R367 and R380: a bank's activation starts at its planned cycle and its row is open at its ready cycle;
a refresh slot loses the row, and at its end the requests that waited for the bank are taken; a circuit that 512
cycles have not used gives its router slots back and keeps its identifier. Completes: activationStart, rowReady,
refreshSlotStart, refreshSlotEnd, circuitIdleTeardown. -/
def Obligations.BanksAndCircuitsInTime : Prop :=
  (∀ (s : State) (row start ready : Nat), (s.bank s.sel.a s.sel.b).state = .opening row start ready false →
    start ≤ s.clock s.sel.a →
    ∃ t, exec .activationStart s = .next t ∧ SameMemory s t ∧
      (t.bank s.sel.a s.sel.b).state = .opening row start ready true ∧ start ∈ (t.core s.sel.a).starts) ∧
  (∀ (s : State) (row start ready : Nat), (s.bank s.sel.a s.sel.b).state = .opening row start ready true →
    ready ≤ s.clock s.sel.a →
    ∃ t, exec .rowReady s = .next t ∧ SameMemory s t ∧ (t.bank s.sel.a s.sel.b).state = .open_ row) ∧
  (∀ s : State, s.refreshBegins s.sel.a s.sel.b = true → (s.bank s.sel.a s.sel.b).holdsRow = true →
    ∃ t, exec .refreshSlotStart s = .next t ∧ SameMemory s t ∧ (t.bank s.sel.a s.sel.b).state = .lost ∧
      ∀ b, b ≠ s.sel.b → t.bank s.sel.a b = s.bank s.sel.a b) ∧
  (∀ s : State, s.refreshEnds s.sel.a s.sel.b = true →
    ∃ t, exec .refreshSlotEnd s = .next t ∧ SameMemory s t ∧ (∀ c, t.core c = s.core c) ∧ t.net.txs = s.net.txs.map (fun x =>
      if s.waitsForBank s.sel.a s.sel.b x then { x with serveAt := s.cycle, dueAt := x.dueAt + (s.cycle - x.serveAt) }
      else x)) ∧
  (∀ (s : State) (c : Circuit), (s.core s.sel.a).circuits.find? (fun x => x.id == s.sel.b) = some c →
    c.idleDue s.cycle = true →
    ∃ t, exec .circuitIdleTeardown s = .next t ∧ SameMemory s t ∧
      (∀ x ∈ t.net.circuits, ¬(x.2.1 = s.sel.a ∧ x.2.2 = s.sel.b)) ∧
      (t.core s.sel.a).circuits.find? (fun x => x.id == s.sel.b) = some { c with reserved := false })

/-- R112, R113, R116, R373 and R472: a window change reaches the four copies of its cluster's table, and once complete
leaves and finishes its setter; an update leaves its home, is sent again after a NACK, is applied to the local copy
and no other byte, or answered with a NACK when it is damaged, and its acknowledgement moves the oldest number on.
Completes: windowTableUpdate, subscriptionUpdateSend, subscriptionNackResend, subscriptionAckReceive,
subscriptionUpdateApply. -/
def Obligations.WindowsAndUpdates : Prop :=
  (∀ (s : State) (c : WindowChange), s.windowDue s.sel.a = some c → c.applied = none →
    ∃ t, exec .windowTableUpdate s = .next t ∧ SameMemory s t ∧ ∀ k ∈ s.clusterCores s.sel.a,
      (t.core k).windows = ((s.core k).setWindow c).windows) ∧
  (∀ (s : State) (c : WindowChange) (old : Option (Nat × Nat)), s.windowDue s.sel.a = some c → c.applied = some old →
    ∃ t, exec .windowTableUpdate s = .next t ∧ SameMemory s t ∧
      (t.core c.core).windowChanges = (s.core c.core).windowChanges.filter (fun x => x.setter != c.setter) ∧
      t.crew c.crew = (s.crew c.crew).finish c.setter 1) ∧
  (∀ (s : State) (u : Update), s.update? s.sel.a = some u → s.sendable u = true →
    ∃ t, exec .subscriptionUpdateSend s = .next t ∧ SameMemory s t ∧
      t.update? s.sel.a = some { u with sent := true, due := s.cycle + s.storeLatency u.core u.home + u.detour }) ∧
  (∀ (s : State) (u : Update), s.update? s.sel.a = some u → u.nacked = true → u.due ≤ s.cycle →
    ∃ t, exec .subscriptionNackResend s = .next t ∧ SameMemory s t ∧
      t.update? s.sel.a = some { u with nacked := false, due := s.cycle + s.storeLatency u.core u.home }) ∧
  (∀ (s : State) (u : Update), s.update? s.sel.a = some u → u.applied = true → u.due ≤ s.cycle →
    ∃ t, exec .subscriptionAckReceive s = .next t ∧ SameMemory s t ∧ t.update? s.sel.a = none ∧
      (t.home u.home).parts = (s.home u.home).parts.map (fun p =>
        if p.core == u.core && p.gslot == u.gslot && p.sub == u.sub && p.part == u.part then
          { p with oldest := (u.seq + 1) % 2 ^ 32 } else p)) ∧
  (∀ (s : State) (id : Nat) (u : Update), s.update? id = some u → s.applicable u = true →
    ∃ t, exec (.subscriptionUpdateApply id true) s = .next t ∧ SameMemory s t ∧
      t.update? id = some { u with nacked := true, due := s.cycle + s.storeLatency u.core u.home }) ∧
  (∀ (s : State) (id : Nat) (u : Update) (x : Subscription) (p : SubPart) (a : Nat) (bs : List Byte) (q : Loc),
    s.wf = true → s.update? id = some u → s.applicable u = true → s.subPart u = some (x, p) → u.runs = [(a, bs)] →
    p.place a = some q → s.touchesObject q bs.length = false → (∀ n, s.homeOf q false ≠ .outside n) →
    ∃ t v, exec (.subscriptionUpdateApply id false) s = .next t ∧ t.bytesAt q bs.length = bs ∧
      SameBytesOutside s t [(q, bs.length)] ∧ t.update? id = some v ∧ v.applied = true)

namespace Sys2Proof.Claims

/-- The home of a place is a unit of the device, not an outside party. -/
def Inside (s : State) (p : Loc) : Prop := ∀ n, s.homeOf p false ≠ .outside n

/-- A queue's next command, of a code, may start: its engine takes it, every check has passed, and its descriptor lies in the
device (R417 to R423). -/
def CommandReady (s : State) (opc : Nat) (d : QueueDesc) : Prop :=
  s.wf = true ∧ s.queueDesc s.sel.a = some d ∧ s.takesFrom s.sel.a = true ∧ s.commandCode d = opc ∧
  s.verdict s.sel.a d (s.commandBytes d) = .ready ∧ s.descAddr s.sel.a % 64 = 0 ∧ Inside s (.mem (s.descAddr s.sel.a))

/-- A command has started: HEAD stands past it in the queue's descriptor (R417). -/
def CommandStarted (s t : State) (d : QueueDesc) : Prop :=
  t.bytesAt (.mem (s.descAddr s.sel.a + 0x10)) 4 = toBytes 4 ((d.head + 1) % 2 ^ 32)

/-- The error log is off. -/
def logOff (s : State) : Prop := bits s.pkg.log.base.toNat 3 0 = 0

/-- An answer to an outside party is the only change. -/
def Answered (s t : State) (who : Party) (data : List Byte) (ok : Bool) : Prop :=
  t = { s with hostOut := s.hostOut ++ [{ party := who, data := data, ok := ok }] }

end Sys2Proof.Claims

/-! ### Queues -/

/-- R417, R420, R421, R423, R425 and R432: a command that passes its checks starts, which moves HEAD, and has its
effect: NOP none but that; LAUNCH a launch-table entry with the descriptor it names; OPEN a level-table entry; CANCEL
status 2 at the launch it names; WRITE its value at its address; NOTIFY an interrupt of its vector; INVAL the removal
of its range's entries from the TLBs of cores and clusters; CTXSET the context's fields. Completes: nopCommand,
launch, openLevel, cancelLevel, writeWord, notifyCores, inval, ctxset. -/
def Obligations.QueueCommandsHaveTheirEffects : Prop :=
  (∀ (s : State) (d : QueueDesc), CommandReady s 0 d → ∃ t, exec .nopCommand s = .next t ∧ CommandStarted s t d ∧
    SameBytesOutside s t [(.mem (s.descAddr s.sel.a + 0x10), 4)]) ∧
  (∀ (s : State) (d : QueueDesc) (b : List Byte) (i : Nat), CommandReady s 1 d →
    let c := s.commandBytes d
    let admin := s.adminOf s.sel.a d
    let x := descriptorOf b
    let hb := s.readHeader d.ctx x
    let l0 := launchEntry d.ctx (field c 0x48 8) d.prio (s.namedLevel d.ctx admin (field c 0x50 8) 2) x (headerOf (hb.getD []))
    let l := if s.launchFixed hb b l0 then l0.fix x.nx x.ny x.nz else l0
    s.readDesc (commandAddr admin d.ctx (field c 0x48 8)) = some b → freeEntry s.sched.launches = some i →
    s.launchFails hb b l = none →
    ∃ t, exec .launch s = .next t ∧ CommandStarted s t d ∧ t.launch? i = some l) ∧
  (∀ (s : State) (d : QueueDesc) (i : Nat), CommandReady s 2 d → freeEntry s.sched.levels = some i →
    let c := s.commandBytes d
    let admin := s.adminOf s.sel.a d
    ∃ t x, exec .openLevel s = .next t ∧ CommandStarted s t d ∧ t.level? i = some x ∧ x.kind = field c 0x48 8 ∧ x.ctx = d.ctx ∧
      x.recAddr = commandAddr admin d.ctx (field c 0x50 8) ∧ x.target = field c 0x60 8 ∧ x.counter = 0 ∧ x.children = 0 ∧
      x.status = none ∧ x.parent = s.namedLevel d.ctx admin (field c 0x58 8) (field c 0x48 8 + 1)) ∧
  (∀ (s : State) (d : QueueDesc) (l : Nat) (x : Launch), CommandReady s 3 d →
    let a := commandAddr (s.adminOf s.sel.a d) d.ctx (field (s.commandBytes d) 0x48 8)
    s.levelAt d.ctx a = none → s.launchAt d.ctx a = some l → s.launch? l = some x → x.status = none →
    ∃ t, exec .cancelLevel s = .next t ∧ CommandStarted s t d ∧ (t.launch? l).map (fun y => y.status) = some (some (2, 0))) ∧
  (∀ (s u : State) (d : QueueDesc) (pa : Nat), CommandReady s 4 d →
    let c := s.commandBytes d
    s.recPa (commandAddr (s.adminOf s.sel.a d) d.ctx (field c 0x48 8)) true = some (pa, u) → pa % 8 = 0 →
    Inside s (.mem pa) → Loc.overlaps (.mem pa) 8 (.mem (s.descAddr s.sel.a + 0x10)) 4 = false →
    ∃ t, exec .writeWord s = .next t ∧ CommandStarted s t d ∧ t.bytesAt (.mem pa) 8 = toBytes 8 (field c 0x50 8)) ∧
  (∀ (s : State) (d : QueueDesc), CommandReady s 5 d → ∃ t, exec .notifyCores s = .next t ∧ CommandStarted s t d ∧
    t.sched.interrupts = s.sched.interrupts ++ [field (s.commandBytes d) 0x48 2]) ∧
  (∀ (s : State) (d : QueueDesc), CommandReady s 6 d →
    let c := s.commandBytes d
    ∃ t, exec .inval s = .next t ∧ CommandStarted s t d ∧ ∀ k, (t.core k).tlb = (s.core k).tlb.filter (fun x =>
      !(x.ctx == field c 0x48 8 &&
        inInval (field c 0x50 8) (field c 0x58 8) (x.vpn * 2 ^ x.size) ((x.vpn + 1) * 2 ^ x.size)))) ∧
  (∀ (s : State) (d : QueueDesc), CommandReady s 6 d →
    let c := s.commandBytes d
    ∃ t, exec .inval s = .next t ∧ ∀ cl, (t.clusterTlb cl).entries = (s.clusterTlb cl).entries.filter (fun x =>
      !(x.ctx == field c 0x48 8 &&
        inInval (field c 0x50 8) (field c 0x58 8) (x.vpn * 2 ^ x.size) ((x.vpn + 1) * 2 ^ x.size)))) ∧
  (∀ (s : State) (d : QueueDesc), CommandReady s 7 d →
    let c := s.commandBytes d
    ∃ t, exec .ctxset s = .next t ∧ CommandStarted s t d ∧ t.context (field c 0x48 8) = contextOf c)

/-- R416, R419 and R422: a doorbell writes TAIL, and beyond the queues only sets ACCERR; a command that fails a check
halts its queue with HALTED and QERR written; one that waits changes no memory; a blocked queue looks again 2^16
cycles later; a command that has waited 2^20 cycles for a table halts its queue with code 7. Completes: doorbellWrite,
waitRecheckTimer, queueTableTimeout. -/
def Obligations.QueuesWaitAndHalt : Prop :=
  (∀ (s : State) (q : Nat) (v : BitVec 64), s.wf = true → q < 64 * s.engineCount → s.descAddr q % 64 = 0 →
    Inside s (.mem (s.descAddr q)) →
    ∃ t, exec (.doorbellWrite q v) s = .next t ∧ t.bytesAt (.mem (s.descAddr q + 0x14)) 4 = toBytes 4 (bits v.toNat 31 0) ∧
      SameBytesOutside s t [(.mem (s.descAddr q + 0x14), 4)] ∧ t.sched.queues.any (fun x => x.q == q && x.look) = true) ∧
  (∀ (s : State) (q : Nat) (v : BitVec 64), 64 * s.engineCount ≤ q →
    ∃ t, exec (.doorbellWrite q v) s = .next t ∧ SameMemory s t ∧ t.pkg.regs.lock.getLsbD 63 = true ∧ t.sched = s.sched) ∧
  (∀ (s : State) (d : QueueDesc) (opc code off : Nat), opc < 8 → s.wf = true → s.queueDesc s.sel.a = some d →
    s.takesFrom s.sel.a = true → s.commandCode d = opc → s.verdict s.sel.a d (s.commandBytes d) = .halt code off →
    s.descAddr s.sel.a % 64 = 0 → Inside s (.mem (s.descAddr s.sel.a)) →
    ∃ t, exec (commandRow opc) s = .next t ∧
      t.bytesAt (.mem (s.descAddr s.sel.a + 0xC)) 4 = toBytes 4 (d.flags ||| 4) ∧
      t.bytesAt (.mem (s.descAddr s.sel.a + 0x18)) 4 = toBytes 4 (code + 256 * off) ∧
      SameBytesOutside s t [(.mem (s.descAddr s.sel.a + 0xC), 4), (.mem (s.descAddr s.sel.a + 0x18), 4)]) ∧
  (∀ (s : State) (d : QueueDesc) (opc : Nat), opc < 8 → s.queueDesc s.sel.a = some d → s.takesFrom s.sel.a = true →
    s.commandCode d = opc → s.verdict s.sel.a d (s.commandBytes d) = .blocked →
    ∃ t, exec (commandRow opc) s = .next t ∧ SameMemory s t ∧ t.sched.queues = s.sched.queues.map (fun x =>
      if x.q == s.sel.a then { x with look := false, blockedAt := s.cycle } else x)) ∧
  (∀ s : State, ∃ t, exec .waitRecheckTimer s = .next t ∧ SameMemory s t ∧ t.sched.queues = s.sched.queues.map (fun x =>
    if x.q = s.sel.a ∧ x.look = false ∧ x.blockedAt + 2 ^ 16 ≤ s.cycle then { x with look := true } else x)) ∧
  (∀ (s : State) (x : QueueState) (d : QueueDesc) (since : Nat), s.wf = true →
    s.sched.queues.find? (fun y => y.q == s.sel.a) = some x → x.fullSince = some since → since + 2 ^ 20 ≤ s.cycle →
    s.queueDesc s.sel.a = some d → s.descAddr s.sel.a % 64 = 0 → Inside s (.mem (s.descAddr s.sel.a)) →
    ∃ t, exec .queueTableTimeout s = .next t ∧ t.bytesAt (.mem (s.descAddr s.sel.a + 0xC)) 4 = toBytes 4 (d.flags ||| 4) ∧
      t.bytesAt (.mem (s.descAddr s.sel.a + 0x18)) 4 = toBytes 4 7)

/-! ### Launches, records, pre-emption -/

/-- R30, R423, R427, R429, R430, R431 and R449: a launch whose counts do not come from memory and are not zero becomes
ready; a stopped launch that has drained leaves the table (stated for one without a graph); a record that passes its
checks stands in its core's slot table, and one that fails any leaves only its BINDSTAT; an attempt to steal steps the
shift register; a record that a thief may take moves to it; a write of zero clears a die's overrun flag. Completes:
launchReady, cancelComplete, bindRecordWrite, restoreRecordWrite, stealAttempt, stealRequest, logOverrunClear. -/
def Obligations.LaunchesAndRecords : Prop :=
  (∀ (s : State) (l : Launch), s.launch? s.sel.a = some l → s.readyDue l = true → l.desc.indirect = false → l.target ≠ 0 →
    ∃ t, exec .launchReady s = .next t ∧ SameMemory s t ∧ t.launch? s.sel.a = some { l with ready := true }) ∧
  (∀ (s : State) (l : Launch), s.sel.a = 0 → s.cancelReady 0 s.sel.b = true → s.launch? s.sel.b = some l → l.graph = none →
    ∃ t, exec .cancelComplete s = .next t ∧ t.sched.launches = tdel s.sched.launches s.sel.b) ∧
  (∀ (s : State) (die : Nat) (b : BindRecord),
    (s.bindCheck die b false = 0 → ∀ l, s.launch? b.lslot.toNat = some l →
      ∃ t, exec (.bindRecordWrite die b) s = .next t ∧ SameMemory s t ∧ (t.die die).bindStat = 0 ∧
        (t.core b.core.toNat).slots = (s.core b.core.toNat).slots ++ [⟨b, none, false⟩] ∧
        t.launch? b.lslot.toNat = some { l with bound := l.bound ++ [b.group.toNat] }) ∧
    (s.bindCheck die b false ≠ 0 →
      ∃ t, exec (.bindRecordWrite die b) s = .next t ∧ SameMemory s t ∧ (t.die die).bindStat = s.bindCheck die b false ∧
        (∀ c, t.core c = s.core c) ∧ t.sched.launches = s.sched.launches)) ∧
  (∀ (s : State) (die : Nat) (r : RestoreRecord), r.mbz = 0 →
    (s.bindCheck die r.bind true = 0 → s.restoreCheck r = 0 →
      ∃ t, exec (.restoreRecordWrite die r) s = .next t ∧ SameMemory s t ∧ (t.die die).bindStat = 0 ∧
        (t.core r.bind.core.toNat).slots =
          (s.core r.bind.core.toNat).slots ++ [⟨r.bind, some (r.image.toNat, r.imglen.toNat), false⟩]) ∧
    (s.bindCheck die r.bind true ≠ 0 →
      ∃ t, exec (.restoreRecordWrite die r) s = .next t ∧ SameMemory s t ∧
        (t.die die).bindStat = s.bindCheck die r.bind true ∧ ∀ c, t.core c = s.core c)) ∧
  (∀ s : State, s.stealDue s.sel.a = true →
    ∃ t, exec .stealAttempt s = .next t ∧ SameMemory s t ∧ (t.core s.sel.a).idleSince = s.cycle ∧ (t.core s.sel.a).lfsr =
      lfsrStep (if (s.core s.sel.a).lfsr == 0 then (s.die (s.dieOf s.sel.a)).seed else (s.core s.sel.a).lfsr)) ∧
  (∀ (s : State) (x y : SlotRecord), (s.core s.sel.b).asked = some s.sel.a → s.sel.a ≠ s.sel.b →
    let u := s.modCore s.sel.b (fun k => { k with asked := none })
    (u.pending s.sel.a).reverse.findSome? (fun x => (u.stealable s.sel.a s.sel.b x).map (fun y => (x, y))) = some (x, y) →
    y.restore = none →
    ∃ t, exec .stealRequest s = .next t ∧ (t.core s.sel.a).slots = (s.core s.sel.a).slots.erase x ∧
      (t.core s.sel.b).slots = (s.core s.sel.b).slots ++ [y] ∧ (t.core s.sel.b).asked = none) ∧
  (∀ (s : State) (die : Nat), ∃ t, exec (.logOverrunClear die 0) s = .next t ∧ SameMemory s t ∧ (t.die die).overrun = false)

/-- R437 and R438: a write of FQHEAD moves the head, and lists the parked crew that waits longest when the ring has
room: with room for one, TAIL and SEQ rise by one and VEC is raised; a replay lets the parked threads issue again; a
decline raises their page faults, class 2, as the crew's trap; a terminate ends their launch with cause 2; a token
that names no parked crew only sets FRSTAT, and a read of FRSTAT answers and clears it. Completes: fqheadWrite,
faultrespReplay, faultrespDecline, faultrespTerminate, frstatRead. -/
def Obligations.FaultQueueAnswers : Prop :=
  (∀ (s : State) (v : Word), ∃ t, exec (.fqheadWrite v) s = .next t ∧ t.sched.fq.head = v) ∧
  (∀ (s : State) (v : Word) (r : CrewRef) (p : Parked), s.nextParked = some (r, p) →
    (s.sched.fq.tail - v).toNat < s.fqCapacity →
    ∃ t, exec (.fqheadWrite v) s = .next t ∧ (t.crew r).parked = some { p with listed := true } ∧
      ((s.sched.fq.tail - v).toNat + 1 = s.fqCapacity → t.sched.fq.tail = s.sched.fq.tail + 1 ∧
        t.sched.fq.seq = s.sched.fq.seq + 1 ∧ t.sched.interrupts = s.sched.interrupts ++ [s.sched.fq.vec.toNat])) ∧
  (∀ (s : State) (tok : Word) (r : CrewRef) (p : Parked), s.parkedAt tok = some (r, p) →
    (∃ t, exec (.faultrespReplay tok) s = .next t ∧ SameMemory s t ∧ OtherCrewsSame s t r ∧ t.crew r = (s.crew r).unpark) ∧
    ((s.crew r).handling = none →
      ∃ t q, exec (.faultrespDecline tok) s = .next t ∧ SameMemory s t ∧ OtherCrewsSame s t r ∧ (t.crew r).parked = none ∧
        (t.crew r).pendingTrap = some q ∧ q.lanes = p.faults ∧ q.pmask = p.part ∧ q.tpc = p.pc ∧ q.async = false ∧
        ((∀ x ∈ p.faults, x.cls = 2) → q.cls = 2)) ∧
    (∀ l x, s.lslotOf r = some l → s.launch? l = some x → x.ctx = s.ctxOf r → x.status = none →
      ∃ t, exec (.faultrespTerminate tok) s = .next t ∧ (t.launch? l).map (fun y => y.status) = some (some (3, 2)))) ∧
  (∀ (s : State) (tok : Word), s.parkedAt tok = none → ∃ t, exec (.faultrespReplay tok) s = .next t ∧
    exec (.faultrespDecline tok) s = .next t ∧ exec (.faultrespTerminate tok) s = .next t ∧ t.sched.fq.stat = true ∧
    t.cores = s.cores ∧ t.mem = s.mem) ∧
  (∀ s : State, ∃ t, exec .frstatRead s = .next t ∧ SameMemory s t ∧ t.sched.fq.stat = false ∧
    t.hostOut = s.hostOut ++ [⟨.other, toBytes 8 (if s.sched.fq.stat then 1 else 0), true, none⟩])

/-- R440 to R444, R452 and R462: a pre-emption that fails a check leaves its PSTAT, and one that passes them stops the
groups it names; once they have drained their images are written and they are free; an evacuation that has lasted 2^16
cycles ends with the core fenced and no group; a fence of a core without groups closes it at once; a quiesce begins,
and a second one is refused; a cast is refused, with nothing changed, unless it is welcome and passes its checks.
Completes: preemptRequest, preemptComplete, fenceEvacuationTimeout, fenceUnit, quiesce, restoreCast. -/
def Obligations.PreemptionFencesAndCasts : Prop :=
  (∀ (s : State) (die : Nat) (req : PreemptRequest), (s.die die).preempt = none → (s.die die).waiting = [] →
    let j : PreemptJob := { req := req, origin := .port, victims := [], handlers := [] }
    let v := s.victimsOf die j
    let n := s.preemptCheck req v (s.handlersWith die j v)
    ∃ t, exec (.preemptRequest die req) s = .next t ∧ SameMemory s t ∧
      (n.1 ≠ 0 → (t.die die).pstat = n.1 ∧ (t.die die).plen = n.2 ∧ (t.die die).preempt = none ∧ ∀ c, t.core c = s.core c) ∧
      (n.1 = 0 → (t.die die).preempt = some { j with victims := v, handlers := s.handlersWith die j v } ∧
        ∀ x ∈ v, (t.group x.1 x.2).map (fun g => g.draining) = some true)) ∧
  (∀ (s : State) (j : PreemptJob) (v : Nat × Nat) (g : Group) (l : Launch), (s.die s.sel.a).preempt = some j →
    (s.die s.sel.a).waiting = [] → s.preemptDue s.sel.a = true → j.origin = .port → j.victims = [v] → j.handlers = [] →
    s.victimLeft v = true → s.group v.1 v.2 = some g → s.launch? g.lslot = some l →
    s.backed j.req.saveaddr.toNat (recordsBytes (s.groupImage v.1 v.2)) = true →
    ∃ t x, exec .preemptComplete s = .next t ∧ (t.die s.sel.a).preempt = none ∧ (t.die s.sel.a).pstat = 0 ∧
      (t.die s.sel.a).plen = (recordsBytes (s.groupImage v.1 v.2)).length ∧ t.group v.1 v.2 = none ∧
      t.launch? g.lslot = some { l with saved := l.saved ++ [x] } ∧ x.g = g.g ∧ x.image = j.req.saveaddr.toNat) ∧
  (∀ s : State, s.evacuationLate s.sel.a = true →
    ∃ t, exec .fenceEvacuationTimeout s = .next t ∧ (t.core s.sel.a).fenced = true ∧ (t.core s.sel.a).evacuating = none ∧
      ∀ g, g < 32 → t.group s.sel.a g = none) ∧
  (∀ (s : State) (n c : Nat) (why : FenceReason), s.quiescing = false → logOff s → s.logicalCore n = some c →
    (s.core c).fenced = false → (s.core c).evacuating = none → s.pending c = [] → (∀ g, s.group c g = none) →
    ∃ t, exec (.fenceUnit .core n why) s = .next t ∧ SameMemory s t ∧ (t.core c).fenced = true ∧
      (t.core c).evacuating = none) ∧
  (∀ (s : State) (n : Nat) (why : FenceReason), s.quiescing = false → logOff s → s.pkg.regs.sliceMask.getLsbD n = true →
    ∃ t, exec (.fenceUnit .slice n why) s = .next t ∧ SameMemory s t ∧ t.sched.quiesce.stage = .draining ∧
      t.sched.quiesce.request = some { excluded := [], emitCast := false, resume := true, dropSlice := some n }) ∧
  (∀ (s : State) (req : QuiesceRequest),
    (s.quiescing = true ∨ 8 < req.excluded.length → ∃ t, exec (.quiesce req) s = .next t ∧ Answered s t .armature [] false) ∧
    (s.quiescing = false → req.excluded.length ≤ 8 → ∃ t, exec (.quiesce req) s = .next t ∧ SameMemory s t ∧
      t.sched.quiesce.stage = .draining ∧ t.sched.quiesce.request = some req)) ∧
  (∀ (s : State) (l : List CastRecord), (s.castWelcome = false ∨ castParts l = none →
      ∃ t, exec (.restoreCast l) s = .next t ∧ Answered s t .armature [] false) ∧
    (∀ p, s.castWelcome = true → castParts l = some p → ∃ t, exec (.restoreCast l) s = .next t ∧
      if s.castOk l p then t.sched.quiesce.stage = .none ∧ t.sched.qtbase = longAt p.header 0x30 ∧ t.hostOut.getLast? = some ⟨.armature, [], true, none⟩
      else Answered s t .armature [] false))

/-! ### The fleet -/

/-- R477 and R505: a reset is refused unless the cluster's cores are fenced, and else lasts 2^12 cycles; a field test
of a cluster stops binding to it, starts once the cluster is idle, and after 2^22 cycles passes or fails. Completes:
resetCluster, clusterResetEnd, runFieldTest, iftctlStart, iftComplete. -/
def Obligations.ClusterResetsAndFieldTests : Prop :=
  (∀ (s : State) (n : Nat),
    let ok := (s.clusterCores n).all (fun c => (s.core c).fenced) && (s.cluster n).resetUntil.isNone
    (ok = false → ∃ t, exec (.resetCluster n) s = .next t ∧ Answered s t .armature [] false) ∧
    (ok = true → ∃ t, exec (.resetCluster n) s = .next t ∧ (t.cluster n).resetUntil = some (s.cycle + 2 ^ 12) ∧
      t.hostOut.getLast? = some ⟨.armature, [], true, none⟩ ∧ t.mem = s.mem ∧
      ∀ c ∈ s.clusterCores n, (t.core c).groups = Core.reset.groups ∧ (t.core c).resetAt = s.cycle ∧
        (t.core c).fenced = (s.core c).fenced)) ∧
  (∀ (s : State) (u : Nat), (s.cluster s.sel.a).resetUntil = some u → u ≤ s.cycle →
    ∃ t, exec .clusterResetEnd s = .next t ∧ SameMemory s t ∧ (t.cluster s.sel.a).resetUntil = none) ∧
  (∀ (s : State) (n : Nat), s.quiescing = false →
    ∃ t, exec (.runFieldTest n) s = .next t ∧ SameMemory s t ∧ (t.cluster n).stopped = true) ∧
  (∀ (s : State) (n : Nat), s.quiescing = true → ∃ t, exec (.runFieldTest n) s = .next t ∧ SameMemory s t ∧
    t.sched.quiesce.held = s.sched.quiesce.held ++ [.runFieldTest n]) ∧
  (∀ (s : State) (die n : Nat), n / 32 = die → (s.fieldTest die).running = none → (s.fieldTest die).waiting = [] →
    s.clusterIdle n = true →
    ∃ t, exec (.iftctlStart die n) s = .next t ∧ SameMemory s t ∧ (t.fieldTest die).running = some (n, s.cycle) ∧
      (t.cluster n).testing = true) ∧
  (∀ (s : State) (die n begun : Nat) (fault : Option Nat), (s.fieldTest die).running = some (n, begun) →
    (s.fieldTest die).waiting = [] → begun + 2 ^ 22 ≤ s.cycle →
    ∃ t, exec (.iftComplete die fault) s = .next t ∧ (t.fieldTest die).running = none ∧
      (t.fieldTest die).stat = (if fault = none then 1 else 2) ∧ (t.cluster n).testing = false ∧
      (fault = none → (t.cluster n).stopped = false ∧ (t.cluster n).mark = (s.die die).seq ∧ (t.cluster n).seen = []))

/-- R496 and R497: a power cap within its limits is taken, another refused; a die's duty follows the control's period; a die
above its limit is forced down, until it is 5 degrees below. -/
def Sys2Proof.Claims.PowerAndHeat : Prop :=
  (∀ (s : State) (w : Nat),
    (w < 100 ∨ 2400 < w → ∃ t, exec (.setPowerCap w) s = .next t ∧ Answered s t .armature [] false) ∧
    (100 ≤ w → w ≤ 2400 → ∃ t, exec (.setPowerCap w) s = .next t ∧ SameMemory s t ∧
      t.pkg.power.cap = BitVec.ofNat 64 (w + 2 ^ 16))) ∧
  (∀ (s : State) (die w d : Nat), s.cycle % 2 ^ 16 = 0 → 8 ≤ d → d ≤ 64 → die < s.pkg.power.duty.length →
    ∃ t, exec (.powerControlPeriod die w d) s = .next t ∧ SameMemory s t ∧ t.pkg.power.watts = w ∧
      t.pkg.power.duty[die]? = some d) ∧
  (∀ (s : State) (die c : Nat),
    (s.pkg.power.tlimit.toNat < c → ∃ t, exec (.thermalThrottle die c) s = .next t ∧ SameMemory s t ∧ die ∈ t.pkg.power.hot) ∧
    (c + 5 ≤ s.pkg.power.tlimit.toNat → ∃ t, exec (.thermalRelease die c) s = .next t ∧ SameMemory s t ∧
      t.pkg.power.hot = s.pkg.power.hot.filter (fun x => x != die)))

/-- R149, R160, R172, R473, R476, R479, R498 and R501 (stated where the error log is off): an event of a class counts
at its cell; at a core it restarts its crews at their oldest heads; at a home it sends a notice for its uncleared
response and answers it anew with the next serial; in a router it discards the packets held there, whose requests are
lost; a slip is a CLOCK event; a link that fails a check resends 12 cycles later, a failing lane takes a spare for 256
cycles of pause; damaged storage poisons its block, ends its group, or stops its die. Completes: sensorEventCore,
sensorEventHome, sensorEventRouterPort, crossingSlip, linkCrcFail, linkResend, laneRemap, laneRemapEnd,
uncorrectableStorageError. -/
def Obligations.EventsAndDamage : Prop :=
  (∀ (s : State) (cls : SensorClass) (cell : Nat), cell < 1024 → logOff s →
    ∃ t, exec (.sensorEventCore cls cell) s = .next t ∧ (tget (List.replicate 8 0) t.pkg.cells cell)[sensorField cls]? =
      ((tget (List.replicate 8 0) s.pkg.cells cell)[sensorField cls]?).map (fun x => min (x + 1) (2 ^ 32 - 1))) ∧
  (∀ (s : State) (cls : SensorClass) (cell c : Nat) (r : CrewRef) (g : Region) (rest : List Region), cell < 1024 → logOff s →
    s.logicalCore cell = some c → (s.home (.port c)).responses = [] → (s.home (.vault c)).responses = [] → r.core = c →
    r.sub < 4 → r.slot < 8 → (s.crew r).owner.isSome = true → (s.crew r).regions = g :: rest → (s.crew r).point = none →
    ∃ t, exec (.sensorEventCore cls cell) s = .next t ∧ SameMemory s t ∧ Restarted s t r g) ∧
  (∀ (s : State) (cls : SensorClass) (cell : Nat) (x : Response), 1024 ≤ cell → cell < 1280 → logOff s →
    (s.home (.slice (cell - 1024))).responses = [x] → x.tagged = true → x.tx = none → x.write = none → x.undo = .none →
    ∃ t n y, exec (.sensorEventHome cls cell) s = .next t ∧ SameMemory s t ∧ t.net.redos = s.net.redos ++ [n] ∧
      n.core = x.core ∧ n.tag = ⟨cell, x.serial⟩ ∧ (t.home (.slice (cell - 1024))).responses = [y] ∧ y.core = x.core ∧
      y.serial = (s.home (.slice (cell - 1024))).serial ∧ y.served = s.cycle) ∧
  (∀ (s : State) (cls : SensorClass) (cell : Nat), 1280 ≤ cell → cell < 1536 → logOff s →
    ∃ t, exec (.sensorEventRouterPort cls cell) s = .next t ∧ SameMemory s t ∧
      t.net.packets = s.net.packets.filter (fun p => p.router != cell - 1280) ∧
      ∀ p ∈ s.net.packets, p.router = cell - 1280 → p.reply = false → ∀ x, t.tx p.tx = some x → x.lost = true) ∧
  (∀ (s : State) (cell : Nat),
    (cell < 1024 → ∃ t, exec (.crossingSlip cell) s = .next t ∧ exec (.sensorEventCore .clock cell) s = .next t) ∧
    (1024 ≤ cell → cell < 1280 → ∃ t, exec (.crossingSlip cell) s = .next t ∧ exec (.sensorEventHome .clock cell) s = .next t) ∧
    (1280 ≤ cell → cell < 1792 →
      ∃ t, exec (.crossingSlip cell) s = .next t ∧ exec (.sensorEventRouterPort .clock cell) s = .next t)) ∧
  (∀ (s : State) (port lane : Nat), ∃ t, exec (.linkCrcFail port lane) s = .next t ∧ SameMemory s t ∧
    (t.port port).discarding = true ∧ (t.port port).resendAt = some (((s.port port).resendAt).getD (s.cycle + 12)) ∧
    (lane, s.cycle) ∈ (t.port port).failures) ∧
  (∀ s : State, s.linkDue s.sel.a = true → ∃ t, exec .linkResend s = .next t ∧ SameMemory s t ∧
    (t.port s.sel.a).discarding = false ∧ (t.port s.sel.a).resendAt = none) ∧
  (∀ (s : State) (port lane : Nat), logOff s →
    (((s.port port).failures.filter (fun x => x.1 == lane && decide (s.cycle < x.2 + 2 ^ 20))).length < 8 →
      exec (.laneRemap port lane false) s = .next s) ∧
    ((s.port port).spares ≠ 0 → ∃ t, exec (.laneRemap port lane true) s = .next t ∧ SameMemory s t ∧
      (t.port port).spares = (s.port port).spares - 1 ∧ (t.port port).pausedUntil = s.cycle + 256)) ∧
  (∀ s : State, (s.port s.sel.a).pausedUntil ≠ 0 → (s.port s.sel.a).pausedUntil ≤ s.cycle →
    ∃ t, exec .laneRemapEnd s = .next t ∧ SameMemory s t ∧ (t.port s.sel.a).pausedUntil = 0) ∧
  (∀ s : State, logOff s →
    (∀ pa, ∃ t, exec (.uncorrectableStorageError (.block pa)) s = .next t ∧ t.poisoned (.mem pa) = true ∧
      t.mem.cells = s.mem.cells ∧ t.mem.descs = s.mem.descs) ∧
    (∀ core g gr unit, s.group core g = some gr →
      ∃ t, exec (.uncorrectableStorageError (.group core g unit)) s = .next t ∧ t.group core g = none) ∧
    (∀ h, s.contextsAt h = [] → ∃ t, exec (.uncorrectableStorageError (.homeRecord h)) s = .next t ∧ SameMemory s t ∧
      t.sched = s.sched) ∧
    (∀ die table, ∃ t, exec (.uncorrectableStorageError (.device die table)) s = .next t ∧ SameMemory s t ∧
      (t.die die).dispatchStopped = true))

/-- R498, R499, R502 and R503: a scrub that finds a correctable error reads the block, and writes it back only while its
version is the one read; an uncorrectable one is poisoned; counters take only zero, thresholds only windows of 2^20 to 2^40
cycles, and what is refused sets ACCERR. -/
def Sys2Proof.Claims.ScrubbingAndCounters : Prop :=
  (∀ (s : State) (b : Nat), s.scrubbed b = true → logOff s →
    exec (.scrubVisit b .clean) s = .next s ∧
    (∃ t, exec (.scrubVisit b .correctable) s = .next t ∧ SameMemory s t ∧
      t.pkg.scrubRead = some (b, s.versionOf b, s.bytesAt (.mem (64 * b)) 64)) ∧
    ∃ t, exec (.scrubVisit b .uncorrectable) s = .next t ∧ t.mem.cells = s.mem.cells ∧ b ∈ t.mem.poisoned) ∧
  (∀ (s : State) (v : Bool) (data : List Byte), s.wf = true → s.pkg.scrubRead = some (s.sel.a, v, data) →
    ∃ t, exec .scrubWriteback s = .next t ∧ t.pkg.scrubRead = none ∧
      (s.versionOf s.sel.a = v → t.bytesAt (.mem (64 * s.sel.a)) data.length = data ∧
        SameBytesOutside s t [(.mem (64 * s.sel.a), data.length)]) ∧
      (s.versionOf s.sel.a ≠ v → SameMemory s t)) ∧
  (∀ (s : State) (lo hi : Nat), ∃ t, exec (.clearCounters lo hi) s = .next t ∧ SameMemory s t ∧ ∀ c x, (c, x) ∈ t.pkg.cells →
    lo ≤ c → c ≤ hi → x = List.replicate 8 0) ∧
  (∀ (s : State) (cell f : Nat) (v : Word),
    (v ≠ 0 → ∃ t, exec (.counterWrite cell f v) s = .next t ∧ t.pkg.regs.lock.getLsbD 63 = true ∧ t.pkg.cells = s.pkg.cells) ∧
    (v = 0 → ∃ t, exec (.counterWrite cell f v) s = .next t ∧ SameMemory s t ∧
      (tget (List.replicate 8 0) t.pkg.cells cell)[f]? = ((tget (List.replicate 8 0) s.pkg.cells cell)[f]?).map (fun _ => 0))) ∧
  (∀ (s : State) (kind i : Nat) (v : BitVec 64),
    (bits v.toNat 5 0 < 20 ∨ 40 < bits v.toNat 5 0 → ∃ t, exec (.thresholdWrite kind i v) s = .next t ∧
      t.pkg.regs.lock.getLsbD 63 = true ∧ t.pkg.thresholds = s.pkg.thresholds) ∧
    (20 ≤ bits v.toNat 5 0 → bits v.toNat 5 0 ≤ 40 → ∃ t, exec (.thresholdWrite kind i v) s = .next t ∧ SameMemory s t ∧
      tget ⟨0, 0⟩ t.pkg.thresholds (thresholdKey kind i) = ⟨bits v.toNat 63 32, bits v.toNat 5 0⟩)) ∧
  (∀ s : State, ∃ t, exec (.ellostClear 0) s = .next t ∧ SameMemory s t ∧ t.pkg.log.lost = 0)

/-- R496 to R499, R502 and R503: power, heat, scrubbing and counters. Completes: setPowerCap, powerControlPeriod,
thermalThrottle, thermalRelease, scrubVisit, scrubWriteback, clearCounters, counterWrite, thresholdWrite,
ellostClear. -/
def Obligations.PowerHeatScrubbingAndCounters : Prop := Sys2Proof.Claims.PowerAndHeat ∧ Sys2Proof.Claims.ScrubbingAndCounters

/-! ### The package -/

/-- R481, R482 and R484: only Plinth locks; REGION locks only a table that passes its checks, and else sets LOCKERR; what is
refused sets ACCERR; the errors clear where a one is written; QTBASE takes an application core's write and no other's. -/
def Sys2Proof.Claims.LocksAndRegisters : Prop :=
  (∀ (ins : Party → Instr) (i : Nat), (ins = .lockPart ∧ i = 1) ∨ (ins = .lockLmap ∧ i = 2) ∨ (ins = .lockSensors ∧ i = 3) ∨
      (ins = .lockClock ∧ i = 4) ∨ (ins = .lockPhoac ∧ i = 5) → ∀ s : State,
    (∃ t, exec (ins .plinth) s = .next t ∧ SameMemory s t ∧ t.pkg.regs.lock.getLsbD i = true) ∧
    ∀ who, who ≠ .plinth → ∃ t, exec (ins who) s = .next t ∧ SameMemory s t ∧ t.pkg.regs.lock = s.pkg.regs.lock ||| (1 <<< 63)) ∧
  (∀ s : State,
    (s.regionsOk = true → ∃ t, exec (.lockRegion .plinth) s = .next t ∧ SameMemory s t ∧
      t.pkg.regs.lock = s.pkg.regs.lock ||| 1) ∧
    (s.regionsOk = false → s.locked 0 = false → ∃ t, exec (.lockRegion .plinth) s = .next t ∧ SameMemory s t ∧
      t.pkg.regs.lock = s.pkg.regs.lock ||| (1 <<< 62)) ∧
    ∀ who, who ≠ .plinth → ∃ t, exec (.lockRegion who) s = .next t ∧ t.pkg.regs.lock = s.pkg.regs.lock ||| (1 <<< 63)) ∧
  (∀ (s : State) (v : BitVec 64), ∃ t, exec (.lockErrorClear v) s = .next t ∧ SameMemory s t ∧
    t.pkg.regs.lock = s.pkg.regs.lock &&& ~~~(v &&& (3#64 <<< 62))) ∧
  (∀ (s : State) (v : BitVec 64) (hart : Nat), ∃ t, exec (.registerWrite (.app hart) 0x30000 v) s = .next t ∧ SameMemory s t ∧
    t.sched.qtbase = v &&& ~~~0xFFFFF#64) ∧
  (∀ (s : State) (v : BitVec 64) (who : Party), partyIsApp who = false →
    ∃ t, exec (.registerWrite who 0x30000 v) s = .next t ∧ t.sched = s.sched ∧ t.pkg.regs.lock = s.pkg.regs.lock ||| (1 <<< 63))

/-- R485, R486 and R487: at power-on an image that verifies brings the device up, with the logical map of the working cores and
the locks set; else it stays in recovery; a firmware image goes to the slot that is not active. -/
def Sys2Proof.Claims.PowerOnAndFirmware : Prop :=
  (∀ (s : State) (b : BootConfig), ∃ t, exec (.powerOn b) s = .next t ∧ t.mem = .reset ∧ t.cores = [] ∧ t.cycle = 0 ∧
    (if (s.afterPower b).pkg.boot.choose.isSome ∧ enoughWorks (withMarks b s.pkg.boot.marks) = true then
      t.pkg.boot.stage = .running ∧ some t.pkg.boot.active = (s.afterPower b).pkg.boot.choose ∧
      (∀ i, 1 ≤ i → i ≤ 5 → t.pkg.regs.lock.getLsbD i = true) ∧ t.pkg.regs.adminq = b.adminq &&& adminqBits ∧
      ∀ c, c < 1024 → t.pkg.regs.lmap[c]? = some (match (workingCores b)[c]? with
        | some p => BitVec.ofNat 32 (2 ^ 31 + p)
        | none => 0)
    else t.pkg.boot.stage = .recovery)) ∧
  (∀ (s : State) (x : FirmwareImage) (n : Nat), s.pkg.boot.stage ≠ .off →
    (1 < n ∨ (s.pkg.boot.stage = .running ∧ s.pkg.boot.active = n) →
      ∃ t, exec (.updateFirmware x n) s = .next t ∧ Answered s t .armature [] false) ∧
    (n ≤ 1 → ¬(s.pkg.boot.stage = .running ∧ s.pkg.boot.active = n) → ∃ t, exec (.updateFirmware x n) s = .next t ∧
      SameMemory s t ∧ (if n = 0 then t.pkg.boot.slotA else t.pkg.boot.slotB) = x ∧
      (if n = 0 then t.pkg.boot.slotB = s.pkg.boot.slotB else t.pkg.boot.slotA = s.pkg.boot.slotA)))

/-- R481, R482, R484 to R487: power-on, firmware, locks and registers. Completes: powerOn, updateFirmware, lockPart,
lockLmap, lockSensors, lockClock, lockPhoac, lockRegion, lockErrorClear, registerWrite. -/
def Obligations.PowerOnLocksAndRegisters : Prop := Sys2Proof.Claims.PowerOnAndFirmware ∧ Sys2Proof.Claims.LocksAndRegisters

/-- R489: Plinth answers SPDM requests once it runs, GET_VERSION in recovery as well: the certificate from its offset, a
signed challenge, the measurements one by one, and an error for a request it does not support; the answers' codes are the
model's own (log 29). -/
def Sys2Proof.Claims.SpdmRequestsAreAnswered : Prop :=
  (∀ s : State, s.pkg.boot.stage ≠ .off → ∃ t, exec .getVersion s = .next t ∧ Answered s t .other (Config.answer 0x84 []) true) ∧
  (∀ s : State, s.plinthUp = true →
    (∃ t, exec .getCapabilities s = .next t ∧ Answered s t .other (Config.answer 0xE1 []) true) ∧
    (∃ t, exec .getDigests s = .next t ∧ Answered s t .other (Config.digest Config.certificate) true) ∧
    (∀ a b, ∃ t, exec (.negotiateAlgorithms a b) s = .next t ∧ t.pkg.boot.algorithms = true ∧
      t.hostOut = s.hostOut ++ [⟨.other, Config.answer 0xE3 (toBytes 4 a ++ toBytes 4 b), true, none⟩]) ∧
    (∀ off n, ∃ t, exec (.getCertificate 0 off n) s = .next t ∧
      Answered s t .other ((Config.certificate.drop off).take n) true) ∧
    (∀ k off n, k ≠ 0 → ∃ t, exec (.getCertificate k off n) s = .next t ∧ Answered s t .other [] false) ∧
    (∀ nonce, ∃ t, exec (.challenge 0 nonce) s = .next t ∧ Answered s t .other
      (Config.answer 0x83 nonce ++ Config.sign (Config.digest (Config.answer 0x83 nonce))) true) ∧
    (∃ t, exec (.getMeasurements 0) s = .next t ∧ Answered s t .other [7] true) ∧
    (∀ i, 1 ≤ i → i ≤ 7 → ∃ t, exec (.getMeasurements i) s = .next t ∧ Answered s t .other (s.measurement i) true) ∧
    (∀ c, ∃ t, exec (.spdmUnsupported c) s = .next t ∧ Answered s t .other ([0x7F, 0x07] ++ toBytes 1 c) false)) ∧
  (∀ s : State, s.plinthUp = false → exec .getCapabilities s = .next s ∧ exec .getDigests s = .next s)

/-- The answer to an outside party waits at its home, with the home's latest response, for that response's clear (R175). -/
def Sys2Proof.Claims.HeldFor (s t : State) (p : Loc) (who : Party) (data : List Byte) : Prop :=
  t.hostOut = s.hostOut ∧
    (((t.home (s.homeOf p false)).responses.getLast?).bind (fun y => y.reply)).map (fun q => (q.party, q.data)) = some (who, data)

/-- R175, R452, R492, R493 and R494: a read of one line from outside the dies changes no memory, and its answer is the bytes of
its home; a write of one line performs its bytes and no others; either answer is held until the home's response has
cleared; what reaches no storage fails; an unmatched PCIe request is unsupported; a package's request with an identifier
that is kept is answered and not performed again. -/
def Sys2Proof.Claims.OutsideAccesses : Prop :=
  (∀ (s : State) (hart a n : Nat), inAperture a = false → s.cutOff a n = false → s.reaches (.read a n) = true →
    s.readsPoison (.read a n) = false → a % 128 + n ≤ 128 → Inside s (.mem a) →
    ∃ t, exec (.appCoreAccess hart (.read a n)) s = .next t ∧ SameMemory s t ∧
      HeldFor s t (.mem a) (.app hart) (s.bytesAt (.mem a) n)) ∧
  (∀ (s : State) (hart a : Nat) (d : List Byte), s.wf = true → inAperture a = false → s.cutOff a d.length = false →
    s.reaches (.write a d) = true → a % 128 + d.length ≤ 128 → Inside s (.mem a) →
    ∃ t, exec (.appCoreAccess hart (.write a d)) s = .next t ∧ t.bytesAt (.mem a) d.length = d ∧
      SameBytesOutside s t [(.mem a, d.length)] ∧ HeldFor s t (.mem a) (.app hart) []) ∧
  (∀ (s : State) (hart : Nat) (acc : HostAccess), inAperture (accessRange acc).1 = false →
    s.cutOff (accessRange acc).1 (accessRange acc).2 = false → s.reaches acc = false →
    ∃ t, exec (.appCoreAccess hart acc) s = .next t ∧ Answered s t (.app hart) [] false) ∧
  (∀ (s : State) (port : Nat) (acc : HostAccess), s.inbound port acc = none →
    ∃ t, exec (.pcieInboundRequest port acc) s = .next t ∧ Answered s t .other [] false) ∧
  (∀ (s : State) (port a n pa : Nat), s.inbound port (.read a n) = some pa → s.cutOff pa n = false →
    s.reaches (.read pa n) = true → s.readsPoison (.read pa n) = false → pa % 128 + n ≤ 128 → Inside s (.mem pa) →
    ∃ t, exec (.pcieInboundRequest port (.read a n)) s = .next t ∧ SameMemory s t ∧
      HeldFor s t (.mem pa) .other (s.bytesAt (.mem pa) n)) ∧
  (∀ (s : State) (k tx a n : Nat), s.quiescing = false → s.reaches (.read a n) = true → s.readsPoison (.read a n) = false →
    (s.home (s.homeOf (.mem a) false)).atoms.find? (fun x => x.core == packageKey k && x.serial == tx) = none →
    a % 128 + n ≤ 128 → Inside s (.mem a) →
    ∃ t, exec (.phoacRequest k tx (.read a n)) s = .next t ∧ SameMemory s t ∧
      HeldFor s t (.mem a) .other (s.bytesAt (.mem a) n)) ∧
  (∀ (s : State) (k tx : Nat) (acc : HostAccess) (x : Kept), s.quiescing = false → s.reaches acc = true →
    s.readsPoison acc = false → (s.home (s.homeOf (.mem (accessRange acc).1) false)).atoms.find?
      (fun y => y.core == packageKey k && y.serial == tx) = some x →
    ∃ t, exec (.phoacRequest k tx acc) s = .next t ∧ SameMemory s t ∧ t.hostOut = s.hostOut ++
      [⟨.other, toBytes (accessRange acc).2 ((x.vals.map (fun v => v.2)).headD 0), true, none⟩])

/-- R175, R452, R489, R492 to R494: what Plinth answers, and what outside parties' accesses do. Completes: getVersion,
getCapabilities, getDigests, negotiateAlgorithms, getCertificate, challenge, getMeasurements, spdmUnsupported,
appCoreAccess, pcieInboundRequest, phoacRequest. -/
def Obligations.SpdmAndOutsideAccesses : Prop := Sys2Proof.Claims.SpdmRequestsAreAnswered ∧ Sys2Proof.Claims.OutsideAccesses

/-! ### Encoding -/

/-- R213, R215 to R221, R230: the words of the spec's own examples decode to the instructions they stand for: IADD C16
(R230), FFMA, CVT in both its lengths, TRY.CREW, LD.W and CPY.TL1. -/
def Obligations.WordsOfTheSpecDecode : Prop :=
  decode (toBytes 2 0x2462) = .ok (.iaddC16 { gs := 9, gd := 3 }, 2) ∧
  decode (toBytes 8 0x4F12C8700101088B) = .ok (.ffma {
    mx := 1, bln := 7, bcm := 2, sbw := 9, sbs := 3, nwb := 0, hold := 1, pn := 0, pred := 3, c := 64, b := 2, a := 1, d := 4 }, 8) ∧
  decode (toBytes 8 0x00001BF104840AC3) = .ok (.cvt {
    mx := 0, bln := 0, bcm := 0, sbw := 0, sbs := 0, nwb := 0, hold := 3, pn := 0, pred := 31, c := 0x44, b := 9, a := 4,
    d := 5 }, 8) ∧
  decode (toBytes 4 0x21220AC1) = .ok (.cvtS32 { mod := 4, gb := 9, ga := 4, gd := 5 }, 4) ∧
  decode (toBytes 8 0x000000810FC32967) = .ok (.tryGambit { imm := 0x81, sbs := 0, pn := 0, pred := 31, a := 67, d := 20 }, 8) ∧
  decode (toBytes 8 0x004000804F8A0D83) = .ok (.ld {
    off := 0x40, sx := 0, hint := 0, scope := 0, ord := 0, sz := 2, sbw := 0, sbs := 2, pn := 0, pred := 31, a := 10, d := 6 }, 8) ∧
  decode (toBytes 8 0x40005BE1829629C3) = .ok (.cpy {
    mx := 1, bln := 0, bcm := 0, sbw := 0, sbs := 1, nwb := 0, hold := 3, pn := 0, pred := 31, c := 6, b := 5, a := 22, d := 20 }, 8)

/-- R213 to R221, R228 and R230: decoding the word of a well-formed instruction, whatever bytes follow it, gives the
instruction back, with every operand at every value its encoding admits. -/
def Obligations.EncodingsDecodeToTheirInstruction : Prop :=
  ∀ (i : Instr) (len word : Nat) (rest : List Byte), i.wellFormed = true → encode i = some (len, word) →
    decode (toBytes len word ++ rest) = .ok (i, len)

/-- R213, R227 and R228: whatever decodes is well-formed, has the length that its first half-word fixes, and, but for a
reserved opcode, is the one instruction whose word those bytes are. -/
def Obligations.DecodedInstructionsAreTheirWords : Prop :=
  ∀ (bs : List Byte) (i : Instr) (n : Nat), decode bs = .ok (i, n) →
    i.wellFormed = true ∧ n = instrLength (ofBytes bs % 65536) ∧
    ((∀ op long, i ≠ .reservedOpcode op long) → encode i = some (n, ofBytes bs % 256 ^ n))

namespace Sys2Proof.Claims

/-- The opcodes that R229 reserves. -/
def reservedList : List Nat := [0x1B, 0x1C, 0x1D, 0x1E, 0x1F, 0x37, 0x38, 0x39, 0x3A, 0x3B, 0x3C, 0x3D, 0x3E, 0x3F, 0x4D, 0x4E, 0x4F]

/-- The opcodes that the map of R228 gives no 32-bit form. -/
def longOnly : List Nat := [0x05, 0x06, 0x10, 0x12, 0x17, 0x18, 0x1A, 0x22, 0x25, 0x2E, 0x33, 0x34, 0x35, 0x36, 0x40, 0x41, 0x42,
  0x45, 0x46, 0x47, 0x4C, 0x59, 0x5B, 0x5C, 0x5F] ++ (upTo 31).map (fun k => 0x60 + k)

end Sys2Proof.Claims

namespace Sys2Proof.Claims

/-- The issue group with the instruction that its fetch found: its length and its word. -/
def fetched (i : Issue) (w : Nat) : Issue :=
  { i with len := instrLength (w % 65536), word := w % 2 ^ (8 * instrLength (w % 65536)) }

/-- The state in which a fetched instruction runs: its word is kept for its context and stands in the issue group. -/
def running (s u : State) (i : Issue) (w : Nat) : State :=
  { (u.keptWord (s.ctxOf i.ref) i.pc.toNat w).2 with issue := some (fetched i w) }

/-- The fetch of a group's instruction finds a word, in the first half-word's length, that its context has not kept in
another form; the state is that after the fetch's translations. -/
def Fetches (s : State) (i : Issue) (w : Nat) (u : State) : Prop :=
  s.issue = some i ∧
  (∃ h v, s.fetchBytes i.ref i.pc.toNat 2 = .ok (h, v) ∧
    s.fetchBytes i.ref i.pc.toNat (instrLength (ofBytes h)) = .ok (toBytes (instrLength (ofBytes h)) w, u) ∧
    w < 256 ^ instrLength (ofBytes h) ∧ w % 65536 = ofBytes h) ∧
  ∀ k, u.sched.kept.find? (fun k => k.ctx == s.ctxOf i.ref && k.va == i.pc.toNat) = some k → k.word = w

end Sys2Proof.Claims

/-- R229 and R215: a reserved opcode decodes as such in both lengths, and a step that fetches it runs it; a 32-bit word of an
opcode without a 32-bit form is refused with FORM, whatever its other bits are, and a step that fetches it raises ILLEGAL with
that cause in every lane; a compact word with bit 15 set is refused with COMPACT; and a group that runs a reserved opcode traps,
with ILLEGAL and cause OPCODE in every lane and no other effect. -/
def Obligations.ReservedEncodingsTrap : Prop :=
  (∀ (w : BitVec 32) (rest : List Byte), w.toNat % 4 = 1 → w.toNat / 4 % 128 ∈ Sys2Proof.Claims.reservedList →
    decode (toBytes 4 w.toNat ++ rest) = .ok (.reservedOpcode (BitVec.ofNat 7 (w.toNat / 4)) false, 4)) ∧
  (∀ (w : BitVec 64) (rest : List Byte), w.toNat % 4 = 3 → w.toNat / 4 % 128 ∈ Sys2Proof.Claims.reservedList →
    decode (toBytes 8 w.toNat ++ rest) = .ok (.reservedOpcode (BitVec.ofNat 7 (w.toNat / 4)) true, 8)) ∧
  (∀ (w : BitVec 32) (rest : List Byte), w.toNat % 4 = 1 → w.toNat / 4 % 128 ∈ Sys2Proof.Claims.longOnly →
    decode (toBytes 4 w.toNat ++ rest) = .error .form) ∧
  (∀ (w : BitVec 16) (rest : List Byte), w.toNat % 2 = 0 → 0x8000 ≤ w.toNat →
    decode (toBytes 2 w.toNat ++ rest) = .error .compact) ∧
  (∀ (s : State) (i : Issue) (w : Nat) (u : State), Sys2Proof.Claims.Fetches s i w u → w % 2 = 1 →
    w / 4 % 128 ∈ Sys2Proof.Claims.reservedList →
    step s = exec (.reservedOpcode (BitVec.ofNat 7 (w / 4)) (w % 4 == 3)) (Sys2Proof.Claims.running s u i w)) ∧
  (∀ (s : State) (i : Issue) (w : Nat) (u : State), Sys2Proof.Claims.Fetches s i w u → w % 4 = 1 →
    w / 4 % 128 ∈ Sys2Proof.Claims.longOnly →
    step s = .next ((Sys2Proof.Claims.running s u i w).failAll (Sys2Proof.Claims.fetched i w) i.part (0, 2))) ∧
  (∀ (op : BitVec 7) (long : Bool) (s : State) (i : Issue), s.issue = some i → s.hasCrew i.ref = true →
    (s.crew i.ref).gambit = none → (s.crew i.ref).handling = none → i.part ≠ 0 →
    ∃ t, exec (.reservedOpcode op long) s = .next t ∧ Sys2Proof.Claims.Raised s t i 0 (sameCause i.part (0, 1)) false)

/-! ### Latches -/

namespace Sys2Proof.Claims

/-- A register instruction with HOLD captures its result in the latch that HOLD names, for all 32 lanes: the effective
lanes hold the result, the others the prior content of its destination. The latch serves the group's next two slots, which
are locked to it. -/
def Captures (ins : Instr) (op : BitVec 7) (f : L64) (ua ub uc memo : Bool) (res : Srcs → Content × Mask) : Prop :=
  ∀ (s : State) (i : Issue) (x : Srcs), s.issues i (regNeeds f ua ub uc) = true → s.sources i f ua ub uc = .ok x →
    (s.sub i.core i.sub).locked = none → (s.crew i.ref).stopped = false → f.hold.toNat < (s.sub i.core i.sub).latches.length → f.hold ≠ 3 → x.part ≠ 0 →
    ∃ t l, exec ins s = .next t ∧ (t.sub i.core i.sub).latches[f.hold.toNat]? = some (some l) ∧
      (∀ k, k < 32 → lane l.content k = if x.part.getLsbD k
        then lane ((tableHit s i op f ua ub uc memo x.part).getD (res x).1) k
        else lane ((s.crew i.ref).source s.freeCtr f.d.toNat) k) ∧
      l.slot = i.slot ∧ l.part = i.part ∧ l.pc = i.pc ∧ l.left = 2 ∧
      (t.sub i.core i.sub).locked = some { slot := i.slot, part := i.part, left := 2, used := 0, since := s.cycle }

end Sys2Proof.Claims

/-- R208 and R209: IADD, IMAC, XOR, FADD, FFMA and MOV with HOLD capture their result in L0, L1 or L2 and lock the group's
next two slots. -/
def Obligations.HoldCapturesInALatch : Prop :=
  ∀ f : L64,
    Sys2Proof.Claims.Captures (.iadd f) 0x00 f true true false true (perLane (fun a b _ => a + b)) ∧
    Sys2Proof.Claims.Captures (.imac f) 0x05 f true true true true (perLane (fun a b c => a * b + c)) ∧
    Sys2Proof.Claims.Captures (.xor f) 0x0C f true true false true (perLane (fun a b _ => a ^^^ b)) ∧
    Sys2Proof.Claims.Captures (.fadd f) 0x20 f true true false true (faddRes f) ∧
    Sys2Proof.Claims.Captures (.ffma f) 0x22 f true true true true (ffmaRes f) ∧
    Sys2Proof.Claims.Captures (.mov f) 0x49 f true false false true (perLane (fun a _ _ => a))

/-! ### A step -/

/-- R213, R214 and R227: when the bytes at the group's PC decode to an instruction, a step is that instruction's execution,
with its length and word in the issue group; when decoding finds a cause, ILLEGAL with that cause is raised in every lane;
when no byte can be fetched, the fetch's own cause is, and nothing executes. -/
def Obligations.AStepRunsTheDecodedInstruction : Prop :=
  (∀ (s : State) (i : Issue) (w : Nat) (u : State) (ins : Instr), Sys2Proof.Claims.Fetches s i w u →
    decode (toBytes 8 w) = .ok (ins, instrLength (w % 65536)) → step s = exec ins (Sys2Proof.Claims.running s u i w)) ∧
  (∀ (s : State) (i : Issue) (w : Nat) (u : State) (c : IllegalCause), Sys2Proof.Claims.Fetches s i w u →
    decode (toBytes 8 w) = .error c →
    step s = .next ((Sys2Proof.Claims.running s u i w).failAll (Sys2Proof.Claims.fetched i w) i.part (0, c.code))) ∧
  (∀ (s : State) (i : Issue) (e : Cause × Nat), s.issue = some i → s.fetchBytes i.ref i.pc.toNat 2 = .error e →
    step s = .next (s.fail { i with len := 0, word := 0 } (fetchFailure i.part e.1 e.2)))

/-- The model's own order of steps (log 3), with no issue group waiting: first what is due of the device, then an outside
act whose time has come, then the arbitration of the next sub-core, or of the last one again when the group that it chose
was not ready, and when every sub-core has had its turn the next cycle. -/
def Obligations.StepsTakeTheirOrder : Prop :=
  (∀ (s : State) (a : Act), s.issue = none → s.due = some a → step s = exec a.row (s.select a.sel)) ∧
  (∀ (s : State) (x : Input) (r : List Input), s.issue = none → s.due = none → s.inputs = x :: r → x.time ≤ s.cycle →
    step s = if isAct x.act.row then exec x.act.row { s with inputs := r, sel := x.act.sel } else .next { s with inputs := r }) ∧
  (∀ s : State, s.issue = none → s.due = none → s.nextInput = none →
    let again := fun (p : Nat × Core) => 0 < s.arb ∧ s.cores[(s.arb - 1) / 4]? = some p ∧
      (s.sub p.1 ((s.arb - 1) % 4)).again = true
    (∀ p, again p → step s = exec .issueArbitration { s with sel := ⟨p.1, (s.arb - 1) % 4, 0⟩ }) ∧
    (∀ p, (∀ q, ¬again q) → s.cores[s.arb / 4]? = some p →
      step s = exec .issueArbitration { s with arb := s.arb + 1, sel := ⟨p.1, s.arb % 4, 0⟩ }) ∧
    ((∀ q, ¬again q) → s.cores[s.arb / 4]? = none → s.sched.quiesce.stage = .none →
      ∃ t, step s = .next t ∧ t.cycle = s.cycle + 1 ∧ t.arb = 0))

/-! ### Memory and reset -/

/-- R7 and R73: bytes written at a place read back there, in order, and every place that the write does not touch reads as
before, in memory and in every scratchpad; a number reads back from its little-endian bytes; so do a block's descriptor
copies. -/
def Obligations.WritesReadBack : Prop :=
  ∀ (s : State) (p : Loc), s.wf = true →
    (∀ bs : List Byte, (s.putBytes p bs).bytesAt p bs.length = bs ∧
      ∀ (q : Loc) (n : Nat), p.overlaps bs.length q n = false → (s.putBytes p bs).bytesAt q n = s.bytesAt q n) ∧
    (∀ (n : Nat) (x : Nat), (s.putBytes p (toBytes n x)).numAt p n = x % 256 ^ n) ∧
    (∀ (d : Nat × Nat), (s.putDesc p d).descAt p = d ∧
      ∀ (q : Loc), p.block ≠ q.block → (s.putDesc p d).descAt q = s.descAt q)

/-- Every step keeps memory and every scratchpad in their one canonical form. -/
def Obligations.EveryStepKeepsMemoryInForm : Prop :=
  ∀ s t : State, s.wf = true → step s = .next t → t.wf = true

/-- R72, R412 and R502: at reset memory is in its form and lists nothing, every descriptor is 0x0000 in both copies, every field of
every context is zero, SEXP is 40, nothing runs, and a step only counts a cycle. That a byte nothing has written reads as 0
is the model's choice (log 1). -/
def Obligations.ResetStands : Prop :=
  State.reset.wf = true ∧ State.reset.mem.cells = [] ∧ (∀ p : Loc, State.reset.descAt p = (0, 0)) ∧
  (∀ c, State.reset.context c = { root := 0, trapBase := 0, part := 0, steal := false, valid := false }) ∧
  State.reset.pkg.scrub = 40 ∧ State.reset.issue = none ∧ State.reset.due = none ∧
  ∃ t, step State.reset = .next t ∧ t.cycle = State.reset.cycle + 1 ∧ t.mem = State.reset.mem
end

