-- ==== Sys2Proof/Laws/State.lean ====
section
/-! SUPPORT. What each of the small updates of the state leaves alone, one lemma for each field. -/

namespace Sys2Proof.Machine

@[simp] theorem State.modCore_cycle (s : State) (c : Nat) (f : Core → Core) : (s.modCore c f).cycle = s.cycle := rfl
@[simp] theorem State.modCore_inputs (s : State) (c : Nat) (f : Core → Core) : (s.modCore c f).inputs = s.inputs := rfl
@[simp] theorem State.modCore_issue (s : State) (c : Nat) (f : Core → Core) : (s.modCore c f).issue = s.issue := rfl
@[simp] theorem State.modCore_sel (s : State) (c : Nat) (f : Core → Core) : (s.modCore c f).sel = s.sel := rfl
@[simp] theorem State.modCore_arb (s : State) (c : Nat) (f : Core → Core) : (s.modCore c f).arb = s.arb := rfl
@[simp] theorem State.modCore_freeCtr (s : State) (c : Nat) (f : Core → Core) : (s.modCore c f).freeCtr = s.freeCtr := rfl
@[simp] theorem State.modCore_nextId (s : State) (c : Nat) (f : Core → Core) : (s.modCore c f).nextId = s.nextId := rfl
@[simp] theorem State.modCore_net (s : State) (c : Nat) (f : Core → Core) : (s.modCore c f).net = s.net := rfl
@[simp] theorem State.modCore_mem (s : State) (c : Nat) (f : Core → Core) : (s.modCore c f).mem = s.mem := rfl
@[simp] theorem State.modCore_sched (s : State) (c : Nat) (f : Core → Core) : (s.modCore c f).sched = s.sched := rfl
@[simp] theorem State.modCore_pkg (s : State) (c : Nat) (f : Core → Core) : (s.modCore c f).pkg = s.pkg := rfl
@[simp] theorem State.modCore_hostOut (s : State) (c : Nat) (f : Core → Core) : (s.modCore c f).hostOut = s.hostOut := rfl

@[simp] theorem State.modSub_cycle (s : State) (c b : Nat) (f : Sub → Sub) : (s.modSub c b f).cycle = s.cycle := rfl
@[simp] theorem State.modSub_inputs (s : State) (c b : Nat) (f : Sub → Sub) : (s.modSub c b f).inputs = s.inputs := rfl
@[simp] theorem State.modSub_issue (s : State) (c b : Nat) (f : Sub → Sub) : (s.modSub c b f).issue = s.issue := rfl
@[simp] theorem State.modSub_sel (s : State) (c b : Nat) (f : Sub → Sub) : (s.modSub c b f).sel = s.sel := rfl
@[simp] theorem State.modSub_arb (s : State) (c b : Nat) (f : Sub → Sub) : (s.modSub c b f).arb = s.arb := rfl
@[simp] theorem State.modSub_freeCtr (s : State) (c b : Nat) (f : Sub → Sub) : (s.modSub c b f).freeCtr = s.freeCtr := rfl
@[simp] theorem State.modSub_nextId (s : State) (c b : Nat) (f : Sub → Sub) : (s.modSub c b f).nextId = s.nextId := rfl
@[simp] theorem State.modSub_net (s : State) (c b : Nat) (f : Sub → Sub) : (s.modSub c b f).net = s.net := rfl
@[simp] theorem State.modSub_mem (s : State) (c b : Nat) (f : Sub → Sub) : (s.modSub c b f).mem = s.mem := rfl
@[simp] theorem State.modSub_sched (s : State) (c b : Nat) (f : Sub → Sub) : (s.modSub c b f).sched = s.sched := rfl
@[simp] theorem State.modSub_pkg (s : State) (c b : Nat) (f : Sub → Sub) : (s.modSub c b f).pkg = s.pkg := rfl
@[simp] theorem State.modSub_hostOut (s : State) (c b : Nat) (f : Sub → Sub) : (s.modSub c b f).hostOut = s.hostOut := rfl

@[simp] theorem State.modCrew_cycle (s : State) (r : CrewRef) (f : Crew → Crew) : (s.modCrew r f).cycle = s.cycle := rfl
@[simp] theorem State.modCrew_inputs (s : State) (r : CrewRef) (f : Crew → Crew) : (s.modCrew r f).inputs = s.inputs := rfl
@[simp] theorem State.modCrew_issue (s : State) (r : CrewRef) (f : Crew → Crew) : (s.modCrew r f).issue = s.issue := rfl
@[simp] theorem State.modCrew_sel (s : State) (r : CrewRef) (f : Crew → Crew) : (s.modCrew r f).sel = s.sel := rfl
@[simp] theorem State.modCrew_arb (s : State) (r : CrewRef) (f : Crew → Crew) : (s.modCrew r f).arb = s.arb := rfl
@[simp] theorem State.modCrew_freeCtr (s : State) (r : CrewRef) (f : Crew → Crew) : (s.modCrew r f).freeCtr = s.freeCtr := rfl
@[simp] theorem State.modCrew_nextId (s : State) (r : CrewRef) (f : Crew → Crew) : (s.modCrew r f).nextId = s.nextId := rfl
@[simp] theorem State.modCrew_net (s : State) (r : CrewRef) (f : Crew → Crew) : (s.modCrew r f).net = s.net := rfl
@[simp] theorem State.modCrew_mem (s : State) (r : CrewRef) (f : Crew → Crew) : (s.modCrew r f).mem = s.mem := rfl
@[simp] theorem State.modCrew_sched (s : State) (r : CrewRef) (f : Crew → Crew) : (s.modCrew r f).sched = s.sched := rfl
@[simp] theorem State.modCrew_pkg (s : State) (r : CrewRef) (f : Crew → Crew) : (s.modCrew r f).pkg = s.pkg := rfl
@[simp] theorem State.modCrew_hostOut (s : State) (r : CrewRef) (f : Crew → Crew) : (s.modCrew r f).hostOut = s.hostOut := rfl

@[simp] theorem State.modKeep_cycle (s : State) (r : CrewRef) (f : SlotKeep → SlotKeep) : (s.modKeep r f).cycle = s.cycle := rfl
@[simp] theorem State.modKeep_inputs (s : State) (r : CrewRef) (f : SlotKeep → SlotKeep) : (s.modKeep r f).inputs = s.inputs := rfl
@[simp] theorem State.modKeep_issue (s : State) (r : CrewRef) (f : SlotKeep → SlotKeep) : (s.modKeep r f).issue = s.issue := rfl
@[simp] theorem State.modKeep_sel (s : State) (r : CrewRef) (f : SlotKeep → SlotKeep) : (s.modKeep r f).sel = s.sel := rfl
@[simp] theorem State.modKeep_arb (s : State) (r : CrewRef) (f : SlotKeep → SlotKeep) : (s.modKeep r f).arb = s.arb := rfl
@[simp] theorem State.modKeep_freeCtr (s : State) (r : CrewRef) (f : SlotKeep → SlotKeep) : (s.modKeep r f).freeCtr = s.freeCtr := rfl
@[simp] theorem State.modKeep_nextId (s : State) (r : CrewRef) (f : SlotKeep → SlotKeep) : (s.modKeep r f).nextId = s.nextId := rfl
@[simp] theorem State.modKeep_net (s : State) (r : CrewRef) (f : SlotKeep → SlotKeep) : (s.modKeep r f).net = s.net := rfl
@[simp] theorem State.modKeep_mem (s : State) (r : CrewRef) (f : SlotKeep → SlotKeep) : (s.modKeep r f).mem = s.mem := rfl
@[simp] theorem State.modKeep_sched (s : State) (r : CrewRef) (f : SlotKeep → SlotKeep) : (s.modKeep r f).sched = s.sched := rfl
@[simp] theorem State.modKeep_pkg (s : State) (r : CrewRef) (f : SlotKeep → SlotKeep) : (s.modKeep r f).pkg = s.pkg := rfl
@[simp] theorem State.modKeep_hostOut (s : State) (r : CrewRef) (f : SlotKeep → SlotKeep) : (s.modKeep r f).hostOut = s.hostOut := rfl

@[simp] theorem State.modGroup_cycle (s : State) (c g : Nat) (f : Group → Group) : (s.modGroup c g f).cycle = s.cycle := rfl
@[simp] theorem State.modGroup_inputs (s : State) (c g : Nat) (f : Group → Group) : (s.modGroup c g f).inputs = s.inputs := rfl
@[simp] theorem State.modGroup_issue (s : State) (c g : Nat) (f : Group → Group) : (s.modGroup c g f).issue = s.issue := rfl
@[simp] theorem State.modGroup_sel (s : State) (c g : Nat) (f : Group → Group) : (s.modGroup c g f).sel = s.sel := rfl
@[simp] theorem State.modGroup_arb (s : State) (c g : Nat) (f : Group → Group) : (s.modGroup c g f).arb = s.arb := rfl
@[simp] theorem State.modGroup_freeCtr (s : State) (c g : Nat) (f : Group → Group) : (s.modGroup c g f).freeCtr = s.freeCtr := rfl
@[simp] theorem State.modGroup_nextId (s : State) (c g : Nat) (f : Group → Group) : (s.modGroup c g f).nextId = s.nextId := rfl
@[simp] theorem State.modGroup_net (s : State) (c g : Nat) (f : Group → Group) : (s.modGroup c g f).net = s.net := rfl
@[simp] theorem State.modGroup_mem (s : State) (c g : Nat) (f : Group → Group) : (s.modGroup c g f).mem = s.mem := rfl
@[simp] theorem State.modGroup_sched (s : State) (c g : Nat) (f : Group → Group) : (s.modGroup c g f).sched = s.sched := rfl
@[simp] theorem State.modGroup_pkg (s : State) (c g : Nat) (f : Group → Group) : (s.modGroup c g f).pkg = s.pkg := rfl
@[simp] theorem State.modGroup_hostOut (s : State) (c g : Nat) (f : Group → Group) : (s.modGroup c g f).hostOut = s.hostOut := rfl

@[simp] theorem State.modHome_cycle (s : State) (h : HomeId) (f : Home → Home) : (s.modHome h f).cycle = s.cycle := rfl
@[simp] theorem State.modHome_inputs (s : State) (h : HomeId) (f : Home → Home) : (s.modHome h f).inputs = s.inputs := rfl
@[simp] theorem State.modHome_issue (s : State) (h : HomeId) (f : Home → Home) : (s.modHome h f).issue = s.issue := rfl
@[simp] theorem State.modHome_sel (s : State) (h : HomeId) (f : Home → Home) : (s.modHome h f).sel = s.sel := rfl
@[simp] theorem State.modHome_arb (s : State) (h : HomeId) (f : Home → Home) : (s.modHome h f).arb = s.arb := rfl
@[simp] theorem State.modHome_freeCtr (s : State) (h : HomeId) (f : Home → Home) : (s.modHome h f).freeCtr = s.freeCtr := rfl
@[simp] theorem State.modHome_nextId (s : State) (h : HomeId) (f : Home → Home) : (s.modHome h f).nextId = s.nextId := rfl
@[simp] theorem State.modHome_cores (s : State) (h : HomeId) (f : Home → Home) : (s.modHome h f).cores = s.cores := rfl
@[simp] theorem State.modHome_mem (s : State) (h : HomeId) (f : Home → Home) : (s.modHome h f).mem = s.mem := rfl
@[simp] theorem State.modHome_sched (s : State) (h : HomeId) (f : Home → Home) : (s.modHome h f).sched = s.sched := rfl
@[simp] theorem State.modHome_pkg (s : State) (h : HomeId) (f : Home → Home) : (s.modHome h f).pkg = s.pkg := rfl
@[simp] theorem State.modHome_hostOut (s : State) (h : HomeId) (f : Home → Home) : (s.modHome h f).hostOut = s.hostOut := rfl

@[simp] theorem State.modTx_cycle (s : State) (id : Nat) (f : Tx → Tx) : (s.modTx id f).cycle = s.cycle := rfl
@[simp] theorem State.modTx_inputs (s : State) (id : Nat) (f : Tx → Tx) : (s.modTx id f).inputs = s.inputs := rfl
@[simp] theorem State.modTx_issue (s : State) (id : Nat) (f : Tx → Tx) : (s.modTx id f).issue = s.issue := rfl
@[simp] theorem State.modTx_sel (s : State) (id : Nat) (f : Tx → Tx) : (s.modTx id f).sel = s.sel := rfl
@[simp] theorem State.modTx_arb (s : State) (id : Nat) (f : Tx → Tx) : (s.modTx id f).arb = s.arb := rfl
@[simp] theorem State.modTx_freeCtr (s : State) (id : Nat) (f : Tx → Tx) : (s.modTx id f).freeCtr = s.freeCtr := rfl
@[simp] theorem State.modTx_nextId (s : State) (id : Nat) (f : Tx → Tx) : (s.modTx id f).nextId = s.nextId := rfl
@[simp] theorem State.modTx_cores (s : State) (id : Nat) (f : Tx → Tx) : (s.modTx id f).cores = s.cores := rfl
@[simp] theorem State.modTx_mem (s : State) (id : Nat) (f : Tx → Tx) : (s.modTx id f).mem = s.mem := rfl
@[simp] theorem State.modTx_sched (s : State) (id : Nat) (f : Tx → Tx) : (s.modTx id f).sched = s.sched := rfl
@[simp] theorem State.modTx_pkg (s : State) (id : Nat) (f : Tx → Tx) : (s.modTx id f).pkg = s.pkg := rfl
@[simp] theorem State.modTx_hostOut (s : State) (id : Nat) (f : Tx → Tx) : (s.modTx id f).hostOut = s.hostOut := rfl

@[simp] theorem State.dropTx_cycle (s : State) (id : Nat) : (s.dropTx id).cycle = s.cycle := rfl
@[simp] theorem State.dropTx_inputs (s : State) (id : Nat) : (s.dropTx id).inputs = s.inputs := rfl
@[simp] theorem State.dropTx_issue (s : State) (id : Nat) : (s.dropTx id).issue = s.issue := rfl
@[simp] theorem State.dropTx_sel (s : State) (id : Nat) : (s.dropTx id).sel = s.sel := rfl
@[simp] theorem State.dropTx_arb (s : State) (id : Nat) : (s.dropTx id).arb = s.arb := rfl
@[simp] theorem State.dropTx_freeCtr (s : State) (id : Nat) : (s.dropTx id).freeCtr = s.freeCtr := rfl
@[simp] theorem State.dropTx_nextId (s : State) (id : Nat) : (s.dropTx id).nextId = s.nextId := rfl
@[simp] theorem State.dropTx_cores (s : State) (id : Nat) : (s.dropTx id).cores = s.cores := rfl
@[simp] theorem State.dropTx_mem (s : State) (id : Nat) : (s.dropTx id).mem = s.mem := rfl
@[simp] theorem State.dropTx_sched (s : State) (id : Nat) : (s.dropTx id).sched = s.sched := rfl
@[simp] theorem State.dropTx_pkg (s : State) (id : Nat) : (s.dropTx id).pkg = s.pkg := rfl
@[simp] theorem State.dropTx_hostOut (s : State) (id : Nat) : (s.dropTx id).hostOut = s.hostOut := rfl

@[simp] theorem State.modDie_cycle (s : State) (d : Nat) (f : DieState → DieState) : (s.modDie d f).cycle = s.cycle := rfl
@[simp] theorem State.modDie_inputs (s : State) (d : Nat) (f : DieState → DieState) : (s.modDie d f).inputs = s.inputs := rfl
@[simp] theorem State.modDie_issue (s : State) (d : Nat) (f : DieState → DieState) : (s.modDie d f).issue = s.issue := rfl
@[simp] theorem State.modDie_sel (s : State) (d : Nat) (f : DieState → DieState) : (s.modDie d f).sel = s.sel := rfl
@[simp] theorem State.modDie_arb (s : State) (d : Nat) (f : DieState → DieState) : (s.modDie d f).arb = s.arb := rfl
@[simp] theorem State.modDie_freeCtr (s : State) (d : Nat) (f : DieState → DieState) : (s.modDie d f).freeCtr = s.freeCtr := rfl
@[simp] theorem State.modDie_nextId (s : State) (d : Nat) (f : DieState → DieState) : (s.modDie d f).nextId = s.nextId := rfl
@[simp] theorem State.modDie_cores (s : State) (d : Nat) (f : DieState → DieState) : (s.modDie d f).cores = s.cores := rfl
@[simp] theorem State.modDie_net (s : State) (d : Nat) (f : DieState → DieState) : (s.modDie d f).net = s.net := rfl
@[simp] theorem State.modDie_mem (s : State) (d : Nat) (f : DieState → DieState) : (s.modDie d f).mem = s.mem := rfl
@[simp] theorem State.modDie_pkg (s : State) (d : Nat) (f : DieState → DieState) : (s.modDie d f).pkg = s.pkg := rfl
@[simp] theorem State.modDie_hostOut (s : State) (d : Nat) (f : DieState → DieState) : (s.modDie d f).hostOut = s.hostOut := rfl

@[simp] theorem State.spend_cycle (s : State) : (s.spend).cycle = s.cycle := rfl
@[simp] theorem State.spend_inputs (s : State) : (s.spend).inputs = s.inputs := rfl
@[simp] theorem State.spend_issue (s : State) : (s.spend).issue = s.issue := rfl
@[simp] theorem State.spend_sel (s : State) : (s.spend).sel = s.sel := rfl
@[simp] theorem State.spend_arb (s : State) : (s.spend).arb = s.arb := rfl
@[simp] theorem State.spend_nextId (s : State) : (s.spend).nextId = s.nextId := rfl
@[simp] theorem State.spend_cores (s : State) : (s.spend).cores = s.cores := rfl
@[simp] theorem State.spend_net (s : State) : (s.spend).net = s.net := rfl
@[simp] theorem State.spend_mem (s : State) : (s.spend).mem = s.mem := rfl
@[simp] theorem State.spend_sched (s : State) : (s.spend).sched = s.sched := rfl
@[simp] theorem State.spend_pkg (s : State) : (s.spend).pkg = s.pkg := rfl
@[simp] theorem State.spend_hostOut (s : State) : (s.spend).hostOut = s.hostOut := rfl

@[simp] theorem State.drop_cycle (s : State) : (s.drop).cycle = s.cycle := rfl
@[simp] theorem State.drop_inputs (s : State) : (s.drop).inputs = s.inputs := rfl
@[simp] theorem State.drop_sel (s : State) : (s.drop).sel = s.sel := rfl
@[simp] theorem State.drop_arb (s : State) : (s.drop).arb = s.arb := rfl
@[simp] theorem State.drop_freeCtr (s : State) : (s.drop).freeCtr = s.freeCtr := rfl
@[simp] theorem State.drop_nextId (s : State) : (s.drop).nextId = s.nextId := rfl
@[simp] theorem State.drop_cores (s : State) : (s.drop).cores = s.cores := rfl
@[simp] theorem State.drop_net (s : State) : (s.drop).net = s.net := rfl
@[simp] theorem State.drop_mem (s : State) : (s.drop).mem = s.mem := rfl
@[simp] theorem State.drop_sched (s : State) : (s.drop).sched = s.sched := rfl
@[simp] theorem State.drop_pkg (s : State) : (s.drop).pkg = s.pkg := rfl
@[simp] theorem State.drop_hostOut (s : State) : (s.drop).hostOut = s.hostOut := rfl

@[simp] theorem State.modRegs_cycle (s : State) (f : Regs → Regs) : (s.modRegs f).cycle = s.cycle := rfl
@[simp] theorem State.modRegs_inputs (s : State) (f : Regs → Regs) : (s.modRegs f).inputs = s.inputs := rfl
@[simp] theorem State.modRegs_issue (s : State) (f : Regs → Regs) : (s.modRegs f).issue = s.issue := rfl
@[simp] theorem State.modRegs_sel (s : State) (f : Regs → Regs) : (s.modRegs f).sel = s.sel := rfl
@[simp] theorem State.modRegs_arb (s : State) (f : Regs → Regs) : (s.modRegs f).arb = s.arb := rfl
@[simp] theorem State.modRegs_freeCtr (s : State) (f : Regs → Regs) : (s.modRegs f).freeCtr = s.freeCtr := rfl
@[simp] theorem State.modRegs_nextId (s : State) (f : Regs → Regs) : (s.modRegs f).nextId = s.nextId := rfl
@[simp] theorem State.modRegs_cores (s : State) (f : Regs → Regs) : (s.modRegs f).cores = s.cores := rfl
@[simp] theorem State.modRegs_net (s : State) (f : Regs → Regs) : (s.modRegs f).net = s.net := rfl
@[simp] theorem State.modRegs_mem (s : State) (f : Regs → Regs) : (s.modRegs f).mem = s.mem := rfl
@[simp] theorem State.modRegs_sched (s : State) (f : Regs → Regs) : (s.modRegs f).sched = s.sched := rfl
@[simp] theorem State.modRegs_hostOut (s : State) (f : Regs → Regs) : (s.modRegs f).hostOut = s.hostOut := rfl

@[simp] theorem State.modPower_cycle (s : State) (f : Power → Power) : (s.modPower f).cycle = s.cycle := rfl
@[simp] theorem State.modPower_inputs (s : State) (f : Power → Power) : (s.modPower f).inputs = s.inputs := rfl
@[simp] theorem State.modPower_issue (s : State) (f : Power → Power) : (s.modPower f).issue = s.issue := rfl
@[simp] theorem State.modPower_sel (s : State) (f : Power → Power) : (s.modPower f).sel = s.sel := rfl
@[simp] theorem State.modPower_arb (s : State) (f : Power → Power) : (s.modPower f).arb = s.arb := rfl
@[simp] theorem State.modPower_freeCtr (s : State) (f : Power → Power) : (s.modPower f).freeCtr = s.freeCtr := rfl
@[simp] theorem State.modPower_nextId (s : State) (f : Power → Power) : (s.modPower f).nextId = s.nextId := rfl
@[simp] theorem State.modPower_cores (s : State) (f : Power → Power) : (s.modPower f).cores = s.cores := rfl
@[simp] theorem State.modPower_net (s : State) (f : Power → Power) : (s.modPower f).net = s.net := rfl
@[simp] theorem State.modPower_mem (s : State) (f : Power → Power) : (s.modPower f).mem = s.mem := rfl
@[simp] theorem State.modPower_sched (s : State) (f : Power → Power) : (s.modPower f).sched = s.sched := rfl
@[simp] theorem State.modPower_hostOut (s : State) (f : Power → Power) : (s.modPower f).hostOut = s.hostOut := rfl

@[simp] theorem State.reply_cycle (s : State) (who : Party) (data : List Byte) (ok : Bool) : (s.reply who data ok).cycle = s.cycle := rfl
@[simp] theorem State.reply_inputs (s : State) (who : Party) (data : List Byte) (ok : Bool) : (s.reply who data ok).inputs = s.inputs := rfl
@[simp] theorem State.reply_issue (s : State) (who : Party) (data : List Byte) (ok : Bool) : (s.reply who data ok).issue = s.issue := rfl
@[simp] theorem State.reply_sel (s : State) (who : Party) (data : List Byte) (ok : Bool) : (s.reply who data ok).sel = s.sel := rfl
@[simp] theorem State.reply_arb (s : State) (who : Party) (data : List Byte) (ok : Bool) : (s.reply who data ok).arb = s.arb := rfl
@[simp] theorem State.reply_freeCtr (s : State) (who : Party) (data : List Byte) (ok : Bool) : (s.reply who data ok).freeCtr = s.freeCtr := rfl
@[simp] theorem State.reply_nextId (s : State) (who : Party) (data : List Byte) (ok : Bool) : (s.reply who data ok).nextId = s.nextId := rfl
@[simp] theorem State.reply_cores (s : State) (who : Party) (data : List Byte) (ok : Bool) : (s.reply who data ok).cores = s.cores := rfl
@[simp] theorem State.reply_net (s : State) (who : Party) (data : List Byte) (ok : Bool) : (s.reply who data ok).net = s.net := rfl
@[simp] theorem State.reply_mem (s : State) (who : Party) (data : List Byte) (ok : Bool) : (s.reply who data ok).mem = s.mem := rfl
@[simp] theorem State.reply_sched (s : State) (who : Party) (data : List Byte) (ok : Bool) : (s.reply who data ok).sched = s.sched := rfl
@[simp] theorem State.reply_pkg (s : State) (who : Party) (data : List Byte) (ok : Bool) : (s.reply who data ok).pkg = s.pkg := rfl

@[simp] theorem State.fresh_cycle (s : State) : (s.fresh.2).cycle = s.cycle := rfl
@[simp] theorem State.fresh_inputs (s : State) : (s.fresh.2).inputs = s.inputs := rfl
@[simp] theorem State.fresh_issue (s : State) : (s.fresh.2).issue = s.issue := rfl
@[simp] theorem State.fresh_sel (s : State) : (s.fresh.2).sel = s.sel := rfl
@[simp] theorem State.fresh_arb (s : State) : (s.fresh.2).arb = s.arb := rfl
@[simp] theorem State.fresh_freeCtr (s : State) : (s.fresh.2).freeCtr = s.freeCtr := rfl
@[simp] theorem State.fresh_cores (s : State) : (s.fresh.2).cores = s.cores := rfl
@[simp] theorem State.fresh_net (s : State) : (s.fresh.2).net = s.net := rfl
@[simp] theorem State.fresh_mem (s : State) : (s.fresh.2).mem = s.mem := rfl
@[simp] theorem State.fresh_sched (s : State) : (s.fresh.2).sched = s.sched := rfl
@[simp] theorem State.fresh_pkg (s : State) : (s.fresh.2).pkg = s.pkg := rfl
@[simp] theorem State.fresh_hostOut (s : State) : (s.fresh.2).hostOut = s.hostOut := rfl

end Sys2Proof.Machine
end

