-- ==== Sys2Proof/Laws/Crew.lean ====
section
/-! SUPPORT. Reading a table, a core, a sub-core, a crew slot or a thread after it has been changed. -/

namespace Sys2Proof.Machine

@[simp] theorem tget_tset_same {α : Type} (d x : α) (m : List (Nat × α)) (i : Nat) :
    tget d (tset m i x) i = x := by
  induction m with
  | nil => simp [tset, tget]
  | cons p r ih =>
    obtain ⟨k, v⟩ := p
    unfold tset
    split
    · next h => simp [tget, h]
    · split
      · simp [tget]
      · next h _ => simp only [tget]; rw [if_neg h]; exact ih

theorem tget_tset_ne {α : Type} (d x : α) (m : List (Nat × α)) (i j : Nat) (h : j ≠ i) :
    tget d (tset m i x) j = tget d m j := by
  have hij : (i == j) = false := by simp; omega
  induction m with
  | nil => simp [tset, tget, hij]
  | cons p r ih =>
    obtain ⟨k, v⟩ := p
    unfold tset
    split
    · next hk =>
      simp only [beq_iff_eq] at hk
      subst hk
      simp [tget, hij]
    · split
      · simp [tget, hij]
      · simp only [tget, ih]

@[simp] theorem modifyAt_length {α : Type} (m : List α) (n : Nat) (f : α → α) : (modifyAt m n f).length = m.length := by
  induction m generalizing n with
  | nil => rfl
  | cons a r ih => cases n <;> simp [modifyAt, ih]

theorem modifyAt_getElem? {α : Type} (m : List α) (n k : Nat) (f : α → α) :
    (modifyAt m n f)[k]? = if k = n then (m[k]?).map f else m[k]? := by
  induction m generalizing n k with
  | nil => simp [modifyAt]
  | cons a r ih =>
    cases n with
    | zero => cases k <;> simp [modifyAt]
    | succ n => cases k <;> simp [modifyAt, ih]

theorem modifyAt_getD_same {α : Type} (m : List α) (n : Nat) (f : α → α) (d : α) (h : n < m.length) :
    (modifyAt m n f).getD n d = f (m.getD n d) := by
  rw [List.getD_eq_getElem?_getD, modifyAt_getElem?, if_pos rfl, List.getD_eq_getElem?_getD, List.getElem?_eq_getElem h]
  rfl

theorem modifyAt_getD_ne {α : Type} (m : List α) (n k : Nat) (f : α → α) (d : α) (h : k ≠ n) :
    (modifyAt m n f).getD k d = m.getD k d := by
  rw [List.getD_eq_getElem?_getD, modifyAt_getElem?, if_neg h, List.getD_eq_getElem?_getD]

@[simp] theorem core_modCore (s : State) (c : Nat) (f : Core → Core) : (s.modCore c f).core c = f (s.core c) := by
  simp [State.modCore, State.core]

theorem core_modCore_ne (s : State) (c d : Nat) (f : Core → Core) (h : d ≠ c) : (s.modCore c f).core d = s.core d := by
  simp [State.modCore, State.core, tget_tset_ne _ _ _ _ _ h]

@[simp] theorem core_modSub (s : State) (c b : Nat) (f : Sub → Sub) :
    (s.modSub c b f).core c = { s.core c with subs := modifyAt (s.core c).subs b f } := by
  simp [State.modSub]

theorem core_modSub_ne (s : State) (c d b : Nat) (f : Sub → Sub) (h : d ≠ c) :
    (s.modSub c b f).core d = s.core d := core_modCore_ne s c d _ h

theorem sub_modSub (s : State) (c b : Nat) (f : Sub → Sub) (h : b < (s.core c).subs.length) :
    (s.modSub c b f).sub c b = f (s.sub c b) := by
  rw [State.sub, core_modSub]
  exact modifyAt_getD_same _ _ _ _ h

theorem sub_modSub_ne (s : State) (c b d e : Nat) (f : Sub → Sub) (h : ¬(d = c ∧ e = b)) :
    (s.modSub c b f).sub d e = s.sub d e := by
  by_cases hd : d = c
  · subst hd
    have he : e ≠ b := fun x => h ⟨rfl, x⟩
    rw [State.sub, core_modSub]
    exact modifyAt_getD_ne _ _ _ _ _ he
  · simp [State.sub, core_modSub_ne _ _ _ _ _ hd]

/-- The crew slot that a reference names is one of the device's, with 32 threads and 64 map entries (R3, R10, R191). -/
theorem hasCrew_iff (s : State) (r : CrewRef) : s.hasCrew r = true ↔
    r.sub < (s.core r.core).subs.length ∧ r.slot < (s.sub r.core r.sub).crews.length ∧
      (s.crew r).threads.length = 32 ∧ (s.crew r).map.length = 64 := by
  simp [State.hasCrew, and_assoc]

theorem crew_modCrew (s : State) (r : CrewRef) (f : Crew → Crew) (h : s.hasCrew r = true) :
    (s.modCrew r f).crew r = f (s.crew r) := by
  obtain ⟨h1, h2, -⟩ := (hasCrew_iff s r).1 h
  rw [State.crew, State.modCrew, sub_modSub _ _ _ _ h1]
  exact modifyAt_getD_same _ _ _ _ h2

theorem sub_modCrew (s : State) (r : CrewRef) (f : Crew → Crew) (h : s.hasCrew r = true) :
    (s.modCrew r f).sub r.core r.sub =
      { s.sub r.core r.sub with crews := modifyAt (s.sub r.core r.sub).crews r.slot f } := by
  obtain ⟨h1, -⟩ := (hasCrew_iff s r).1 h
  simp [State.modCrew, sub_modSub _ _ _ _ h1]

theorem crew_modSub (s : State) (r : CrewRef) (f : Sub → Sub) (h : s.hasCrew r = true) :
    (s.modSub r.core r.sub f).crew r = (f (s.sub r.core r.sub)).crew r.slot := by
  obtain ⟨h1, -⟩ := (hasCrew_iff s r).1 h
  simp [State.crew, sub_modSub _ _ _ _ h1]

@[simp] theorem core_drop (s : State) (c : Nat) : s.drop.core c = s.core c := rfl
@[simp] theorem core_spend (s : State) (c : Nat) : s.spend.core c = s.core c := rfl
@[simp] theorem core_fresh (s : State) (c : Nat) : (s.fresh.2).core c = s.core c := rfl
@[simp] theorem sub_drop (s : State) (c b : Nat) : s.drop.sub c b = s.sub c b := rfl
@[simp] theorem sub_spend (s : State) (c b : Nat) : s.spend.sub c b = s.sub c b := rfl
@[simp] theorem sub_fresh (s : State) (c b : Nat) : (s.fresh.2).sub c b = s.sub c b := rfl
@[simp] theorem crew_drop (s : State) (r : CrewRef) : s.drop.crew r = s.crew r := rfl
@[simp] theorem crew_spend (s : State) (r : CrewRef) : s.spend.crew r = s.crew r := rfl
@[simp] theorem crew_fresh (s : State) (r : CrewRef) : (s.fresh.2).crew r = s.crew r := rfl

@[simp] theorem mapLanes_length (m : Mask) (f : Nat → Thread → Thread) (l : Nat) (ts : List Thread) :
    (mapLanes m f l ts).length = ts.length := by
  induction ts generalizing l with
  | nil => rfl
  | cons t r ih => simp [mapLanes, ih]

theorem mapLanes_getElem? (m : Mask) (f : Nat → Thread → Thread) (l k : Nat) (ts : List Thread) :
    (mapLanes m f l ts)[k]? = (ts[k]?).map (fun t => if m.getLsbD (l + k) then f (l + k) t else t) := by
  induction ts generalizing l k with
  | nil => simp [mapLanes]
  | cons t r ih =>
    cases k with
    | zero => simp [mapLanes]
    | succ k => simp only [mapLanes, List.getElem?_cons_succ, ih, show l + 1 + k = l + (k + 1) by omega]

/-- A thread of a crew whose threads of a mask have been changed. -/
theorem thread_modLanes (w : Crew) (m : Mask) (f : Nat → Thread → Thread) (l : Nat) (h : l < w.threads.length) :
    (w.modLanes m f).thread l = if m.getLsbD l then f l (w.thread l) else w.thread l := by
  rw [Crew.thread, Crew.modLanes, List.getD_eq_getElem?_getD, mapLanes_getElem?, List.getElem?_eq_getElem h, Crew.thread,
    List.getD_eq_getElem?_getD, List.getElem?_eq_getElem h]
  simp

@[simp] theorem modLanes_length (w : Crew) (m : Mask) (f : Nat → Thread → Thread) :
    (w.modLanes m f).threads.length = w.threads.length := by simp [Crew.modLanes]

end Sys2Proof.Machine
end

