-- ==== Sys2Proof/Laws/Issue.lean ====
section
/-! SUPPORT. An instruction that may execute does execute; what retiring it changes, and what it leaves alone. -/

namespace Sys2Proof.Machine

theorem issues_issue {s : State} {i : Issue} {n : Needs} (h : s.issues i n = true) : s.issue = some i := by
  simp only [State.issues, Bool.and_eq_true] at h
  simpa using h.1.1.1.1.1.1.1.1.1.1.1

theorem issues_hasCrew {s : State} {i : Issue} {n : Needs} (h : s.issues i n = true) : s.hasCrew i.ref = true := by
  simp only [State.issues, Bool.and_eq_true] at h
  exact h.1.1.1.1.1.1.1.1.1.1.2

/-- Nothing stands before an instruction that may execute. -/
theorem gate_ok {s : State} {i : Issue} {n : Needs} (h : s.issues i n = true) : s.gate i n = .ok s := by
  simp only [State.issues, Bool.and_eq_true, decide_eq_true_eq, Bool.not_eq_true'] at h
  obtain ⟨⟨⟨⟨⟨⟨⟨⟨⟨⟨⟨-, -⟩, h3⟩, h4⟩, h5⟩, h6⟩, h7⟩, h8⟩, h9⟩, h10⟩, h11⟩, h12⟩ := h
  have t1 : s.gateTraps i n = none := by
    have e : n.early = none := by simpa using h3
    unfold State.gateTraps
    rw [e]
    rcases Bool.or_eq_true _ _ ▸ h4 with hx | hx
    · simp [hx]
    · have : (n.names.any fun k => decide (32 ≤ k) && decide (k < 64)) = false := by
        rw [List.any_eq_false]
        intro k hk
        have := List.all_eq_true.1 hx k hk
        simp at this ⊢
        omega
      simp [this]
  have t2 : s.gateSlots i n = none := by simp [State.gateSlots, h5, h6]
  have t3 : s.gateHead i = .ok s := by
    unfold State.gateHead
    have a : ¬ Config.headRetired ≤ (s.crew i.ref).retired := by omega
    have b : ¬ Config.headEntries ≤ (s.crew i.ref).entriesUsed := by omega
    simp [h7, a, b]
  have t4 : s.gateGambit i n = none := by
    unfold State.gateGambit
    unfold State.gambitAllows at h10
    cases hg : (s.crew i.ref).gambit with
    | none => simp [hg]
    | some g =>
      rw [hg] at h10
      simp only [Bool.and_eq_true, Bool.or_eq_true, beq_iff_eq, decide_eq_true_eq, Bool.not_eq_true'] at h10
      obtain ⟨⟨a, b⟩, c⟩ := h10
      have a' : ((i.part &&& g.lanes != 0) && decide (Config.gambitLimit ≤ g.count)) = false := by
        rcases a with a | a
        · simp [a]
        · have : ¬ Config.gambitLimit ≤ g.count := by omega
          simp [this]
      simp only [hg, a', b, c, Bool.false_eq_true, if_false]
  have t5 : s.gateCredits i n = none := by
    unfold State.gateCredits
    simp [h12]
  unfold State.gate
  rw [t1, t2, t3]
  simp only [t4, t5]
  rcases Bool.or_eq_true _ _ ▸ h11 with hx | hx
  · have : n.head = false := by simpa using hx
    simp [this]
  · simp [hx]

/-- An instruction that may execute has its own effect. -/
theorem issueWith_ok {s : State} {i : Issue} {n : Needs} (body : Issue → State → State) (h : s.issues i n = true) :
    s.issueWith n body = .next (body i s) := by
  unfold State.issueWith
  rw [issues_issue h]
  simp only [gate_ok h]

/-! ### Frames -/

theorem SameElse.refl (s : State) (r : CrewRef) : SameElse s s r :=
  ⟨rfl, rfl, rfl, rfl, rfl, rfl, rfl, rfl, rfl, fun _ _ => rfl, rfl, fun _ _ => rfl, fun _ _ => rfl, rfl, rfl⟩

theorem SameElse.trans {s t u : State} {r : CrewRef} (a : SameElse s t r) (b : SameElse t u r) : SameElse s u r :=
  ⟨b.cycle.trans a.cycle, b.inputs.trans a.inputs, b.sel.trans a.sel, b.arb.trans a.arb, b.net.trans a.net,
    b.mem.trans a.mem, b.sched.trans a.sched, b.pkg.trans a.pkg, b.hostOut.trans a.hostOut,
    fun c h => (b.cores c h).trans (a.cores c h),
    by rw [b.core, a.core],
    fun k h => (b.subs k h).trans (a.subs k h), fun k h => (b.crews k h).trans (a.crews k h), b.keep.trans a.keep,
    b.blocks.trans a.blocks⟩

/-- A change of one sub-core that leaves its other crews, its side buffers and its blocks alone. -/
theorem SameElse.modSub (s : State) (r : CrewRef) (f : Sub → Sub)
    (hc : ∀ k, k ≠ r.slot → (f (s.sub r.core r.sub)).crew k = (s.sub r.core r.sub).crew k)
    (hk : (f (s.sub r.core r.sub)).keep = (s.sub r.core r.sub).keep)
    (hb : (f (s.sub r.core r.sub)).blocks = (s.sub r.core r.sub).blocks)
    (h : s.hasCrew r = true) : SameElse s (s.modSub r.core r.sub f) r := by
  obtain ⟨h1, -⟩ := (hasCrew_iff s r).1 h
  refine ⟨rfl, rfl, rfl, rfl, rfl, rfl, rfl, rfl, rfl, fun c hn => core_modSub_ne _ _ _ _ _ hn, by simp,
    fun _ hn => sub_modSub_ne _ _ _ _ _ _ (fun x => hn x.2), ?_, ?_, ?_⟩
  · rw [sub_modSub _ _ _ _ h1]; exact hc
  · rw [sub_modSub _ _ _ _ h1]; exact hk
  · rw [sub_modSub _ _ _ _ h1]; exact hb

theorem SameElse.modCrew (s : State) (r : CrewRef) (f : Crew → Crew) (h : s.hasCrew r = true) :
    SameElse s (s.modCrew r f) r :=
  SameElse.modSub s r _ (fun k hk => modifyAt_getD_ne _ _ _ _ _ hk) rfl rfl h

theorem SameElse.drop (s : State) (r : CrewRef) : SameElse s s.drop r :=
  ⟨rfl, rfl, rfl, rfl, rfl, rfl, rfl, rfl, rfl, fun _ _ => rfl, rfl, fun _ _ => rfl, fun _ _ => rfl, rfl, rfl⟩

theorem SameElse.spend (s : State) (r : CrewRef) : SameElse s s.spend r :=
  ⟨rfl, rfl, rfl, rfl, rfl, rfl, rfl, rfl, rfl, fun _ _ => rfl, rfl, fun _ _ => rfl, fun _ _ => rfl, rfl, rfl⟩

theorem SameElse.fresh (s : State) (r : CrewRef) : SameElse s s.fresh.2 r :=
  ⟨rfl, rfl, rfl, rfl, rfl, rfl, rfl, rfl, rfl, fun _ _ => rfl, rfl, fun _ _ => rfl, fun _ _ => rfl, rfl, rfl⟩

theorem CrewSame.refl (w : Crew) : CrewSame w w := ⟨rfl, rfl, rfl, rfl, rfl, rfl, rfl, rfl, rfl, rfl, rfl, rfl, rfl⟩

theorem CrewSame.trans {w v u : Crew} (a : CrewSame w v) (b : CrewSame v u) : CrewSame w u :=
  ⟨b.owner.trans a.owner, b.trapMode.trans a.trapMode, b.ext.trans a.ext, b.point.trans a.point,
    b.pendingTrap.trans a.pendingTrap, b.async.trans a.async, b.handling.trans a.handling,
    b.entryClosed.trans a.entryClosed, b.dying.trans a.dying, b.headDue.trans a.headDue, b.parked.trans a.parked,
    b.stopped.trans a.stopped, b.xwait.trans a.xwait⟩

@[simp] theorem modCrew_hasCrew (s : State) (r : CrewRef) (f : Crew → Crew) (h : s.hasCrew r = true)
    (ht : (f (s.crew r)).threads.length = 32) (hm : (f (s.crew r)).map.length = 64) :
    (s.modCrew r f).hasCrew r = true := by
  obtain ⟨h1, h2, -⟩ := (hasCrew_iff s r).1 h
  rw [hasCrew_iff, crew_modCrew _ _ _ h, sub_modCrew _ _ _ h]
  refine ⟨?_, by simpa using h2, ht, hm⟩
  simpa [State.modCrew] using h1

/-! ### Retiring -/

/-- The parts of a crew that retiring an instruction touches: turn pointer, run counter, the two counters and the time
of its last issue. -/
theorem turned_fields (w : Crew) (m : Mask) (b : Bool) : ∃ t r, w.turned m b = { w with turn := t, run := r } := by
  unfold Crew.turned
  split
  · split <;> exact ⟨_, _, rfl⟩
  · exact ⟨w.turn, w.run + 1, rfl⟩

theorem breakRun_crews (b : Sub) : b.breakRun.crews = b.crews ∧ b.breakRun.keep = b.keep ∧ b.breakRun.blocks = b.blocks ∧
    b.breakRun.xpos = b.xpos := ⟨rfl, rfl, rfl, rfl⟩

theorem slotIssued_crews (b : Sub) (i : Issue) (c : Nat) (cap : Option (Nat × Latch)) :
    (b.slotIssued i c cap).crews = b.crews ∧ (b.slotIssued i c cap).keep = b.keep ∧
      (b.slotIssued i c cap).blocks = b.blocks ∧ (b.slotIssued i c cap).xpos = b.xpos := by
  unfold Sub.slotIssued
  cases cap <;> simp only [] <;> split_ifs <;> simp [Sub.breakRun]

/-- A retired instruction leaves everything outside its sub-core alone, and of its crew all but its counters. -/
theorem retiredWith_same (s : State) (i : Issue) (moves : Bool) (cap : Option (Nat × Latch)) (h : s.hasCrew i.ref = true) :
    SameElse s (s.retiredWith i moves cap) i.ref := by
  unfold State.retiredWith
  refine SameElse.trans (SameElse.modSub s i.ref _ ?_ ?_ ?_ h) (SameElse.trans (SameElse.spend _ _) (SameElse.drop _ _))
  · intro k hk
    simp only [Sub.crew, Sub.count, Sub.countN]
    rw [modifyAt_getD_ne _ i.slot _ _ _ hk, (slotIssued_crews _ _ _ _).1]
  · exact (slotIssued_crews _ _ _ _).2.1
  · exact (slotIssued_crews _ _ _ _).2.2.1

/-- The crew after its instruction has retired. -/
theorem retiredWith_crew (s : State) (i : Issue) (moves : Bool) (cap : Option (Nat × Latch)) (h : s.hasCrew i.ref = true) :
    (s.retiredWith i moves cap).crew i.ref =
      { (s.crew i.ref).turned i.part moves with
        retired := (s.crew i.ref).retired + 1
        lastIssue := s.cycle
        gambit := (s.crew i.ref).gambit.map
          (fun g => if g.lanes &&& i.part != 0 then { g with count := g.count + 1 } else g) } := by
  obtain ⟨-, h2, -⟩ := (hasCrew_iff s i.ref).1 h
  unfold State.retiredWith
  rw [crew_drop, crew_spend, show s.modSub i.core i.sub = s.modSub i.ref.core i.ref.sub from rfl, crew_modSub _ _ _ h]
  simp only [Sub.crew, Sub.count, Sub.countN]
  rw [show i.slot = i.ref.slot from rfl, modifyAt_getD_same _ _ _ _ (by rw [(slotIssued_crews _ _ _ _).1]; exact h2),
    (slotIssued_crews _ _ _ _).1]
  rfl

@[simp] theorem retiredWith_issue (s : State) (i : Issue) (moves : Bool) (cap : Option (Nat × Latch)) :
    (s.retiredWith i moves cap).issue = none := rfl

@[simp] theorem retiredWith_nextId (s : State) (i : Issue) (moves : Bool) (cap : Option (Nat × Latch)) :
    (s.retiredWith i moves cap).nextId = s.nextId := rfl

end Sys2Proof.Machine
end

