-- ==== Sys2Proof/Laws/Memory.lean ====
section
/-! SUPPORT. Every memory operation keeps the canonical form, and a byte reads as it was last written. -/

namespace Sys2Proof.Machine

/-- Every address of the cells lies above a bound. -/
def cellsAbove (n : Nat) (m : List Host.Cell) : Prop := ∀ c ∈ m, n < c.1

theorem cellsWf_cons (a : Nat) (v : Byte) (r : List Host.Cell) :
    cellsWf ((a, v) :: r) = true ↔ v ≠ Config.unwritten ∧ cellsAbove a r ∧ cellsWf r = true := by
  induction r generalizing a v with
  | nil => simp [cellsWf, cellsAbove]
  | cons c r ih =>
    obtain ⟨b, w⟩ := c
    have h := ih b w
    simp only [cellsWf, Bool.and_eq_true, bne_iff_ne, ne_eq, decide_eq_true_eq]
    constructor
    · rintro ⟨⟨hv, hab⟩, hr⟩
      refine ⟨hv, ?_, hr⟩
      intro c hc
      rcases List.mem_cons.1 hc with rfl | hc
      · exact hab
      · exact Nat.lt_trans hab ((h.1 hr).2.1 c hc)
    · rintro ⟨hv, ha, hr⟩
      exact ⟨⟨hv, ha (b, w) (by simp)⟩, hr⟩

theorem cellPut_above (n i : Nat) (x : Byte) (m : List Host.Cell) (hn : n < i) (h : cellsAbove n m) :
    cellsAbove n (cellPut m i x) := by
  induction m with
  | nil => unfold cellPut; split <;> simp_all [cellsAbove]
  | cons c r ih =>
    obtain ⟨a, v⟩ := c
    have hr : cellsAbove n r := fun d hd => h d (by simp [hd])
    have ha : n < a := h (a, v) (by simp)
    unfold cellPut
    intro d hd
    split at hd
    · split at hd
      · exact hr d hd
      · rcases List.mem_cons.1 hd with rfl | hd
        · exact hn
        · exact hr d hd
    · split at hd
      · split at hd
        · exact h d hd
        · rcases List.mem_cons.1 hd with rfl | hd
          · exact hn
          · exact h d hd
      · rcases List.mem_cons.1 hd with rfl | hd
        · exact ha
        · exact ih hr d hd

/-- Writing one byte keeps the canonical form. -/
theorem cellPut_wf (i : Nat) (x : Byte) (m : List Host.Cell) (h : cellsWf m = true) :
    cellsWf (cellPut m i x) = true := by
  induction m with
  | nil => unfold cellPut; split <;> simp_all [cellsWf]
  | cons c r ih =>
    obtain ⟨a, v⟩ := c
    obtain ⟨hv, ha, hr⟩ := (cellsWf_cons a v r).1 h
    unfold cellPut
    split
    · next hai =>
      simp only [beq_iff_eq] at hai
      subst hai
      split
      · exact hr
      · next hx => exact (cellsWf_cons _ _ _).2 ⟨by simpa using hx, ha, hr⟩
    · next hai =>
      simp only [beq_iff_eq] at hai
      split
      · next hia =>
        split
        · exact h
        · next hx =>
          refine (cellsWf_cons _ _ _).2 ⟨by simpa using hx, ?_, h⟩
          intro d hd
          rcases List.mem_cons.1 hd with rfl | hd
          · exact hia
          · exact Nat.lt_trans hia (ha d hd)
      · next hia => exact (cellsWf_cons _ _ _).2 ⟨hv, cellPut_above a i x r (by omega) ha, ih hr⟩

/-- Writing bytes keeps the canonical form. -/
theorem cellsWrite_wf (bs : List Byte) (m : List Host.Cell) (a : Nat) (h : cellsWf m = true) :
    cellsWf (cellsWrite m a bs) = true := by
  induction bs generalizing m a with
  | nil => exact h
  | cons b r ih => exact ih _ _ (cellPut_wf a b m h)

theorem cellsWf_filter (p : Host.Cell → Bool) (m : List Host.Cell) (h : cellsWf m = true) :
    cellsWf (m.filter p) = true := by
  induction m with
  | nil => rfl
  | cons c r ih =>
    obtain ⟨a, v⟩ := c
    obtain ⟨hv, ha, hr⟩ := (cellsWf_cons a v r).1 h
    rw [List.filter_cons]
    split
    · exact (cellsWf_cons _ _ _).2 ⟨hv, fun d hd => ha d (List.mem_filter.1 hd).1, ih hr⟩
    · exact ih hr

theorem cellGet_below (m : List Host.Cell) (n i : Nat) (h : cellsAbove n m) (hi : i ≤ n) :
    cellGet m i = Config.unwritten := by
  cases m with
  | nil => rfl
  | cons c r =>
    obtain ⟨a, v⟩ := c
    have ha : n < a := h (a, v) (by simp)
    unfold cellGet
    rw [if_neg (by simp; omega), if_pos (by omega)]

/-- The byte just written is read back; every other byte reads as before. -/
theorem cellGet_cellPut (m : List Host.Cell) (i j : Nat) (x : Byte) (h : cellsWf m = true) :
    cellGet (cellPut m i x) j = if j = i then x else cellGet m j := by
  induction m with
  | nil =>
    unfold cellPut
    split
    · next hx => simp only [beq_iff_eq] at hx; simp [cellGet, hx]
    · simp only [cellGet, beq_iff_eq]
      split_ifs <;> simp_all
  | cons c r ih =>
    obtain ⟨a, v⟩ := c
    obtain ⟨hv, ha, hr⟩ := (cellsWf_cons a v r).1 h
    unfold cellPut
    split
    · next hai =>
      simp only [beq_iff_eq] at hai
      subst hai
      split
      · next hx =>
        simp only [beq_iff_eq] at hx
        by_cases hj : j = a
        · subst hj; simp [hx, cellGet_below r j j ha (Nat.le_refl j)]
        · rw [if_neg hj, cellGet.eq_2, if_neg (by simp; omega)]
          split
          · next hja => exact cellGet_below r a j ha (by omega)
          · rfl
      · by_cases hj : j = a
        · subst hj; simp [cellGet]
        · have hn : (a == j) = false := by simp; omega
          simp only [cellGet, hn, hj, if_false, Bool.false_eq_true]
    · next hai =>
      simp only [beq_iff_eq] at hai
      split
      · next hia =>
        split
        · next hx =>
          simp only [beq_iff_eq] at hx
          by_cases hj : j = i
          · subst hj; simp only [if_true, cellGet]; rw [if_neg (by simp; omega), if_pos hia, hx]
          · simp [hj]
        · by_cases hj : j = i
          · subst hj; simp [cellGet]
          · simp only [hj, if_false]
            rw [cellGet.eq_2, if_neg (by simp; omega)]
            split
            · next hji =>
              symm
              simp only [cellGet]
              rw [if_neg (by simp; omega), if_pos (by omega)]
            · rfl
      · next hia =>
        simp only [cellGet]
        split
        · next hja =>
          simp only [beq_iff_eq] at hja
          rw [if_neg (by omega)]
        · split
          · next hja => rw [if_neg (by omega)]
          · exact ih hr

/-- Bytes written from an address on: those addresses read as written, every other byte as before. -/
theorem cellGet_cellsWrite (bs : List Byte) (m : List Host.Cell) (a j : Nat) (h : cellsWf m = true) :
    cellGet (cellsWrite m a bs) j = if a ≤ j ∧ j < a + bs.length then bs.getD (j - a) 0 else cellGet m j := by
  induction bs generalizing m a with
  | nil => simp only [cellsWrite, List.length_nil]; rw [if_neg (by omega)]
  | cons b r ih =>
    rw [cellsWrite, ih _ _ (cellPut_wf a b m h), cellGet_cellPut m a j b h]
    by_cases h1 : j = a
    · subst h1; simp
    · by_cases h2 : a + 1 ≤ j ∧ j < a + 1 + r.length
      · rw [if_pos h2, if_pos (by simp; omega)]
        obtain ⟨k, hk⟩ : ∃ k, j - a = k + 1 := ⟨j - a - 1, by omega⟩
        rw [hk, show j - (a + 1) = k by omega]
        simp
      · rw [if_neg h2, if_neg h1, if_neg (by simp only [List.length_cons]; omega)]

/-- The bytes read from an address on are the bytes there. -/
theorem cellsRead_getD (m : List Host.Cell) (a n k : Nat) (h : k < n) :
    (cellsRead m a n).getD k 0 = cellGet m (a + k) := by
  induction n generalizing a k with
  | zero => omega
  | succ n ih =>
    cases k with
    | zero => simp [cellsRead]
    | succ k => simp only [cellsRead, List.getD_cons_succ]; rw [ih (a + 1) k (by omega)]; congr 1; omega

theorem cellsRead_length (m : List Host.Cell) (a n : Nat) : (cellsRead m a n).length = n := by
  induction n generalizing a with
  | zero => rfl
  | succ n ih => simp [cellsRead, ih]

/-- Every block of the table lies above a bound. -/
def descsAbove (n : Nat) (m : List (Nat × Nat × Nat)) : Prop := ∀ c ∈ m, n < c.1

theorem descsWf_cons (a : Nat) (v : Nat × Nat) (r : List (Nat × Nat × Nat)) :
    descsWf ((a, v) :: r) = true ↔ v ≠ (0, 0) ∧ descsAbove a r ∧ descsWf r = true := by
  induction r generalizing a v with
  | nil => simp [descsWf, descsAbove]
  | cons c r ih =>
    obtain ⟨b, w⟩ := c
    have h := ih b w
    simp only [descsWf, Bool.and_eq_true, bne_iff_ne, ne_eq, decide_eq_true_eq]
    constructor
    · rintro ⟨⟨hv, hab⟩, hr⟩
      refine ⟨hv, ?_, hr⟩
      intro c hc
      rcases List.mem_cons.1 hc with rfl | hc
      · exact hab
      · exact Nat.lt_trans hab ((h.1 hr).2.1 c hc)
    · rintro ⟨hv, ha, hr⟩
      exact ⟨⟨hv, ha (b, w) (by simp)⟩, hr⟩

theorem descPut_above (n i : Nat) (x : Nat × Nat) (m : List (Nat × Nat × Nat)) (hn : n < i)
    (h : descsAbove n m) : descsAbove n (descPut m i x) := by
  induction m with
  | nil => unfold descPut; split <;> simp_all [descsAbove]
  | cons c r ih =>
    obtain ⟨a, v⟩ := c
    have hr : descsAbove n r := fun d hd => h d (by simp [hd])
    have ha : n < a := h (a, v) (by simp)
    unfold descPut
    intro d hd
    split at hd
    · split at hd
      · exact hr d hd
      · rcases List.mem_cons.1 hd with rfl | hd
        · exact hn
        · exact hr d hd
    · split at hd
      · split at hd
        · exact h d hd
        · rcases List.mem_cons.1 hd with rfl | hd
          · exact hn
          · exact h d hd
      · rcases List.mem_cons.1 hd with rfl | hd
        · exact ha
        · exact ih hr d hd

/-- Writing a block's descriptor keeps the form of the table. -/
theorem descPut_wf (i : Nat) (x : Nat × Nat) (m : List (Nat × Nat × Nat)) (h : descsWf m = true) :
    descsWf (descPut m i x) = true := by
  induction m with
  | nil => unfold descPut; split <;> simp_all [descsWf]
  | cons c r ih =>
    obtain ⟨a, v⟩ := c
    obtain ⟨hv, ha, hr⟩ := (descsWf_cons a v r).1 h
    unfold descPut
    split
    · next hai =>
      simp only [beq_iff_eq] at hai
      subst hai
      split
      · exact hr
      · next hx => exact (descsWf_cons _ _ _).2 ⟨by simpa using hx, ha, hr⟩
    · next hai =>
      simp only [beq_iff_eq] at hai
      split
      · next hia =>
        split
        · exact h
        · next hx =>
          refine (descsWf_cons _ _ _).2 ⟨by simpa using hx, ?_, h⟩
          intro d hd
          rcases List.mem_cons.1 hd with rfl | hd
          · exact hia
          · exact Nat.lt_trans hia (ha d hd)
      · next hia => exact (descsWf_cons _ _ _).2 ⟨hv, descPut_above a i x r (by omega) ha, ih hr⟩

theorem descsWf_filter (p : Nat × Nat × Nat → Bool) (m : List (Nat × Nat × Nat)) (h : descsWf m = true) :
    descsWf (m.filter p) = true := by
  induction m with
  | nil => rfl
  | cons c r ih =>
    obtain ⟨a, v⟩ := c
    obtain ⟨hv, ha, hr⟩ := (descsWf_cons a v r).1 h
    rw [List.filter_cons]
    split
    · exact (descsWf_cons _ _ _).2 ⟨hv, fun d hd => ha d (List.mem_filter.1 hd).1, ih hr⟩
    · exact ih hr

end Sys2Proof.Machine
end

