-- ==== Sys2Proof/Laws/PerInstr.lean ====
section
/-! SUPPORT. The family of statements made per instruction: what its word looks like (R213). -/

namespace Sys2Proof.Laws.Words

/-- A length and a word that fit each other: the word fills the 2, 4 or 8 bytes that its own first half-word fixes (R213). -/
def Fits (e : Nat × Nat) : Prop :=
  (e.1 = 2 ∨ e.1 = 4 ∨ e.1 = 8) ∧ e.2 < 256 ^ e.1 ∧ instrLength (e.2 % 65536) = e.1

/-- The word of an instruction, if it has one, fits its length. -/
def Statement (i : Instr) : Prop := ∀ e, encode i = some e → Fits e

theorem length_of_low (w : Nat) : instrLength (w % 65536) = if w % 2 = 0 then 2 else if w % 4 = 1 then 4 else 8 := by
  unfold instrLength
  rw [Nat.mod_mod_of_dvd w (by decide : 2 ∣ 65536), Nat.mod_mod_of_dvd w (by decide : 4 ∣ 65536)]
  simp only [beq_iff_eq]

/-- The low bits of a word that ends in a field. -/
theorem low_bits {n k : Nat} (x : BitVec n) (y : BitVec k) : (x ++ y).toNat % 2 ^ k = y.toNat := by
  rw [BitVec.toNat_append, Nat.or_mod_two_pow, Nat.shiftLeft_eq, Nat.mul_mod_left, Nat.zero_or]
  exact Nat.mod_eq_of_lt y.isLt

/-- A word of 8 bytes that ends in 11. -/
theorem fits8 (x : BitVec 62) : Fits (8, (x ++ 3#2).toNat) := by
  have lo : (x ++ 3#2).toNat % 4 = 3 := low_bits x 3#2
  refine ⟨.inr (.inr rfl), (x ++ 3#2).isLt, ?_⟩
  show instrLength ((x ++ 3#2).toNat % 65536) = 8
  rw [length_of_low, if_neg (by omega), if_neg (by omega)]

/-- A word of 4 bytes that ends in 01. -/
theorem fits4 (x : BitVec 30) : Fits (4, (x ++ 1#2).toNat) := by
  have lo : (x ++ 1#2).toNat % 4 = 1 := low_bits x 1#2
  refine ⟨.inr (.inl rfl), (x ++ 1#2).isLt, ?_⟩
  show instrLength ((x ++ 1#2).toNat % 65536) = 4
  rw [length_of_low, if_neg (by omega), if_pos lo]

/-- A word of 2 bytes that ends in 0. -/
theorem fits2 (x : BitVec 15) : Fits (2, (x ++ 0#1).toNat) := by
  have lo : (x ++ 0#1).toNat % 2 = 0 := low_bits x 0#1
  refine ⟨.inl rfl, (x ++ 0#1).isLt, ?_⟩
  show instrLength ((x ++ 0#1).toNat % 65536) = 2
  rw [length_of_low, if_pos lo]

theorem of_word {i : Instr} {e : Nat × Nat} (h : encode i = some e) (f : Fits e) : Statement i :=
  fun _ h' => Option.some.inj (h.symm.trans h') ▸ f

/-- A step of the device's own or an act of an outside party has no word. -/
theorem of_none {i : Instr} (h : encode i = none) : Statement i := fun _ h' => nomatch h.symm.trans h'

theorem of_l {i : Instr} (op : BitVec 7) (f : L64) (h : encode i = some (8, (f.toWord op).toNat)) : Statement i :=
  of_word h (fits8 _)
theorem of_k {i : Instr} (op : BitVec 7) (f : K64) (h : encode i = some (8, (f.toWord op).toNat)) : Statement i :=
  of_word h (fits8 _)
theorem of_m {i : Instr} (op : BitVec 7) (f : M64) (h : encode i = some (8, (f.toWord op).toNat)) : Statement i :=
  of_word h (fits8 _)
theorem of_s {i : Instr} (op : BitVec 7) (f : S32) (h : encode i = some (4, (f.toWord op).toNat)) : Statement i :=
  of_word h (fits4 _)
theorem of_i {i : Instr} (op : BitVec 7) (f : I32) (h : encode i = some (4, (f.toWord op).toNat)) : Statement i :=
  of_word h (fits4 _)
theorem of_j {i : Instr} (op : BitVec 7) (f : J32) (h : encode i = some (4, (f.toWord op).toNat)) : Statement i :=
  of_word h (fits4 _)
theorem of_c {i : Instr} (cop : BitVec 4) (f : C16) (h : encode i = some (2, (f.toWord cop).toNat)) : Statement i :=
  of_word h (fits2 _)

theorem powerOn (b : BootConfig) : Statement (.powerOn b) := of_none rfl
theorem sensorEventCore (cls : SensorClass) (cell : Nat) : Statement (.sensorEventCore cls cell) := of_none rfl
theorem sensorEventHome (cls : SensorClass) (cell : Nat) : Statement (.sensorEventHome cls cell) := of_none rfl
theorem sensorEventRouterPort (cls : SensorClass) (cell : Nat) : Statement (.sensorEventRouterPort cls cell) := of_none rfl
theorem crossingSlip (cell : Nat) : Statement (.crossingSlip cell) := of_none rfl
theorem linkCrcFail (port lane : Nat) : Statement (.linkCrcFail port lane) := of_none rfl
theorem laneRemap (port lane : Nat) (lost : Bool) : Statement (.laneRemap port lane lost) := of_none rfl
theorem subscriptionUpdateApply (upd : Nat) (damaged : Bool) : Statement (.subscriptionUpdateApply upd damaged) := of_none rfl
theorem uncorrectableStorageError (what : StorageDamage) : Statement (.uncorrectableStorageError what) := of_none rfl
theorem doorbellWrite (q : Nat) (value : BitVec 64) : Statement (.doorbellWrite q value) := of_none rfl
theorem bindRecordWrite (die : Nat) (rec : BindRecord) : Statement (.bindRecordWrite die rec) := of_none rfl
theorem restoreRecordWrite (die : Nat) (rec : RestoreRecord) : Statement (.restoreRecordWrite die rec) := of_none rfl
theorem logOverrunClear (die : Nat) (value : BitVec 64) : Statement (.logOverrunClear die value) := of_none rfl
theorem fqheadWrite (value : Word) : Statement (.fqheadWrite value) := of_none rfl
theorem faultrespReplay (token : Word) : Statement (.faultrespReplay token) := of_none rfl
theorem faultrespDecline (token : Word) : Statement (.faultrespDecline token) := of_none rfl
theorem faultrespTerminate (token : Word) : Statement (.faultrespTerminate token) := of_none rfl
theorem preemptRequest (die : Nat) (req : PreemptRequest) : Statement (.preemptRequest die req) := of_none rfl
theorem fenceUnit (kind : FenceKind) (n : Nat) (reason : FenceReason) : Statement (.fenceUnit kind n reason) := of_none rfl
theorem quiesce (req : QuiesceRequest) : Statement (.quiesce req) := of_none rfl
theorem restoreCast (records : List CastRecord) : Statement (.restoreCast records) := of_none rfl
theorem runFieldTest (cluster : Nat) : Statement (.runFieldTest cluster) := of_none rfl
theorem iftctlStart (die cluster : Nat) : Statement (.iftctlStart die cluster) := of_none rfl
theorem iftComplete (die : Nat) (fault : Option Nat) : Statement (.iftComplete die fault) := of_none rfl
theorem resetCluster (cluster : Nat) : Statement (.resetCluster cluster) := of_none rfl
theorem clearCounters (lo hi : Nat) : Statement (.clearCounters lo hi) := of_none rfl
theorem updateFirmware (image : FirmwareImage) (slot : Nat) : Statement (.updateFirmware image slot) := of_none rfl
theorem setPowerCap (watts : Nat) : Statement (.setPowerCap watts) := of_none rfl
theorem powerControlPeriod (die : Nat) (watts duty : Nat) : Statement (.powerControlPeriod die watts duty) := of_none rfl
theorem thermalThrottle (die : Nat) (celsius : Nat) : Statement (.thermalThrottle die celsius) := of_none rfl
theorem thermalRelease (die : Nat) (celsius : Nat) : Statement (.thermalRelease die celsius) := of_none rfl
theorem scrubVisit (block : Nat) (ecc : EccResult) : Statement (.scrubVisit block ecc) := of_none rfl
theorem counterWrite (cell field : Nat) (value : Word) : Statement (.counterWrite cell field value) := of_none rfl
theorem thresholdWrite (kind index : Nat) (value : BitVec 64) : Statement (.thresholdWrite kind index value) := of_none rfl
theorem ellostClear (value : Word) : Statement (.ellostClear value) := of_none rfl
theorem lockRegion (who : Party) : Statement (.lockRegion who) := of_none rfl
theorem lockPart (who : Party) : Statement (.lockPart who) := of_none rfl
theorem lockLmap (who : Party) : Statement (.lockLmap who) := of_none rfl
theorem lockSensors (who : Party) : Statement (.lockSensors who) := of_none rfl
theorem lockClock (who : Party) : Statement (.lockClock who) := of_none rfl
theorem lockPhoac (who : Party) : Statement (.lockPhoac who) := of_none rfl
theorem lockErrorClear (value : BitVec 64) : Statement (.lockErrorClear value) := of_none rfl
theorem registerWrite (who : Party) (off : Nat) (value : BitVec 64) : Statement (.registerWrite who off value) := of_none rfl
theorem appCoreAccess (hart : Nat) (acc : HostAccess) : Statement (.appCoreAccess hart acc) := of_none rfl
theorem pcieInboundRequest (port : Nat) (acc : HostAccess) : Statement (.pcieInboundRequest port acc) := of_none rfl
theorem phoacRequest (package : Nat) (txid : Nat) (acc : HostAccess) : Statement (.phoacRequest package txid acc) := of_none rfl
theorem negotiateAlgorithms (sig hash : Nat) : Statement (.negotiateAlgorithms sig hash) := of_none rfl
theorem getCertificate (slot offset length : Nat) : Statement (.getCertificate slot offset length) := of_none rfl
theorem challenge (slot : Nat) (nonce : List Byte) : Statement (.challenge slot nonce) := of_none rfl
theorem getMeasurements (index : Nat) : Statement (.getMeasurements index) := of_none rfl
theorem spdmUnsupported (code : Nat) : Statement (.spdmUnsupported code) := of_none rfl
theorem reservedOpcode (op : BitVec 7) (long : Bool) : Statement (.reservedOpcode op long) := by
  by_cases h : reservedOp op = true
  · cases long
    · exact of_word (by simp only [encode, h]; rfl) (fits4 (0#23 ++ op))
    · exact of_word (by simp only [encode, h]; rfl) (fits8 (0#55 ++ op))
  · exact of_none (by simp only [encode, h]; rfl)
theorem iadd (f : L64) : Statement (.iadd f) := of_l _ f rfl
theorem iaddS32 (f : S32) : Statement (.iaddS32 f) := of_s _ f rfl
theorem iaddC16 (f : C16) : Statement (.iaddC16 f) := of_c _ f rfl
theorem isub (f : L64) : Statement (.isub f) := of_l _ f rfl
theorem isubS32 (f : S32) : Statement (.isubS32 f) := of_s _ f rfl
theorem isubC16 (f : C16) : Statement (.isubC16 f) := of_c _ f rfl
theorem iaddi (f : K64) : Statement (.iaddi f) := of_k _ f rfl
theorem iaddiI32 (f : I32) : Statement (.iaddiI32 f) := of_i _ f rfl
theorem imul (f : L64) : Statement (.imul f) := of_l _ f rfl
theorem imulS32 (f : S32) : Statement (.imulS32 f) := of_s _ f rfl
theorem imulh (f : L64) : Statement (.imulh f) := of_l _ f rfl
theorem imulhS32 (f : S32) : Statement (.imulhS32 f) := of_s _ f rfl
theorem imac (f : L64) : Statement (.imac f) := of_l _ f rfl
theorem imacw (f : L64) : Statement (.imacw f) := of_l _ f rfl
theorem imin (f : L64) : Statement (.imin f) := of_l _ f rfl
theorem iminS32 (f : S32) : Statement (.iminS32 f) := of_s _ f rfl
theorem iminC16 (f : C16) : Statement (.iminC16 f) := of_c _ f rfl
theorem imax (f : L64) : Statement (.imax f) := of_l _ f rfl
theorem imaxS32 (f : S32) : Statement (.imaxS32 f) := of_s _ f rfl
theorem imaxC16 (f : C16) : Statement (.imaxC16 f) := of_c _ f rfl
theorem iabs (f : L64) : Statement (.iabs f) := of_l _ f rfl
theorem iabsS32 (f : S32) : Statement (.iabsS32 f) := of_s _ f rfl
theorem and (f : L64) : Statement (.and f) := of_l _ f rfl
theorem andS32 (f : S32) : Statement (.andS32 f) := of_s _ f rfl
theorem andC16 (f : C16) : Statement (.andC16 f) := of_c _ f rfl
theorem or (f : L64) : Statement (.or f) := of_l _ f rfl
theorem orS32 (f : S32) : Statement (.orS32 f) := of_s _ f rfl
theorem orC16 (f : C16) : Statement (.orC16 f) := of_c _ f rfl
theorem xor (f : L64) : Statement (.xor f) := of_l _ f rfl
theorem xorS32 (f : S32) : Statement (.xorS32 f) := of_s _ f rfl
theorem xorC16 (f : C16) : Statement (.xorC16 f) := of_c _ f rfl
theorem logi (f : L64) : Statement (.logi f) := of_l _ f rfl
theorem logiS32 (f : S32) : Statement (.logiS32 f) := of_s _ f rfl
theorem shl (f : L64) : Statement (.shl f) := of_l _ f rfl
theorem shlS32 (f : S32) : Statement (.shlS32 f) := of_s _ f rfl
theorem shlC16 (f : C16) : Statement (.shlC16 f) := of_c _ f rfl
theorem shr (f : L64) : Statement (.shr f) := of_l _ f rfl
theorem shrS32 (f : S32) : Statement (.shrS32 f) := of_s _ f rfl
theorem shrC16 (f : C16) : Statement (.shrC16 f) := of_c _ f rfl
theorem funl (f : L64) : Statement (.funl f) := of_l _ f rfl
theorem bext (f : L64) : Statement (.bext f) := of_l _ f rfl
theorem bextS32 (f : S32) : Statement (.bextS32 f) := of_s _ f rfl
theorem bins (f : L64) : Statement (.bins f) := of_l _ f rfl
theorem bcnt (f : L64) : Statement (.bcnt f) := of_l _ f rfl
theorem bcntS32 (f : S32) : Statement (.bcntS32 f) := of_s _ f rfl
theorem bscan (f : L64) : Statement (.bscan f) := of_l _ f rfl
theorem bscanS32 (f : S32) : Statement (.bscanS32 f) := of_s _ f rfl
theorem brev (f : L64) : Statement (.brev f) := of_l _ f rfl
theorem brevS32 (f : S32) : Statement (.brevS32 f) := of_s _ f rfl
theorem bperm (f : L64) : Statement (.bperm f) := of_l _ f rfl
theorem bpermS32 (f : S32) : Statement (.bpermS32 f) := of_s _ f rfl
theorem icmp (f : L64) : Statement (.icmp f) := of_l _ f rfl
theorem sel (f : L64) : Statement (.sel f) := of_l _ f rfl
theorem adds (f : L64) : Statement (.adds f) := of_l _ f rfl
theorem addsS32 (f : S32) : Statement (.addsS32 f) := of_s _ f rfl
theorem idot4 (f : L64) : Statement (.idot4 f) := of_l _ f rfl
theorem fadd (f : L64) : Statement (.fadd f) := of_l _ f rfl
theorem faddS32 (f : S32) : Statement (.faddS32 f) := of_s _ f rfl
theorem faddC16 (f : C16) : Statement (.faddC16 f) := of_c _ f rfl
theorem fsubC16 (f : C16) : Statement (.fsubC16 f) := of_c _ f rfl
theorem fmul (f : L64) : Statement (.fmul f) := of_l _ f rfl
theorem fmulS32 (f : S32) : Statement (.fmulS32 f) := of_s _ f rfl
theorem fmulC16 (f : C16) : Statement (.fmulC16 f) := of_c _ f rfl
theorem ffma (f : L64) : Statement (.ffma f) := of_l _ f rfl
theorem ffms (f : L64) : Statement (.ffms f) := of_l _ f rfl
theorem fnma (f : L64) : Statement (.fnma f) := of_l _ f rfl
theorem fmin (f : L64) : Statement (.fmin f) := of_l _ f rfl
theorem fminS32 (f : S32) : Statement (.fminS32 f) := of_s _ f rfl
theorem fminC16 (f : C16) : Statement (.fminC16 f) := of_c _ f rfl
theorem fmax (f : L64) : Statement (.fmax f) := of_l _ f rfl
theorem fmaxS32 (f : S32) : Statement (.fmaxS32 f) := of_s _ f rfl
theorem fmaxC16 (f : C16) : Statement (.fmaxC16 f) := of_c _ f rfl
theorem fcmp (f : L64) : Statement (.fcmp f) := of_l _ f rfl
theorem fclass (f : L64) : Statement (.fclass f) := of_l _ f rfl
theorem fclassS32 (f : S32) : Statement (.fclassS32 f) := of_s _ f rfl
theorem sfn (f : L64) : Statement (.sfn f) := of_l _ f rfl
theorem sfnS32 (f : S32) : Statement (.sfnS32 f) := of_s _ f rfl
theorem fint (f : L64) : Statement (.fint f) := of_l _ f rfl
theorem fintS32 (f : S32) : Statement (.fintS32 f) := of_s _ f rfl
theorem ftoi (f : L64) : Statement (.ftoi f) := of_l _ f rfl
theorem ftoiS32 (f : S32) : Statement (.ftoiS32 f) := of_s _ f rfl
theorem itof (f : L64) : Statement (.itof f) := of_l _ f rfl
theorem itofS32 (f : S32) : Statement (.itofS32 f) := of_s _ f rfl
theorem fscale (f : L64) : Statement (.fscale f) := of_l _ f rfl
theorem fscaleS32 (f : S32) : Statement (.fscaleS32 f) := of_s _ f rfl
theorem padd (f : L64) : Statement (.padd f) := of_l _ f rfl
theorem paddS32 (f : S32) : Statement (.paddS32 f) := of_s _ f rfl
theorem paddC16 (f : C16) : Statement (.paddC16 f) := of_c _ f rfl
theorem pmul (f : L64) : Statement (.pmul f) := of_l _ f rfl
theorem pmulS32 (f : S32) : Statement (.pmulS32 f) := of_s _ f rfl
theorem pfma (f : L64) : Statement (.pfma f) := of_l _ f rfl
theorem pmnx (f : L64) : Statement (.pmnx f) := of_l _ f rfl
theorem pmnxS32 (f : S32) : Statement (.pmnxS32 f) := of_s _ f rfl
theorem cvt (f : L64) : Statement (.cvt f) := of_l _ f rfl
theorem cvtS32 (f : S32) : Statement (.cvtS32 f) := of_s _ f rfl
theorem pack (f : L64) : Statement (.pack f) := of_l _ f rfl
theorem packS32 (f : S32) : Statement (.packS32 f) := of_s _ f rfl
theorem unpk (f : L64) : Statement (.unpk f) := of_l _ f rfl
theorem unpkS32 (f : S32) : Statement (.unpkS32 f) := of_s _ f rfl
theorem qnt (f : M64) : Statement (.qnt f) := of_m _ f rfl
theorem dqnt (f : M64) : Statement (.dqnt f) := of_m _ f rfl
theorem plog (f : L64) : Statement (.plog f) := of_l _ f rfl
theorem pget (f : L64) : Statement (.pget f) := of_l _ f rfl
theorem pput (f : L64) : Statement (.pput f) := of_l _ f rfl
theorem cvote (f : L64) : Statement (.cvote f) := of_l _ f rfl
theorem cvoteS32 (f : S32) : Statement (.cvoteS32 f) := of_s _ f rfl
theorem lxch (f : L64) : Statement (.lxch f) := of_l _ f rfl
theorem lxchS32 (f : S32) : Statement (.lxchS32 f) := of_s _ f rfl
theorem lred (f : L64) : Statement (.lred f) := of_l _ f rfl
theorem lmatch (f : L64) : Statement (.lmatch f) := of_l _ f rfl
theorem pick (f : L64) : Statement (.pick f) := of_l _ f rfl
theorem maskLanes (f : L64) : Statement (.maskLanes f) := of_l _ f rfl
theorem maskLanesS32 (f : S32) : Statement (.maskLanesS32 f) := of_s _ f rfl
theorem mov (f : L64) : Statement (.mov f) := of_l _ f rfl
theorem movS32 (f : S32) : Statement (.movS32 f) := of_s _ f rfl
theorem movC16 (f : C16) : Statement (.movC16 f) := of_c _ f rfl
theorem movi (f : K64) : Statement (.movi f) := of_k _ f rfl
theorem moviI32 (f : I32) : Statement (.moviI32 f) := of_i _ f rfl
theorem sread (f : K64) : Statement (.sread f) := of_k _ f rfl
theorem sreadI32 (f : I32) : Statement (.sreadI32 f) := of_i _ f rfl
theorem locq (f : M64) : Statement (.locq f) := of_m _ f rfl
theorem br (f : K64) : Statement (.br f) := of_k _ f rfl
theorem brJ32 (f : J32) : Statement (.brJ32 f) := of_j _ f rfl
theorem jr (f : L64) : Statement (.jr f) := of_l _ f rfl
theorem jrS32 (f : S32) : Statement (.jrS32 f) := of_s _ f rfl
theorem call (f : K64) : Statement (.call f) := of_k _ f rfl
theorem callJ32 (f : J32) : Statement (.callJ32 f) := of_j _ f rfl
theorem ret (f : L64) : Statement (.ret f) := of_l _ f rfl
theorem retS32 (f : S32) : Statement (.retS32 f) := of_s _ f rfl
theorem rjoin (f : L64) : Statement (.rjoin f) := of_l _ f rfl
theorem rjoinS32 (f : S32) : Statement (.rjoinS32 f) := of_s _ f rfl
theorem exitThread (f : L64) : Statement (.exitThread f) := of_l _ f rfl
theorem nop (f : L64) : Statement (.nop f) := of_l _ f rfl
theorem pause (f : L64) : Statement (.pause f) := of_l _ f rfl
theorem region (f : L64) : Statement (.region f) := of_l _ f rfl
theorem tryGambit (f : K64) : Statement (.tryGambit f) := of_k _ f rfl
theorem commit (f : L64) : Statement (.commit f) := of_l _ f rfl
theorem abort (f : K64) : Statement (.abort f) := of_k _ f rfl
theorem trap (f : K64) : Statement (.trap f) := of_k _ f rfl
theorem brk (f : K64) : Statement (.brk f) := of_k _ f rfl
theorem brkI32 (f : I32) : Statement (.brkI32 f) := of_i _ f rfl
theorem tret (f : L64) : Statement (.tret f) := of_l _ f rfl
theorem sysR (f : K64) : Statement (.sysR f) := of_k _ f rfl
theorem sysW (f : K64) : Statement (.sysW f) := of_k _ f rfl
theorem ld (f : M64) : Statement (.ld f) := of_m _ f rfl
theorem st (f : M64) : Statement (.st f) := of_m _ f rfl
theorem stBlk (f : M64) : Statement (.stBlk f) := of_m _ f rfl
theorem ldc (f : M64) : Statement (.ldc f) := of_m _ f rfl
theorem lda (f : M64) : Statement (.lda f) := of_m _ f rfl
theorem sld (f : M64) : Statement (.sld f) := of_m _ f rfl
theorem sst (f : M64) : Statement (.sst f) := of_m _ f rfl
theorem atom (f : M64) : Statement (.atom f) := of_m _ f rfl
theorem atomn (f : M64) : Statement (.atomn f) := of_m _ f rfl
theorem satom (f : M64) : Statement (.satom f) := of_m _ f rfl
theorem fence (f : M64) : Statement (.fence f) := of_m _ f rfl
theorem cache (f : M64) : Statement (.cache f) := of_m _ f rfl
theorem bari (f : M64) : Statement (.bari f) := of_m _ f rfl
theorem bara (f : M64) : Statement (.bara f) := of_m _ f rfl
theorem barx (f : M64) : Statement (.barx f) := of_m _ f rfl
theorem barw (f : M64) : Statement (.barw f) := of_m _ f rfl
theorem bart (f : M64) : Statement (.bart f) := of_m _ f rfl
theorem cpy (f : L64) : Statement (.cpy f) := of_l _ f rfl
theorem cpyt (f : L64) : Statement (.cpyt f) := of_l _ f rfl
theorem cpyg (f : L64) : Statement (.cpyg f) := of_l _ f rfl
theorem tlwait (f : L64) : Statement (.tlwait f) := of_l _ f rfl
theorem tmac (f : L64) : Statement (.tmac f) := of_l _ f rfl
theorem tconv (f : L64) : Statement (.tconv f) := of_l _ f rfl
theorem tdrain (f : L64) : Statement (.tdrain f) := of_l _ f rfl
theorem tctlZero (f : L64) : Statement (.tctlZero f) := of_l _ f rfl
theorem tctlLoad (f : L64) : Statement (.tctlLoad f) := of_l _ f rfl
theorem tctlStat (f : L64) : Statement (.tctlStat f) := of_l _ f rfl
theorem ract (f : L64) : Statement (.ract f) := of_l _ f rfl
theorem rcon (f : L64) : Statement (.rcon f) := of_l _ f rfl
theorem rpre (f : L64) : Statement (.rpre f) := of_l _ f rfl
theorem wopen (f : L64) : Statement (.wopen f) := of_l _ f rfl
theorem subsOn (f : L64) : Statement (.subsOn f) := of_l _ f rfl
theorem subsOff (f : L64) : Statement (.subsOff f) := of_l _ f rfl
theorem amsg (f : L64) : Statement (.amsg f) := of_l _ f rfl
theorem circSetup (f : L64) : Statement (.circSetup f) := of_l _ f rfl
theorem circSend (f : L64) : Statement (.circSend f) := of_l _ f rfl
theorem circRel (f : L64) : Statement (.circRel f) := of_l _ f rfl
theorem xblkAcq (f : L64) : Statement (.xblkAcq f) := of_l _ f rfl
theorem xblkRel (f : L64) : Statement (.xblkRel f) := of_l _ f rfl
theorem issueArbitration : Statement (.issueArbitration) := of_none rfl
theorem recordStart : Statement (.recordStart) := of_none rfl
theorem regionRelease : Statement (.regionRelease) := of_none rfl
theorem groupComplete : Statement (.groupComplete) := of_none rfl
theorem handlerCrewStart : Statement (.handlerCrewStart) := of_none rfl
theorem trapEntry : Statement (.trapEntry) := of_none rfl
theorem contextTerminate : Statement (.contextTerminate) := of_none rfl
theorem redoNoticeReceive : Statement (.redoNoticeReceive) := of_none rfl
theorem clearSend : Statement (.clearSend) := of_none rfl
theorem clearReceive : Statement (.clearReceive) := of_none rfl
theorem homeServeRead : Statement (.homeServeRead) := of_none rfl
theorem homePerformWrite : Statement (.homePerformWrite) := of_none rfl
theorem homePerformAtomic : Statement (.homePerformAtomic) := of_none rfl
theorem loadValueReturn : Statement (.loadValueReturn) := of_none rfl
theorem writeAckReceive : Statement (.writeAckReceive) := of_none rfl
theorem releasePointComplete : Statement (.releasePointComplete) := of_none rfl
theorem atomicResendTimeout : Statement (.atomicResendTimeout) := of_none rfl
theorem transactionTimeout : Statement (.transactionTimeout) := of_none rfl
theorem linkResend : Statement (.linkResend) := of_none rfl
theorem laneRemapEnd : Statement (.laneRemapEnd) := of_none rfl
theorem l1LeaseExpiry : Statement (.l1LeaseExpiry) := of_none rfl
theorem epochRotate : Statement (.epochRotate) := of_none rfl
theorem subscriptionUpdateSend : Statement (.subscriptionUpdateSend) := of_none rfl
theorem subscriptionNackResend : Statement (.subscriptionNackResend) := of_none rfl
theorem windowTableUpdate : Statement (.windowTableUpdate) := of_none rfl
theorem amsgAccept : Statement (.amsgAccept) := of_none rfl
theorem xblkGrant : Statement (.xblkGrant) := of_none rfl
theorem asyncTrapDue : Statement (.asyncTrapDue) := of_none rfl
theorem barrierTimeout : Statement (.barrierTimeout) := of_none rfl
theorem engineOpStart : Statement (.engineOpStart) := of_none rfl
theorem engineLand : Statement (.engineLand) := of_none rfl
theorem activationStart : Statement (.activationStart) := of_none rfl
theorem rowReady : Statement (.rowReady) := of_none rfl
theorem refreshSlotStart : Statement (.refreshSlotStart) := of_none rfl
theorem circuitIdleTeardown : Statement (.circuitIdleTeardown) := of_none rfl
theorem launchReady : Statement (.launchReady) := of_none rfl
theorem cancelComplete : Statement (.cancelComplete) := of_none rfl
theorem nopCommand : Statement (.nopCommand) := of_none rfl
theorem launch : Statement (.launch) := of_none rfl
theorem openLevel : Statement (.openLevel) := of_none rfl
theorem cancelLevel : Statement (.cancelLevel) := of_none rfl
theorem writeWord : Statement (.writeWord) := of_none rfl
theorem notifyCores : Statement (.notifyCores) := of_none rfl
theorem inval : Statement (.inval) := of_none rfl
theorem ctxset : Statement (.ctxset) := of_none rfl
theorem waitRecheckTimer : Statement (.waitRecheckTimer) := of_none rfl
theorem queueTableTimeout : Statement (.queueTableTimeout) := of_none rfl
theorem stealAttempt : Statement (.stealAttempt) := of_none rfl
theorem stealRequest : Statement (.stealRequest) := of_none rfl
theorem frstatRead : Statement (.frstatRead) := of_none rfl
theorem preemptComplete : Statement (.preemptComplete) := of_none rfl
theorem fenceEvacuationTimeout : Statement (.fenceEvacuationTimeout) := of_none rfl
theorem clusterResetEnd : Statement (.clusterResetEnd) := of_none rfl
theorem scrubWriteback : Statement (.scrubWriteback) := of_none rfl
theorem getVersion : Statement (.getVersion) := of_none rfl
theorem getCapabilities : Statement (.getCapabilities) := of_none rfl
theorem getDigests : Statement (.getDigests) := of_none rfl
theorem rjoinRelease : Statement (.rjoinRelease) := of_none rfl
theorem subscriptionAckReceive : Statement (.subscriptionAckReceive) := of_none rfl
theorem refreshSlotEnd : Statement (.refreshSlotEnd) := of_none rfl
theorem unitCompleteInStaging : Statement (.unitCompleteInStaging) := of_none rfl
theorem exitThreadS32 : Statement (.exitThreadS32) := of_s _ _ rfl
theorem nopS32 : Statement (.nopS32) := of_s _ _ rfl
theorem pauseS32 : Statement (.pauseS32) := of_s _ _ rfl
theorem regionS32 : Statement (.regionS32) := of_s _ _ rfl
theorem commitS32 : Statement (.commitS32) := of_s _ _ rfl
theorem tretS32 : Statement (.tretS32) := of_s _ _ rfl
theorem xblkAcqS32 : Statement (.xblkAcqS32) := of_s _ _ rfl
theorem xblkRelS32 : Statement (.xblkRelS32) := of_s _ _ rfl

end Sys2Proof.Laws.Words
end

