-- ==== Sys2Proof/Laws/Registers.lean ====
section
/-! SUPPORT. What writing a register changes, and what it leaves alone. -/

namespace Sys2Proof.Machine

@[simp] theorem lane_contentOf (f : Nat → Word) (l : Nat) (h : l < 32) : lane (contentOf f) l = f l := by
  interval_cases l <;> rfl

@[simp] theorem contentOf_length (f : Nat → Word) : (contentOf f).length = 32 := rfl

/-- A merged content has the new lanes where the mask is set, and the old ones elsewhere (R192). -/
theorem lane_mergeLanes (m : Mask) (a b : Content) (l : Nat) (h : l < 32) :
    lane (mergeLanes m a b) l = if m.getLsbD l then lane a l else lane b l := by
  simp [mergeLanes, h]

theorem getLsbD_bit32 (k j : Nat) (h : k < 32) : (BitVec.ofNat 32 (2 ^ k)).getLsbD j = decide (j = k) := by
  rw [BitVec.getLsbD_ofNat, Nat.testBit_two_pow]
  by_cases e : j = k
  · subst e; simp [h]
  · have : ¬ k = j := fun x => e x.symm
    simp [e, this]

theorem foldl_bits (p : Nat → Bool) (ls : List Nat) (acc j : Nat) (hls : ∀ k ∈ ls, k < 32) (hnd : ls.Nodup)
    (hacc : ∀ k ∈ ls, (BitVec.ofNat 32 acc).getLsbD k = false) :
    (BitVec.ofNat 32 (ls.foldl (fun acc k => if p k then acc + 2 ^ k else acc) acc)).getLsbD j =
      ((BitVec.ofNat 32 acc).getLsbD j || (decide (j ∈ ls) && p j)) := by
  induction ls generalizing acc with
  | nil => simp
  | cons k ks ih =>
    have hk := hacc k (by simp)
    have hk32 := hls k (by simp)
    obtain ⟨hnk, hnd'⟩ := List.nodup_cons.1 hnd
    have hbit : ∀ i, (BitVec.ofNat 32 (acc + 2 ^ k)).getLsbD i = ((BitVec.ofNat 32 acc).getLsbD i || decide (i = k)) := by
      intro i
      rw [BitVec.ofNat_add, BitVec.add_eq_or_of_and_eq_zero, BitVec.getLsbD_or, getLsbD_bit32 k i hk32]
      apply BitVec.eq_of_getLsbD_eq
      intro q _
      rw [BitVec.getLsbD_and, getLsbD_bit32 k q hk32, BitVec.getLsbD_zero]
      by_cases e : q = k
      · subst e; rw [hk]; rfl
      · simp only [e, decide_false, Bool.and_false]
    rw [List.foldl_cons]
    by_cases hp : p k = true
    · rw [if_pos hp, ih _ (fun q hq => hls q (by simp [hq])) hnd' (fun q hq => by
        rw [hbit, hacc q (by simp [hq])]
        have : q ≠ k := fun e => hnk (e ▸ hq)
        simp [this]), hbit]
      by_cases hj : j = k
      · subst hj; simp [hp]
      · simp [hj]
    · rw [if_neg hp, ih _ (fun q hq => hls q (by simp [hq])) hnd' (fun q hq => hacc q (by simp [hq]))]
      by_cases hj : j = k
      · subst hj; simp [hp]
      · simp [hj]

@[simp] theorem getLsbD_ofFn (p : Nat → Bool) (l : Nat) (h : l < 32) : (Mask.ofFn p).getLsbD l = p l := by
  unfold Mask.ofFn
  rw [foldl_bits p allLanes 0 l (by decide) (by decide) (by simp)]
  have : l ∈ allLanes := by interval_cases l <;> decide
  simp [this]

/-- The register that holds a content has that content (R194). -/
theorem register_content (b : Sub) (c : Content) : (b.register c).1.content = c := by
  unfold Sub.register
  simp only []
  split
  · next p hp =>
    have := List.find?_some hp
    simp only [Bool.and_eq_true, beq_iff_eq] at this
    exact this.2
  · rfl

theorem purgeOne_crews (b : Sub) (p : PhysReg) : (b.purgeOne p).crews = b.crews ∧ (b.purgeOne p).keep = b.keep ∧
    (b.purgeOne p).blocks = b.blocks := by
  unfold Sub.purgeOne
  split <;> exact ⟨rfl, rfl, rfl⟩

theorem store_crews (b : Sub) (slot k : Nat) (c : Content) :
    (b.store slot k c).crews = modifyAt b.crews slot (fun w =>
        { w with map := modifyAt w.map k (fun _ => (b.replacement ((b.crew slot).reg k) c).1) }) ∧
      (b.store slot k c).keep = b.keep ∧ (b.store slot k c).blocks = b.blocks := by
  unfold Sub.store
  simp [purgeOne_crews]

/-- The register that takes a map entry has the content given to it (R194). -/
theorem replacement_content (b : Sub) (old : PhysReg) (c : Content) : (b.replacement old c).1.content = c := by
  unfold Sub.replacement
  simp only []
  split <;> exact register_content b c

/-- Counting the events of a write-back changes only the events. -/
theorem countStore_same (b : Sub) (c : Content) : ∃ e, b.countStore c = { b with events := e } := by
  unfold Sub.countStore
  simp only []
  split
  · exact ⟨_, rfl⟩
  · split <;> exact ⟨_, rfl⟩

/-- A register write of a sub-core: one map entry of one crew slot takes the merged content (R192, R194). -/
theorem sub_writeReg (b : Sub) (slot k : Nat) (m : Mask) (c : Content) (taint : Mask) (back : Bool) :
    ∃ p : PhysReg, p.content = mergeLanes m c ((b.crew slot).reg k).content ∧
      (b.writeReg slot k m c taint back).crews = modifyAt b.crews slot (fun w =>
        ((({ w with map := modifyAt w.map k (fun _ => p), loads := w.loads.map (LoadRec.overtake k m) } : Crew).setTaint k m
          taint).clearConsume m)) ∧
      (b.writeReg slot k m c taint back).keep = b.keep ∧ (b.writeReg slot k m c taint back).blocks = b.blocks := by
  have key : ∀ b' : Sub, b'.crews = b.crews → b'.keep = b.keep → b'.blocks = b.blocks → ∀ x,
      (modifyAt (b'.store slot k x).crews slot (fun w =>
        (({ w with loads := w.loads.map (LoadRec.overtake k m) } : Crew).setTaint k m taint).clearConsume m)) =
        modifyAt b.crews slot (fun w => ((({ w with
          map := modifyAt w.map k (fun _ => (b'.replacement ((b'.crew slot).reg k) x).1)
          loads := w.loads.map (LoadRec.overtake k m) } : Crew).setTaint k m taint).clearConsume m)) ∧
      (b'.store slot k x).keep = b.keep ∧ (b'.store slot k x).blocks = b.blocks := by
    intro b' h1 h2 h3 x
    obtain ⟨a1, a2, a3⟩ := store_crews b' slot k x
    refine ⟨?_, a2.trans h2, a3.trans h3⟩
    rw [a1, h1]
    apply List.ext_getElem?
    intro n
    rw [modifyAt_getElem?, modifyAt_getElem?, modifyAt_getElem?]
    split <;> simp [Option.map_map, Function.comp_def]
  unfold Sub.writeReg
  simp only []
  cases back with
  | true =>
    obtain ⟨e, he⟩ := countStore_same b (mergeLanes m c ((b.crew slot).reg k).content)
    simp only [if_true, he]
    obtain ⟨k1, k2, k3⟩ := key { b with events := e } rfl rfl rfl (mergeLanes m c ((b.crew slot).reg k).content)
    exact ⟨_, replacement_content _ _ _, k1, k2, k3⟩
  | false =>
    obtain ⟨k1, k2, k3⟩ := key b rfl rfl rfl (mergeLanes m c ((b.crew slot).reg k).content)
    exact ⟨_, replacement_content _ _ _, k1, k2, k3⟩

/-- A register write of a crew: the register takes the lanes of the mask, every other register, and of the threads
everything but taint and consume signature, stays; of the regions only credits change. -/
structure RegWritten (w v : Crew) (k : Nat) (m : Mask) (c : Content) (taint : Mask) : Prop where
  same : CrewSame w v
  threads : v.threads.length = w.threads.length
  map : v.map.length = w.map.length
  content : (v.reg k).content = mergeLanes m c (w.reg k).content
  others : ∀ j, j ≠ k → v.reg j = w.reg j
  pc : ∀ l, (v.thread l).pc = (w.thread l).pc
  preds : ∀ l, (v.thread l).preds = (w.thread l).preds
  run : ∀ l, (v.thread l).run = (w.thread l).run
  sb : ∀ l, (v.thread l).sb = (w.thread l).sb
  clockHi : ∀ l, (v.thread l).clockHi = (w.thread l).clockHi
  tainted : ∀ l, l < 32 → (v.thread l).taint.getLsbD k = if m.getLsbD l then taint.getLsbD l else (w.thread l).taint.getLsbD k
  taints : ∀ l j, j ≠ k → (v.thread l).taint.getLsbD j = (w.thread l).taint.getLsbD j
  turn : v.turn = w.turn
  runs : v.run = w.run
  regions : v.regions.map (fun g => { g with credits := [] }) = w.regions.map (fun g => { g with credits := [] })
  retired : v.retired = w.retired
  gambit : v.gambit = w.gambit
  setters : v.setters = w.setters
  loads : v.loads = w.loads.map (LoadRec.overtake k m)
  lastIssue : v.lastIssue = w.lastIssue
  resumeAt : v.resumeAt = w.resumeAt
  pausedUntil : v.pausedUntil = w.pausedUntil

theorem modRegion_credits (w : Crew) (x : List (Nat × PhysReg)) :
    (w.modRegion (fun g => { g with credits := g.credits ++ x })).regions.map (fun g => { g with credits := [] }) =
      w.regions.map (fun g => { g with credits := [] }) := by
  apply List.ext_getElem?
  intro n
  simp only [Crew.modRegion, List.getElem?_map, modifyAt_getElem?]
  split
  · cases w.regions[n]? <;> rfl
  · rfl

theorem takeCredit_fields (w : Crew) (k : Nat) : ∃ rs p, w.takeCredit k = { w with regions := rs, pinned := p } ∧
    rs.map (fun g => ({ g with credits := [] } : Region)) = w.regions.map (fun g => { g with credits := [] }) := by
  unfold Crew.takeCredit
  split
  · exact ⟨_, _, rfl, modRegion_credits w _⟩
  · exact ⟨w.regions, w.pinned, rfl, rfl⟩

theorem thread_modLanes_field {α : Type} (w : Crew) (m : Mask) (f : Nat → Thread → Thread) (g : Thread → α)
    (h : ∀ l t, g (f l t) = g t) (l : Nat) : g ((w.modLanes m f).thread l) = g (w.thread l) := by
  unfold Crew.thread Crew.modLanes
  rw [List.getD_eq_getElem?_getD, mapLanes_getElem?, List.getD_eq_getElem?_getD]
  cases w.threads[l]? with
  | none => rfl
  | some t => simp only [Option.map_some, Option.getD_some]; split <;> simp [h]

theorem getLsbD_one_shift (k j : Nat) (hk : k < 64) : (BitVec.ofNat 64 (2 ^ k)).getLsbD j = decide (j = k) := by
  rw [BitVec.getLsbD_ofNat, Nat.testBit_two_pow]
  by_cases h : j = k
  · subst h; simp [hk]
  · have : ¬ k = j := fun e => h e.symm
    simp [h, this]

/-- Writing a register of a crew slot (R192, R194, R196). -/
theorem writeReg_spec (s : State) (r : CrewRef) (k : Nat) (m : Mask) (c : Content) (taint : Mask) (back : Bool)
    (h : s.hasCrew r = true) (hk : k < 64) :
    SameElse s (s.writeReg r k m c taint back) r ∧
      RegWritten (s.crew r) ((s.writeReg r k m c taint back).crew r) k m c taint ∧
      (s.writeReg r k m c taint back).nextId = s.nextId := by
  obtain ⟨h1, h2, h3, h4⟩ := (hasCrew_iff s r).1 h
  obtain ⟨rs, pn, e, hr⟩ := takeCredit_fields (s.crew r) k
  have hc : (s.modCrew r (fun w => w.takeCredit k)).hasCrew r = true := by
    apply modCrew_hasCrew _ _ _ h <;> rw [e] <;> assumption
  have hcrew : (s.modCrew r (fun w => w.takeCredit k)).crew r = { s.crew r with regions := rs, pinned := pn } := by
    rw [crew_modCrew _ _ _ h, e]
  generalize hb : (s.modCrew r (fun w => w.takeCredit k)).sub r.core r.sub = b at *
  have hbc : b.crew r.slot = { s.crew r with regions := rs, pinned := pn } := by
    rw [← hb, ← hcrew]; rfl
  obtain ⟨-, hc2, -⟩ := (hasCrew_iff _ r).1 hc
  rw [hb] at hc2
  obtain ⟨p, hp, w1, w2, w3⟩ := sub_writeReg b r.slot k m c taint back
  have hpc : p.content = mergeLanes m c ((s.crew r).reg k).content := by rw [hp, hbc]; rfl
  have hcrews : ∀ sl, (b.writeReg r.slot k m c taint back).crew sl =
      if sl = r.slot then
        ((({ s.crew r with
            regions := rs, pinned := pn
            map := modifyAt (s.crew r).map k (fun _ => p)
            loads := (s.crew r).loads.map (LoadRec.overtake k m) } : Crew).setTaint k m taint).clearConsume m)
      else b.crew sl := by
    intro sl
    simp only [Sub.crew]
    rw [w1]
    split
    · next hs =>
      subst hs
      rw [modifyAt_getD_same _ _ _ _ hc2]
      have : b.crews.getD r.slot Crew.idle = { s.crew r with regions := rs, pinned := pn } := hbc
      rw [this]
    · next hs => rw [modifyAt_getD_ne _ _ _ _ _ hs]
  refine ⟨?_, ?_, rfl⟩
  · refine SameElse.trans (SameElse.modCrew s r _ h) (SameElse.modSub _ r _ ?_ ?_ ?_ hc)
    · rw [hb]; intro sl hs; rw [hcrews, if_neg hs]
    · rw [hb]; exact w2
    · rw [hb]; exact w3
  · have hv : (s.writeReg r k m c taint back).crew r = (b.writeReg r.slot k m c taint back).crew r.slot := by
      unfold State.writeReg
      rw [crew_modSub _ _ _ hc, hb]
    rw [hv, hcrews, if_pos rfl]
    have kl : k < (s.crew r).map.length := by omega
    refine ⟨⟨rfl, rfl, rfl, rfl, rfl, rfl, rfl, rfl, rfl, rfl, rfl, rfl, rfl⟩, ?_, ?_, ?_, ?_, ?_, ?_, ?_, ?_, ?_, ?_, ?_,
      rfl, rfl, hr, rfl, rfl, rfl, rfl, rfl, rfl, rfl⟩
    · simp [Crew.clearConsume, Crew.setTaint]
    · simp [Crew.clearConsume, Crew.setTaint, Crew.modLanes]
    · simp only [Crew.clearConsume, Crew.setTaint, Crew.modLanes, Crew.reg]
      rw [modifyAt_getD_same _ _ _ _ kl, hpc]; rfl
    · intro j hj
      simp only [Crew.clearConsume, Crew.setTaint, Crew.modLanes, Crew.reg]
      rw [modifyAt_getD_ne _ _ _ _ _ hj]
    all_goals simp only [Crew.clearConsume, Crew.setTaint]
    · intro l
      rw [thread_modLanes_field _ _ _ Thread.pc (by intro _ t; split <;> rfl), thread_modLanes_field _ _ _ Thread.pc (by intros; rfl)]
      rfl
    · intro l
      rw [thread_modLanes_field _ _ _ Thread.preds (by intro _ t; split <;> rfl), thread_modLanes_field _ _ _ Thread.preds (by intros; rfl)]
      rfl
    · intro l
      rw [thread_modLanes_field _ _ _ Thread.run (by intro _ t; split <;> rfl), thread_modLanes_field _ _ _ Thread.run (by intros; rfl)]
      rfl
    · intro l
      rw [thread_modLanes_field _ _ _ Thread.sb (by intro _ t; split <;> rfl), thread_modLanes_field _ _ _ Thread.sb (by intros; rfl)]
      rfl
    · intro l
      rw [thread_modLanes_field _ _ _ Thread.clockHi (by intro _ t; split <;> rfl), thread_modLanes_field _ _ _ Thread.clockHi (by intros; rfl)]
      rfl
    · intro l hl
      rw [thread_modLanes_field _ _ _ (fun t => t.taint.getLsbD k) (by intro _ t; split <;> rfl),
        thread_modLanes _ _ _ _ (by simp [h3, hl])]
      split
      · split
        · next ht => rw [BitVec.getLsbD_or, getLsbD_one_shift k k hk, ht]; simp
        · next ht =>
          rw [BitVec.getLsbD_and, BitVec.getLsbD_not, getLsbD_one_shift k k hk]
          simp only [Bool.not_eq_true] at ht
          simp [ht]
      · rfl
    · intro l j hj
      rw [thread_modLanes_field _ _ _ (fun t => t.taint.getLsbD j) (by intro _ t; split <;> rfl),
        thread_modLanes_field _ _ _ (fun t => t.taint.getLsbD j)]
      · rfl
      · intro l' t
        simp only []
        split
        · rw [BitVec.getLsbD_or, getLsbD_one_shift k j hk]; simp [hj]
        · rw [BitVec.getLsbD_and, BitVec.getLsbD_not, getLsbD_one_shift k j hk]
          by_cases hx : t.taint.getLsbD j = true
          · simp [hj, BitVec.lt_of_getLsbD hx]
          · simp only [Bool.not_eq_true] at hx; rw [hx]; rfl

/-- A register write leaves the crew slot one of the device's. -/
theorem writeReg_hasCrew (s : State) (r : CrewRef) (k : Nat) (m : Mask) (c : Content) (taint : Mask) (back : Bool)
    (h : s.hasCrew r = true) (hk : k < 64) : (s.writeReg r k m c taint back).hasCrew r = true := by
  obtain ⟨h1, h2, h3, h4⟩ := (hasCrew_iff s r).1 h
  obtain ⟨-, b, -⟩ := writeReg_spec s r k m c taint back h hk
  rw [hasCrew_iff]
  refine ⟨?_, ?_, by rw [b.threads, h3], by rw [b.map, h4]⟩
  · unfold State.writeReg; simp [State.modCrew]; exact h1
  · unfold State.writeReg
    rw [sub_modSub _ _ _ _ (by simp [State.modCrew]; exact h1)]
    obtain ⟨p, -, w1, -⟩ := sub_writeReg ((s.modCrew r (fun w => w.takeCredit k)).sub r.core r.sub) r.slot k m c taint back
    rw [w1, modifyAt_length, sub_modCrew _ _ _ h]
    simpa using h2

theorem retiredWith_hasCrew (s : State) (i : Issue) (moves : Bool) (cap : Option (Nat × Latch)) (h : s.hasCrew i.ref = true) :
    (s.retiredWith i moves cap).hasCrew i.ref = true := by
  obtain ⟨h1, h2, h3, h4⟩ := (hasCrew_iff s i.ref).1 h
  have hc := retiredWith_crew s i moves cap h
  obtain ⟨tt, rr, e⟩ := turned_fields (s.crew i.ref) i.part moves
  rw [e] at hc
  rw [hasCrew_iff, hc]
  refine ⟨?_, ?_, h3, h4⟩
  · unfold State.retiredWith
    rw [core_drop, core_spend, show i.core = i.ref.core from rfl, core_modSub]
    simpa using h1
  · unfold State.retiredWith
    rw [sub_drop, sub_spend, show i.core = i.ref.core from rfl, show i.sub = i.ref.sub from rfl, sub_modSub _ _ _ _ h1]
    simp only [Sub.count, Sub.countN, modifyAt_length, (slotIssued_crews _ _ _ _).1]
    exact h2

theorem modCrew_advance_hasCrew (s : State) (r : CrewRef) (m : Mask) (n : Nat) (h : s.hasCrew r = true) :
    (s.modCrew r (fun w => w.advance m n)).hasCrew r = true := by
  obtain ⟨-, -, h3, h4⟩ := (hasCrew_iff s r).1 h
  apply modCrew_hasCrew _ _ _ h
  · simp [Crew.advance, h3]
  · simp [Crew.advance, Crew.modLanes, h4]

theorem produce_hasCrew (s : State) (i : Issue) (f : L64) (part : Mask) (res : Content × Mask) (hit : Bool)
    (h : s.hasCrew i.ref = true) : (s.produce i f part res hit).hasCrew i.ref = true := by
  unfold State.produce
  apply retiredWith_hasCrew
  apply modCrew_advance_hasCrew
  split
  · exact h
  · unfold State.writeDst
    split
    · next hd => exact writeReg_hasCrew _ _ _ _ _ _ _ h hd
    · exact h

theorem advance_thread (w : Crew) (m : Mask) (n l : Nat) (h : l < w.threads.length) :
    (w.advance m n).thread l = if m.getLsbD l then { w.thread l with pc := (w.thread l).pc + BitVec.ofNat 64 n } else w.thread l := by
  unfold Crew.advance; rw [thread_modLanes _ _ _ _ h]

/-- An issue group that advances past its instruction and retires it. -/
theorem retire_spec (s : State) (i : Issue) (moves : Bool) (cap : Option (Nat × Latch)) (h : s.hasCrew i.ref = true) :
    let t := (s.modCrew i.ref (fun w => w.advance i.part i.len)).retiredWith i moves cap
    Retired s t i ∧ SamePreds (s.crew i.ref) (t.crew i.ref) ∧ (∀ k, (t.crew i.ref).reg k = (s.crew i.ref).reg k) ∧
      (∀ l, l < 32 → ((t.crew i.ref).thread l).taint = ((s.crew i.ref).thread l).taint) := by
  intro t
  obtain ⟨h1, h2, h3, h4⟩ := (hasCrew_iff s i.ref).1 h
  have hh : (s.modCrew i.ref (fun w => w.advance i.part i.len)).hasCrew i.ref = true := by
    apply modCrew_hasCrew _ _ _ h
    · simp [Crew.advance, h3]
    · simp [Crew.advance, Crew.modLanes, h4]
  have hc := retiredWith_crew (s.modCrew i.ref (fun w => w.advance i.part i.len)) i moves cap hh
  rw [crew_modCrew _ _ _ h] at hc
  obtain ⟨tt, rr, e⟩ := turned_fields ((s.crew i.ref).advance i.part i.len) i.part moves
  rw [e] at hc
  have th : ∀ l, (t.crew i.ref).thread l = ((s.crew i.ref).advance i.part i.len).thread l := by
    intro l; show Crew.thread _ l = _; rw [hc]; rfl
  have thr : ∀ l, l < 32 → (t.crew i.ref).thread l = if i.part.getLsbD l then { (s.crew i.ref).thread l with pc := ((s.crew i.ref).thread l).pc + BitVec.ofNat 64 i.len } else (s.crew i.ref).thread l := by
    intro l hl; rw [th, advance_thread _ _ _ _ (by omega)]
  refine ⟨⟨rfl, SameElse.trans (SameElse.modCrew s i.ref _ h) (retiredWith_same _ i moves cap hh), ?_, ?_, ?_, ?_, ?_, ?_, ?_, ?_, ?_⟩, ?_, ?_, ?_⟩
  · rw [hc]; exact ⟨rfl, rfl, rfl, rfl, rfl, rfl, rfl, rfl, rfl, rfl, rfl, rfl, rfl⟩
  · rw [hc]; rfl
  · rw [hc]; rfl
  · exact ⟨fun _ => by rw [hc]; rfl, fun h0 => absurd rfl h0⟩
  · rw [hc]; rfl
  · intro l hl; rw [thr l hl]; split <;> rfl
  · intro l hl; rw [thr l hl]; split <;> rfl
  · intro l hl; rw [thr l hl]; simp only [ne_eq, not_true_eq_false, false_and, if_false]; split <;> rfl
  · intro l hl; rw [thr l hl]; split <;> rfl
  · intro l hl; rw [thr l hl]; split <;> rfl
  · intro k; rw [hc]; rfl
  · intro l hl; rw [thr l hl]; split <;> rfl

/-- A result is written to its destination and its latch, and its instruction retires (R192, R208). -/
theorem produce_spec (s : State) (i : Issue) (f : L64) (part : Mask) (res : Content × Mask) (hit : Bool)
    (h : s.hasCrew i.ref = true) :
    let t := s.produce i f part res hit
    Retired s t i ∧ t.nextId = s.nextId ∧ SamePreds (s.crew i.ref) (t.crew i.ref) ∧
      OneReg (s.crew i.ref) (t.crew i.ref) (if f.nwb == 1 then 67 else f.d.toNat) part (fun l => lane res.1 l) ∧
      (f.nwb = 0 → f.d.toNat < 64 → ∀ l, l < 32 → part.getLsbD l = true →
        ((t.crew i.ref).thread l).taint.getLsbD f.d.toNat = res.2.getLsbD l) := by
  intro t
  obtain ⟨h1, h2, h3, h4⟩ := (hasCrew_iff s i.ref).1 h
  generalize hs1 : (if f.nwb == 1 || part == 0 then s else s.writeDst i.ref f.d.toNat part res.1 (res.2 &&& part) (!hit)) = s1
  have hw : s1.nextId = s.nextId ∧ SameElse s s1 i.ref ∧ CrewSame (s.crew i.ref) (s1.crew i.ref) ∧ s1.hasCrew i.ref = true ∧
      (s1.crew i.ref).resumeAt = (s.crew i.ref).resumeAt ∧ (s1.crew i.ref).retired = (s.crew i.ref).retired ∧
      (s1.crew i.ref).setters = (s.crew i.ref).setters ∧
      (s1.crew i.ref).regions.map (fun g => { g with credits := [] }) = (s.crew i.ref).regions.map (fun g => { g with credits := [] }) ∧
      (∀ l, ((s1.crew i.ref).thread l).pc = ((s.crew i.ref).thread l).pc) ∧
      (∀ l, ((s1.crew i.ref).thread l).run = ((s.crew i.ref).thread l).run) ∧
      (∀ l, ((s1.crew i.ref).thread l).sb = ((s.crew i.ref).thread l).sb) ∧
      (∀ l, ((s1.crew i.ref).thread l).clockHi = ((s.crew i.ref).thread l).clockHi) ∧
      (∀ l, ((s1.crew i.ref).thread l).preds = ((s.crew i.ref).thread l).preds) ∧
      OneReg (s.crew i.ref) (s1.crew i.ref) (if f.nwb == 1 then 67 else f.d.toNat) part (fun l => lane res.1 l) ∧
      (f.nwb = 0 → f.d.toNat < 64 → ∀ l, l < 32 → part.getLsbD l = true →
        ((s1.crew i.ref).thread l).taint.getLsbD f.d.toNat = res.2.getLsbD l) := by
    subst hs1
    split
    · next hc =>
      refine ⟨rfl, SameElse.refl _ _, CrewSame.refl _, h, rfl, rfl, rfl, rfl, fun _ => rfl, fun _ => rfl, fun _ => rfl, fun _ => rfl, fun _ => rfl, ⟨?_, fun _ _ => rfl, fun _ _ _ _ => rfl⟩, ?_⟩
      · intro hd l hl
        simp only [Bool.or_eq_true, beq_iff_eq] at hc
        rcases hc with hc | hc
        · rw [hc] at hd; simp at hd
        · subst hc; simp
      · intro hn _ l _ hp
        simp only [hn, Bool.or_eq_true, beq_iff_eq] at hc
        rcases hc with hc | hc
        · simp at hc
        · subst hc; simp at hp
    · next hc =>
      simp only [Bool.or_eq_true, beq_iff_eq, not_or] at hc
      unfold State.writeDst
      split
      · next hd =>
        obtain ⟨a, b, n⟩ := writeReg_spec s i.ref f.d.toNat part res.1 (res.2 &&& part) (!hit) h hd
        have hcrew := writeReg_hasCrew s i.ref f.d.toNat part res.1 (res.2 &&& part) (!hit) h hd
        have e : (if (f.nwb == 1) = true then 67 else f.d.toNat) = f.d.toNat := by rw [if_neg]; simpa using hc.1
        rw [e]
        refine ⟨n, a, b.same, hcrew, b.resumeAt, b.retired, b.setters, b.regions, b.pc, b.run, b.sb, b.clockHi, b.preds, ⟨?_, b.others, ?_⟩, ?_⟩
        · intro _ l hl; rw [b.content, lane_mergeLanes _ _ _ _ hl]
        · intro l k _ hk; exact b.taints l k hk
        · intro _ _ l hl hp; rw [b.tainted l hl, if_pos hp]; simp [hp]
      · next hd =>
        refine ⟨rfl, SameElse.refl _ _, CrewSame.refl _, h, rfl, rfl, rfl, rfl, fun _ => rfl, fun _ => rfl, fun _ => rfl, fun _ => rfl, fun _ => rfl, ⟨?_, fun _ _ => rfl, fun _ _ _ _ => rfl⟩, ?_⟩
        · intro hd'; exfalso; revert hd'; split <;> omega
        · intro _ hd'; omega
  obtain ⟨w0, w1, w2, w3, w4, w5, w6, w7, w8, w9, w10, w11, w12, w13, w14⟩ := hw
  have ht : ∃ cap, t = (s1.modCrew i.ref (fun w => w.advance i.part i.len)).retiredWith i false cap := by
    subst hs1; exact ⟨_, rfl⟩
  obtain ⟨cap, ht⟩ := ht
  obtain ⟨r1, r2, r3, r4⟩ := retire_spec s1 i false cap w3
  rw [ht]
  refine ⟨⟨r1.issue, w1.trans r1.elsewhere, w2.trans r1.crew, r1.resumeAt.trans w4, by rw [r1.retired, w5],
    ⟨fun _ => (r1.setters.1 (Or.inl rfl)).trans w6, fun h0 => absurd rfl h0⟩,
    r1.regions.trans w7, fun l hl => by rw [r1.pc l hl, w8], fun l hl => (r1.run l hl).trans (w9 l),
    fun l hl => by rw [r1.sb l hl, if_neg (fun x => x.1 rfl), if_neg (fun x => x.1 rfl), w10],
    fun l hl => (r1.clockHi l hl).trans (w11 l)⟩, w0, fun l hl => (r2 l hl).trans (w12 l), ⟨?_, ?_, ?_⟩, ?_⟩
  · intro hd l hl; rw [r3]; exact w13.dest hd l hl
  · intro k hk; rw [r3]; exact w13.others k hk
  · intro l k hl hk; rw [r4 l hl]; exact w13.taints l k hl hk
  · intro hn hd l hl hp; rw [r4 l hl]; exact w14 hn hd l hl hp

/-- A change of a sub-core that leaves its crews alone leaves the crew slot one of the device's. -/
theorem modSub_hasCrew (s : State) (r : CrewRef) (f : Sub → Sub) (h : s.hasCrew r = true)
    (hf : (f (s.sub r.core r.sub)).crews = (s.sub r.core r.sub).crews) : (s.modSub r.core r.sub f).hasCrew r = true := by
  obtain ⟨h1, h2, h3, h4⟩ := (hasCrew_iff s r).1 h
  rw [hasCrew_iff, crew_modSub _ _ _ h, sub_modSub _ _ _ _ h1, Sub.crew, hf]
  exact ⟨by simpa using h1, h2, h3, h4⟩

/-- The transposition table's upkeep changes no crew (R202). -/
theorem memoize_spec (s : State) (i : Issue) (key : Option XEntry) (hit : Bool) (d : Option Nat) (ds : List Nat)
    (h : s.hasCrew i.ref = true) :
    SameElse s (s.memoize i key hit d ds) i.ref ∧ (s.memoize i key hit d ds).crew i.ref = s.crew i.ref ∧
      (s.memoize i key hit d ds).issue = s.issue ∧ (s.memoize i key hit d ds).nextId = s.nextId ∧
      (s.memoize i key hit d ds).hasCrew i.ref = true := by
  unfold State.memoize
  cases key with
  | none => exact ⟨SameElse.refl _ _, rfl, rfl, rfl, h⟩
  | some k =>
    simp only []
    have hf : ∀ (b c : Sub), c = (if hit then ((b.touchKey k).hitReady i.slot ds s.cycle).count 0
        else match d.bind (fun x => ((b.crew i.slot).reg x).name) with
          | some n => ((b.count 1).insert { k with result := n }).purge
          | none => b.count 1) → c.crews = b.crews ∧ c.keep = b.keep ∧ c.blocks = b.blocks := by
      intro b c hcb
      subst hcb
      split
      · exact ⟨rfl, rfl, rfl⟩
      · split
        · unfold Sub.insert Sub.purge; simp only []; split <;> exact ⟨rfl, rfl, rfl⟩
        · exact ⟨rfl, rfl, rfl⟩
    refine ⟨SameElse.modSub s i.ref _ (fun k' hk => ?_) (hf _ _ rfl).2.1 (hf _ _ rfl).2.2 h, ?_, rfl, rfl, ?_⟩
    · exact congrArg (fun z : List Crew => z.getD k' Crew.idle) (hf _ _ rfl).1
    · rw [show i.core = i.ref.core from rfl, show i.sub = i.ref.sub from rfl, crew_modSub _ _ _ h]
      exact congrArg (fun z : List Crew => z.getD i.ref.slot Crew.idle) (hf (s.sub i.ref.core i.ref.sub) _ rfl).1
    · exact modSub_hasCrew s i.ref _ h (hf (s.sub i.ref.core i.ref.sub) _ rfl).1

/-- The slot that a retired instruction sets rises in the threads of its group (R106, R211). -/
theorem sets_spec (s t : State) (i : Issue) (slot : Nat) (m : Mask) (n : Nat) (r : Retired s t i) (hc : t.hasCrew i.ref = true)
    (hn : t.nextId = s.nextId) :
    Retired s (t.sets i slot m n) i slot m ∧ (∀ k, ((t.sets i slot m n).crew i.ref).reg k = (t.crew i.ref).reg k) ∧
      ∀ l, l < 32 → (((t.sets i slot m n).crew i.ref).thread l).preds = ((t.crew i.ref).thread l).preds ∧
        (((t.sets i slot m n).crew i.ref).thread l).taint = ((t.crew i.ref).thread l).taint := by
  by_cases hs : slot = 0 ∨ m = 0
  · have e : t.sets i slot m n = t := by
      unfold State.sets
      rcases hs with hs | hs <;> simp [hs]
    rw [e]
    refine ⟨⟨r.issue, r.elsewhere, r.crew, r.resumeAt, r.retired, ⟨fun _ => r.setters.1 (Or.inl rfl), fun a b => ?_⟩,
      r.regions, r.pc, r.run, fun l hl => ?_, r.clockHi⟩, fun _ => rfl, fun _ _ => ⟨rfl, rfl⟩⟩
    · rcases hs with hs | hs <;> contradiction
    · rw [r.sb l hl, if_neg (fun x => x.1 rfl), if_neg]
      rintro ⟨a, b, -⟩
      rcases hs with hs | hs <;> contradiction
  · simp only [not_or] at hs
    obtain ⟨h1, h2⟩ := hs
    obtain ⟨-, -, h3, -⟩ := (hasCrew_iff t i.ref).1 hc
    have e : t.sets i slot m n = (t.fresh.2).modCrew i.ref (fun w => w.addTimed t.nextId slot i.part (t.cycle + n)) := by
      unfold State.sets
      rw [if_neg]
      simp only [Bool.or_eq_true, beq_iff_eq, not_or]
      exact ⟨h1, h2⟩
    have hc' : (t.fresh.2).hasCrew i.ref = true := hc
    have hw : (t.sets i slot m n).crew i.ref = (t.crew i.ref).addTimed t.nextId slot i.part (t.cycle + n) := by
      rw [e, crew_modCrew _ _ _ hc']; rfl
    have hv : (t.crew i.ref).addTimed t.nextId slot i.part (t.cycle + n) =
        { (t.crew i.ref).modLanes i.part (fun _ t => { t with sb := modifyAt t.sb (slot - 1) (· + 1) }) with
          setters := (t.crew i.ref).setters ++
            [{ id := t.nextId, slot := slot, lanes := i.part, left := 1, due := some (t.cycle + n) }] } := by
      simp [Crew.addTimed, Crew.raise, h1]
    rw [hv] at hw
    have th : ∀ l, l < 32 → ((t.sets i slot m n).crew i.ref).thread l = if i.part.getLsbD l then
        { (t.crew i.ref).thread l with sb := modifyAt ((t.crew i.ref).thread l).sb (slot - 1) (· + 1) }
        else (t.crew i.ref).thread l := by
      intro l hl
      rw [hw]
      exact thread_modLanes (t.crew i.ref) i.part _ l (by omega)
    refine ⟨⟨?_, ?_, ?_, ?_, ?_, ⟨?_, ?_⟩, ?_, ?_, ?_, ?_, ?_⟩, ?_, ?_⟩
    · rw [e]; exact r.issue
    · rw [e]; exact r.elsewhere.trans ((SameElse.fresh t i.ref).trans (SameElse.modCrew _ i.ref _ hc'))
    · refine r.crew.trans ?_
      rw [hw]; exact ⟨rfl, rfl, rfl, rfl, rfl, rfl, rfl, rfl, rfl, rfl, rfl, rfl, rfl⟩
    · rw [hw]; exact r.resumeAt
    · rw [hw]; exact r.retired
    · rintro (a | a) <;> contradiction
    · intro _ _
      refine ⟨n, ?_⟩
      rw [hw, ← hn, ← r.elsewhere.cycle, ← r.setters.1 (Or.inl rfl)]
    · rw [hw]; exact r.regions
    · intro l hl; rw [th l hl, ← r.pc l hl]; split <;> rfl
    · intro l hl; rw [th l hl, ← r.run l hl]; split <;> rfl
    · intro l hl
      have := r.sb l hl
      rw [if_neg (fun x => x.1 rfl)] at this
      rw [th l hl, ← this]
      by_cases hp : i.part.getLsbD l = true
      · rw [if_pos hp, if_pos ⟨h1, h2, hp⟩]
      · rw [if_neg hp, if_neg (fun x => hp x.2.2)]
    · intro l hl; rw [th l hl, ← r.clockHi l hl]; split <;> rfl
    · intro k; rw [hw]; rfl
    · intro l hl; rw [th l hl]; split <;> exact ⟨rfl, rfl⟩

/-- The upkeep of the transposition table after an instruction has retired, and the slot that it sets (R202, R211). -/
theorem memoize_sets_spec (s s1 : State) (i : Issue) (key : Option XEntry) (hit : Bool) (d : Option Nat) (ds : List Nat)
    (slot : Nat) (m : Mask) (n : Nat) (r : Retired s s1 i) (hn : s1.nextId = s.nextId) (hc : s1.hasCrew i.ref = true) :
    let t := (s1.memoize i key hit d ds).sets i slot m n
    Retired s t i slot m ∧ (∀ k, (t.crew i.ref).reg k = (s1.crew i.ref).reg k) ∧
      ∀ l, l < 32 → ((t.crew i.ref).thread l).preds = ((s1.crew i.ref).thread l).preds ∧
        ((t.crew i.ref).thread l).taint = ((s1.crew i.ref).thread l).taint := by
  intro t
  obtain ⟨m1, m2, m3, m4, mc⟩ := memoize_spec s1 i key hit d ds hc
  have mr : Retired s (s1.memoize i key hit d ds) i := by
    refine ⟨m3.trans r.issue, r.elsewhere.trans m1, ?_, ?_, ?_, ?_, ?_, ?_, ?_, ?_, ?_⟩ <;> rw [m2]
    · exact r.crew
    · exact r.resumeAt
    · exact r.retired
    · exact r.setters
    · exact r.regions
    · exact r.pc
    · exact r.run
    · exact r.sb
    · exact r.clockHi
  obtain ⟨q1, q2, q3⟩ := sets_spec s _ i slot m n mr mc (m4.trans hn)
  exact ⟨q1, fun k => by rw [q2, m2], fun l hl => by rw [(q3 l hl).1, (q3 l hl).2, m2]; exact ⟨rfl, rfl⟩⟩

/-- A content that the transposition table gives instead of a computed one (R202). -/
theorem memoized_eq (s : State) (i : Issue) (key : Option XEntry) (c : Content) :
    s.memoized i key c = (key.bind (fun k => (s.sub i.core i.sub).hit k s.cycle)).getD c := by
  cases key <;> rfl

/-- A register instruction that may execute and whose sources can be read: its destination's effective lanes take the result,
or what the transposition table holds, and the slot that it sets rises; nothing else is written (R192, R202, R211, R243). -/
theorem alu_spec (s : State) (i : Issue) (op : BitVec 7) (f : L64) (ua ub uc memo : Bool) (g : Srcs → Content × Mask) (lat : Nat)
    (x : Srcs)
    (h : s.issues i (lNeeds f (f.d.toNat :: ((if ua then [f.a.toNat] else []) ++ (if ub then [f.b.toNat] else []) ++
      (if uc then [f.c.toNat] else []))) (if f.nwb == 1 then [] else [f.d.toNat])) = true)
    (hx : s.sources i f ua ub uc = .ok x) :
    let hit := (if memo then s.memoKey i (lKeyWord op f ua ub uc) ((if ua then [f.a.toNat] else []) ++
        (if ub then [f.b.toNat] else []) ++ (if uc then [f.c.toNat] else [])) f.d.toNat x.part none
      else none).bind (fun k => (s.sub i.core i.sub).hit k s.cycle)
    ∃ t, s.alu op f ua ub uc memo g lat = .next t ∧ Retired s t i (slotOf f.sbs) x.part ∧
      SamePreds (s.crew i.ref) (t.crew i.ref) ∧
      OneReg (s.crew i.ref) (t.crew i.ref) (if f.nwb == 1 then 67 else f.d.toNat) x.part
        (fun l => lane (hit.getD (g x).1) l) ∧
      (f.nwb = 0 → f.d.toNat < 64 → ∀ l, l < 32 → x.part.getLsbD l = true →
        ((t.crew i.ref).thread l).taint.getLsbD f.d.toNat = (g x).2.getLsbD l) := by
  intro hit
  have hc := issues_hasCrew h
  unfold State.alu
  simp only []
  rw [issueWith_ok _ h]
  simp only [hx]
  refine ⟨_, rfl, ?_⟩
  rw [memoized_eq]
  generalize hk : (if memo then s.memoKey i (lKeyWord op f ua ub uc) ((if ua then [f.a.toNat] else []) ++
    (if ub then [f.b.toNat] else []) ++ (if uc then [f.c.toNat] else [])) f.d.toNat x.part none else none) = key at *
  have hh : (key.bind fun k => (s.sub i.core i.sub).hit k s.cycle) = hit := by rw [← hk]
  rw [hh]
  clear_value hit
  obtain ⟨p1, p2, p3, p4, p5⟩ := produce_spec s i f x.part (hit.getD (g x).1, (g x).2) hit.isSome hc
  have pc := produce_hasCrew s i f x.part (hit.getD (g x).1, (g x).2) hit.isSome hc
  generalize hs1 : s.produce i f x.part (hit.getD (g x).1, (g x).2) hit.isSome = s1 at *
  obtain ⟨q1, q2, q3⟩ := memoize_sets_spec s s1 i key hit.isSome (if f.nwb == 1 then none else some f.d.toNat) (resultPlaces f)
    (slotOf f.sbs) x.part (if hit.isSome then 2 else lat) p1 p2 pc
  refine ⟨q1, fun l hl => ?_, ⟨fun hd l hl => ?_, fun k hkd => ?_, fun l k hl hkd => ?_⟩, fun hn hd l hl hp => ?_⟩
  · rw [(q3 l hl).1]; exact p3 l hl
  · rw [q2]; exact p4.dest hd l hl
  · rw [q2]; exact p4.others k hkd
  · rw [(q3 l hl).2]; exact p4.taints l k hl hkd
  · rw [(q3 l hl).2]; exact p5 hn hd l hl hp

/-- An immediate instruction that may execute and whose source can be read (R192, R202, R211, R243). -/
theorem aluK_spec (s : State) (i : Issue) (op : BitVec 7) (f : K64) (ua memo : Bool) (g : Word → Word) (x : Content × Mask)
    (h : s.issues i (kNeeds f (f.d.toNat :: (if ua then [f.a.toNat] else [])) [f.d.toNat]) = true)
    (hx : s.operandIf i ua f.a.toNat = .ok x) :
    let part := (s.crew i.ref).effective i.part f.pred.toNat (f.pn == 1)
    let hit := (if memo then s.memoKey i (kKeyWord op f ua) (if ua then [f.a.toNat] else []) f.d.toNat part none
      else none).bind (fun k => (s.sub i.core i.sub).hit k s.cycle)
    ∃ t, s.aluK op f ua memo g = .next t ∧ Retired s t i (slotOf f.sbs) part ∧ SamePreds (s.crew i.ref) (t.crew i.ref) ∧
      OneReg (s.crew i.ref) (t.crew i.ref) f.d.toNat part
        (fun l => lane (hit.getD (contentOf (fun l => g (lane x.1 l)))) l) ∧
      (f.d.toNat < 64 → ∀ l, l < 32 → part.getLsbD l = true →
        ((t.crew i.ref).thread l).taint.getLsbD f.d.toNat = x.2.getLsbD l) := by
  intro part hit
  have hc := issues_hasCrew h
  unfold State.aluK
  simp only []
  rw [issueWith_ok _ h]
  simp only [hx]
  refine ⟨_, rfl, ?_⟩
  rw [memoized_eq]
  generalize hk : (if memo then s.memoKey i (kKeyWord op f ua) (if ua then [f.a.toNat] else []) f.d.toNat
    ((s.crew i.ref).effective i.part f.pred.toNat (f.pn == 1)) none else none) = key at *
  have hh : (key.bind fun k => (s.sub i.core i.sub).hit k s.cycle) = hit := by rw [← hk]
  rw [hh]
  clear_value hit
  let f' : L64 := { L64.neutral with d := f.d }
  let c := hit.getD (contentOf (fun l => g (lane x.1 l)))
  have e : ((if part == 0 then s else s.writeDst i.ref f.d.toNat part c (x.2 &&& part) (!hit.isSome)).retire i false) =
      s.produce i f' part (c, x.2) hit.isSome := by
    by_cases hp : part == 0 <;> simp [State.produce, State.retire, State.retired, f', L64.neutral, hp]
  obtain ⟨p1, p2, p3, p4, p5⟩ := produce_spec s i f' part (c, x.2) hit.isSome hc
  have pc := produce_hasCrew s i f' part (c, x.2) hit.isSome hc
  rw [← e] at p1 p2 p3 p4 p5 pc
  obtain ⟨q1, q2, q3⟩ := memoize_sets_spec s _ i key hit.isSome (some f.d.toNat) [f.d.toNat] (slotOf f.sbs) part
    (if hit.isSome then 2 else 4) p1 p2 pc
  refine ⟨q1, fun l hl => ?_, ⟨fun hd l hl => ?_, fun k hkd => ?_, fun l k hl hkd => ?_⟩, fun hd l hl hp => ?_⟩
  · exact (q3 l hl).1.trans (p3 l hl)
  · rw [q2]; exact p4.dest hd l hl
  · exact (q2 k).trans (p4.others k hkd)
  · exact (congrArg (fun y => y.getLsbD k) (q3 l hl).2).trans (p4.taints l k hl hkd)
  · exact (congrArg (fun y => y.getLsbD f.d.toNat) (q3 l hl).2).trans (p5 rfl hd l hl hp)

end Sys2Proof.Machine
end

