-- ==== Sys2Proof/Tests/Slice0.lean ====
section
/-! SUPPORT. The model's own tests: ill-formed terms that the checks refuse, words written out from the spec's encodings,
results of the spec's own examples, and a witness for the hypotheses of every statement. -/

namespace Sys2Proof.Tests

open Sys2Proof Sys2Proof.Machine Sys2Proof.Claims

set_option maxRecDepth 100000
set_option Elab.async false

/-! ### Small states -/

/-- The issue group of all lanes of core 0's first crew, at the placed code. -/
def grp : Issue :=
  { core := 0, sub := 0, slot := 0, part := BitVec.allOnes 32, pc := BitVec.ofNat 64 placePc, len := 8, word := 3 }

/-- The placed state whose group has been chosen and fetched. -/
def base : State := { State.reset.place 0 with issue := some grp }

/-- A register of the crew set to one word in every lane. -/
def put (k : Nat) (x : Word) (s : State) : State :=
  s.modCrew grp.ref (fun w => { w with map := modifyAt w.map k (fun p => { p with content := sameWord x }) })

/-- A register of the crew set to a word for each lane. -/
def putLanes (k : Nat) (g : Nat → Word) (s : State) : State :=
  s.modCrew grp.ref (fun w => { w with map := modifyAt w.map k (fun p => { p with content := contentOf g }) })

/-- A register instruction G3, G4, G5, G6. -/
def fl : L64 := { L64.neutral with d := 3, a := 4, b := 5, c := 6 }
/-- A register instruction in its short form, G3, G4, G5. -/
def fs : S32 := { mod := 0, gb := 5, ga := 4, gd := 3 }
/-- A compact instruction G3, G9. -/
def fc : C16 := { gs := 9, gd := 3 }
/-- An immediate instruction G3, G4, #5. -/
def fk : K64 := { K64.neutral with imm := 5, a := 4, d := 3 }
/-- An immediate instruction in its short form, G3, G4, #-1. -/
def fi : I32 := { imm := 0x7FF, ga := 4, gd := 3 }
/-- A branch of 8 bytes ahead. -/
def fj : J32 := { off := 4, pn := 0, pred := 31 }
/-- A memory instruction G6, [G10 + 0x40], words. -/
def fm : M64 := { off := 0x40, sx := 0, hint := 0, scope := 0, ord := 0, sz := 2, sbw := 0, sbs := 0, pn := 0, pred := 31, a := 10, d := 6 }

/-- The result of a step is a next state that passes a test. -/
def next (o : Host.Outcome State Fault Refusal) (p : State → Bool) : Bool :=
  match o with
  | .next t => p t
  | _ => false

/-- A lane of a register of the crew. -/
def reg (t : State) (k l : Nat) : Word := lane ((t.crew grp.ref).reg k).content l

/-! ### Ill-formed terms -/

theorem test_unused_field_holds_67 : (Instr.iabs { fl with b := 5, c := 0 }).illegal = some .field := by decide +kernel
theorem test_modifier_not_assigned : (Instr.iadd { fl with c := 1 }).illegal = some .field := by decide +kernel
theorem test_mode_not_assigned : (Instr.iadd { fl with c := 0, mx := 1 }).illegal = some .field := by decide +kernel
theorem test_scoreboard_field : (Instr.iadd { fl with c := 0, sbs := 7 }).illegal = some .field := by decide +kernel
theorem test_nwb_without_hold : (Instr.iadd { fl with c := 0, nwb := 1 }).illegal = some .field := by decide +kernel
theorem test_hold_where_no_result : (Instr.jr { L64.neutral with a := 4, hold := 0 }).illegal = some .field := by decide +kernel
theorem test_broadcast_lane_alone : (Instr.iadd { fl with c := 0, bln := 1 }).illegal = some .field := by decide +kernel
theorem test_broadcast_of_an_engine : (Instr.tmac { L64.neutral with a := 4, bcm := 1 }).illegal = some .field := by decide +kernel
theorem test_selector_68 : (Instr.iadd { fl with c := 0, b := 68 }).illegal = some .selector := by decide +kernel
theorem test_destination_latch : (Instr.iadd { fl with c := 0, d := 64 }).illegal = some .selector := by decide +kernel
theorem test_odd_pair : (Instr.jr { L64.neutral with a := 5 }).illegal = some .regGroup := by decide +kernel
theorem test_engine_register_latch : (Instr.tmac { L64.neutral with a := 64 }).illegal = some .field := by decide +kernel
theorem test_load_group_alignment : (Instr.ld { fm with sz := 3, d := 7 }).illegal = some .regGroup := by decide +kernel
theorem test_size_not_assigned : (Instr.ld { fm with sz := 6 }).illegal = some .field := by decide +kernel
theorem test_special_not_assigned : (Instr.sread { fk with a := 67, imm := 0x3FF }).illegal = some .special := by decide +kernel
theorem test_wide_special_odd : (Instr.sread { fk with a := 67, imm := 0x020 }).illegal = some .regGroup := by decide +kernel
theorem test_atomic_function : (Instr.atom { fm with off := 0x0A, sz := 3 }).illegal = some .field := by decide +kernel
theorem test_wopen_op_3 : (Instr.wopen { L64.neutral with a := 4, mx := 3 }).illegal = some .field := by decide +kernel
theorem test_short_length_is_well_formed : (Instr.iaddS32 fs).wellFormed = true := by decide +kernel
theorem test_short_modifier : (Instr.iaddS32 { fs with mod := 4 }).illegal = some .field := by decide +kernel

/-! ### Words written out from the encodings -/

/-- The bytes of a word decode to an instruction, which takes all of them. -/
def reads (n w : Nat) (i : Instr) : Bool :=
  match decode (toBytes n w) with
  | .ok x => x.1 == i && x.2 == n
  | .error _ => false

/-- The bytes of a word are refused with a cause. -/
def refuses (n w : Nat) (c : IllegalCause) : Bool :=
  match decode (toBytes n w) with
  | .ok _ => false
  | .error d => d == c

/-- IADD G3, G3, G9 in its compact form: 0x0002 + 0x0060 + 0x2400 (the example of R230). -/
theorem test_decode_compact : reads 2 0x2462 (.iaddC16 { gs := 9, gd := 3 }) = true := by decide +kernel
/-- A compact word with bit 15 set (R215). -/
theorem test_decode_compact_bit15 : refuses 2 0xA462 .compact = true := by decide +kernel
/-- XOR G3, G4, G5 in 32 bits: OP 0x0C at bit 2, G3 at 9, G4 at 15, G5 at 21 (R216). -/
theorem test_decode_integer : reads 4 (1 + 0x0C * 4 + 3 * 0x200 + 4 * 0x8000 + 5 * 0x200000) (.xorS32 fs) = true := by decide +kernel
/-- The word of the spec's FFMA example (R219). -/
theorem test_decode_float : reads 8 0x4F12C8700101088B (.ffma {
    mx := 1, bln := 7, bcm := 2, sbw := 9, sbs := 3, nwb := 0, hold := 1, pn := 0, pred := 3, c := 64, b := 2, a := 1, d := 4 }) = true := by decide +kernel
/-- CVT.BF16.F32 G5, G4, G9 in 32 bits (the example of R264). -/
theorem test_decode_convert : reads 4 0x21220AC1 (.cvtS32 { mod := 4, gb := 9, ga := 4, gd := 5 }) = true := by decide +kernel
/-- MOVI G3, #0xDEADBEEF: OP 0x4A, D 3, A 67, PRED 31, IMM32 at bit 32 (R220). -/
theorem test_decode_move : reads 8 (3 + 0x4A * 4 + 3 * 0x200 + 67 * 0x10000 + 31 * 0x800000 + 0xDEADBEEF * 2 ^ 32) (.movi { K64.neutral with imm := 0xDEADBEEF, d := 3 }) = true := by decide +kernel
/-- BR in 32 bits, four half-words on, predicated on P2 false: OP 0x50, P2 at bit 9, PN at 14, OFF17 at 15 (R218). -/
theorem test_decode_branch : reads 4 (1 + 0x50 * 4 + 2 * 0x200 + 0x4000 + 4 * 0x8000) (.brJ32 { off := 4, pn := 1, pred := 2 }) = true := by decide +kernel
/-- NOP in 32 bits: every field but the opcode zero (R224). -/
theorem test_decode_nop : reads 4 (1 + 0x56 * 4) (.nopS32) = true := by decide +kernel
/-- TRY.CREW G20 with fail 0x80 bytes on (the example of R290). -/
theorem test_decode_try : reads 8 0x000000810FC32967 (.tryGambit { imm := 0x81, sbs := 0, pn := 0, pred := 31, a := 67, d := 20 }) = true := by decide +kernel
/-- LD.W G6, [G10 + 0x40] that sets slot 1 (the example of R307). -/
theorem test_decode_load : reads 8 0x004000804F8A0D83 (.ld { fm with sbs := 2 }) = true := by decide +kernel
/-- BARW [G4 + 8], G5: OP 0x6E, D 5, A 4, PRED 31, OFF16 8 (R221). -/
theorem test_decode_barrier : reads 8 (3 + 0x6E * 4 + 5 * 0x200 + 4 * 0x10000 + 31 * 0x800000 + 8 * 2 ^ 48) (.barw { fm with off := 8, sz := 0, a := 4, d := 5 }) = true := by decide +kernel
/-- CPY.TL1 (the example of R342). -/
theorem test_decode_engine : reads 8 0x40005BE1829629C3 (.cpy {
    mx := 1, bln := 0, bcm := 0, sbw := 0, sbs := 1, nwb := 0, hold := 3, pn := 0, pred := 31, c := 6, b := 5, a := 22, d := 20 }) = true := by decide +kernel
/-- CIRC with MX 2 is CIRC.REL: its circuit in A, every other selector 67 (R380). -/
theorem test_decode_circuit : reads 8 (3 + 0x7E * 4 + 67 * 0x200 + 4 * 0x10000 + 67 * 0x800000 + 67 * 2 ^ 30 +
    31 * 2 ^ 37 + 3 * 2 ^ 43 + 2 * 2 ^ 62) (.circRel { L64.neutral with c := 67, a := 4, mx := 2 }) = true := by decide +kernel
/-- A reserved opcode in 64 bits (R229). -/
theorem test_decode_reserved : reads 8 (3 + 0x1B * 4) (.reservedOpcode 0x1B true) = true := by decide +kernel
/-- FFMA has no 32-bit form (R229). -/
theorem test_decode_form : refuses 4 (1 + 0x22 * 4) .form = true := by decide +kernel

/-! ### Results of the spec's examples -/

/-- IDOT4.SS of the example of R248. -/
theorem test_idot4 : next (exec (.idot4 { fl with mx := 3 }) (put 6 10 (put 5 0x0201FF04 (put 4 0x80FF0203 base))))
    (fun t => reg t 3 0 == 0xFFFFFF13 && reg t 3 31 == 0xFFFFFF13) = true := by decide +kernel
/-- IDOT4.UU of the example of R248. -/
theorem test_idot4_unsigned : next (exec (.idot4 fl) (put 6 10 (put 5 0x0201FF04 (put 4 0x80FF0203 base))))
    (fun t => reg t 3 7 == 0x413) = true := by decide +kernel
/-- LOGI with table 4 is a AND NOT b (R249). -/
theorem test_logi : next (exec (.logi { fl with c := 1, mx := 0 }) (put 5 0x0FF00FF0 (put 4 0xFFFF0000 base)))
    (fun t => reg t 3 0 == 0xF00F0000) = true := by decide +kernel
/-- SFN.RSQ of 4.0 is exactly 0.5 (the example of R259). -/
theorem test_sfn : next (exec (.sfn { fl with b := 67, c := 1 }) (put 4 0x40800000 base))
    (fun t => reg t 3 0 == 0x3F000000) = true := by decide +kernel
/-- The FP32 word 0x3F80_8000 converts to BF16 in RN as 0x3F80, and 0x3F81_8000 as 0x3F82 (the example of R139). -/
theorem test_round_bf16 : bf16.round .rn (fp32.decode 0x3F808000) = 0x3F80 ∧ bf16.round .rn (fp32.decode 0x3F818000) = 0x3F82 ∧
    bf16.round .ru (fp32.decode 0x3F808000) = 0x3F81 := by decide +kernel
/-- LXCH.XOR with 1: lane 4 receives lane 5's 50, lane 5 lane 4's 40 (the example of R276). -/
theorem test_lxch : next (exec (.lxch { fl with c := 3 }) (put 5 1 (putLanes 4 (fun l => BitVec.ofNat 32 (10 * l)) base)))
    (fun t => reg t 3 4 == 50 && reg t 3 5 == 40) = true := by decide +kernel
/-- IADD wraps, and only its destination changes (R246). -/
theorem test_iadd : next (exec (.iadd { fl with c := 0 }) (put 5 2 (put 4 0xFFFFFFFF base)))
    (fun t => reg t 3 31 == 1 && reg t 4 0 == 0xFFFFFFFF && reg t 5 0 == 2) = true := by decide +kernel
/-- ISUB takes B from A (R246). -/
theorem test_isub : next (exec (.isub { fl with c := 0 }) (put 5 2 (put 4 7 base))) (fun t => reg t 3 0 == 5) = true := by decide +kernel
/-- SHR.S copies the sign (R250). -/
theorem test_shr : next (exec (.shr { fl with c := 1 }) (put 5 40 (put 4 0x80000000 base)))
    (fun t => reg t 3 0 == 0xFFFFFFFF) = true := by decide +kernel
/-- BR of 0x40 bytes (R286). -/
theorem test_br : next (exec (.br { K64.neutral with imm := 0x40 }) base)
    (fun t => ((t.crew grp.ref).thread 0).pc == BitVec.ofNat 64 (placePc + 0x40)) = true := by decide +kernel
/-- CALL writes the return address to its pair (R287). -/
theorem test_call : next (exec (.call { K64.neutral with imm := 0x40, d := 30 }) base)
    (fun t => reg t 30 0 == BitVec.ofNat 32 (placePc + 8) && reg t 31 0 == 0) = true := by decide +kernel
/-- A page fault's class is 2; TRAP #7 raises class 8 with its code in AUX and resumes after it (R299). -/
theorem test_trap : next (exec (.trap { K64.neutral with imm := 7 }) base) (fun t =>
    (((t.crew grp.ref).pendingTrap).map (fun p => (p.cls, p.resume, p.lanes.map (fun f => f.aux)))) ==
      some (8, BitVec.ofNat 64 (placePc + 8), List.replicate 32 7)) = true := by decide +kernel
/-- A load whose lane 3 is misaligned and whose lane 9 is not canonical traps with class 1, in both lanes (the example of R294). -/
theorem test_load_traps : next (exec (.ld fm) (putLanes 11 (fun l => if l == 9 then 0x12000000 else 0)
      (putLanes 10 (fun l => if l == 3 then 0x10102 else 0x10100) base))) (fun t =>
    (((t.crew grp.ref).pendingTrap).map (fun p => (p.cls, p.lanes.map (fun f => (f.lane, f.cls, f.code))))) ==
      some (1, [(3, 3, 1), (9, 1, 1)])) = true := by decide +kernel
/-- An arrival of the last count at an object with no bytes left flips the parity (R327). -/
theorem test_arrive : (BarObj.arrive { (BarObj.ofNum 0) with expect := 2, remain := 1 } 1) =
    { (BarObj.ofNum 0) with expect := 2, remain := 2, parity := true, pcount := 1 } := by decide +kernel
/-- A reserved opcode raises ILLEGAL with cause OPCODE (R229). -/
theorem test_reserved : next (exec (.reservedOpcode 0x1B true) base) (fun t =>
    (((t.crew grp.ref).pendingTrap).map (fun p => (p.cls, (p.lanes.map (fun f => f.code)).head?))) == some (0, some 1)) = true := by decide +kernel
/-- The first step after a program is placed runs its instruction. -/
theorem test_first_step : next (step (State.reset.withFetchWord 16 0x2462)) (fun t =>
    ((t.crew grp.ref).thread 31).pc == BitVec.ofNat 64 (placePc + 2)) = true := by decide +kernel
/-- Nothing runs right after reset but the count of cycles. -/
theorem test_reset_step : next (step State.reset) (fun t => t.cycle == 1 && t.issue.isNone) = true := by decide +kernel

/-! ### Witnesses for the hypotheses of the statements about registers -/

/-- A register instruction may issue at a state and its sources can be read. -/
def regOk (f : L64) (ua ub uc : Bool) (s : State := base) : Bool :=
  s.issues grp (regNeeds f ua ub uc) && (s.sources grp f ua ub uc).isOk

/-- An immediate instruction may issue and its source can be read. -/
def immOk (f : K64) (ua : Bool) (s : State := base) : Bool :=
  s.issues grp (kNeeds f (f.d.toNat :: (if ua then [f.a.toNat] else [])) [f.d.toNat]) && (s.operandIf grp ua f.a.toNat).isOk

/-- An instruction whose needs are given may issue at a state. -/
def may (n : Needs) (s : State := base) : Bool := s.issues grp n

theorem witness_IntegerSumsAndProducts : regOk fl true true false ∧ regOk (fs.expand Shape.alu2) true true false ∧
    regOk (fc.expand false 0) true true false ∧ immOk fk true ∧ immOk (fi.expand true true) true := by decide +kernel
theorem witness_WideProductsAndAccumulates : regOk fl true true false ∧ regOk (fs.expand Shape.alu2) true true false ∧
    regOk { fl with mx := 3 } true true true := by decide +kernel
theorem witness_LogicAndShifts : regOk fl true true false ∧ regOk (fs.expand Shape.alu2) true true false ∧
    regOk (fc.expand false 0) true true false ∧ regOk fl true true true := by decide +kernel
theorem witness_BitFieldsAndScans : regOk fl true true false ∧ regOk fl true true true ∧ regOk fl true false false ∧
    regOk (fs.expand Shape.alu1) true false false ∧ regOk (fs.expand Shape.alu2) true true false ∧
    (31 < 32 ∧ (0x80000001#32).getLsbD 31 = true ∧ ∀ j, 31 < j → j < 32 → (0x80000001#32).getLsbD j = false) ∧
    ((0x80000001#32).getLsbD 0 = true ∧ ∀ j, j < 0 → (0x80000001#32).getLsbD j = false) :=
  ⟨by decide, by decide, by decide, by decide, by decide, ⟨by decide, by decide, fun j h h' => absurd h (by omega)⟩,
    by decide, fun _ h => absurd h (by omega)⟩
theorem witness_MovesAndIntegerSelections : regOk fl true true false ∧ regOk fl true false false ∧ regOk fl false false false ∧
    regOk (fs.expand Shape.alu1) true false false ∧ regOk (fs.expand Shape.alu2) true true false ∧
    regOk (fc.expand true 0) true false false ∧ regOk (fc.expand false 1) true true false ∧
    immOk { fk with a := 67 } false ∧ immOk (fi.expand true false) false := by decide +kernel
theorem witness_FloatArithmetic : regOk fl true true false ∧ regOk fl true true true ∧
    regOk (fs.expand Shape.alu2) true true false ∧ regOk (fc.expand false 0) true true false ∧
    regOk (fc.expand false 1) true true false := by decide +kernel
theorem witness_ConversionsAndPackedArithmetic : regOk fl true false false ∧ regOk fl true true false ∧ regOk fl true true true ∧
    regOk (fs.expand Shape.alu1) true false false ∧ regOk (fs.expand Shape.alu2) true true false ∧
    regOk (fc.expand false 0) true true false ∧ (base.crew grp.ref).gambit = none ∧
    (base.crew grp.ref).regions.getLast?.isSome := by decide +kernel
theorem witness_ComparesAndPredicateInstructions :
    (may (lNeeds fl [fl.a.toNat, fl.b.toNat] []) ∧ (base.sources grp fl true true false).isOk) ∧ may (lNeeds fl [] []) ∧
    (may (lNeeds fl [fl.a.toNat] []) ∧ (base.sources grp fl true false false).isOk) := by decide +kernel
theorem witness_LaneInstructions : regOk fl true false false ∧ regOk fl true true false ∧ regOk fl true true true ∧
    regOk fl false false false ∧ regOk (fs.expand Shape.alu1) true false false ∧ regOk (fs.expand Shape.alu2) true true false ∧
    regOk (fs.expand Shape.alu0) false false false := by decide +kernel
/-- A register of 32 bits and one of 64 into the highest pair. -/
theorem witness_SpecialRegisterReads : may (kNeeds { fk with a := 67, imm := 0x010 } [3] [3]) ∧
    (may (kNeeds { fk with a := 67, imm := 0x020, d := 30 } [30, 31] [30, 31]) ∧ 30 % 2 = 0) := by decide +kernel
theorem witness_HoldCapturesInALatch : regOk { fl with hold := 2 } true true false ∧ regOk { fl with hold := 0 } true true true ∧
    regOk { fl with hold := 1, nwb := 1 } true false false ∧ (base.sub 0 0).locked = none ∧ (base.sub 0 0).latches.length = 3 ∧
    (base.sources grp { fl with hold := 2 } true true false).toOption.map (fun x => x.part != 0) = some true := by decide +kernel

/-! ### Witnesses: control, gambits and traps -/

/-- The crew of the group, changed. -/
def withCrew (f : Crew → Crew) (s : State := base) : State := s.modCrew grp.ref f

/-- A gambit of lanes 0 to 15 with code register G20. -/
def gam : Gambit :=
  { crewKind := false, lanes := 0xFFFF, fail := 0x10080, code := 20, count := 0, buffer := [], records := [], counts := [] }

/-- A trap of class 9 in lane 0, raised and not yet entered. -/
def trapped : PendingTrap :=
  { cls := 9, lanes := [⟨0, 9, 0, 0, 7⟩], async := false, tpc := grp.pc, resume := grp.pc, iword := 3, ilen := 8,
    pmask := BitVec.allOnes 32, parked := 0, headed := false }

/-- The state whose context has a trap vector base. -/
def vectored (s : State := base) : State :=
  { s with sched := { s.sched with contexts := tset s.sched.contexts 1 { s.context 1 with trapBase := 0x20000 } } }

theorem witness_ControlTransfers : may (kNeeds { K64.neutral with imm := 0x40 } [] []) ∧ may (kNeeds (fj.expand false) [] []) ∧
    may (kNeeds { K64.neutral with imm := 0x40, d := 62 } [62, 63] [62, 63]) = false ∧
    may (kNeeds { K64.neutral with imm := 0x40, d := 30 } [30, 31] [30, 31]) ∧ may (kNeeds (fj.expand true) [30, 31] [30, 31]) ∧
    (may (lNeeds fl [4, 5] []) ∧ ((partL base grp fl).lanes.filter
      (fun l => (BitVec.ofNat 64 ((base.crew grp.ref).pair base.freeCtr 4 l)).getLsbD 0)) = []) ∧
    (traps (put 4 1 base) grp (lNeeds fl [4, 5] []) ∧ ((partL base grp fl).lanes.filter
      (fun l => (BitVec.ofNat 64 (((put 4 1 base).crew grp.ref).pair base.freeCtr 4 l)).getLsbD 0)) ≠ []) := by decide +kernel
theorem witness_RejoinHoldsAndReleases : (may (lNeeds fl [4] []) ∧ (base.sources grp fl true false false).isOk) ∧
    base.hasCrew (selCrew base) := by decide +kernel
theorem witness_NopPauseRegionAndExit : may (lNeeds L64.neutral [] []) ∧
    (may { lNeeds L64.neutral [] [] with head := true } ∧ (base.crew grp.ref).inGambit = 0 ∧ partL base grp L64.neutral ≠ 0) ∧
    (may { lNeeds L64.neutral [] [] with head := true } (withCrew (fun w => { w with gambit := some { gam with lanes := BitVec.allOnes 32 } })) ∧
      partL base grp L64.neutral &&& ~~~ (BitVec.allOnes 32) = 0) ∧
    (base.crew grp.ref).gambit = none ∧ (base.crew grp.ref).canHead ∧
    (base.crew grp.ref).aliveLanes &&& ~~~ (partL base grp L64.neutral) = 0 ∧ (base.crew grp.ref).regions.getLast?.isSome ∧
    (may { lNeeds L64.neutral [] [] with sbw := 0 } ∧ (base.crew grp.ref).aliveLanes &&&
      ~~~ (partL base { grp with part := 1 } L64.neutral) ≠ 0) := by decide +kernel
theorem witness_GambitsOpenAndClose :
    (may { kNeeds { K64.neutral with d := 20 } [20] [20] with bare := true, head := true, opens := true } ∧
      partK base grp { K64.neutral with d := 20 } ≠ 0) ∧
    (may (lNeeds L64.neutral [] []) ∧ partL base grp L64.neutral &&& (base.crew grp.ref).inGambit = 0) ∧
    (let s := withCrew (fun w => { w with gambit := some gam })
     may (lNeeds L64.neutral [] []) s ∧ partL s grp L64.neutral &&& gam.lanes ≠ 0 ∧
      (s.crew grp.ref).entriesUsed + (handedStores gam (commitClosure gam 32 (partL s grp L64.neutral &&& gam.lanes))).length ≤
        Config.quarantineEntries ∧ (s.crew grp.ref).canHead ∧ (s.crew grp.ref).regions.getLast?.isSome ∧
      may (kNeeds K64.neutral [] []) s ∧ partK s grp K64.neutral &&& gam.lanes ≠ 0 ∧ gam.code < 64 ∧
      (s.crew grp.ref).regions ≠ []) := by decide +kernel
theorem witness_SoftwareTraps : (traps base grp (kNeeds K64.neutral [] []) ∧ partK base grp K64.neutral ≠ 0) ∧
    (may (kNeeds { K64.neutral with pn := 1 } [] []) ∧ partK base grp { K64.neutral with pn := 1 } = 0) ∧
    (traps base grp (kNeeds (fi.expand false false) [] []) ∧ partK base grp (fi.expand false false) ≠ 0) := by decide +kernel
theorem witness_TrapEntryAndItsSideBuffer :
    (let s := withCrew (fun w => { w with pendingTrap := some trapped }) vectored
     s.hasCrew (selCrew s) ∧ (s.handlerOf (selCrew s) 9).isSome ∧ (s.crew (selCrew s)).entrySettled) ∧
    (let s := withCrew (fun w => { w with pendingTrap := some { trapped with headed := true } }) vectored
     (s.handlerOf (selCrew s) 9).isSome ∧ (s.crew (selCrew s)).creditsFor [0, 1, 2, 3] ≤ (s.crew (selCrew s)).creditsFree) ∧
    (base.hasCrew grp.ref ∧ trapped.async = false ∧ (base.crew grp.ref).turn < 32 ∧ (base.crew grp.ref).run < 128) := by decide +kernel
theorem witness_TrapReturnAndSideBufferInstructions :
    (let s := withCrew (fun w => { w with handling := some 9, trapMode := true })
     may { lNeeds L64.neutral [] [] with head := true } s ∧ (s.crew grp.ref).gambit = none ∧ (s.crew grp.ref).dying = none ∧
      partL s grp L64.neutral &&& ~~~ (s.crew grp.ref).aliveLanes = 0 ∧
      (s.crew grp.ref).aliveLanes &&& ~~~ (partL s grp L64.neutral) = 0 ∧ terminalClass 9 = false ∧
      (s.crew grp.ref).creditsFor [0, 1, 2, 3] ≤ (s.crew grp.ref).creditsFree ∧
      (∀ l, l < 32 → ((s.keep grp.ref).side.lanes.getD l .zero).spc.getLsbD 0 = false) ∧
      may (kNeeds { fk with a := 67, imm := 0 } [3] [3]) s ∧
      (may { kNeeds { fk with d := 67, imm := 0x80000020 } [4] [] with bare := true, head := true } s ∧ (s.operand grp 4).isOk)) ∧
    (let s := withCrew (fun w => { w with handling := some 9, trapMode := true })
     let g := { grp with part := 1 }
     let s := { s with issue := some g }
     s.issues g { lNeeds L64.neutral [] [] with head := true } ∧ partL s g L64.neutral ≠ 0 ∧
      ∃ l, l < 32 ∧ ((s.crew g.ref).aliveLanes &&& ~~~ (partL s g L64.neutral)).getLsbD l = true ∧
        ((s.crew g.ref).thread l).run ≠ .trap true) ∧
    (base.issue = some grp ∧ base.hasCrew grp.ref ∧ (base.crew grp.ref).handling = none ∧ grp.part ≠ 0) ∧
    (sysSpace { fk with d := 67, imm := 0x80000000 + 2 * 65536 } = 2 ∧
      ((withCrew (fun w => { w with handling := some 9 })).crew grp.ref).trapMode = false) := by decide +kernel

/-! ### Witnesses: blocks, loads, stores, atomics and barriers -/

/-- The address pair G10:G11 at the placed page, and at a scratchpad offset. -/
def addressed : State := put 10 0x10100 base

theorem witness_ExtendedBlocks :
    (let n : Needs := { lNeeds L64.neutral [] [] with bare := true, head := true }
     may n ∧ partL base grp L64.neutral ≠ 0 ∧ (base.gslotOf grp.ref).isSome ∧
      (base.launchOf grp.ref).map (fun l => l.header.regs) = some 64 ∧ (base.crew grp.ref).ext = false ∧
      (base.sub 0 0).granted 0 = false ∧ (base.sub 0 0).crews.any (fun c => c.xwait.isSome && !c.ext) = false ∧
      ((base.sub 0 0).blockFor (base.gslotOf grp.ref)).isSome ∧
      (let s := withCrew (fun w => { w with ext := true })
       may n s ∧ (s.crew grp.ref).ext = true ∧ (s.crew grp.ref).regions.getLast?.isSome)) := by decide +kernel

/-- The lanes of a load or a store of a memory instruction pass their checks. -/
def passes (kind : AccessKind) (f : M64) (s : State) : List LaneTrap × List Access :=
  hinted f (Claims.checked (partM s grp f) (fun l =>
    s.memAccess grp.ref kind (sizeBytes f.sz.toNat) (sizeBytes f.sz.toNat) l (s.addr grp f l)))

/-- The lanes of a load by address pass their checks, those of its data among them. -/
def passesRead (f : M64) (s : State) : List LaneTrap × List Access :=
  hinted f (Claims.checked (partM s grp f) (fun l => s.readAccess grp.ref
    (s.memAccess grp.ref .load (sizeBytes f.sz.toNat) (sizeBytes f.sz.toNat) l (s.addr grp f l)) true false))

/-- The lanes of an access by scratchpad offset pass their checks. -/
def passesOff (kind : AccessKind) (f : M64) (s : State) : List LaneTrap × List Access :=
  Claims.checked (partM s grp f) (fun l => s.offAccess grp.ref kind (sizeBytes f.sz.toNat) (sizeBytes f.sz.toNat) l (s.offset grp f l))

/-- A load may be requested. -/
def loadOk (s : State) (part : Mask) (dst : List Nat) (size : Nat) (x : List LaneTrap × List Access) : Bool :=
  part != 0 && x.1.isEmpty && (s.atomnOrder grp x.2 size).isNone && (s.orderWait grp x.2 0).isNone &&
    decide ((s.crew grp.ref).creditsFor (dst.filter (fun k => k < 64)) ≤ (s.crew grp.ref).creditsFree)

/-- The loads' memory instruction may issue, with every lane's checks passed. -/
def loads (f : M64) (s : State) : Bool :=
  may (mNeeds f (pairRegs f.a.toNat ++ groupRegs f.d.toNat (groupLen f.sz.toNat)) []) s &&
    loadOk s (partM s grp f) (groupRegs f.d.toNat (groupLen f.sz.toNat)) (sizeBytes f.sz.toNat) (passesRead f s)

theorem witness_VariableLatencyAndLateResults :
    (may (lNeeds fl [3, 4] [3]) ∧ (base.sources grp fl true false false).toOption.map (fun x => x.part != 0) = some true) ∧
    (may (lNeeds { fl with hold := 0, nwb := 1 } [3, 4] []) ∧ (base.sources grp { fl with hold := 0, nwb := 1 } true false false).isOk) ∧
    (may (lNeeds { fl with d := 67 } [67, 4] [67]) ∧ (base.sources grp { fl with d := 67 } true false false).isOk) ∧
    (may (mNeeds fm (pairRegs 10 ++ groupRegs 6 1) []) ∧ partM base grp fm ≠ 0 ∧
      (base.crew grp.ref).creditsFor [6] ≤ (base.crew grp.ref).creditsFree) ∧
    (addressed.resolve grp.ref 0 .load (addressed.addr grp fm 0) 1).isOk ∧
    ((put 11 0x12000000 base).resolve grp.ref 0 .load ((put 11 0x12000000 base).addr grp fm 0) 1).isOk = false ∧
    base.hasCrew grp.ref := by decide +kernel
/-- The record of a result that was computed at issue. -/
def dueRecord : LoadRec :=
  { setter := 9, region := 0, kind := .value zeroContent 0, dst := [(63, 1)], size := 4, sx := false, taint := 0, reads := [],
    desc := none, descOk := 0, badDesc := 0, badData := 0, left := 0, tagged := false, performed := none, pc := 0, iword := 0,
    ilen := 8, part := 1, snaps := [],
    memo := none }
theorem witness_LateResult : base.hasCrew grp.ref ∧ dueRecord.kind = .value zeroContent 0 ∧ dueRecord.dst = [(63, 1)] ∧
    dueRecord.reads = [] ∧ dueRecord.snaps = [] ∧ dueRecord.memo = none ∧ (63 : Nat) < 64 ∧ (1 : Mask) ≠ 0 := by decide +kernel

theorem witness_LoadsAreRequested : loads fm addressed ∧ loads { fm with ord := 1, scope := 2 } addressed ∧
    loads { fm with d := 28, sz := 4 } addressed ∧
    (addressed.ldKey grp fm (partM addressed grp fm)).map (fun k => (addressed.sub 0 0).hit k addressed.cycle) = some none ∧
    (let s := withCrew (fun w => { w with gambit := some { gam with lanes := BitVec.allOnes 32 } }) addressed
     loads fm s ∧ (newRecords (s.crew grp.ref).inGambit 4 (passesRead fm s).2).length = 1) ∧
    (let s := put 10 0x100 base
     may (mNeeds fm (namesOf [10] ++ groupRegs 6 1) []) s ∧ loadOk s (partM s grp fm) [6] 4 (Claims.checked (partM s grp fm) (fun l =>
       s.readAccess grp.ref (s.offAccess grp.ref .load 4 4 l (s.offset grp fm l)) false false))) ∧
    (let f := { fm with d := 8, off := 0x40 }
     let s := addressed.putDesc (.mem 0x100140) (4350, 4350)
     may (mNeeds f (pairRegs 10 ++ groupRegs 8 4) []) s ∧ loadOk s (partM s grp f) (groupRegs 8 4) 64
       (splitLanes (fun l => s.readAccess grp.ref (s.memAccess grp.ref .load 64 64 l (s.addr grp f l)) true true) [0])) := by decide +kernel
/-- A load that the transposition table holds: the table with the key's entry, its result the name of a live register. -/
def memoState : State :=
  match addressed.memoKey grp (ldKeyWord fm) (pairRegs 10) 6 (partM addressed grp fm) (some 0),
      ((addressed.crew grp.ref).reg 0).name with
  | some k, some n => addressed.modSub 0 0 (fun b => { b with xpos := [{ k with result := n, expires := 100 }] })
  | _, _ => addressed
theorem witness_LoadHit : (memoState.ldKey grp fm (partM memoState grp fm)).bind
      (fun k => (memoState.sub 0 0).hit k memoState.cycle) = some zeroContent ∧
    may (mNeeds fm (pairRegs 10 ++ groupRegs 6 1) []) memoState ∧ fm.ord ≠ 1 ∧ fm.sz.toNat ≤ 2 ∧ partM memoState grp fm ≠ 0 ∧
    (memoState.crew grp.ref).creditsFor [6] ≤ (memoState.crew grp.ref).creditsFree := by decide +kernel

/-- A store of a state: without a gambit there is room in the region. -/
def storeOk (s : State) (x : List LaneTrap × List Access) : Bool :=
  x.1.isEmpty && (s.windowOrder grp x.2).isNone && (s.crew grp.ref).gambit.isNone &&
    decide ((s.crew grp.ref).entriesUsed + 32 ≤ Config.quarantineEntries) && (s.crew grp.ref).regions.getLast?.isSome

theorem witness_StoresAreHeld :
    (may (mNeeds fm (pairRegs 10 ++ groupRegs 6 1) []) addressed ∧ partM addressed grp fm ≠ 0 ∧
      storeOk addressed (passes .store fm addressed)) ∧
    (let f := { fm with d := 16, sz := 5, off := 0x0AF9 }
     let x := Claims.checked (partM addressed grp f) (fun l => addressed.memAccess grp.ref .store 64 64 l
       ((addressed.crew grp.ref).pair addressed.freeCtr 10 l))
     may (mNeeds f (pairRegs 10 ++ groupRegs 16 16) []) addressed ∧ storeOk addressed x) ∧
    (let s := put 10 0x100 base
     may (mNeeds fm (namesOf [10] ++ groupRegs 6 1) []) s ∧ storeOk s (passesOff .store fm s)) ∧
    (let f := { fm with d := 8 }
     let s := put 12 0x57 addressed
     may (mNeeds f (pairRegs 10 ++ groupRegs 8 5) []) s ∧ partM s grp f ≠ 0 ∧ partM s grp f &&& (s.crew grp.ref).inGambit = 0 ∧
      qntBad ((s.crew grp.ref).read s.freeCtr 12 0).toNat = false ∧
      (s.memAccess grp.ref .store 64 64 0 (s.addr grp f 0)).toOption.map (fun a => (s.windowOrder grp [a]).isNone) = some true) ∧
    (let s := withCrew (fun w => { w with gambit := some { gam with lanes := BitVec.allOnes 32 } }) addressed
     may (mNeeds fm (pairRegs 10 ++ groupRegs 6 1) []) s ∧ (passes .store fm s).1 = [] ∧
      (storeOf s grp fm none (passes .store fm s).2).lanes &&& ~~~ (BitVec.allOnes 32) = 0 ∧
      Gambit.storeAbort { gam with lanes := BitVec.allOnes 32 } (storeOf s grp fm none (passes .store fm s).2) = none ∧
      (storeOf s grp fm none (passes .store fm s).2).lanes ≠ 0) := by decide +kernel

theorem witness_AtomicsAsIssued :
    (let f := { fm with off := 0 }
     let x := Claims.checked (partM addressed grp f) (fun l => addressed.readAccess grp.ref (addressed.memAccess grp.ref .atomic
       4 4 l ((addressed.crew grp.ref).pair addressed.freeCtr 10 l)) false false)
     may { mNeeds f (pairRegs 10 ++ atomRegs f) [] with bare := true, head := true } addressed ∧ partM addressed grp f ≠ 0 ∧
      x.1 = [] ∧ may { mNeeds f (pairRegs 10 ++ atomRegs f) [] with bare := true } addressed ∧
      (addressed.crew grp.ref).regions.getLast?.isSome ∧ (addressed.crew grp.ref).entriesUsed + 1 ≤ Config.quarantineEntries) ∧
    (let f := { fm with off := 0 }
     let s := put 10 0x100 base
     let x := Claims.checked (partM s grp f) (fun l => s.readAccess grp.ref (s.offAccess grp.ref .atomic 4 4 l
       ((lane ((s.crew grp.ref).source s.freeCtr 10) l).toNat : Nat)) false false)
     may { mNeeds f (namesOf [10] ++ atomRegs f) [] with bare := true, head := true } s ∧ x.1 = []) := by decide +kernel

/-- A write of the crew that a fence covers is on its way. -/
def writing : State :=
  let x : Tx :=
    { id := 1, core := 0, crew := some grp.ref, lslot := some 0, lanes := BitVec.allOnes 32, ord := 0, page := .plain,
      home := .slice 0, out := true, sig := none,
      req := .write { crew := grp.ref, setter := 0, bytes := [], descs := [], rel := none, stats := [] }, sent := 0,
      serveAt := 0, dueAt := 0, after := [], resends := 0, lost := false, lows := none, answer := none, tag := none }
  { base with net := { base.net with txs := [x] } }

theorem witness_FencesAndCacheOperations :
    (may { mNeeds { fm with scope := 2 } [] [] with bare := true } ∧ partM base grp fm ≠ 0 ∧
      base.fenceBlocked grp.ref (BitVec.allOnes 32) false 2 = (false, false)) ∧
    (may { mNeeds { fm with scope := 2 } [] [] with bare := true } writing ∧
      writing.fenceBlocked grp.ref (BitVec.allOnes 32) false 2 = (false, true)) ∧
    may (mNeeds fm (pairRegs 10) []) addressed := by decide +kernel

/-- An offset was found. -/
def found (x : Except LaneTrap Nat) (o : Nat) : Bool :=
  match x with
  | .ok y => y == o
  | .error _ => false

/-- A barrier instruction [G10 + 0x40], G6 with G10 = 0xC0 and a count in G6, of a group that has bound that object. -/
def barred (n : Word) : State :=
  put 6 n ((put 10 0xC0 base).modGroup 0 0 (fun g => { g with barriers := [0x100] }))
/-- The barrier instruction's fields. -/
def fb : M64 := { fm with sz := 0 }

/-- The crew, its last thread about to return from a wait. -/
def returning : Crew :=
  (withCrew (fun w => { w with threads := modifyAt w.threads 31 (fun h => { h with run := .barrier (.returns 8) 0 }) })).crew grp.ref

theorem witness_BarrierUpdatesAndWaits :
    (let n : Needs := { mNeeds fb (namesOf [10, 6]) [] with bare := true }
     may n (barred 1) ∧ partM (barred 1) grp fb ≠ 0 ∧ ((barred 1).gslotOf grp.ref).isSome ∧
      found ((barred 1).barOffset grp fb 0 true) 0x100 ∧
      found ((barred 1).barOffset grp fb 0 false) 0x100 ∧
      ((barred 1).groupOf grp.ref).map (fun g => decide ((0x100 :: (g.barriers ++ (barred 1).pendingBinds 0 g)).eraseDups.length ≤
        g.barrierLimit)) = some true ∧
      ((barred 1).crew grp.ref).entriesUsed + 1 ≤ Config.quarantineEntries ∧ ((barred 1).crew grp.ref).canHead ∧
      (lane (((barred 1).crew grp.ref).source 0 6) 0).toNat % 65536 ≠ 0 ∧
      (30 : Nat) * 65536 / 65536 ≤ 30 ∧ 12 ≤ 12 * 65536 / 65536) ∧
    (let n : Needs := { mNeeds { fb with hint := 1, d := 67 } (namesOf [10]) [] with bare := true }
     may n (barred 1)) ∧
    (let n : Needs := { mNeeds fb (namesOf [10, 6]) [] with bare := false }
     may n (barred 1) ∧ ((barred 1).orderWait grp [{ lane := 0, va := 0x100, target :=
         { loc := .scratch 0 0x100, page := .window, walk := none, ownVault := false } }] 0).isNone ∧
       ((barred 1).crew grp.ref).creditsFor [6] ≤ ((barred 1).crew grp.ref).creditsFree) ∧
    (may { lNeeds { L64.neutral with a := 4, c := 4 } [4, 5] [] with bare := true } ∧
      ((base.groupOf grp.ref).bind (fun g => g.timelines[4 % 8]?)).isSome) ∧
    ((barred 1).crew grp.ref).gambit = none ∧ (base.crew grp.ref).gambit = none ∧ (base.crew grp.ref).canHead ∧
    (let w := returning
     31 < w.threads.length ∧ (w.thread 31).run = .barrier (.returns 8) 0 ∧ 8 ≤ 8) := by decide +kernel
theorem witness_BarrierPhases :
    (let o := { BarObj.init 2 0 with remain := 2, bytes := 8 }
     1 < o.remain ∧ (2 : Nat) = o.remain ∧ o.bytes ≠ 0 ∧ o.remain < 3 ∧ 1 < o.remain ∧ o.bytes + (1 : Word).toNat < 2 ^ 32 ∧
       7 < o.bytes ∧ o.bytes < 2 ^ 32) ∧
    ({ BarObj.init 2 0 with remain := 1, bytes := 0 }).remain = 1 ∧
    ({ BarObj.init 2 0 with remain := 0, bytes := 8 }).remain = 0 := by decide +kernel

/-! ### Witnesses: engines, the row riser, windows, messages -/

/-- Bytes written in the scratchpad of core 0. -/
def scratched (off : Nat) (bs : List Byte) (s : State) : State :=
  s.modCore 0 (fun k => { k with scratch := cellsWrite k.scratch off bs })

/-- A copy: source in G10:G11, destination in G12:G13, length or record in G5, no credit. -/
def fcpy : L64 := { L64.neutral with d := 12, a := 10, b := 5, c := 67 }
/-- Source and destination of a copy in the placed page. -/
def copying (n : Word) : State := put 5 n (put 12 0x10200 (put 10 0x10100 base))
/-- The names of a copy. -/
def copyNames : List Nat := [12, 13, 10, 11, 5, 67]

/-- A copy's runs pass every check and its engine has room. -/
def copyOk (s : State) (runs : List VRun) : Bool :=
  (s.creditOf grp fcpy 0).isOk && (s.acceptWait grp 0 0 (((s.crew grp.ref).pairTaint 10 ||| (s.crew grp.ref).pairTaint 12).getLsbD 0)).isNone &&
    ((s.resolveRuns grp.ref 0 (pieces runs)).toOption.map (fun l =>
      (s.strongFirst grp 0 (l.flatMap (fun x => [x.1.srcPage, x.1.dstPage]))).isNone)) == some true

/-- A shape of eight 4-byte elements in one dimension. -/
def shape : List Byte :=
  toBytes 8 0x0102 ++ toBytes 4 8 ++ toBytes 4 1 ++ toBytes 4 1 ++ toBytes 4 1 ++ List.replicate 104 0
/-- A gather of two rows of 16 bytes, 32 bytes apart, its index at offset 0x400. -/
def gather : List Byte := toBytes 4 0x400 ++ toBytes 4 2 ++ toBytes 4 16 ++ toBytes 4 0 ++ toBytes 8 32 ++ toBytes 8 0

theorem witness_CopiesAreAcceptedOrTrap :
    (may (engNeeds fcpy copyNames []) (copying 16) ∧ partL (copying 16) grp fcpy ≠ 0 ∧ (copying 16).gslotOf grp.ref = some 0 ∧
      (copying 16).pairL0 grp fcpy.a 0 % 16 = 0 ∧ (copying 16).pairL0 grp fcpy.d 0 % 16 = 0 ∧
      ((copying 16).regL0 grp fcpy.b 0).toNat % 16 = 0 ∧ copyOk (copying 16) [⟨0x10100, 0x10200, 16⟩] ∧ copyOk (copying 0) []) ∧
    (let s := scratched 0x80 shape (copying 0x80)
     may (engNeeds fcpy copyNames []) s ∧ (s.record grp 0 0x80 128 64).toOption = some shape ∧ shapeBad shape = false ∧
      shapeMisaligned shape 0x10100 0x10200 = none ∧ copyOk s (shapeRuns shape 0x10100 0x10200)) ∧
    (let s := scratched 0x80 gather (copying 0x80)
     may (engNeeds fcpy copyNames []) s ∧ (s.record grp 0 0x80 32 16).toOption = some gather ∧ gatherBad gather = false ∧
      (s.record grp 0 0x400 8 4).isOk ∧ copyOk s (gatherRuns gather (List.replicate 8 0) 0x10100 0x10200)) ∧
    ((copying 16).crew grp.ref).gambit = none ∧ ((copying 16).crew grp.ref).handling = none ∧
    (put 10 0x10108 (copying 16)).pairL0 grp fcpy.a 0 % 16 ≠ 0 ∧ (put 12 0x10208 (copying 16)).pairL0 grp fcpy.d 0 % 16 ≠ 0 ∧
    ((copying 8).regL0 grp fcpy.b 0).toNat % 16 ≠ 0 ∧
    (let s := withCrew (fun w => { w with owner := some { ctx := 1, lslot := 0, gslot := none, index := 0 } })
     may (engNeeds fcpy copyNames []) s ∧ s.gslotOf grp.ref = none ∧ partL s grp fcpy ≠ 0) := by decide +kernel

/-- The parameter block of the example of R352, at offset 0x1000. -/
def tmacBytes : List Byte :=
  toBytes 4 0 ++ toBytes 4 128 ++ toBytes 4 0xFFFFFFFF ++ toBytes 4 0x2000 ++ toBytes 4 128 ++ toBytes 2 64 ++ toBytes 2 64 ++
    toBytes 4 64 ++ [0, 2, 2, 1] ++ List.replicate 32 0
/-- A convolution of one row and column, its record at offset 0x3000: the record of the example of R357. -/
def tconvBytes : List Byte :=
  toBytes 4 0x3000 ++ toBytes 4 0 ++ toBytes 4 0 ++ toBytes 4 0x2000 ++ toBytes 4 128 ++ toBytes 2 1 ++ toBytes 2 1 ++
    toBytes 4 144 ++ [0, 2, 2, 0] ++ List.replicate 32 0
/-- The convolution record of the example of R357. -/
def convRecord : List Byte :=
  toBytes 8 0 ++ toBytes 2 8 ++ toBytes 2 8 ++ toBytes 2 16 ++ [3, 3, 1, 1, 1, 1, 1, 0, 1, 0] ++ toBytes 2 8 ++ List.replicate 38 0
/-- A drain of one row of 16 FP32 elements to the placed page. -/
def drainBytes : List Byte :=
  toBytes 8 0x10000 ++ toBytes 4 256 ++ [0, 0, 0, 0] ++ toBytes 2 1 ++ toBytes 2 16 ++ List.replicate 12 0
/-- An engine instruction with its operand in G4. -/
def feng : L64 := { L64.neutral with a := 4 }

theorem witness_TileCommandsAreAccepted :
    (let s := scratched 0x1000 tmacBytes (put 4 0x1000 base)
     may (engNeeds feng [4] []) s ∧ partL s grp feng ≠ 0 ∧ s.gslotOf grp.ref = some 0 ∧ (s.tmacBlock grp 0 0x1000).isOk ∧
      s.acceptWait grp 0 4 false = none) ∧
    (let s := scratched 0x3000 convRecord (scratched 0x1000 tconvBytes (put 4 0x1000 base))
     may (engNeeds feng [4] []) s ∧ (s.tconvBlock grp 0 0x1000).isOk) ∧
    (let s := scratched 0x1000 drainBytes (put 4 0x1000 base)
     may (engNeeds feng [4] []) s ∧ (s.record grp 0 0x1000 32 32).toOption = some drainBytes ∧ drainBad drainBytes = false ∧
      (drainOf drainBytes).tile < s.tilesOf grp.ref ∧ s.acceptWait grp 0 4 false = none ∧
      (s.drainRows grp 0 0x10000 256 (drainOf drainBytes)).toOption.map (fun r =>
        (s.strongFirst grp 0 (r.flatten.map (fun x => x.1.page))).isNone) = some true ∧
      (drainOf drainBytes).add = false) ∧
    (may (engNeeds { L64.neutral with c := 56 } [] []) ∧ 56 / 8 % 8 < base.tilesOf grp.ref ∧ base.acceptWait grp 0 4 false = none) ∧
    (let s := put 4 0xBC00 base
     may (engNeeds { feng with c := 61 } [4] []) s ∧ s.inAllocation grp 0xBC00 16900 ∧ 0xBC00 % 64 = 0 ∧
      s.acceptWait grp 0 4 false = none) ∧
    (may (engNeeds { L64.neutral with d := 3, c := 2 } [3] []) ∧
      (base.crew grp.ref).creditsFor [3] ≤ (base.crew grp.ref).creditsFree) := by decide +kernel

/-- The state whose partition holds core 0's vault. -/
def vaulted (s : State := base) : State :=
  { s with sched := { s.sched with parts := [(0, { cores := 1, vaults := 1 })] } }

theorem witness_RowRiserInstructions :
    (let s := put 5 6143 (put 4 31 (vaulted))
     may (engNeeds fl [4, 5] []) s ∧ partL s grp fl ≠ 0 ∧ s.vaultOn (s.ctxOf grp.ref) 0 ∧ (s.regL0 grp 4 0).toNat < 32 ∧
      (s.regL0 grp 5 0).toNat ≤ 6143 ∧ 31 < (s.core 0).banks.length ∧ (s.bank 0 31).state = .closed ∧
      may (engNeeds fl [4] []) s ∧ ((s.modBank 0 31 (fun b => { b with state := .open_ 6143 })).bank 0 31).state = .open_ 6143) ∧
    (let s := (put 4 31 (vaulted)).modBank 0 31 (fun b => { b with state := .open_ 6143 })
     may (engNeeds fl [4, 5] []) s ∧ ((s.bank 0 31).rcon 31 (s.clock 0)).toOption = some 6143 ∧
      s.acceptWait grp 0 4 false = none ∧ fl.c.getLsbD 1 = true ∧ (s.rconDest grp 0 (s.regL0 grp fl.b 0).toNat).isOk ∧
      may (engNeeds { fl with c := 4 } [4, 5, 3] [3]) s ∧
      s.blockFault (s.engineDesc grp.ref 0 (.mem (rowAddr 0 31 6143))) (.mem (rowAddr 0 31 6143)) = none ∧
      s.blockFault (s.engineDesc grp.ref 0 (.mem (rowAddr 0 31 6143 + 64 * 31))) (.mem (rowAddr 0 31 6143 + 64 * 31)) = none) ∧
    (let s := put 4 31 (vaulted)
     (s.bank 0 31).state = .closed ∧ may (engNeeds { fl with c := 0 } [4, 5] []) s ∧ (s.crew grp.ref).gambit = none ∧
      (s.crew grp.ref).handling = none) := by decide +kernel

/-- SUBS.ON into G3 with its local range in G10:G11, its global range in G12:G13 and its length in G5. -/
def fsubs : L64 := { L64.neutral with d := 3, a := 10, b := 12, c := 5 }
/-- A subscription that a group holds. -/
def heldSub : Subscription :=
  { id := 0, released := true, op := 0, parts := [], vaultLocal := false, tl := 0, len := 128, lva := 0, gva := 0 }

theorem witness_WindowsAndSubscriptions :
    (let s := put 5 0 (put 4 0xFF80 base)
     let f : L64 := { L64.neutral with d := 12, a := 4, b := 5, c := 67, mx := 2 }
     may (engNeeds f [12, 13, 4, 5] [12, 13]) s ∧ 0xFF80 % 128 = 0 ∧ s.inAllocation grp 0xFF80 128 ∧
      s.grantOk 0 (s.regL0 grp 5 0) ∧ s.windowRoom 0 0 0xFF80 ∧ (s.crew grp.ref).entriesUsed + 1 ≤ Config.quarantineEntries ∧
      (s.crew grp.ref).regions.getLast?.isSome) ∧
    (let s := put 5 128 (put 12 0x10100 (put 11 0xFFFF0000 (put 10 0xFF80 base)))
     may (engNeeds fsubs [3, 10, 11, 12, 13, 5] [3]) s ∧ subOperandsOk 0xFFFF00000000FF80 0x10100 128 ∧
      (s.subLines grp 0 0xFFFF00000000FF80 0x10100 128).isOk ∧ s.subCount 0 < 64 ∧
      (s.groupOf grp.ref).map (fun g => g.subs.any (fun y => y.id == 0)) = some false ∧ s.acceptWait grp 0 0 false = none) ∧
    (let s := base.modGroup 0 0 (fun g => { g with subs := [heldSub] })
     may (engNeeds feng [4] []) s ∧ (s.groupOf grp.ref).map (fun g => g.subs.any (fun y => y.id == 0)) = some true ∧
      (s.crew grp.ref).regions.map (fun r => r.effects) = [[]]) := by decide +kernel

/-- The state in which the group holds circuit 5 to its own core. -/
def circuited : State :=
  (put 13 0xFFFC0000 (put 4 5 (vaulted))).modCore 0 (fun k => { k with circuits :=
    [{ id := 5, owner := .group 0, dest := 0, left := 1, reserved := true, lastUse := 0 }] })

theorem witness_MessagesAndCircuits :
    (may { lNeeds fl [4, 5] [] with bare := true, head := true } ∧ partL base grp fl ≠ 0 ∧ (base.gslotOf grp.ref).isSome) ∧
    (may { lNeeds { fl with c := 67 } [3, 4, 5] [] with bare := true, head := true } (put 5 4096 base) ∧
      1 ≤ ((put 5 4096 base).regL0 grp 5 0).toNat ∧ ((put 5 4096 base).regL0 grp 5 0).toNat ≤ 4096 ∧
      ((put 5 1 base).regL0 grp 5 0).toNat = 1) ∧
    (let f : L64 := { fl with c := 12 }
     may { lNeeds f [4, 5, 12, 13] [] with bare := true, head := true } circuited ∧ (circuited.ownCircuit grp.ref 5).isSome ∧
      (circuited.circuitTarget grp 0 (circuited.pairL0 grp f.c 0) 0).isOk) ∧
    (may (engNeeds feng [4] []) circuited ∧ (circuited.crew grp.ref).entriesUsed + 1 ≤ Config.quarantineEntries) := by decide +kernel


/-! ### Witnesses: crews and groups -/

/-- The placed state with no issue group chosen, and a unit selected. -/
def quiet (a : Nat := 0) (b : Nat := 0) (c : Nat := 0) : State := { State.reset.place 0 with issue := none, sel := ⟨a, b, c⟩ }

/-- The placed state with its crew changed. -/
def crewed (g : Crew → Crew) (s : State := quiet) : State := s.modCrew ⟨0, 0, 0⟩ g

/-- The placed state at a cycle. -/
def late (n : Nat) (s : State := quiet) : State := { s with cycle := n }

/-- A write's home is a unit of the device. -/
theorem inside_of {s : State} {p : Loc} (h : (match s.homeOf p false with
    | .outside _ => false
    | _ => true) = true) : Claims.Inside s p := by
  intro n e
  rw [e] at h
  exact Bool.noConfusion h

theorem witness_ArbitrationChoosesAGroup :
    (quiet.issue = none ∧ next (exec .issueArbitration quiet) (fun t => t.issue.isSome)) ∧
    quiet.dutyOn 0 ∧ (quiet.core 0).fenced = false ∧ (∀ j, j < 8 → quiet.settleCrew ⟨0, 0, j⟩ = quiet) ∧
    (quiet.sub 0 0).locked = none ∧ (quiet.sub 0 0).claims = [] ∧ (quiet.sub 0 0).ready = [] ∧ (quiet.sub 0 0).writes = [] ∧
    (quiet.sub 0 0).unitFree = [0, 0] ∧ (∀ x ∈ (quiet.sub 0 0).latches, x = none) ∧ (quiet.sub 0 0).candidate quiet.cycle = some 0 ∧
    (quiet.groupOfSlot 0 0 0).isSome := by and_intros <;> decide +kernel

/-- A bind record of launch 0 for one crew of core 0's sub-core 1, with one handler slot. -/
def rec0 : BindRecord :=
  { lslot := 0, group := 0, core := 0, scrbase := 0, crews := 0x100, hslots := 0, tiles := 0, barbase := 0, xsub := 0, mbz := 0 }
/-- A launch without a group bound. -/
def freshLaunch : Launch := { placeLaunch with bound := [0], header := { placeHeader with tiles := 0 } }
/-- Core 0 holds the record, and no group. -/
def bound : State :=
  (quiet.modCore 0 (fun k => { k with groups := List.replicate 32 none, slots := [⟨rec0, none, false⟩] })).modLaunch 0 (fun _ => freshLaunch)
/-- A message of launch 0 for handler 15. -/
def note : Message := { lslot := 0, src := 1, handler := 15, seq := 2, payload := [7], sig := .empty }
/-- A message waits at core 0, whose sub-core 3 holds a handler crew of the launch. -/
def noted : State := quiet.modCore 0 (fun k =>
  { k with inbound := [note], handlers := [{ lslot := 0, crews := [(3, 7)], accepted := 0 }] })
/-- The crew waits for an extended block of its group. -/
def wanting : State := crewed (fun w => { w with xwait := some 0, threads := w.threads.map (fun h => { h with run := .xblock }) })

theorem witness_RecordsAndHandlersStart :
    (bound.startPlan 0 = [(0, ⟨rec0, none, false⟩)] ∧ bound.launch? 0 = some freshLaunch ∧
      bound.slotFor 0 ⟨rec0, none, false⟩ = some 0 ∧ (bound.die (bound.dieOf 0)).logSize = 0 ∧ 0 < (bound.core 0).groups.length ∧
      ∀ c ∈ slotsOf rec0.crews.toNat, c.1 < (bound.core 0).subs.length ∧ c.2 < (bound.sub 0 c.1).crews.length) ∧
    (noted.handlerDue 0 = some (0, note, ⟨0, 3, 7⟩, 0) ∧ (noted.launch? 0).isSome ∧ 3 < (noted.core 0).subs.length ∧
      7 < (noted.sub 0 3).crews.length) ∧
    (wanting.grantDue 0 0).isSome := by and_intros <;> decide +kernel

/-- The oldest region of a crew is closed with its effects, all it waited for done. -/
def closedWith (es : List Effect) (s : State := quiet) : State :=
  late 100000 (crewed (fun w => { w with regions :=
    (w.regions.map (fun g => { g with closed := some 1, effects := es })) ++ w.regions.map (fun g => { g with id := 77 }) }) s)
/-- A zero command of tile 0, accepted by the tile engine of group slot 0. -/
def zop : EngOp :=
  { id := 3, tl := 4, num := 1, gslot := 0, crew := ⟨0, 0, 0⟩, region := 1, lane := 0, pc := 0, work := .tzero 0,
    released := false, started := none, nextAt := 0, step := 0, total := 1, staged := [], landed := 0, readDone := none,
    dead := false, done := false,
    image := { word := 0, dst := 0, src := 0, bval := 0, cval := 0, data := [], index := [] }, held := false, first := 0 }
/-- The tile engine holds an operation, in a unit. -/
def engaged (u : Nat) (o : EngOp) (s : State := quiet) : State :=
  s.modCore 0 (fun k => { k with engines := modifyAt k.engines u (fun e => { e with ops := [o] }) })
/-- A release point of the crew in its even lanes, of a kind, its request sent. -/
def pointed (kind : PointKind) : State :=
  crewed (fun w => { w with point := some {
    setter := 0, kind := kind, issue := BitVec.allOnes 32, lanes := BitVec.allOnes 32, pc := 0, next := 8, iword := 0,
    ilen := 8, sent := true, taint := 0 } })
/-- The atomic of one lane on four bytes of memory. -/
def atomEff : AtomEff :=
  { setter := 0, fn := 0, size := 4, tid := 0, scope := none,
    lanes := [{ lane := 0, va := 0x10100, loc := .mem 0x100100, page := .window, v := 1, cmp := 0 }], pc := 0 }

theorem witness_RegionsReleaseAndPointsComplete :
    ((closedWith []).wf ∧ ((closedWith []).crew ⟨0, 0, 0⟩).owner.isSome ∧ ((closedWith []).crew ⟨0, 0, 0⟩).regions.length = 2 ∧
      ((closedWith []).crew ⟨0, 0, 0⟩).releasable 100000 ∧ (((closedWith []).crew ⟨0, 0, 0⟩).regions.map (fun g => g.last)) = [false, false] ∧
      ((closedWith []).crew ⟨0, 0, 0⟩).point = none) ∧
    (((closedWith [.bara 0xFFF0 1 1]).crew ⟨0, 0, 0⟩).releasable 100000 ∧
      (((closedWith [.bara 0xFFF0 1 1]).crew ⟨0, 0, 0⟩).owner.map (fun o => o.gslot)) = some (some 0) ∧
      ((closedWith [.bara 0xFFF0 1 1]).group 0 0).isSome ∧
      (closedWith [.bara 0xFFF0 1 1]).pendingTxs ⟨0, 0, 0⟩ 1 (fun x => x.ord != 2 && x.req.openAtGroup) = []) ∧
    (((closedWith [.engine 4 3] (engaged 4 zop)).crew ⟨0, 0, 0⟩).releasable 100000 ∧
      (((closedWith [.engine 4 3] (engaged 4 zop)).core 0).engines[4]?).isSome) ∧
    ((pointed (.amsg { dest := 0, index := 0, seq := 0, payload := [], addr := 0 })).hasCrew ⟨0, 0, 0⟩ ∧
      (pointed (.amsg { dest := 0, index := 0, seq := 0, payload := [], addr := 0 })).pointReady ⟨0, 0, 0⟩ ∧
      ((pointed (.amsg { dest := 0, index := 0, seq := 0, payload := [], addr := 0 })).core 0).arrivals = [] ∧
      ∀ x ∈ (pointed (.amsg { dest := 0, index := 0, seq := 0, payload := [], addr := 0 })).pointTxs ⟨0, 0, 0⟩,
        x.answer = some (.accepted true)) ∧
    ((pointed (.atom atomEff 63 true)).pointReady ⟨0, 0, 0⟩ ∧ atomEff.size = 4 ∧ 63 < 64 ∧
      uncertainLanes ((pointed (.atom atomEff 63 true)).pointTxs ⟨0, 0, 0⟩) = [] ∧
      damagedLanes ((pointed (.atom atomEff 63 true)).pointTxs ⟨0, 0, 0⟩) = [] ∧
      ((pointed (.atom atomEff 63 true)).core 0).arrivals = []) := by and_intros <;> decide +kernel

/-- The group of slot 0 has completed, of a launch of two groups. -/
def finished : State :=
  (quiet.modGroup 0 0 (fun g => { g with completed := 1 })).modLaunch 0 (fun l => { l with target := 2 })
/-- A thread of the crew waits at an object of the scratchpad, or on a timeline. -/
def waiting (a : Await) : State :=
  late (2 ^ 60) (crewed (fun w => { w with threads := modifyAt w.threads 31 (fun h => { h with run := .barrier a 0 }) })
    (quiet.modLaunch 0 (fun l => { l with header := { l.header with toexp := 16 } })))

theorem witness_GroupsCompleteAndContextsEnd :
    ((finished.group 0 0).isSome ∧ finished.groupDone 0 0 ∧ (finished.launch? 0).map (fun l => (l.counter + 1 == l.target, l.status)) = some (false, none)) ∧
    (let s := crewed (fun w => { w with dying := some 6, entryClosed := 9999 })
     (s.crew ⟨0, 0, 0⟩).dying = some 6 ∧ (s.crew ⟨0, 0, 0⟩).dead ∧ (s.launch? 0).map (fun l => (l.ctx, l.status)) = some (1, none) ∧
      (s.crew ⟨0, 0, 0⟩).owner.map (fun o => o.ctx) = some 1) ∧
    (let c : AsyncCause := { cls := 5, code := 2, lanes := 0x80000000, addrs := [], auxs := [], kept := false, held := false }
     let s := crewed (fun w => { w with async := [c, { c with cls := 4 }] })
     lowestCause (s.crew ⟨0, 0, 0⟩).async = some { c with cls := 4 } ∧ (s.crew ⟨0, 0, 0⟩).pendingTrap = none ∧
      (s.crew ⟨0, 0, 0⟩).handling = none ∧ (s.crew ⟨0, 0, 0⟩).gambit = none) ∧
    ((waiting (.timeline 0 5)).timeoutDue ⟨0, 0, 0⟩ ∧ (waiting (.timeline 0 5)).firstTimeout ⟨0, 0, 0⟩ = some (31, .timeline 0 5) ∧
      (waiting (.parity 0xFFF0 true)).timeoutDue ⟨0, 0, 0⟩ ∧
      ((waiting (.timeline 0 5)).launchOf ⟨0, 0, 0⟩).map (fun x => x.desc.diag) = some 0) := by and_intros <;> decide +kernel


/-! ### Witnesses: homes, answers, engines, banks, windows -/

/-- A transaction of the placed crew at slice 0. -/
def tx0 (req : Req) (answer : Option Answer := none) (resends : Nat := 0) : Tx :=
  { id := 0, core := 0, crew := some ⟨0, 0, 0⟩, lslot := some 0, lanes := 1, ord := 0, page := .plain, out := true, sig := none,
    home := .slice 0, req := req, sent := 0, serveAt := 0, dueAt := 0,
    after := [], resends := resends, lost := false, lows := none, answer := answer, tag := none }
/-- The network holds one transaction. -/
def inFlight (x : Tx) (s : State := quiet) : State := { s with net := { s.net with txs := [x] } }
/-- A write of four bytes of the placed page. -/
def write4 : WriteReq :=
  { crew := ⟨0, 0, 0⟩, setter := 4, bytes := [(.mem 0x1000FC, [1, 2, 3, 4])], descs := [], rel := none, stats := [] }
/-- A message's parameters for handler 15 of core 0. -/
def msg0 : MessageReq := { dest := 0, index := 15, seq := 1, payload := List.replicate 32 9, addr := 0 }
/-- The crew's core holds a handler crew, in its partition. -/
def handled : State :=
  { noted with sched := { noted.sched with parts := [(0, { cores := 1, vaults := 1 })] } }
/-- A home that is no outside party. -/
theorem slice_inside (k : Nat) : ∀ n, HomeId.slice k ≠ .outside n := nofun

theorem witness_HomesServeRequests :
    (((inFlight (tx0 (.read (.mem 0x100080) .fill true false false))).tx 0).isSome ∧
      (inFlight (tx0 (.read (.mem 0x100080) .fill true false false))).servable (tx0 (.read (.mem 0x100080) .fill true false false)) ∧
      (inFlight (tx0 (.read (.mem 0x100080) .fill true false false))).together (tx0 (.read (.mem 0x100080) .fill true false false)) =
        [tx0 (.read (.mem 0x100080) .fill true false false)]) ∧
    (let x := { tx0 (.read (.mem 0x500000000000) .fill false true false) with home := .outside 0 }
     (inFlight x).tx 0 = some x ∧ (inFlight x).servable x ∧
      (inFlight x).together x = [x]) ∧
    ((inFlight (tx0 (.write write4))).wf ∧ (inFlight (tx0 (.write write4))).servable (tx0 (.write write4)) ∧
      (inFlight (tx0 (.write write4))).together (tx0 (.write write4)) = [tx0 (.write write4)] ∧
      (inFlight (tx0 (.write write4))).touchesObject (.mem 0x1000FC) 4 = false ∧
      ((inFlight (tx0 (.write write4))).home (.slice 0)).writes = []) ∧
    ((inFlight (tx0 (.atomic atomEff ⟨0, 0, 0⟩ true (0, 0) false))).wf ∧
      (inFlight (tx0 (.atomic atomEff ⟨0, 0, 0⟩ true (0, 0) false))).servable (tx0 (.atomic atomEff ⟨0, 0, 0⟩ true (0, 0) false)) ∧
      (inFlight (tx0 (.atomic atomEff ⟨0, 0, 0⟩ true (0, 0) false))).together (tx0 (.atomic atomEff ⟨0, 0, 0⟩ true (0, 0) false)) =
        [tx0 (.atomic atomEff ⟨0, 0, 0⟩ true (0, 0) false)] ∧
      (inFlight (tx0 (.atomic atomEff ⟨0, 0, 0⟩ true (0, 0) false))).touchesObject (.mem 0x100100) 4 = false ∧
      quiet.blockFault (quiet.descAt (Loc.mem 0x100100).block) (Loc.mem 0x100100).block = none ∧
      ((inFlight (tx0 (.atomic atomEff ⟨0, 0, 0⟩ true (0, 0) false))).homeOf (.mem 0x100100) false) = .slice 0 ∧
      isPair atomEff.fn = false ∧ ((inFlight (tx0 (.atomic atomEff ⟨0, 0, 0⟩ true (0, 0) false))).home (.slice 0)).atoms = []) ∧
    ((inFlight (tx0 (.message msg0 ⟨0, 0, 0⟩ 0 15)) handled).servable (tx0 (.message msg0 ⟨0, 0, 0⟩ 0 15)) ∧
      (inFlight (tx0 (.message msg0 ⟨0, 0, 0⟩ 0 15)) handled).inPartition 1 0 ∧
      (handled.core 0).handlers.any (fun h => h.lslot == 0) ∧ (handled.core 0).inbound.length < 64) ∧
    ((inFlight (tx0 (.message msg0 ⟨0, 0, 0⟩ 0 15))).servable (tx0 (.message msg0 ⟨0, 0, 0⟩ 0 15)) ∧
      (quiet.core 0).handlers.any (fun h => h.lslot == 0) = false) := by and_intros <;> decide +kernel

/-- A response whose clear is due. -/
def resp0 : Response :=
  { serial := 2 ^ 20 - 1, core := 0, tagged := true, tx := none, write := none, undo := .none, served := 0, due := 0,
    fill := none, updates := [] }
/-- A home holds the response. -/
def responded (h : HomeId) (x : Response) (s : State := quiet) : State := s.modHome h (fun k => { k with responses := [x] })
/-- A notice for core 0. -/
def notice0 : Notice := { core := 0, tag := ⟨1024, 0⟩, due := 0 }
/-- The crew's region holds the notice's tag. -/
def taggedCrew : State := crewed (fun w => { w with regions := w.regions.map (fun g => { g with tags := [⟨1024, 0⟩] }) })

theorem witness_ClearsAndRedos :
    (((responded (.slice 0) resp0).home (homeOfSel 0)).responses = [resp0] ∧ resp0.clearAt ≤ (late 32).cycle) ∧
    (arrived [notice0] 0 0 = some notice0) ∧
    (let s := { taggedCrew with net := { taggedCrew.net with redos := [notice0] } }
     arrived s.net.redos 0 s.cycle = some notice0 ∧ bits s.pkg.log.base.toNat 3 0 = 0 ∧ (s.crew ⟨0, 0, 0⟩).owner.isSome ∧
      (s.crew ⟨0, 0, 0⟩).regions.length = 1 ∧ (s.crew ⟨0, 0, 0⟩).point = none ∧
      (s.crew ⟨0, 0, 0⟩).regions.any (fun h => h.tags.any (fun x => x.named notice0.tag))) := by
  and_intros <;> decide +kernel

/-- A load of one word into G63 in lane 31, of whose bytes the last line is due. -/
def load0 : LoadRec :=
  { setter := 9, region := 0, kind := .plain, dst := [(63, 0x80000000)], size := 4, sx := false, taint := 0,
    reads := [{ lane := 31, va := 0x100FC, loc := .mem 0x1000FC, known := [none, none, none, none], sig := .empty }],
    desc := none, descOk := 0, badDesc := 0, badData := 0, left := 1, tagged := false, performed := none, pc := 0,
    iword := 0, ilen := 8, part := 0x80000000, snaps := [],
    memo := none }
/-- The answer that a line of zeros is. -/
def line0 : Answer := .line (List.replicate 128 7) [(0, 0), (0, 0)] [false, false] none
/-- A lost transaction. -/
def lost (x : Tx) : Tx := { x with lost := true }

/-- Nothing else ends with a request, where its launch is a given one. -/
def endsAlone (s : State) (x : Tx) : Bool :=
  (s.core x.core).arrivals.isEmpty && ((x.lslot.bind s.launch?).map (fun l => l.status != some (1, 0) && l.counter != l.target)) == some true
theorem ends_alone {s : State} {x : Tx} (h : endsAlone s x = true) : Claims.EndsAlone s x := by
  unfold endsAlone at h
  simp only [Bool.and_eq_true, List.isEmpty_iff, beq_iff_eq] at h
  refine ⟨h.1, fun n l hn hl => ?_⟩
  have h2 := h.2
  rw [hn, Option.bind_some, hl] at h2
  simpa using h2

theorem witness_AnswersReturn :
    (let x := tx0 (.read (.mem 0x100080) (.load ⟨0, 0, 0⟩ 9) true false false) (some line0)
     let s := inFlight x (crewed (fun w => { w with loads := [load0] }))
     s.tx 0 = some x ∧ s.answered x ∧ s.hasCrew ⟨0, 0, 0⟩ ∧ endsAlone s x ∧
      (s.crew ⟨0, 0, 0⟩).loads.find? (fun y => y.setter == 9) = some load0 ∧ load0.left = 1 ∧
      (load0.take (.mem 0x100080) (List.replicate 128 7) [(0, 0), (0, 0)] [false, false] none).failures = []) ∧
    (let x := tx0 (.write write4) (some .ack)
     (inFlight x).answered x ∧ (inFlight x).ofPoint x = false ∧ endsAlone (inFlight x) x ∧ quiet.hasCrew write4.crew) ∧
    (let x := lost (tx0 (.atomic atomEff ⟨0, 0, 0⟩ true (0, 0) false) none 2)
     (inFlight x (late 65536)).overdue x ∧ x.resends < 3) ∧
    (let x := lost (tx0 (.atomic atomEff ⟨0, 0, 0⟩ true (0, 0) false) none 3)
     (inFlight x (late 65536)).overdue x ∧ 3 ≤ x.resends) ∧
    (let x := lost (tx0 (.write write4) none 6)
     (inFlight x (late 65536)).overdue x ∧ x.resends < 7) ∧
    (let x := lost (tx0 (.write write4) none 7)
     (inFlight x (late 65536)).overdue x ∧ 7 ≤ x.resends) ∧
    ((late 2048).core 0).acc.rotateAt + Config.epoch ≤ (late 2048).clock 0 := by and_intros <;> decide +kernel

/-- A copy's run of 64 bytes within the placed page. -/
def run0 : CopyRun :=
  { va := 0x10100, src := .mem 0x100100, dst := .mem 0x100200, len := 64, srcPage := .window, dstPage := .window }
/-- A copy that has started, released, with a unit staged. -/
def copyOp (units : List Staged) : EngOp :=
  { zop with tl := 0, work := .copy [run0] none, started := some 0, released := true, step := units.length, staged := units,
             readDone := some 0 }
/-- The staged unit of that copy. -/
def unit0 : Staged :=
  { writes := [(.mem 0x100200, List.replicate 64 5)], descs := [], done := 0, tags := [], credit := 0, stats := [], add := none }
/-- Unit 0 or 4 of core 0 is the selected one, at a cycle at which everything staged has lasted W. -/
def atUnit (u : Nat) (o : EngOp) : State := engaged u o (late 100000 (quiet 0 u 0))

theorem witness_EnginesStartStageAndLand :
    ((atUnit 4 zop).startable 0 4 = some zop) ∧
    (let o := { zop with started := some 0 }
     (atUnit 4 o).stepDue 0 4 = some o ∧ ((atUnit 4 o).group 0 0).isSome ∧
      ((atUnit 4 o).group 0 0).map (fun g => g.tiles.length) = some 8) ∧
    ((atUnit 0 (copyOp [])).stepDue 0 0 = some (copyOp []) ∧
      (sliceRuns (Config.chunk * 0) Config.chunk [run0]).all (fun x => ((atUnit 0 (copyOp [])).opFault (copyOp []) x.1.src.block).isNone)) ∧
    ((atUnit 0 (copyOp [unit0])).wf ∧ (atUnit 0 (copyOp [unit0])).landDue 0 0 = some (copyOp [unit0]) ∧
      (atUnit 0 (copyOp [unit0])).touchesObject (.mem 0x100200) 64 = false ∧ (copyOp [unit0]).total ≤ (copyOp [unit0]).step ∧
      (atUnit 0 (copyOp [unit0])).homeOf (.mem 0x100200) ((copyOp [unit0]).thg (.mem 0x100200)) = .slice 0) ∧
    (let o := { copyOp [unit0, unit0] with total := 2 }
     (atUnit 0 o).landDue 0 0 = some o) := by and_intros <;> decide +kernel

/-- Bank 31 of core 0 is in a state. -/
def banked (x : BankState) (s : State := quiet 0 31) : State := s.modBank 0 31 (fun b => { b with state := x })

theorem witness_BanksAndCircuitsInTime :
    (((banked (.opening 6143 4 40 false) (late 4 (quiet 0 31))).bank 0 31).state = .opening 6143 4 40 false ∧
      4 ≤ (late 4 (quiet 0 31)).clock 0) ∧
    (((banked (.opening 6143 4 40 true) (late 40 (quiet 0 31))).bank 0 31).state = .opening 6143 4 40 true ∧
      40 ≤ (late 40 (quiet 0 31)).clock 0) ∧
    ((banked (.open_ 6143) (late (146 * 31) (quiet 0 31))).refreshBegins 0 31 ∧
      ((banked (.open_ 6143) (late (146 * 31) (quiet 0 31))).bank 0 31).holdsRow) ∧
    ((late (146 * 31 + Config.refreshLen) (quiet 0 31)).refreshEnds 0 31) ∧
    (let c : Circuit := { id := 5, owner := .group 0, dest := 0, left := 1, reserved := true, lastUse := 0 }
     ((quiet.modCore 0 (fun k => { k with circuits := [c] })).core 0).circuits.find? (fun x => x.id == 5) = some c ∧
      c.idleDue 512 ∧ c.idleDue 511 = false) := by and_intros <;> decide +kernel

/-- A window change of core 0's cluster. -/
def change0 (applied : Option (Option (Nat × Nat))) : WindowChange :=
  { core := 0, gslot := 0, off := 0xFF80, writer := some (0, 0), due := 0, crew := ⟨0, 0, 0⟩, setter := 4, applied := applied }
/-- Core 0 has the change. -/
def changing (a : Option (Option (Nat × Nat))) : State := quiet.modCore 0 (fun k => { k with windowChanges := [change0 a] })
/-- An update of the last byte of a range part. -/
def upd0 (cleared sent applied nacked : Bool) : Update :=
  { id := 0, home := .slice 0, core := 0, gslot := 0, sub := 63, part := 0, seq := 16, runs := [(0x10007F, [3])], detour := 0, cleared := cleared,
    sent := sent, due := 0, applied := applied, nacked := nacked }
/-- The subscription whose part it updates. -/
def sub0 : Subscription :=
  { id := 63, released := true, op := 0, vaultLocal := false, tl := 0, len := 128, lva := 0, gva := 0,
    parts := [{ home := .slice 0, lines := [(0x100000, .scratch 0 0xFF80)], next := 16, started := true }] }
/-- The state with the update, its home's part and its subscriber. -/
def updating (u : Update) : State :=
  let s := (quiet.modHome (.slice 0) (fun h => { h with parts :=
    [{ core := 0, gslot := 0, sub := 63, part := 0, lines := [0x100000], next := 17, oldest := 0 }] })).modGroup 0 0
      (fun g => { g with subs := [sub0] })
  { s with net := { s.net with updates := [u] } }

theorem witness_WindowsAndUpdates :
    (changing none).windowDue 0 = some (change0 none) ∧ (changing (some none)).windowDue 0 = some (change0 (some none)) ∧
    ((updating (upd0 true false false false)).update? 0 = some (upd0 true false false false) ∧
      (updating (upd0 true false false false)).sendable (upd0 true false false false)) ∧
    ((upd0 true true false true).nacked ∧ (upd0 true true false true).due ≤ quiet.cycle) ∧
    ((upd0 true true true false).applied ∧ (upd0 true true true false).due ≤ quiet.cycle) ∧
    (let s := updating (upd0 true true false false)
     s.wf ∧ s.applicable (upd0 true true false false) ∧
      (s.subPart (upd0 true true false false)).map (fun x => x.2.place 0x10007F) = some (some ((Loc.scratch 0 0xFF80).plus 127)) ∧
      s.touchesObject ((Loc.scratch 0 0xFF80).plus 127) 1 = false ∧ s.homeOf ((Loc.scratch 0 0xFF80).plus 127) false = .port 0) := by
  and_intros <;> decide +kernel


/-! ### Witnesses: queues, launches, pre-emption, the fleet -/

/-- The descriptor of queue 63: its ring at 0x300000 with 16 entries, enabled, ADMIN, of context 1, one command to take. -/
def qdesc : List Byte :=
  toBytes 8 0x300000 ++ [4, 7] ++ toBytes 2 1 ++ toBytes 4 3 ++ toBytes 4 (2 ^ 32 - 1) ++ toBytes 4 0 ++ List.replicate 40 0
/-- A command at the ring's last entry. -/
def queued (c : List Byte) (desc : List Byte := qdesc) : State :=
  let s := quiet 63
  let cells := cellsWrite (cellsWrite s.mem.cells (0x200000 + 64 * 63) desc) (0x300000 + 128 * 15) c
  { s with
    mem := { s.mem with cells := cells }
    sched := { s.sched with
      qtbase := 0x200000, queues := [{ q := 63, look := true, blockedAt := 0, fullSince := none }],
      parts := [(0, { cores := 1, vaults := 1 })] }
    pkg := { s.pkg with regs := { s.pkg.regs with engines := [0], adminq := BitVec.ofNat 64 (2 ^ 31 + 63 * 2 ^ 16) } } }
/-- A command of a code with its operands. -/
def cmd (opc : Nat) (ops : List Byte) : List Byte := [BitVec.ofNat 8 opc] ++ List.replicate 71 0 ++ ops
/-- A command at the front of queue 63 may start. -/
def ready (opc : Nat) (s : State) : Bool :=
  match s.queueDesc 63 with
  | some d => s.wf && s.takesFrom 63 && s.commandCode d == opc && s.verdict 63 d (s.commandBytes d) == .ready &&
      s.descAddr 63 % 64 == 0 && s.homeOf (.mem (s.descAddr 63)) false == .slice 0
  | none => false
/-- The descriptor of a launch whose image cannot be read: a cast image is not needed to open one. -/
def openCmd : List Byte := toBytes 8 4 ++ toBytes 8 0x400000 ++ toBytes 8 0 ++ toBytes 8 1
/-- A header that passes R45, its code of 0x100 bytes. -/
def header0 : List Byte :=
  let h := toBytes 4 0x4B584749 ++ toBytes 2 1 ++ toBytes 2 256 ++ toBytes 4 0 ++ toBytes 4 0 ++ List.replicate 16 0 ++
    toBytes 8 0x100 ++ toBytes 8 0x100 ++ toBytes 2 32 ++ toBytes 2 1 ++ toBytes 2 1 ++ [32, 0] ++ List.replicate 200 0
  h.take 12 ++ toBytes 4 (crc32c h) ++ h.drop 16
/-- A descriptor of that image at 0x10000, one group. -/
def desc0 : List Byte :=
  toBytes 8 0x10000 ++ toBytes 8 0 ++ toBytes 4 1 ++ toBytes 4 1 ++ toBytes 4 1 ++ toBytes 4 1 ++ toBytes 8 0 ++ toBytes 8 0x20000 ++
    List.replicate 80 0
/-- A LAUNCH whose descriptor and image can be read. -/
def launching : State :=
  let s := queued (cmd 1 (toBytes 8 0x500000))
  { s with mem := { s.mem with cells := cellsWrite (cellsWrite s.mem.cells 0x500000 desc0) placePa header0 } }

theorem witness_QueueCommandsHaveTheirEffects :
    ready 0 (queued (cmd 0 [])) ∧
    (ready 1 launching ∧ launching.readDesc (.phys 0x500000) = some desc0 ∧ freeEntry launching.sched.launches = some 1 ∧
      (let d := queueDescOf qdesc
       let x := descriptorOf desc0
       let hb := launching.readHeader d.ctx x
       let l0 := launchEntry d.ctx 0x500000 d.prio none x (headerOf (hb.getD []))
       launching.launchFails hb desc0 (if launching.launchFixed hb desc0 l0 then l0.fix x.nx x.ny x.nz else l0) = none)) ∧
    (ready 2 (queued (cmd 2 openCmd)) ∧ freeEntry (queued (cmd 2 openCmd)).sched.levels = some 0) ∧
    (let s := (queued (cmd 3 (toBytes 8 0x400000))).modLaunch 0 (fun l => { l with recAddr := .phys 0x400000 })
     ready 3 s ∧ s.levelAt 1 (.phys 0x400000) = none ∧ s.launchAt 1 (.phys 0x400000) = some 0 ∧
      (s.launch? 0).map (fun x => x.status) = some none) ∧
    (let s := queued (cmd 4 (toBytes 8 0x400FF8 ++ toBytes 8 7))
     ready 4 s ∧ Loc.overlaps (.mem 0x400FF8) 8 (.mem (s.descAddr 63 + 0x10)) 4 = false ∧ (s.recPa (.phys 0x400FF8) true).map (fun x => x.1) = some 0x400FF8 ∧
      s.homeOf (.mem 0x400FF8) false = .slice 0) ∧
    ready 5 (queued (cmd 5 (toBytes 2 0xFFFF))) ∧ ready 6 (queued (cmd 6 (toBytes 8 4095))) ∧
    ready 7 (queued (cmd 7 (toBytes 8 4095 ++ toBytes 8 0x2000 ++ toBytes 8 0x400 ++ [63, 3]))) := by
  and_intros <;> decide +kernel

/-- What a queue's verdict is on a command. -/
def verdictOf (s : State) : Option (Nat × Verdict) :=
  (s.queueDesc 63).map (fun d => (s.commandCode d, s.verdict 63 d (s.commandBytes d)))
/-- A command that waits for the word at 0x400000 to reach 1. -/
def waits1 : List Byte := [0, 1, 1, 0] ++ List.replicate 4 0 ++ toBytes 8 0x400000 ++ toBytes 8 1 ++ List.replicate 104 0

theorem witness_QueuesWaitAndHalt :
    ((queued []).wf ∧ 63 < 64 * (queued []).engineCount ∧ (queued []).descAddr 63 % 64 = 0 ∧
      (queued []).homeOf (.mem ((queued []).descAddr 63)) false = .slice 0) ∧
    64 * (queued []).engineCount ≤ 64 ∧
    (let s := queued (cmd 8 [])
     s.takesFrom 63 ∧ verdictOf s = some (0, .halt 1 0)) ∧
    (let s := queued (cmd 7 (toBytes 8 4096))
     s.takesFrom 63 ∧ verdictOf s = some (7, .halt 2 0x48)) ∧
    (let s := queued (cmd 6 (toBytes 8 4095)) (qdesc.take 12 ++ toBytes 4 1 ++ qdesc.drop 16)
     s.takesFrom 63 ∧ verdictOf s = some (6, .halt 3 0)) ∧
    (let s := queued waits1
     s.takesFrom 63 ∧ verdictOf s = some (0, .blocked)) ∧
    (let x : QueueState := { q := 63, look := false, blockedAt := 0, fullSince := some 0 }
     x.recheckDue (2 ^ 16) ∧ x.recheckDue (2 ^ 16 - 1) = false ∧ 0 + 2 ^ 20 ≤ (late (2 ^ 20)).cycle) := by
  and_intros <;> decide +kernel

/-- A state whose launch 0 has two groups and may bind them, core 0 in its partition. -/
def binding (l : Launch → Launch := id) : State :=
  handled.modLaunch 0 (fun x => l { x with target := 2, desc := { x.desc with maxGroups := 2 }, header := { x.header with tiles := 0 } })
/-- A record of its second group in the last crew slot of core 0. -/
def rec1 : BindRecord := { rec0 with group := 1, crews := 0x40000000, xsub := 8, barbase := 192 }
/-- A level without children, and the launch it does not hold. -/
def cancelled : State := (quiet 0 0).modLaunch 0 (fun l => { l with status := some (2, 0) })

/-- Core 1 has asked core 0, which holds a record of a launch whose context lets its groups be stolen. -/
def robbed : State :=
  let s := binding
  let s := (s.modCore 0 (fun k => { k with slots := [⟨rec1, none, false⟩] })).modCore 1 (fun k => { k with asked := some 0 })
  { s with
    sel := ⟨0, 1, 0⟩
    sched := { s.sched with
      parts := [(0, { cores := 3, vaults := 3 })]
      contexts := tset s.sched.contexts 1 { s.context 1 with steal := true } }
    pkg := { s.pkg with regs := { s.pkg.regs with lmap := modifyAt s.pkg.regs.lmap 1 (fun _ => 0x80000001) } } }

theorem witness_LaunchesAndRecords :
    (let s := quiet.modLaunch 0 (fun l => { l with ready := false })
     (s.launch? 0).map (fun l => (s.readyDue l, l.desc.indirect, l.target)) = some (true, false, 1)) ∧
    (let s := (cancelled.modCore 0 (fun k => { k with groups := List.replicate 32 none })).modCrew ⟨0, 0, 0⟩ (fun _ => Crew.idle)
     s.cancelReady 0 0 ∧ (s.launch? 0).map (fun l => l.graph) = some none) ∧
    (binding.bindCheck 0 rec1 false = 0 ∧ (binding.launch? 0).isSome) ∧
    binding.bindCheck 0 { rec1 with core := 1 } false = 2 ∧ binding.bindCheck 0 { rec1 with group := 2 } false = 3 ∧
    binding.bindCheck 0 { rec1 with barbase := 193 } false = 5 ∧ binding.bindCheck 0 { rec1 with crews := 0x60000000 } false = 4 ∧
    (let r : RestoreRecord := { bind := { rec1 with core := 1 }, image := 0, imglen := 0, mbz := 0 }
     r.mbz = 0 ∧ binding.bindCheck 0 r.bind true = 2) ∧
    (let s := (late 512).modCore 0 (fun k => { k with newest := some 1 })
     s.stealDue 0) ∧
    ((robbed.core 1).asked = some 0 ∧ robbed.sel = ⟨0, 1, 0⟩ ∧
      (let u := robbed.modCore 1 (fun k => { k with asked := none })
       ((u.pending 0).reverse.findSome? (fun x => (u.stealable 0 1 x).map (fun y => (x, y)))).map (fun q => q.2.restore)) =
        some none) := by
  and_intros <;> decide +kernel


/-! ### Witnesses: faults, pre-emption, the fleet, the package -/

/-- A crew of core 0 parked on a page fault of lane 31. -/
def parked0 : Parked :=
  { part := BitVec.allOnes 32, pc := 0x10000, iword := 0, ilen := 8, faults := [⟨31, 2, 1, 0x30000, 0⟩], order := 0, listed := false }
/-- The crew is parked, and the fault queue holds 32 entries. -/
def parkedState : State :=
  let s := crewed (fun w => { w with parked := some parked0, threads := w.threads.map (fun h => { h with run := .parked }) })
  { s with sched := { s.sched with fq := { s.sched.fq with base := 0x300001, head := 5, tail := 36 } } }

theorem witness_FaultQueueAnswers :
    (parkedState.nextParked = some (⟨0, 0, 0⟩, parked0) ∧ (parkedState.sched.fq.tail - 5).toNat < parkedState.fqCapacity ∧
      (parkedState.sched.fq.tail - 5).toNat + 1 = parkedState.fqCapacity ∧ parkedState.fqCapacity = 32) ∧
    (∀ x ∈ parked0.faults, x.cls = 2) ∧
    (parkedState.parkedAt 0 = some (⟨0, 0, 0⟩, parked0) ∧ (parkedState.crew ⟨0, 0, 0⟩).handling = none ∧
      parkedState.lslotOf ⟨0, 0, 0⟩ = some 0 ∧
      (parkedState.launch? 0).map (fun x => (x.ctx == parkedState.ctxOf ⟨0, 0, 0⟩, x.status)) = some (true, none)) ∧
    parkedState.parkedAt 0x8000 = none ∧ parkedState.parkedAt 0x20 = none := by and_intros <;> decide +kernel

/-- A request to save the placed group at 0x800000. -/
def pre0 : PreemptRequest := { lslot := 0, mode := 0, group := 0, core := 0, saveaddr := 0x800000, savelen := 0x100000, mbz := 0 }
/-- Core 0 holds one small group, whose crew has nothing under way. -/
def smallGroup : State := quiet.modGroup 0 0 (fun g => { g with tiles := [], scrLen := 0, crews := [] })
/-- The pre-emption of that group runs on die 0. -/
def saving : State :=
  (smallGroup.modGroup 0 0 (fun g => { g with draining := true })).modDie 0 (fun d =>
    { d with preempt := some ⟨pre0, .port, [(0, 0)], []⟩ })
/-- Core 0 without a group. -/
def bare : State := quiet.modCore 0 (fun k => { k with groups := List.replicate 32 none })

theorem bare_has_no_group (g : Nat) : bare.group 0 g = none := by
  have h : (bare.core 0).groups = List.replicate 32 none := by decide +kernel
  unfold State.group
  rw [h, List.getD_eq_getElem?_getD, List.getElem?_replicate]
  split <;> rfl

theorem witness_PreemptionFencesAndCasts :
    ((smallGroup.die 0).preempt = none ∧ (smallGroup.die 0).waiting = [] ∧
      (smallGroup.preemptCheck { pre0 with saveaddr := 0x800800 } [(0, 0)] []).1 = 1 ∧
      (smallGroup.preemptCheck { pre0 with savelen := 100 } [(0, 0)] []).1 = 2) ∧
    ((saving.die 0).preempt.isSome ∧ (saving.die 0).waiting = [] ∧ saving.preemptDue 0 ∧ saving.victimLeft (0, 0) ∧
      (saving.group 0 0).isSome ∧ (saving.launch? 0).isSome ∧ saving.backed 0x800000 (recordsBytes (saving.groupImage 0 0))) ∧
    ((late 65536 (quiet.modCore 0 (fun k => { k with evacuating := some 0 }))).evacuationLate 0) ∧
    (bare.quiescing = false ∧ bits bare.pkg.log.base.toNat 3 0 = 0 ∧ bare.logicalCore 0 = some 0 ∧ (bare.core 0).fenced = false ∧
      (bare.core 0).evacuating = none ∧ bare.pending 0 = []) ∧
    ({ quiet.pkg.regs with sliceMask := 1 <<< 255 }.sliceMask.getLsbD 255) ∧
    (quiet.quiescing = false ∧ (List.replicate 8 (0, 0)).length ≤ 8 ∧ 8 < (List.replicate 9 (0, 0)).length) ∧
    (State.reset.castWelcome ∧ quiet.castWelcome = false ∧ castParts [] = none) := by
  and_intros <;> decide +kernel

/-- Where Armature's memory takes the range, the pre-emption of the small group passes its checks. -/
theorem witness_preemption_begins (h : Config.armatureMemory 0x800000 0x100000 = true) :
    smallGroup.preemptCheck pre0 [(0, 0)] [] = (0, 0) := by
  have e : (pre0.mbz != 0 || pre0.saveaddr.toNat % 4096 != 0 || [(0, 0)].isEmpty) = false ∧
      ¬(pre0.savelen.toNat < smallGroup.largestImage [(0, 0)] []) ∧
      ((smallGroup.launch? pre0.lslot.toNat).map (fun l => l.coop || l.header.hcrews != 0)).getD false = false ∧
      pre0.saveaddr.toNat = 0x800000 ∧ pre0.savelen.toNat = 0x100000 := by decide +kernel
  obtain ⟨e1, e2, e3, e4, e5⟩ := e
  unfold State.preemptCheck
  rw [if_neg (by rw [e1]; decide), if_neg e2, e3, e4, e5, h]
  rfl

/-- Core 0 is fenced. -/
def fencedState : State := quiet.modCore 0 (fun k => { k with fenced := true })
/-- Cluster 0's test runs, or waits for its groups. -/
def tested : State := quiet.modTest 0 (fun t => { t with running := some (0, 0) })

theorem witness_ClusterResetsAndFieldTests :
    ((quiet.clusterCores 0).all (fun c => (quiet.core c).fenced) = false ∧
      ((fencedState.clusterCores 0).all (fun c => (fencedState.core c).fenced) ∧ (fencedState.cluster 0).resetUntil.isNone)) ∧
    (((quiet.modCluster 0 (fun c => { c with resetUntil := some 0 })).cluster 0).resetUntil = some 0) ∧
    (quiet.quiescing = false ∧ ({ quiet.sched.quiesce with stage := .halted }.stage != .none)) ∧
    (31 / 32 = 0 ∧ (bare.fieldTest 0).running = none ∧ (bare.fieldTest 0).waiting = [] ∧ bare.clusterIdle 31) ∧
    (((late (2 ^ 22) tested).fieldTest 0).running = some (0, 0) ∧ ((late (2 ^ 22) tested).fieldTest 0).waiting = [] ∧
      0 + 2 ^ 22 ≤ (late (2 ^ 22) tested).cycle) := by and_intros <;> decide +kernel

/-- The caps at the ends of the range, and the limits of the duty. -/
theorem witness_PowerHeatScrubbingAndCounters :
    (99 < 100 ∧ 100 ≤ 100 ∧ 2400 ≤ 2400 ∧ 2400 < 2401) ∧
    (quiet.cycle % 2 ^ 16 = 0 ∧ 8 ≤ 64 ∧ 7 < quiet.pkg.power.duty.length) ∧
    ({ quiet.pkg.power with tlimit := 105 }.tlimit.toNat < 106 ∧ 100 + 5 ≤ { quiet.pkg.power with tlimit := 105 }.tlimit.toNat) ∧
    (quiet.scrubbed 0x4000 ∧ quiet.scrubbed 0x3FFFF ∧ bits quiet.pkg.log.base.toNat 3 0 = 0) ∧
    (let s := { quiet 0x4000 with pkg := { quiet.pkg with scrubRead := some (0x4000, false, List.replicate 64 1) } }
     s.wf ∧ s.pkg.scrubRead = some (s.sel.a, false, List.replicate 64 1) ∧ s.versionOf s.sel.a = false) ∧
    (bits (19#64).toNat 5 0 < 20 ∧ 20 ≤ bits (20#64).toNat 5 0 ∧ bits (40#64).toNat 5 0 ≤ 40 ∧ 40 < bits (41#64).toNat 5 0) := by
  and_intros <;> decide +kernel

/-- A port of a link with spares and failures. -/
def linked (s : State := quiet 3) : State := s.modPort 3 (fun p => { p with spares := 1, resendAt := some 12, pausedUntil := 256 })

theorem witness_EventsAndDamage :
    (bits quiet.pkg.log.base.toNat 3 0 = 0 ∧ quiet.logicalCore 0 = some 0 ∧ (quiet.home (.port 0)).responses = [] ∧
      (quiet.home (.vault 0)).responses = [] ∧ (quiet.crew ⟨0, 0, 0⟩).owner.isSome ∧
      (quiet.crew ⟨0, 0, 0⟩).regions.length = 1 ∧ (quiet.crew ⟨0, 0, 0⟩).point = none) ∧
    (1024 ≤ 1279 ∧ 1279 < 1280 ∧ ((responded (.slice 255) resp0).home (.slice (1279 - 1024))).responses = [resp0] ∧
      resp0.tagged ∧ resp0.tx = none ∧ resp0.write = none ∧ resp0.undo = .none) ∧
    (1280 ≤ 1535 ∧ 1535 < 1536 ∧ 1023 < 1024 ∧ 1791 < 1792) ∧
    ((late 256 linked).linkDue 3 ∧ (late 255 linked).linkDue 3 = false ∧ (linked.port 3).spares ≠ 0 ∧
      (linked.port 3).failures.length < 8 ∧ ((late 256 linked).port 3).pausedUntil ≤ 256) ∧
    ((quiet.group 0 0).isSome ∧ quiet.contextsAt (.slice 0) = []) := by and_intros <;> decide +kernel

/-- A configuration block in which everything works. -/
def config0 : BootConfig :=
  { slotA := { data := [1], signature := [2], version := 0 }, slotB := blankImage, fused := 0, socket16 := true, towersOff := [],
    coresOff := [], slicesOff := [], routersOff := [], stacksOff := [], enginesOff := [], reasons := [], regions := [], parts := [], adminq := 0,
    pkgid := 0, phoacPorts := 0, pciePorts := 0, phoac := [], phase := [], tlimit := 0, rails := [] }

theorem witness_PowerOnLocksAndRegisters :
    (State.reset.regionsOk ∧ (State.reset.modRegs (fun r => { r with regions := modifyAt r.regions 63 (fun _ => 1) })).regionsOk = false ∧
      quiet.locked 0 = false) ∧
    (partyIsApp .plinth = false ∧ partyIsApp (.app 0) ∧ Party.other ≠ .plinth) ∧
    enoughWorks config0 ∧ enoughWorks { config0 with socket16 := false } = false ∧
    (let s := { quiet with pkg := { quiet.pkg with boot := { quiet.pkg.boot with stage := .running, active := 1 } } }
     s.pkg.boot.stage ≠ .off ∧ s.plinthUp ∧ quiet.plinthUp = false) := by and_intros <;> decide +kernel

/-- Plinth runs. -/
def upState : State := { quiet with pkg := { quiet.pkg with boot := { quiet.pkg.boot with stage := .running } } }
/-- PCIe window 15 of port 3 maps 64 KiB at 0x1000 to 0x100000, for reads and writes. -/
def windowed : State :=
  { quiet with pkg := { quiet.pkg with regs := { quiet.pkg.regs with 
    pcie := modifyAt quiet.pkg.regs.pcie 63 (fun _ => BitVec.ofNat 256 (0x1000 + 0x11000 * 2 ^ 64 + 0x100000 * 2 ^ 128 + 3 * 2 ^ 192)) } } }

theorem witness_SpdmAndOutsideAccesses :
    (upState.pkg.boot.stage ≠ .off ∧ upState.plinthUp ∧ quiet.plinthUp = false ∧ 1 ≤ 7) ∧
    (inAperture 0x1000FF = false ∧ quiet.cutOff 0x1000FF 1 = false ∧ quiet.reaches (.read 0x1000FF 1) ∧
      quiet.readsPoison (.read 0x1000FF 1) = false ∧ inAperture 0x3FFFFFFFFFFF = false ∧ inAperture 0x40000FFFFFFF) ∧
    (quiet.wf ∧ quiet.reaches (.write 0x10007F [1]) ∧ 0x10007F % 128 + 1 ≤ 128 ∧
      quiet.homeOf (.mem 0x10007F) false = .slice 0) ∧
    (quiet.cutOff 0x1000000 8 = false ∧ quiet.reaches (.read 0x1000000 8) = false ∧ quiet.reaches (.read 0xFFFFF8 8)) ∧
    (windowed.inbound 3 (.read 0x10FFF 1) = some 0x10FFFF ∧ windowed.inbound 3 (.read 0x11000 1) = none ∧
      windowed.inbound 2 (.read 0x10FFF 1) = none ∧ windowed.cutOff 0x10FFFF 1 = false ∧ windowed.reaches (.read 0x10FFFF 1)) ∧
    (let s := quiet.modHome (.slice 0) (fun h => { h with atoms := [{ core := packageKey 15, serial := 7, vals := [(0, 9)] }] })
     s.quiescing = false ∧ s.reaches (.fetchAdd 0x100000 8 1) ∧ s.homeOf (.mem 0x100000) false = .slice 0 ∧
      ((s.home (.slice 0)).atoms.find? (fun y => y.core == packageKey 15 && y.serial == 7)).isSome ∧
      ((s.home (.slice 0)).atoms.find? (fun y => y.core == packageKey 15 && y.serial == 8)) = none) := by
  and_intros <;> decide +kernel

/-! ### Witnesses: encoding, steps, memory -/

theorem witness_EncodingsDecodeToTheirInstruction : (Instr.ffma fl).wellFormed ∧ (encode (.ffma fl)).isSome ∧
    (Instr.brJ32 { off := 0x10000, pn := 1, pred := 31 }).wellFormed ∧
    (encode (.brJ32 { off := 0x10000, pn := 1, pred := 31 })).isSome := by decide +kernel
theorem witness_DecodedInstructionsAreTheirWords : reads 2 0x2462 (.iaddC16 { gs := 9, gd := 3 }) := by decide +kernel
theorem witness_ReservedEncodingsTrap : 0x1B ∈ Claims.reservedList ∧ 0x4F ∈ Claims.reservedList ∧ 0x05 ∈ Claims.longOnly ∧
    0x7E ∈ Claims.longOnly ∧ (0x6D#32).toNat % 4 = 1 ∧ (0x6D#32).toNat / 4 % 128 ∈ Claims.reservedList ∧
    (0x13F#64).toNat % 4 = 3 ∧ (0x13F#64).toNat / 4 % 128 ∈ Claims.reservedList ∧ (0x15#32).toNat / 4 % 128 ∈ Claims.longOnly ∧
    (0x8000#16).toNat % 2 = 0 ∧ 0x8000 ≤ (0x8000#16).toNat ∧
    (base.issue = some grp ∧ base.hasCrew grp.ref ∧ (base.crew grp.ref).gambit = none ∧ (base.crew grp.ref).handling = none ∧
      grp.part ≠ 0) := by decide +kernel

/-- An answer passes a test. -/
def okAnd {α ε : Type} (x : Except ε α) (p : α → Bool) : Bool :=
  match x with
  | .ok a => p a
  | .error _ => false
theorem ok_of {α ε : Type} {x : Except ε α} {p : α → Bool} (h : okAnd x p = true) : ∃ a, x = .ok a ∧ p a = true := by
  cases x with
  | ok a => exact ⟨a, rfl, h⟩
  | error _ => cases h

/-- The issue group of the placed code, not fetched. -/
def unfetched : Issue := { grp with len := 0, word := 0 }
/-- The fetch of a placed compact instruction finds its word. -/
def finds (w : Nat) : Bool :=
  let s := State.reset.place w
  okAnd (s.fetchBytes grp.ref unfetched.pc.toNat 2) (fun a => a.1 == toBytes 2 w &&
    (a.2.sched.kept.find? (fun k => k.ctx == s.ctxOf grp.ref && k.va == unfetched.pc.toNat)).isNone)

theorem fetches_of (w : Nat) (h : finds w = true) (hw : ofBytes (toBytes 2 w) = w) (hl : instrLength w = 2) (h2 : w < 65536)
    (hi : (State.reset.place w).issue = some unfetched) : ∃ u, Claims.Fetches (State.reset.place w) unfetched w u := by
  obtain ⟨⟨b1, b2⟩, hb, pb⟩ := ok_of h
  simp only [Bool.and_eq_true, beq_iff_eq, Option.isNone_iff_eq_none] at pb
  obtain ⟨rfl, pb⟩ := pb
  refine ⟨b2, hi, ⟨_, b2, hb, ?_, ?_, ?_⟩, ?_⟩
  · rw [hw, hl]
    exact hb
  · rw [hw, hl]
    exact h2
  · rw [hw]
    omega
  · intro k hk
    exact absurd (pb.symm.trans hk) (by simp)

theorem witness_AStepRunsTheDecodedInstruction :
    (∃ u, Claims.Fetches (State.reset.place 0x2462) unfetched 0x2462 u) ∧ okAnd (decode (toBytes 8 0x2462)) (fun x => x.1 == .iaddC16 { gs := 9, gd := 3 } && x.2 == 2) ∧
    (∃ u, Claims.Fetches (State.reset.place 0xA462) unfetched 0xA462 u) ∧ (decode (toBytes 8 0xA462)).isOk = false ∧
    ((State.reset.place 0).fetchBytes grp.ref 0x50000000 2).isOk = false :=
  ⟨fetches_of _ (by decide +kernel) (by decide) (by decide) (by decide) (by decide +kernel), by decide +kernel,
    fetches_of _ (by decide +kernel) (by decide) (by decide) (by decide) (by decide +kernel), by decide +kernel, by decide +kernel⟩

/-- The orders of the model: an event that is due, an input whose time has come, the turn of a sub-core, the next cycle. -/
theorem witness_StepsTakeTheirOrder :
    ((finished.issue = none ∧ finished.due.isSome) ∧
      (let s := { State.reset with inputs := [⟨0, ⟨.getVersion, ⟨0, 0, 0⟩⟩⟩] }
       s.issue = none ∧ s.due = none ∧ 0 ≤ s.cycle ∧ isAct .getVersion)) ∧
    (quiet.issue = none ∧ quiet.due = none ∧ quiet.nextInput = none ∧ quiet.arb = 0 ∧ (quiet.cores[0]?).isSome) ∧
    (let s := { quiet.modSub 0 0 (fun b => { b with again := true }) with arb := 1 }
     s.issue = none ∧ s.due = none ∧ s.nextInput = none ∧ 0 < s.arb ∧ (s.cores[(s.arb - 1) / 4]?).map (fun p => p.1) = some 0 ∧
      (s.sub 0 ((s.arb - 1) % 4)).again) ∧
    (State.reset.cores[0]? = none ∧ State.reset.sched.quiesce.stage = .none ∧ State.reset.nextInput = none) := by
  and_intros <;> decide +kernel

/-- Two blocks that lie apart, at the top of memory's first 64 bits and below. -/
theorem witness_WritesReadBack : State.reset.wf ∧ (Loc.mem 64).overlaps 64 (.mem 128) 64 = false ∧
    (Loc.mem 127).block ≠ (Loc.mem 128).block ∧ (Loc.scratch 0 0).overlaps 1 (.scratch 1 0) 1 = false := by decide +kernel
/-- Both the empty device and one in which a program is placed keep the form, and step. -/
theorem witness_EveryStepKeepsMemoryInForm : State.reset.wf ∧ (State.reset.place 0x2462).wf ∧
    next (step State.reset) (fun _ => true) ∧ next (step (State.reset.place 0x2462)) (fun t => t.wf) := by
  and_intros <;> decide +kernel

end Sys2Proof.Tests
end

section
/-! ## The canonical form of memory and of every scratchpad

`State.wf` reads the memory and the cores of a state alone, so an update of anything else keeps it by definition; a core
changed in neither its scratchpad nor its descriptors keeps it too. Bytes and descriptors are written through `putBytes` and
`putDesc`, which keep it by the laws of the cells and of the descriptor table. -/

namespace Sys2Proof.Machine

/-- A core's scratchpad and its descriptors are in canonical form. -/
def Core.wf (k : Core) : Bool := cellsWf k.scratch && descsWf k.descs

theorem Core.wf_iff (k : Core) : k.wf = true ↔ cellsWf k.scratch = true ∧ descsWf k.descs = true := by
  simp only [Core.wf, Bool.and_eq_true]

theorem State.wf_eq (s : State) : s.wf = (s.mem.wf && s.cores.all (fun p => p.2.wf)) := rfl

theorem State.mem_wf (s : State) (h : s.wf = true) : cellsWf s.mem.cells = true ∧ descsWf s.mem.descs = true := by
  rw [State.wf_eq, Bool.and_eq_true] at h
  simpa only [Memory.wf, Bool.and_eq_true] using h.1

/-- What holds of a table's default and of every entry holds of whatever is looked up in it. -/
theorem tget_of_all {α : Type} (q : α → Bool) (d : α) (hd : q d = true) (l : List (Nat × α)) (i : Nat)
    (h : l.all (fun p => q p.2) = true) : q (tget d l i) = true := by
  induction l with
  | nil => exact hd
  | cons p r ih =>
    simp only [List.all_cons, Bool.and_eq_true] at h
    unfold tget
    split
    · exact h.1
    · exact ih h.2

theorem tset_of_all {α : Type} (q : α → Bool) (l : List (Nat × α)) (i : Nat) (x : α) (hx : q x = true)
    (h : l.all (fun p => q p.2) = true) : (tset l i x).all (fun p => q p.2) = true := by
  induction l with
  | nil => simp [tset, hx]
  | cons p r ih =>
    simp only [List.all_cons, Bool.and_eq_true] at h
    unfold tset
    split_ifs <;> simp only [List.all_cons, Bool.and_eq_true]
    · exact ⟨hx, h.2⟩
    · exact ⟨hx, h⟩
    · exact ⟨h.1, ih h.2⟩

/-- An entry replaced by one of which q says the same leaves what q says of the whole table. -/
theorem tset_all {α : Type} (q : α → Bool) (d : α) (hd : q d = true) (l : List (Nat × α)) (i : Nat) (x : α)
    (hx : q x = q (tget d l i)) : (tset l i x).all (fun p => q p.2) = l.all (fun p => q p.2) := by
  induction l with
  | nil => simpa [tset, tget, hd] using hx
  | cons p r ih =>
    obtain ⟨k, v⟩ := p
    unfold tget at hx
    unfold tset
    split at hx
    · next hk => simp [hk, hx]
    · next hk =>
      rw [if_neg hk]
      split
      · have := tget_of_all q d hd r i
        simp only [List.all_cons]
        cases hr : r.all (fun p => q p.2) <;> simp_all
      · simp only [List.all_cons, ih hx]

theorem State.core_wf (s : State) (c : Nat) (h : s.wf = true) : (s.core c).wf = true :=
  tget_of_all Core.wf Core.reset rfl s.cores c (by rw [State.wf_eq, Bool.and_eq_true] at h; exact h.2)

/-- A core whose scratchpad and descriptors stay as they are leaves the form as it is. -/
@[simp] theorem State.modCore_wf (s : State) (c : Nat) (f : Core → Core) (hs : ∀ k, (f k).scratch = k.scratch)
    (hd : ∀ k, (f k).descs = k.descs) : (s.modCore c f).wf = s.wf := by
  have h := tset_all Core.wf Core.reset rfl s.cores c (f (s.core c)) (by simp only [Core.wf, hs, hd, State.core])
  simp only [State.wf_eq, State.modCore_mem]
  rw [← h]; rfl

/-- A core changed in a way that keeps its own form keeps the form. -/
theorem State.modCore_keeps (s : State) (c : Nat) (f : Core → Core) (h : s.wf = true)
    (hf : (s.core c).wf = true → (f (s.core c)).wf = true) : (s.modCore c f).wf = true := by
  have hc := hf (s.core_wf c h)
  rw [State.wf_eq, Bool.and_eq_true] at h ⊢
  exact ⟨h.1, tset_of_all Core.wf s.cores c _ hc h.2⟩

theorem State.mem_keeps (s : State) (m : Memory) (h : s.wf = true) (hm : m.wf = true) :
    ({ s with mem := m } : State).wf = true := by
  rw [State.wf_eq, Bool.and_eq_true] at h ⊢
  exact ⟨hm, h.2⟩

@[simp] theorem State.putBytes_wf (s : State) (p : Loc) (bs : List Byte) (h : s.wf = true) :
    (s.putBytes p bs).wf = true := by
  obtain ⟨hc, hd⟩ := s.mem_wf h
  cases p with
  | mem a =>
    simp only [State.putBytes]
    split
    · exact h
    · exact s.mem_keeps _ h (by simp only [Memory.wf, Bool.and_eq_true]; exact ⟨cellsWrite_wf bs _ a hc, hd⟩)
  | scratch c o =>
    refine s.modCore_keeps c _ h fun hk => ?_
    rw [Core.wf_iff] at hk ⊢
    exact ⟨cellsWrite_wf bs _ o hk.1, hk.2⟩

@[simp] theorem State.putDesc_wf (s : State) (p : Loc) (d : Nat × Nat) (h : s.wf = true) :
    (s.putDesc p d).wf = true := by
  obtain ⟨hc, hd⟩ := s.mem_wf h
  cases p with
  | mem a => exact s.mem_keeps _ h (by simp only [Memory.wf, Bool.and_eq_true]; exact ⟨hc, descPut_wf _ d _ hd⟩)
  | scratch c o =>
    refine s.modCore_keeps c _ h fun hk => ?_
    rw [Core.wf_iff] at hk ⊢
    exact ⟨hk.1, descPut_wf _ d _ hk.2⟩

end Sys2Proof.Machine
end

section
/-! ## Memory reads back what is written (R7, R73) -/

namespace Sys2Proof

theorem toBytes_length (n x : Nat) : (toBytes n x).length = n := by
  induction n generalizing x with
  | zero => rfl
  | succ n ih => simp [toBytes, ih]

/-- A number reads back from its n little-endian bytes modulo 256 ^ n. -/
theorem ofBytes_toBytes (n x : Nat) : ofBytes (toBytes n x) = x % 256 ^ n := by
  induction n generalizing x with
  | zero => simp [toBytes, ofBytes, Nat.mod_one]
  | succ n ih =>
    rw [toBytes, ofBytes, ih, BitVec.toNat_ofNat, Nat.pow_succ' (m := 256), Nat.mod_mul]

namespace Machine

theorem cellsRead_getElem (m : List Host.Cell) (a n k : Nat) (h : k < (cellsRead m a n).length) :
    (cellsRead m a n)[k] = cellGet m (a + k) := by
  rw [← cellsRead_getD m a n k (by simpa only [cellsRead_length] using h), List.getD_eq_getElem _ _ h]

/-- A run of bytes written is read back in order. -/
theorem cellsRead_cellsWrite_same (m : List Host.Cell) (a : Nat) (bs : List Byte) (h : cellsWf m = true) :
    cellsRead (cellsWrite m a bs) a bs.length = bs := by
  refine List.ext_getElem (cellsRead_length _ _ _) fun k hk hb => ?_
  rw [cellsRead_getElem, cellGet_cellsWrite bs m a _ h, if_pos (by omega), Nat.add_sub_cancel_left,
    List.getD_eq_getElem _ _ hb]

/-- A run of bytes that shares no address with the run written reads as before. -/
theorem cellsRead_cellsWrite_apart (m : List Host.Cell) (a b n : Nat) (bs : List Byte) (h : cellsWf m = true)
    (hab : ¬(a < b + n ∧ b < a + bs.length)) : cellsRead (cellsWrite m a bs) b n = cellsRead m b n := by
  refine List.ext_getElem (by simp only [cellsRead_length]) fun k hk _ => ?_
  rw [cellsRead_length] at hk
  rw [cellsRead_getElem, cellsRead_getElem, cellGet_cellsWrite bs m a _ h, if_neg (by omega)]

@[simp] theorem descGet_cons_self (i : Nat) (x : Nat × Nat) (r : List (Nat × Nat × Nat)) :
    descGet ((i, x) :: r) i = x := by simp [descGet]

theorem descGet_cons_ne (i j : Nat) (x : Nat × Nat) (r : List (Nat × Nat × Nat)) (h : j ≠ i) :
    descGet ((i, x) :: r) j = descGet r j := by simp [descGet, Ne.symm h]

/-- A block below every listed block has both copies zero. -/
theorem descGet_below (m : List (Nat × Nat × Nat)) (n : Nat) (h : descsAbove n m) : descGet m n = (0, 0) := by
  induction m with
  | nil => rfl
  | cons c r ih =>
    have hc : n < c.1 := h c (by simp)
    exact (descGet_cons_ne c.1 n c.2 r (Nat.ne_of_lt hc)).trans (ih fun d hd => h d (by simp [hd]))

/-- The copies just written are read back. -/
theorem descGet_descPut_same (m : List (Nat × Nat × Nat)) (i : Nat) (x : Nat × Nat) (h : descsWf m = true) :
    descGet (descPut m i x) i = x := by
  induction m with
  | nil => unfold descPut; split <;> simp_all [descGet]
  | cons c r ih =>
    obtain ⟨a, v⟩ := c
    obtain ⟨-, ha, hr⟩ := (descsWf_cons a v r).1 h
    unfold descPut
    split
    · next hai =>
      obtain rfl : a = i := by simpa using hai
      split
      · next hx => rw [descGet_below r a ha, eq_of_beq hx]
      · exact descGet_cons_self a x r
    · next hai =>
      have hia : i ≠ a := fun e => hai (by simp [e])
      split
      · next hlt =>
        split
        · next hx =>
          rw [descGet_cons_ne a i v r hia, descGet_below r i fun d hd => Nat.lt_trans hlt (ha d hd), eq_of_beq hx]
        · exact descGet_cons_self i x _
      · rw [descGet_cons_ne a i v _ hia, ih hr]

/-- The copies of every other block read as before. -/
theorem descGet_descPut_ne (m : List (Nat × Nat × Nat)) (i j : Nat) (x : Nat × Nat) (hj : j ≠ i) :
    descGet (descPut m i x) j = descGet m j := by
  induction m with
  | nil => unfold descPut; split <;> simp [descGet, Ne.symm hj]
  | cons c r ih =>
    obtain ⟨a, v⟩ := c
    unfold descPut
    split
    · next hai =>
      obtain rfl : a = i := by simpa using hai
      rw [descGet_cons_ne a j v r hj]
      split
      · rfl
      · exact descGet_cons_ne a j x r hj
    · split
      · split
        · rfl
        · exact descGet_cons_ne i j x _ hj
      · rw [descGet, descGet, ih]

/-- Bytes written at a place read back there, in order. -/
theorem State.bytesAt_putBytes_same (s : State) (p : Loc) (bs : List Byte) (h : s.wf = true) :
    (s.putBytes p bs).bytesAt p bs.length = bs := by
  cases p with
  | mem a =>
    cases bs with
    | nil => rfl
    | cons b r => exact cellsRead_cellsWrite_same _ a (b :: r) (s.mem_wf h).1
  | scratch c o =>
    simp only [putBytes, bytesAt, core_modCore]
    exact cellsRead_cellsWrite_same _ o bs ((s.core c).wf_iff.1 (s.core_wf c h)).1

/-- Bytes at a place that a write does not touch read as before. -/
theorem State.bytesAt_putBytes_apart (s : State) (p q : Loc) (bs : List Byte) (n : Nat) (h : s.wf = true)
    (hpq : p.overlaps bs.length q n = false) : (s.putBytes p bs).bytesAt q n = s.bytesAt q n := by
  cases p with
  | mem a =>
    cases bs with
    | nil => rfl
    | cons x r =>
      cases q with
      | scratch d b => rfl
      | mem b => exact cellsRead_cellsWrite_apart _ a b n (x :: r) (s.mem_wf h).1 (by simpa [Loc.overlaps] using hpq)
  | scratch c a =>
    cases q with
    | mem b => rfl
    | scratch d b =>
      simp only [putBytes, bytesAt]
      by_cases hd : d = c
      · subst hd
        rw [core_modCore]
        exact cellsRead_cellsWrite_apart _ a b n bs ((s.core d).wf_iff.1 (s.core_wf d h)).1
          (by simpa [Loc.overlaps] using hpq)
      · rw [core_modCore_ne s c d _ hd]

/-- A number written as its n little-endian bytes reads back modulo 256 ^ n. -/
theorem State.numAt_putBytes_toBytes (s : State) (p : Loc) (n x : Nat) (h : s.wf = true) :
    (s.putBytes p (toBytes n x)).numAt p n = x % 256 ^ n := by
  have hb := s.bytesAt_putBytes_same p (toBytes n x) h
  rw [toBytes_length] at hb
  rw [numAt, hb, ofBytes_toBytes]

/-- A block's copies read back as written. -/
theorem State.descAt_putDesc_same (s : State) (p : Loc) (d : Nat × Nat) (h : s.wf = true) :
    (s.putDesc p d).descAt p = d := by
  cases p with
  | mem a => exact descGet_descPut_same _ _ d (s.mem_wf h).2
  | scratch c o =>
    simp only [putDesc, descAt, core_modCore]
    exact descGet_descPut_same _ _ d ((s.core c).wf_iff.1 (s.core_wf c h)).2

/-- Places in different blocks have different block numbers in one storage. -/
theorem div_ne_of_block_ne {a b : Nat} (h : a - a % 64 ≠ b - b % 64) : b / 64 ≠ a / 64 := by omega

/-- The copies of every other block read as before. -/
theorem State.descAt_putDesc_ne (s : State) (p q : Loc) (d : Nat × Nat) (hpq : p.block ≠ q.block) :
    (s.putDesc p d).descAt q = s.descAt q := by
  cases p with
  | mem a =>
    cases q with
    | scratch e b => rfl
    | mem b =>
      have hab : b / 64 ≠ a / 64 := div_ne_of_block_ne (by simpa [Loc.block, Loc.align] using hpq)
      exact descGet_descPut_ne _ _ _ d hab
  | scratch c a =>
    cases q with
    | mem b => rfl
    | scratch e b =>
      simp only [putDesc, descAt]
      by_cases he : e = c
      · subst he
        have hab : b / 64 ≠ a / 64 := div_ne_of_block_ne (by simpa [Loc.block, Loc.align] using hpq)
        rw [core_modCore]
        exact descGet_descPut_ne _ _ _ d hab
      · rw [core_modCore_ne s c e _ he]

end Machine

open Machine

/-- Settles O58: the parts are the read-after-write and frame lemmas of the byte cells and the descriptor table, which hold
because the stored tables are in canonical form. -/
theorem writesReadBack : Obligations.WritesReadBack := by
  unfold Obligations.WritesReadBack
  intro s p h
  exact ⟨fun bs => ⟨s.bytesAt_putBytes_same p bs h, fun q n hq => s.bytesAt_putBytes_apart p q bs n h hq⟩,
    fun n x => s.numAt_putBytes_toBytes p n x h,
    fun d => ⟨s.descAt_putDesc_same p d h, fun q hq => s.descAt_putDesc_ne p q d hq⟩⟩

end Sys2Proof
end

section
/-! ## Steps that keep the canonical form

Three shapes of lemma, one for each function of the model that goes from a state to a state, in the order of the model.
`f_wf : (f s).wf = s.wf` where the function writes neither bytes nor descriptors; `f_wf`, from `s.wf = true` to
`(f s).wf = true`, where it does; `f_keeps : KeepsForm s (f s)` where it answers an outcome. -/

open Sys2Proof

namespace Sys2Proof.Machine

/-- The form says nothing about any field but the cores and the memory. -/
@[simp] theorem State.wf_mk (s : State) (a b c d e f g h i j k) :
    State.wf ⟨a,b,c,d,e,f,g,s.cores,h,s.mem,i,j,k⟩ = s.wf :=
  rfl

/-- Updates that leave the form as it is do so one after the other. -/
@[simp] theorem foldl_wf {α : Type} (g : State → α → State) (hg : ∀ t x, (g t x).wf = t.wf) (l : List α) (s : State) :
    (l.foldl g s).wf = s.wf := by
  induction l generalizing s with
  | nil => rfl
  | cons x r ih => exact (ih _).trans (hg s x)

@[simp] theorem State.ite_wf (c : Prop) [Decidable c] (s t : State) :
    (if c then s else t).wf = if c then s.wf else t.wf :=
  apply_ite State.wf c s t

@[simp] theorem State.getD_map_wf {α : Type} (s : State) (o : Option α) (f : α → State) (h : ∀ y, (f y).wf = s.wf) :
    ((o.map f).getD s).wf = s.wf := by
  cases o <;> simp [h]

theorem foldl_snd_wf {α β : Type} (g : β × State → α → β × State) (hg : ∀ a x, (g a x).2.wf = a.2.wf) (l : List α)
    (a : β × State) : (l.foldl g a).2.wf = a.2.wf := by
  induction l generalizing a with
  | nil => rfl
  | cons x r ih => exact (ih _).trans (hg a x)

/-- Every core changed at once, none in its scratchpad or its descriptors. -/
theorem State.map_cores_wf {s t : State} {g : Nat × Core → Nat × Core} (hm : t.mem = s.mem)
    (hc : t.cores = s.cores.map g) (hs : ∀ p, (g p).2.scratch = p.2.scratch) (hd : ∀ p, (g p).2.descs = p.2.descs) :
    t.wf = s.wf := by
  simp [State.wf, hm, hc, hs, hd, List.all_map, Function.comp_def]

/-- The state that an outcome goes on to, if it goes on, is in canonical form when the state before it is. -/
structure KeepsForm (s : State) (o : Host.Outcome State Fault Refusal) : Prop where
  next : ∀ t, o = .next t → s.wf = true → t.wf = true

@[simp] theorem keepsForm_next (s t : State) : KeepsForm s (.next t) ↔ (s.wf = true → t.wf = true) :=
  ⟨fun h => h.next t rfl, fun h => ⟨fun u hu => by cases hu; exact h⟩⟩

@[simp] theorem keepsForm_fault (s : State) (r : Fault) : KeepsForm s (.fault r) := ⟨fun _ h => by cases h⟩

/-- It is enough to look at an outcome from a state in canonical form. -/
theorem keepsForm_of {s : State} {o : Host.Outcome State Fault Refusal} (h : s.wf = true → KeepsForm s o) :
    KeepsForm s o :=
  ⟨fun t ht hs => (h hs).next t ht hs⟩

/-- Updates that keep the form keep it one after the other. -/
theorem foldl_keeps {α : Type} (g : State → α → State) (hg : ∀ t x, t.wf = true → (g t x).wf = true) (l : List α)
    (s : State) (h : s.wf = true) : (l.foldl g s).wf = true := by
  induction l generalizing s with
  | nil => exact h
  | cons x r ih => exact ih _ (hg s x h)

theorem foldl_snd_keeps {α β : Type} (g : β × State → α → β × State) (hg : ∀ a x, a.2.wf = true → (g a x).2.wf = true)
    (l : List α) (a : β × State) (h : a.2.wf = true) : (l.foldl g a).2.wf = true := by
  induction l generalizing a with
  | nil => exact h
  | cons x r ih => exact ih _ (hg a x h)

theorem foldl_fst_keeps {α β : Type} (g : State × β → α → State × β) (hg : ∀ a x, a.1.wf = true → (g a x).1.wf = true)
    (l : List α) (a : State × β) (h : a.1.wf = true) : (l.foldl g a).1.wf = true := by
  induction l generalizing a with
  | nil => exact h
  | cons x r ih => exact ih _ (hg a x h)

theorem State.ite_keeps {c : Prop} [Decidable c] {s t : State} (hs : s.wf = true) (ht : t.wf = true) :
    (if c then s else t).wf = true := by
  split
  · exact hs
  · exact ht

end Sys2Proof.Machine
end

section
/-! ## The operations of state, network and homes -/

open Sys2Proof

namespace Sys2Proof.Machine

/-! ### Machine/Table -/

@[simp] theorem State.modSub_wf (s : State) (c b : Nat) (f : Sub → Sub) : (s.modSub c b f).wf = s.wf := by
  simp [State.modSub]

@[simp] theorem State.modCrew_wf (s : State) (r : CrewRef) (f : Crew → Crew) : (s.modCrew r f).wf = s.wf := by
  simp [State.modCrew]

@[simp] theorem State.modKeep_wf (s : State) (r : CrewRef) (f : SlotKeep → SlotKeep) : (s.modKeep r f).wf = s.wf := by
  simp [State.modKeep]

@[simp] theorem State.modGroup_wf (s : State) (c g : Nat) (f : Group → Group) : (s.modGroup c g f).wf = s.wf := by
  simp [State.modGroup]

@[simp] theorem State.modHome_wf (s : State) (h : HomeId) (f : Home → Home) : (s.modHome h f).wf = s.wf := by rfl
@[simp] theorem State.modTx_wf (s : State) (id : Nat) (f : Tx → Tx) : (s.modTx id f).wf = s.wf := by rfl
@[simp] theorem State.dropTx_wf (s : State) (id : Nat) : (s.dropTx id).wf = s.wf := by rfl

@[simp] theorem State.modLaunch_wf (s : State) (l : Nat) (f : Launch → Launch) : (s.modLaunch l f).wf = s.wf := by
  unfold State.modLaunch
  split <;> simp

@[simp] theorem State.modDie_wf (s : State) (d : Nat) (f : DieState → DieState) : (s.modDie d f).wf = s.wf := by rfl
@[simp] theorem State.fresh_wf (s : State) : s.fresh.2.wf = s.wf := by rfl
@[simp] theorem State.spend_wf (s : State) : s.spend.wf = s.wf := by rfl

/-! ### Machine/Regs -/

@[simp] theorem State.writeReg_wf (s : State) (r : CrewRef) (k : Nat) (m : Mask) (c : Content) (taint : Mask)
    (back : Bool) : (s.writeReg r k m c taint back).wf = s.wf := by
  simp [State.writeReg]

@[simp] theorem State.writeDst_wf (s : State) (r : CrewRef) (d : Nat) (m : Mask) (c : Content) (taint : Mask)
    (back : Bool) : (s.writeDst r d m c taint back).wf = s.wf := by
  simp [State.writeDst]

/-! ### Machine/Crews -/

@[simp] theorem State.head_wf (s : State) (r : CrewRef) : (s.head r).wf = s.wf := by simp [State.head]

@[simp] theorem State.abortCode_wf (s : State) (r : CrewRef) (ab : Mask) (k code : Nat) :
    (s.abortCode r ab k code).wf = s.wf := by
  simp [State.abortCode]

@[simp] theorem State.abortLanes_wf (s : State) (r : CrewRef) (lanes : Mask) (code : Nat) :
    (s.abortLanes r lanes code).wf = s.wf := by
  simp only [State.abortLanes]
  split <;> simp

/-! ### Machine/Network -/

@[simp] theorem State.netTick_wf (s : State) : s.netTick.wf = s.wf := by simp [State.netTick]

@[simp] theorem State.inject_wf (s : State) (t : Tx) (reply : Bool) (flits : Nat) :
    (s.inject t reply flits).wf = s.wf := by
  simp [State.inject]

@[simp] theorem State.answerTx_wf (s : State) (t : Tx) (a : Answer) (f : Tx → Tx) : (s.answerTx t a f).wf = s.wf := by
  simp [State.answerTx]

/-! ### Machine/Homes -/

@[simp] theorem State.touchVault_wf (s : State) (pa : Nat) : (s.touchVault pa).wf = s.wf := by
  unfold State.touchVault
  split <;> simp

@[simp] theorem State.l1Remove_wf (s : State) (c : Nat) (hit : Nat → Bool) : (s.l1Remove c hit).wf = s.wf := by
  simp only [State.l1Remove, State.wf_mk]
  simp

@[simp] theorem State.l1Install_wf (s : State) (c : Nat) (x : L1Line) : (s.l1Install c x).wf = s.wf := by
  simp [State.l1Install]

@[simp] theorem State.l1Store_wf (s : State) (c : Nat) (p : Loc) (bs : List Byte) : (s.l1Store c p bs).wf = s.wf := by
  unfold State.l1Store
  split <;> simp

@[simp] theorem State.l1Desc_wf (s : State) (c : Nat) (p : Loc) (d : Nat) : (s.l1Desc c p d).wf = s.wf := by
  unfold State.l1Desc
  split <;> simp

@[simp] theorem State.acked_wf (s : State) (c : Nat) (p : Loc) : (s.acked c p).wf = s.wf := by
  unfold State.acked
  split <;> simp

@[simp] theorem State.respond_wf (s : State) (h : HomeId) (x : Response) : (s.respond h x).2.wf = s.wf := by
  unfold State.respond
  split <;> simp

@[simp] theorem State.stackAnswer_wf (s : State) (slice line : Nat) : (s.stackAnswer slice line).2.wf = s.wf := by
  unfold State.stackAnswer
  split <;> simp

@[simp] theorem State.modLine_wf (s : State) (slice line : Nat) (f : L2Line → L2Line) :
    (s.modLine slice line f).wf = s.wf := by
  rfl

@[simp] theorem State.l2Drop_wf (s : State) (slice line : Nat) : (s.l2Drop slice line).wf = s.wf := by rfl

@[simp] theorem State.l2WriteBack_wf (s : State) (slice line : Nat) (leave : Bool) :
    (s.l2WriteBack slice line leave).wf = s.wf := by
  simp [State.l2WriteBack]

@[simp] theorem State.l2Evict_wf (s : State) (slice line : Nat) : (s.l2Evict slice line).wf = s.wf := by
  unfold State.l2Evict
  dsimp only
  (repeat' split) <;> simp

@[simp] theorem State.l2Use_wf (s : State) (h : HomeId) (p : Loc) (page : Page) (write : Bool) :
    (s.l2Use h p page write).2.wf = s.wf := by
  unfold State.l2Use
  dsimp only
  (repeat' split) <;> simp

@[simp] theorem State.reach_wf (s : State) (h : HomeId) (p : Loc) (page : Page) (write : Bool) :
    (s.reach h p page write).2.wf = s.wf := by
  unfold State.reach
  split <;> simp

@[simp] theorem State.scratchConflict_wf (s : State) (core off len : Nat) (by_ : CrewRef) :
    (s.scratchConflict core off len by_).wf = s.wf := by
  refine foldl_wf _ (fun st r => ?_) _ s
  split
  · rfl
  · split <;> simp

@[simp] theorem State.publish_wf (s : State) (h : HomeId) (p : Loc) (bs : List Byte) :
    (s.publish h p bs).2.wf = s.wf := by
  cases p with
  | scratch => rfl
  | mem a =>
    refine foldl_snd_wf _ (fun acc t => ?_) _ ([], s)
    dsimp only
    split <;> simp

@[simp] theorem State.forgetRaced_wf (s : State) (p : Raced → Bool) : (s.forgetRaced p).wf = s.wf := by rfl

@[simp] theorem State.settleRaced_wf (s : State) (by_ : CrewRef) (p : Loc) (n : Nat) :
    (s.settleRaced by_ p n).wf = s.wf := by
  rfl

@[simp] theorem State.putRun_wf (s : State) (h : HomeId) (by_ : CrewRef) (page : Page) (p : Loc) (bs : List Byte)
    (hw : s.wf = true) : (s.putRun h by_ page p bs).2.wf = true := by
  simp only [State.putRun, State.publish_wf, State.settleRaced_wf]
  cases p with
  | mem a => simp [hw]
  | scratch c o =>
    rw [State.scratchConflict_wf]
    exact foldl_keeps _ (fun st x hs => State.putBytes_wf st x.1 x.2 hs) _ s hw

@[simp] theorem State.sendOut_wf (s : State) (p : Loc) (bs : List Byte) : (s.sendOut p bs).wf = s.wf := by rfl

theorem State.putDescs_wf {α : Type} (l : List α) (p : α → Loc) (d : α → Nat × Nat) (s : State) (h : s.wf = true) :
    (l.foldl (fun (st : State) x => st.putDesc (p x) (d x)) s).wf = true :=
  foldl_keeps _ (fun st x hs => State.putDesc_wf st (p x) (d x) hs) l s h

@[simp] theorem State.applyWrite_wf (s : State) (h : HomeId) (w : WriteReq) (sig : Option Sig) (hw : s.wf = true) :
    (s.applyWrite h w sig).2.2.wf = true := by
  have runs : ∀ g, (w.bytes.foldl (fun (acc : List Nat × State) b =>
      (acc.1 ++ (acc.2.putRun g w.crew w.page b.1 b.2).1, (acc.2.putRun g w.crew w.page b.1 b.2).2))
      ([], s)).2.wf = true := fun g =>
    foldl_snd_keeps _ (fun acc b ha => State.putRun_wf acc.2 g w.crew w.page b.1 b.2 ha) _ ([], s) hw
  simp only [State.applyWrite]
  split
  · exact foldl_keeps _ (fun st b hs => by simp [hs]) _ s hw
  · have done := State.putDescs_wf w.descs (fun d => d.1) (fun d => (d.2, d.2)) _ (runs h)
    split
    · rwa [State.modHome_wf]
    · exact done

@[simp] theorem State.writeFor_wf (s : State) (h : HomeId) (w : WriteReq) (reply : Option HeldReply)
    (hw : s.wf = true) : (s.writeFor h w reply).wf = true := by
  simp [State.writeFor, hw]

@[simp] theorem State.writeNow_wf (s : State) (h : HomeId) (w : WriteReq) (hw : s.wf = true) :
    (s.writeNow h w).wf = true := by
  simp [State.writeNow, hw]

@[simp] theorem State.atomWrite_wf (s : State) (h : HomeId) (by_ : CrewRef) (page : Page) (p : Loc) (bs : List Byte)
    (hw : s.wf = true) : (s.atomWrite h by_ page p bs).2.wf = true := by
  unfold State.atomWrite
  split <;> simp [hw]

theorem State.atomLanes_wf (s : State) (h : HomeId) (e : AtomEff) (by_ : CrewRef) (step : Nat) (l : List AtomLane)
    (hw : s.wf = true) : (s.atomLanes h e by_ step l).state.wf = true := by
  induction l generalizing s with
  | nil => exact hw
  | cons x r ih =>
    simp only [State.atomLanes]
    split
    · exact ih _ (by simp [hw])
    · refine ih _ ?_
      split <;> simp [hw]

@[simp] theorem State.atomSig_wf (s : State) (h : HomeId) (e : AtomEff) (sig : Option Sig) (returning : Bool) :
    (s.atomSig h e sig returning).2.wf = s.wf := by
  unfold State.atomSig
  split <;> simp

@[simp] theorem State.revert_wf (s : State) (h : HomeId) (x : Response) (hw : s.wf = true) :
    (s.revert h x).wf = true := by
  simp only [State.revert, State.wf_mk, State.modHome_wf]
  exact State.putDescs_wf _ _ _ _ (foldl_keeps _ (fun st b hs => State.putBytes_wf st b.1 b.2 hs) _ s hw)

@[simp] theorem State.lineData_wf (s : State) (h : HomeId) (p : Loc) : (s.lineData h p).2.wf = s.wf := by
  unfold State.lineData
  split <;> simp

@[simp] theorem State.lineAnswer_wf (s : State) (h : HomeId) (p : Loc) (acq : Bool) :
    (s.lineAnswer h p acq).2.wf = s.wf := by
  simp [State.lineAnswer]

@[simp] theorem State.l1Fill_wf (s : State) (core line sent : Nat) (data : List Byte) (descs : List (Nat × Nat))
    (tag : Option Tag) : (s.l1Fill core line sent data descs tag).wf = s.wf := by
  simp [State.l1Fill]

@[simp] theorem State.serveRead_wf (s : State) (t : Tx) (p : Loc) (install past acq : Bool) :
    (s.serveRead t p install past acq).wf = s.wf := by
  simp only [State.serveRead]
  split <;> simp

@[simp] theorem State.serveWrite_wf (s : State) (t : Tx) (w : WriteReq) (h : s.wf = true) :
    (s.serveWrite t w).wf = true := by
  simp [State.serveWrite, h]

@[simp] theorem State.l1Atomic_wf (s : State) (t : Tx) (e : AtomEff) (tag : Option Tag) :
    (s.l1Atomic t e tag).wf = s.wf := by
  unfold State.l1Atomic
  split <;> simp

@[simp] theorem State.serveAtomic_wf (s : State) (t : Tx) (e : AtomEff) (crew : CrewRef) (point : Bool)
    (ident : Nat × Nat) (resend : Bool) (h : s.wf = true) :
    (s.serveAtomic t e crew point ident resend).wf = true := by
  simp only [State.serveAtomic]
  split
  · simp [h]
  split
  · simp [h]
  split
  · simp [State.atomLanes_wf, h]
  · simp [apply_ite State.wf, State.atomLanes_wf, h]

@[simp] theorem State.serveTx_wf (s : State) (t : Tx) (h : s.wf = true) : (s.serveTx t).wf = true := by
  unfold State.serveTx
  split <;> simp [h]

@[simp] theorem State.redoWrite_wf (s : State) (h : HomeId) (x : Response) (w : WriteReq) (hw : s.wf = true) :
    (s.redoWrite h x w).wf = true := by
  simp [State.redoWrite, hw]

@[simp] theorem State.refill_wf (s : State) (slice : Nat) (old new : Option Tag) :
    (s.refill slice old new).wf = s.wf := by
  rfl

@[simp] theorem State.redoOne_wf (s : State) (h : HomeId) (x : Response) (hw : s.wf = true) :
    (s.redoOne h x).wf = true := by
  unfold State.redoOne
  dsimp only
  (repeat' split) <;> simp [hw]

@[simp] theorem State.undoFrom_wf (s : State) (h : HomeId) (n : Nat) (hw : s.wf = true) :
    (s.undoFrom h n).wf = true := by
  simp only [State.undoFrom]
  refine foldl_keeps _ (fun st x hs => State.redoOne_wf st h x hs) _ _ ?_
  have reverted := foldl_keeps _ (fun st x hs => State.revert_wf st h x hs) ((s.home h).responses.drop n).reverse s hw
  split
  · rwa [State.wf_mk, State.modHome_wf]
  · rwa [State.modHome_wf]

@[simp] theorem State.undoHome_wf (s : State) (h : HomeId) (hw : s.wf = true) : (s.undoHome h).wf = true := by
  simp [State.undoHome, hw]

/-! ### Machine/Ops -/

@[simp] theorem State.drop_wf (s : State) : s.drop.wf = s.wf := by rfl

@[simp] theorem State.waitIn_wf (s : State) (i : Issue) (m : Mask) (q : RunState) : (s.waitIn i m q).wf = s.wf := by
  simp [State.waitIn]

@[simp] theorem State.waitFor_wf (s : State) (i : Issue) (h : Hold) : (s.waitFor i h).wf = s.wf := by
  simp [State.waitFor]

theorem State.blockHead_ok (s : State) (i : Issue) {u : State} (h : s.blockHead i = .ok u) : u.wf = s.wf := by
  simp only [State.blockHead] at h
  split_ifs at h <;> cases h <;> simp

theorem State.blockHead_error (s : State) (i : Issue) {u : State} (h : s.blockHead i = .error u) : u.wf = s.wf := by
  simp only [State.blockHead] at h
  split_ifs at h <;> cases h <;> simp

/-- Both answers of the head of a blocked group leave the form as it is. -/
theorem State.blockHead_cases (s : State) (i : Issue) :
    (∃ u, s.blockHead i = .ok u ∧ u.wf = s.wf) ∨ (∃ u, s.blockHead i = .error u ∧ u.wf = s.wf) := by
  simp only [State.blockHead]
  split_ifs <;> simp

@[simp] theorem State.block_wf (s : State) (i : Issue) (q : RunState) : (s.block i q).wf = s.wf := by
  unfold State.block
  dsimp only
  split
  · simp
  · split
    · next t h => simp [State.blockHead_ok s i h]
    · next t h => simp [State.blockHead_error s i h]

@[simp] theorem State.retiredWith_wf (s : State) (i : Issue) (moves : Bool) (cap : Option (Nat × Latch)) :
    (s.retiredWith i moves cap).wf = s.wf := by
  simp [State.retiredWith]

@[simp] theorem State.retired_wf (s : State) (i : Issue) (moves : Bool) : (s.retired i moves).wf = s.wf := by
  simp [State.retired]

@[simp] theorem State.retire_wf (s : State) (i : Issue) (moves : Bool) : (s.retire i moves).wf = s.wf := by
  simp [State.retire]

@[simp] theorem State.raiseTrap_wf (s : State) (r : CrewRef) (p : PendingTrap) : (s.raiseTrap r p).wf = s.wf := by
  simp [State.raiseTrap]

@[simp] theorem State.issued_wf (s : State) (i : Issue) (moves : Bool) : (s.issued i moves).wf = s.wf := by
  simp [State.issued]

@[simp] theorem State.park_wf (s : State) (i : Issue) (m : Mask) (fs : List LaneTrap) :
    (s.park i m fs).wf = s.wf := by
  simp only [State.park, apply_ite State.wf, State.wf_mk]
  simp

@[simp] theorem State.failWith_wf (s : State) (i : Issue) (fs : List LaneTrap) (after moves : Bool) :
    (s.failWith i fs after moves).wf = s.wf := by
  unfold State.failWith
  dsimp only
  split
  · simp
  · split
    · split
      · next h => simp [State.blockHead_ok _ _ h]
      · next h => simp [State.blockHead_error _ _ h]
    · simp

@[simp] theorem State.fail_wf (s : State) (i : Issue) (fs : List LaneTrap) : (s.fail i fs).wf = s.wf := by
  simp [State.fail]

@[simp] theorem State.failAll_wf (s : State) (i : Issue) (m : Mask) (c : Cause) : (s.failAll i m c).wf = s.wf := by
  simp [State.failAll]

theorem State.gateHead_ok (s : State) (i : Issue) {u : State} (h : s.gateHead i = .ok u) : u.wf = s.wf := by
  simp only [State.gateHead] at h
  split_ifs at h <;> cases h <;> simp

theorem State.gateHead_error (s : State) (i : Issue) {u : State} (h : s.gateHead i = .error u) : u.wf = s.wf := by
  simp only [State.gateHead] at h
  split_ifs at h <;> cases h <;> simp

@[simp] theorem State.passGambit_wf (s : State) (i : Issue) (mine : Mask) : (s.passGambit i mine).wf = s.wf := by
  simp [State.passGambit]

theorem State.gateGambit_wf (s : State) (i : Issue) (n : Needs) {u : State} (h : s.gateGambit i n = some u) :
    u.wf = s.wf := by
  simp only [State.gateGambit] at h
  split at h
  · cases h
  · split_ifs at h <;> cases h <;> simp

theorem State.gateCredits_wf (s : State) (i : Issue) (n : Needs) {u : State} (h : s.gateCredits i n = some u) :
    u.wf = s.wf := by
  simp only [State.gateCredits] at h
  split_ifs at h <;> cases h <;> simp

theorem State.gate_ok (s : State) (i : Issue) (n : Needs) {u : State} (h : s.gate i n = .ok u) : u.wf = s.wf := by
  unfold State.gate at h
  split at h
  · cases h
  split at h
  · cases h
  split at h
  · cases h
  next t ht =>
  split at h
  · cases h
  split at h
  · cases h
  split at h
  · cases h
  cases h
  exact State.gateHead_ok s i ht

theorem State.gate_error (s : State) (i : Issue) (n : Needs) {u : State} (h : s.gate i n = .error u) :
    u.wf = s.wf := by
  unfold State.gate at h
  split at h
  · cases h; simp
  split at h
  · cases h; simp
  split at h
  · next ht => cases h; exact State.gateHead_error s i ht
  next t ht =>
  have hw := State.gateHead_ok s i ht
  split at h
  · next hg => cases h; exact (State.gateGambit_wf t i n hg).trans hw
  split at h
  · cases h; simp [hw]
  split at h
  · next hg => cases h; exact (State.gateCredits_wf t i n hg).trans hw
  · cases h

/-- An instruction keeps the form when its body does: the gate before the body writes no byte. -/
theorem State.issueWith_keeps (s : State) (n : Needs) (body : Issue → State → State)
    (hb : ∀ i t, t.wf = true → (body i t).wf = true) : KeepsForm s (s.issueWith n body) := by
  unfold State.issueWith
  split
  · simp
  · next i _ =>
    split
    · next t h => simp [State.gate_error s i n h]
    · next t h => simpa [State.gate_ok s i n h] using hb i t

@[simp] theorem State.setter_wf (s : State) (i : Issue) (slot parts : Nat) : (s.setter i slot parts).2.wf = s.wf := by
  simp [State.setter]

@[simp] theorem State.sets_wf (s : State) (i : Issue) (slot : Nat) (m : Mask) (delay : Nat) :
    (s.sets i slot m delay).wf = s.wf := by
  simp [State.sets]

@[simp] theorem State.enterHandler_wf (s : State) (r : CrewRef) (p : PendingTrap) (h : Addr × Bool) :
    (s.enterHandler r p h).wf = s.wf := by
  simp only [State.enterHandler, State.modCrew_wf]
  exact (foldl_wf _ (fun st k => State.writeReg_wf ..) _ _).trans (State.modKeep_wf ..)

@[simp] theorem State.entryHead_wf (s : State) (r : CrewRef) (p : PendingTrap) : (s.entryHead r p).wf = s.wf := by
  unfold State.entryHead
  split <;> simp

@[simp] theorem State.takeTrap_wf (s : State) (r : CrewRef) : (s.takeTrap r).wf = s.wf := by
  unfold State.takeTrap
  dsimp only
  (repeat' split) <;> simp

@[simp] theorem State.leaveHandler_wf (s : State) (r : CrewRef) : (s.leaveHandler r).wf = s.wf := by
  simp [State.leaveHandler]

end Sys2Proof.Machine
end

section
/-! ## The instructions of a crew -/

open Sys2Proof

namespace Sys2Proof.Machine

/-! ### Machine/Operands -/

@[simp] theorem State.failLatch_wf (s : State) (i : Issue) (m : Mask) (e : Cause × Addr) :
    (s.failLatch i m e).wf = s.wf := by
  simp [State.failLatch]

@[simp] theorem State.produce_wf (s : State) (i : Issue) (f : L64) (part : Mask) (res : Content × Mask) (hit : Bool) :
    (s.produce i f part res hit).wf = s.wf := by
  simp [State.produce]

@[simp] theorem State.memoize_wf (s : State) (i : Issue) (key : Option XEntry) (hit : Bool) (d : Option Nat)
    (ds : List Nat) : (s.memoize i key hit d ds).wf = s.wf := by
  unfold State.memoize
  split <;> simp

@[simp] theorem State.alu_keeps (s : State) (op : BitVec 7) (f : L64) (ua ub uc memo : Bool)
    (g : Srcs → Content × Mask) (lat : Nat) : KeepsForm s (s.alu op f ua ub uc memo g lat) := by
  refine State.issueWith_keeps _ _ _ fun i t h => ?_
  dsimp only
  split <;> simp [h]

@[simp] theorem State.aluK_keeps (s : State) (op : BitVec 7) (f : K64) (ua memo : Bool) (g : Word → Word) :
    KeepsForm s (s.aluK op f ua memo g) := by
  refine State.issueWith_keeps _ _ _ fun i t h => ?_
  dsimp only
  split <;> simp [h]

/-! ### Machine/Flags -/

@[simp] theorem State.compare_keeps (s : State) (f : L64) (cond : Word → Word → Bool) :
    KeepsForm s (s.compare f cond) := by
  refine State.issueWith_keeps _ _ _ fun i t h => ?_
  dsimp only
  split <;> simp [h]

/-! ### Machine/Integer -/

@[simp] theorem execSel_keeps (f : L64) (s : State) : KeepsForm s (execSel f s) := by simp [execSel]

/-! ### Machine/Float -/

@[simp] theorem State.cvtWith_keeps (s : State) (f : L64) : KeepsForm s (s.cvtWith f) := by
  refine State.issueWith_keeps _ _ _ fun i t h => ?_
  dsimp only
  split <;> simp [h]

/-! ### Machine/Lanes -/

@[simp] theorem State.startValue_wf (s : State) (i : Issue) (slot : Nat) (dst : List Nat) (part : Mask) (c : Content)
    (taint : Mask) (delay : Nat) : (s.startValue i slot dst part c taint delay).wf = s.wf := by
  simp [State.startValue]

@[simp] theorem State.late_keeps (s : State) (f : L64) (g : Srcs → Content × Mask) : KeepsForm s (s.late f g) := by
  refine State.issueWith_keeps _ _ _ fun i t h => ?_
  dsimp only
  split <;> simp [h]

@[simp] theorem execPlog_keeps (f : L64) (s : State) : KeepsForm s (execPlog f s) :=
  State.issueWith_keeps _ _ _ fun i t h => by simp [h]

@[simp] theorem execPget_keeps (f : L64) (s : State) : KeepsForm s (execPget f s) := by simp [execPget]

@[simp] theorem execPput_keeps (f : L64) (s : State) : KeepsForm s (execPput f s) := by
  refine State.issueWith_keeps _ _ _ fun i t h => ?_
  dsimp only
  split <;> simp [h]

@[simp] theorem State.sreadWith_keeps (s : State) (f : K64) : KeepsForm s (s.sreadWith f) :=
  State.issueWith_keeps _ _ _ fun i t h => by simp [h]

/-! ### Machine/Control -/

@[simp] theorem State.returnsAfter_wf (s : State) (r : CrewRef) (n : Nat) : (s.returnsAfter r n).wf = s.wf := by
  simp [State.returnsAfter]

@[simp] theorem State.jump_wf (s : State) (i : Issue) (part : Mask) (target : Nat → Addr) (moves : Bool) :
    (s.jump i part target moves).wf = s.wf := by
  simp [State.jump]

@[simp] theorem State.branchWith_keeps (s : State) (f : K64) (call : Bool) : KeepsForm s (s.branchWith f call) :=
  State.issueWith_keeps _ _ _ fun i t h => by simp [h]

@[simp] theorem State.jumpWith_keeps (s : State) (f : L64) (moves : Bool) : KeepsForm s (s.jumpWith f moves) :=
  State.issueWith_keeps _ _ _ fun i t h => by simp [h]

@[simp] theorem State.rjoinWith_keeps (s : State) (f : L64) : KeepsForm s (s.rjoinWith f) := by
  refine State.issueWith_keeps _ _ _ fun i t h => ?_
  split
  · simp [apply_ite State.wf, h]
  · simp [h]

theorem State.commitWait_wf (s : State) (i : Issue) (m : Mask) {u : State} (h : s.commitWait i m = some u) :
    u.wf = s.wf := by
  simp only [State.commitWait] at h
  split at h
  · cases h
  · split_ifs at h <;> cases h <;> exact State.waitFor_wf ..

@[simp] theorem State.commitWith_keeps (s : State) (f : L64) : KeepsForm s (s.commitWith f) := by
  refine State.issueWith_keeps _ _ _ fun i t h => ?_
  dsimp only
  split
  · simp [h]
  · split
    · next hu => rwa [State.commitWait_wf _ _ _ hu]
    · simp [apply_ite State.wf, h]

@[simp] theorem State.abortWith_keeps (s : State) (f : K64) : KeepsForm s (s.abortWith f) :=
  State.issueWith_keeps _ _ _ fun i t h => by simp [h]

@[simp] theorem State.tryWith_keeps (s : State) (f : K64) : KeepsForm s (s.tryWith f) :=
  State.issueWith_keeps _ _ _ fun i t h => by simp [h]

/-- What an exit waits for: a free snapshot, or what a commit waits for. -/
theorem State.exitWait_wf {s u : State} {i : Issue} {m : Mask} {c d : Prop} [Decidable c] [Decidable d]
    (h : (if c then (if d then some (s.waitFor i .snapshot) else none) else s.commitWait i m) = some u) :
    u.wf = s.wf := by
  split_ifs at h
  · cases h; simp
  · exact State.commitWait_wf s i m h

@[simp] theorem State.exitWith_keeps (s : State) (f : L64) : KeepsForm s (s.exitWith f) := by
  refine State.issueWith_keeps _ _ _ fun i t h => ?_
  dsimp only
  split
  · simp [h]
  split
  · next hu => rwa [State.exitWait_wf hu]
  · simp [apply_ite State.wf, h]

@[simp] theorem State.nopWith_keeps (s : State) (f : L64) : KeepsForm s (s.nopWith f) :=
  State.issueWith_keeps _ _ _ fun i t h => by simp [h]

@[simp] theorem State.pauseWith_keeps (s : State) (f : L64) : KeepsForm s (s.pauseWith f) :=
  State.issueWith_keeps _ _ _ fun i t h => by simp [h]

@[simp] theorem State.regionWith_keeps (s : State) (f : L64) : KeepsForm s (s.regionWith f) :=
  State.issueWith_keeps _ _ _ fun i t h => by simp [h]

@[simp] theorem State.trapWith_keeps (s : State) (f : K64) (cls : Nat) : KeepsForm s (s.trapWith f cls) :=
  State.issueWith_keeps _ _ _ fun i t h => by simp [h]

@[simp] theorem State.finishTret_wf (s : State) (r : CrewRef) : (s.finishTret r).wf = s.wf := by
  simp [State.finishTret]

@[simp] theorem State.tretWith_keeps (s : State) (f : L64) : KeepsForm s (s.tretWith f) :=
  State.issueWith_keeps _ _ _ fun i t h => by simp [h]

@[simp] theorem State.startPoint_wf (s : State) (i : Issue) (kind : PointKind) (part taint : Mask) (slot : Nat) :
    (s.startPoint i kind part taint slot).wf = s.wf := by
  simp only [State.startPoint, State.waitFor_wf, State.modCrew_wf, State.setter_wf, State.head_wf]

@[simp] theorem State.xblkWait_wf (t : State) (i : Issue) : (t.xblkWait i).wf = t.wf := by simp [State.xblkWait]

@[simp] theorem State.xblkAcqWith_keeps (s : State) (f : L64) : KeepsForm s (s.xblkAcqWith f) := by
  refine State.issueWith_keeps _ _ _ fun i t h => ?_
  dsimp only
  (repeat' split) <;> simp [h]

@[simp] theorem State.xblkRelWith_keeps (s : State) (f : L64) : KeepsForm s (s.xblkRelWith f) :=
  State.issueWith_keeps _ _ _ fun i t h => by simp [h]

@[simp] theorem execSysR_keeps (f : K64) (s : State) : KeepsForm s (execSysR f s) :=
  State.issueWith_keeps _ _ _ fun i t h => by simp [h]

@[simp] theorem execSysW_keeps (f : K64) (s : State) : KeepsForm s (execSysW f s) := by
  refine State.issueWith_keeps _ _ _ fun i t h => ?_
  dsimp only
  (repeat' split) <;> simp [h]

@[simp] theorem execReservedOpcode_keeps (op : BitVec 7) (long : Bool) (s : State) :
    KeepsForm s (execReservedOpcode op long s) := by
  refine keepsForm_of fun h => ?_
  unfold execReservedOpcode
  split <;> simp [h]

/-! ### Machine/Fetch -/

@[simp] theorem State.clusterPut_wf (s : State) (cl : Nat) (t : TlbEntry) : (s.clusterPut cl t).wf = s.wf := by rfl

@[simp] theorem State.walkReads_wf (s : State) (core : Nat) (l : List Nat) : (s.walkReads core l).2.wf = s.wf := by
  induction l generalizing s with
  | nil => rfl
  | cons a r ih => simp [State.walkReads, ih]

@[simp] theorem State.fillTlb_wf (s : State) (core ctx va : Nat) (w : Walk) (pte : Nat) :
    (s.fillTlb core ctx va w pte).2.wf = s.wf := by
  simp only [State.fillTlb, apply_ite State.wf]
  simp [Core.tlbPut]

@[simp] theorem State.useWalk_wf (s : State) (by_ : CrewRef) (ctx va : Nat) (w : Walk) (write : Bool)
    (h : s.wf = true) : (s.useWalk by_ ctx va w write).2.wf = true := by
  unfold State.useWalk
  dsimp only
  (repeat' split) <;> simp [h]

@[simp] theorem State.pin_wf (s : State) (r : CrewRef) : (s.pin r).wf = s.wf := by
  unfold State.pin
  split <;> simp

@[simp] theorem State.noteStore_wf (s : State) (r : CrewRef) (p : Loc) : (s.noteStore r p).wf = s.wf := by
  unfold State.noteStore
  split <;> simp

@[simp] theorem State.useTarget_wf (s : State) (r : CrewRef) (va : Nat) (t : Target) (write : Bool)
    (h : s.wf = true) : (s.useTarget r va t write).wf = true := by
  simp only [State.useTarget]
  split <;> simp [h]

@[simp] theorem State.lookTarget_wf (s : State) (r : CrewRef) (va : Nat) (t : Target) :
    (s.lookTarget r va t).wf = s.wf := by
  unfold State.lookTarget
  split <;> simp

@[simp] theorem State.codeRead_wf (s : State) (r : CrewRef) (va n : Nat) (p : Loc) :
    (s.codeRead r va n p).wf = s.wf := by
  simp [State.codeRead]

@[simp] theorem State.keptWord_wf (s : State) (ctx va word : Nat) : (s.keptWord ctx va word).2.wf = s.wf := by
  unfold State.keptWord
  dsimp only
  (repeat' split) <;> simp

/-! ### Machine/Access -/

@[simp] theorem State.useAll_wf (s : State) (r : CrewRef) (acc : List Access) (write : Bool) (h : s.wf = true) :
    (s.useAll r acc write).wf = true :=
  foldl_keeps _ (fun st a hs => State.useTarget_wf st r a.va a.target write hs) acc s h

theorem State.needEntries_wf (s : State) (i : Issue) (n : Nat) {u : State} (h : s.needEntries i n = some u) :
    u.wf = s.wf := by
  obtain ⟨t, hb, ht⟩ | ⟨t, hb, ht⟩ := s.blockHead_cases i <;>
    (simp only [State.needEntries, hb] at h; split_ifs at h; cases h; simp [ht])

theorem State.needCredits_wf (s : State) (i : Issue) (part : Mask) (ks : List Nat) {u : State}
    (h : s.needCredits i part ks = some u) : u.wf = s.wf := by
  simp only [State.needCredits] at h
  split_ifs at h <;> cases h <;> simp

@[simp] theorem State.dropLd_wf (s : State) (r : CrewRef) : (s.dropLd r).wf = s.wf := by simp [State.dropLd]

theorem State.windowOrder_wf (s : State) (i : Issue) (acc : List Access) {u : State}
    (h : s.windowOrder i acc = some u) : u.wf = s.wf := by
  obtain ⟨t, hb, ht⟩ | ⟨t, hb, ht⟩ := s.blockHead_cases i <;>
    (simp only [State.windowOrder, hb] at h; split_ifs at h; cases h; simp [ht])

@[simp] theorem State.failOrder_wf (s : State) (i : Issue) (fs : List LaneTrap) : (s.failOrder i fs).wf = s.wf := by
  obtain ⟨t, hb, ht⟩ | ⟨t, hb, ht⟩ := s.blockHead_cases i <;> simp [State.failOrder, hb, ht]

theorem State.atomnOrder_wf (s : State) (i : Issue) (acc : List Access) (size : Nat) {u : State}
    (h : s.atomnOrder i acc size = some u) : u.wf = s.wf := by
  obtain ⟨t, hb, ht⟩ | ⟨t, hb, ht⟩ := s.blockHead_cases i <;>
    (simp only [State.atomnOrder, hb] at h; split_ifs at h; cases h; simp [ht])

theorem State.orderWait_wf (s : State) (i : Issue) (acc : List Access) (tainted : Mask) {u : State}
    (h : s.orderWait i acc tainted = some u) : u.wf = s.wf := by
  obtain ⟨t, hb, ht⟩ | ⟨t, hb, ht⟩ := s.blockHead_cases i <;>
    (simp only [State.orderWait, hb] at h; split_ifs at h <;> cases h <;> simp [ht])

@[simp] theorem State.signatureFor_wf (s : State) (t : Tx) (scope : Nat) : (s.signatureFor t scope).2.wf = s.wf := by
  unfold State.signatureFor
  split <;> simp

@[simp] theorem State.launchPacket_wf (s : State) (t : Tx) : (s.launchPacket t).wf = s.wf := by
  unfold State.launchPacket
  split <;> simp

@[simp] theorem State.leave_wf (s : State) (t : Tx) : (s.leave t).wf = s.wf := by
  simp only [State.leave]
  split <;> simp

@[simp] theorem State.send_wf (s : State) (t : Tx) : (s.send t).wf = s.wf := by simp [State.send]
@[simp] theorem State.sendWaiting_wf (s : State) : s.sendWaiting.wf = s.wf := by simp [State.sendWaiting]

@[simp] theorem State.request_wf (s : State) (r : CrewRef) (m : Mask) (page : Page) (p : Loc) (req : Req)
    (after : List Nat) (wait back : Nat) (hold : Option Nat) :
    (s.request r m page p req after wait back hold).wf = s.wf := by
  simp [State.request]

@[simp] theorem State.noteHold_wf (s : State) (r : CrewRef) (hold : Option Nat) : (s.noteHold r hold).wf = s.wf := by
  simp [State.noteHold]

@[simp] theorem State.freeHeld_wf (s : State) (r : CrewRef) (id : Nat) : (s.freeHeld r id).wf = s.wf := by
  simp [State.freeHeld]

@[simp] theorem State.readLine_wf (s : State) (i : Issue) (p : LoadPlan) (setter : Nat) (part : Mask)
    (acc : List Access) (extra : Nat) (a : Access) : (s.readLine i p setter part acc extra a).wf = s.wf := by
  simp only [State.readLine]
  split
  · simp only [State.wf_mk]; simp
  · simp

@[simp] theorem State.startLoad_wf (s : State) (i : Issue) (p : LoadPlan) (part : Mask) (acc : List Access)
    (slot : Nat) (h : s.wf = true) : (s.startLoad i p part acc slot).wf = true := by
  simp [State.startLoad, h]

@[simp] theorem State.lateFail_wf (s : State) (r : CrewRef) (q : LoadRec) (fs : List LaneTrap) :
    (s.lateFail r q fs).wf = s.wf := by
  simp only [State.lateFail]
  split <;> simp

@[simp] theorem State.writeLoad_wf (s : State) (r : CrewRef) (q : LoadRec) : (s.writeLoad r q).wf = s.wf := by
  simp only [State.writeLoad]
  split <;> simp only [apply_ite State.wf, State.modSub_wf, State.modCrew_wf] <;> simp <;>
    exact (foldl_wf _ (fun st j => by split <;> simp) _ _).trans (State.modSub_wf ..)

@[simp] theorem State.finishLoad_wf (s : State) (r : CrewRef) (q : LoadRec) : (s.finishLoad r q).wf = s.wf := by
  simp [State.finishLoad]

@[simp] theorem State.acquire_wf (s : State) (core : Nat) (g : Sig) : (s.acquire core g).wf = s.wf := by
  simp [State.acquire]

@[simp] theorem State.consumed_wf (s : State) (core : Nat) (g : Sig) : (s.consumed core g).wf = s.wf := by
  simp [State.consumed]

@[simp] theorem State.loadReturn_wf (s : State) (t : Tx) (r : CrewRef) (setter : Nat) (line : Loc) :
    (s.loadReturn t r setter line).wf = s.wf := by
  unfold State.loadReturn
  dsimp only
  (repeat' split) <;> simp

@[simp] theorem State.putStore_wf (s : State) (i : Issue) (slot : Nat) (e : StoreEff) :
    (s.putStore i slot e).wf = s.wf := by
  simp only [State.putStore]
  split
  · simp
  · split
    · next h => exact State.needEntries_wf s i _ h
    · simp

/-! ### Machine/Memory -/

@[simp] theorem State.ldHit_wf (s : State) (i : Issue) (f : M64) (part : Mask) (key : XEntry) (c : Content) :
    (s.ldHit i f part key c).wf = s.wf := by
  simp [State.ldHit]

@[simp] theorem State.loadChecked_wf (s : State) (i : Issue) (part : Mask) (slot : Nat) (p : LoadPlan)
    (acc : List Access) (advance : Bool) (h : s.wf = true) : (s.loadChecked i part slot p acc advance).wf = true := by
  simp only [State.loadChecked]
  split
  · next hu =>
    rcases Option.or_eq_some_iff.1 hu with ha | ⟨-, ho⟩
    · rwa [State.atomnOrder_wf _ _ _ _ ha]
    · rwa [State.orderWait_wf _ _ _ _ ho]
  split
  · next hu => rwa [State.needCredits_wf _ _ _ _ hu]
  simp [apply_ite State.wf, h]

@[simp] theorem State.loadWith_keeps (s : State) (f : M64) (kind : LoadKind) (mayL1 acq memo advance : Bool) :
    KeepsForm s (s.loadWith f kind mayL1 acq memo advance) := by
  refine State.issueWith_keeps _ _ _ fun i t h => ?_
  dsimp only
  split
  · simp [h]
  split
  · split
    · next hu => rwa [State.needCredits_wf _ _ _ _ hu]
    · simp [h]
  · split <;> simp [h]

@[simp] theorem execLd_keeps (f : M64) (s : State) : KeepsForm s (execLd f s) := by
  unfold execLd
  split <;> exact State.loadWith_keeps ..

@[simp] theorem execSld_keeps (f : M64) (s : State) : KeepsForm s (execSld f s) :=
  State.issueWith_keeps _ _ _ fun i t h => by simp [h]

@[simp] theorem execDqnt_keeps (f : M64) (s : State) : KeepsForm s (execDqnt f s) :=
  State.issueWith_keeps _ _ _ fun i t h => by simp [h]

@[simp] theorem execLocq_keeps (f : M64) (s : State) : KeepsForm s (execLocq f s) := by
  refine State.issueWith_keeps _ _ _ fun i t h => ?_
  dsimp only
  split
  · simp [h]
  split
  · next hu => rwa [State.needCredits_wf _ _ _ _ hu]
  · simp [h]

@[simp] theorem State.storeChecked_wf (s : State) (i : Issue) (f : M64) (part : Mask) (size : Nat) (desc : Option Nat)
    (found : List Access) (h : s.wf = true) : (s.storeChecked i f part size desc found).wf = true := by
  simp only [State.storeChecked]
  split
  · next hu => rwa [State.windowOrder_wf _ _ _ hu]
  · simp [h]

@[simp] theorem State.storeWith_keeps (s : State) (f : M64) (desc : Option Nat) (va : State → Issue → Nat → Nat) :
    KeepsForm s (s.storeWith f desc va) :=
  State.issueWith_keeps _ _ _ fun i t h => by simp [h]

@[simp] theorem execSst_keeps (f : M64) (s : State) : KeepsForm s (execSst f s) :=
  State.issueWith_keeps _ _ _ fun i t h => by simp [h]

/-- Either the order of the windows holds the store back or the store goes on. -/
theorem State.windowOrder_getD_wf (s : State) (i : Issue) (acc : List Access) (t : State) (hs : s.wf = true)
    (ht : t.wf = true) : ((s.windowOrder i acc).getD t).wf = true := by
  cases hu : s.windowOrder i acc with
  | none => exact ht
  | some u => exact (State.windowOrder_wf _ _ _ hu).trans hs

@[simp] theorem execQnt_keeps (f : M64) (s : State) : KeepsForm s (execQnt f s) := by
  refine State.issueWith_keeps _ _ _ fun i t h => ?_
  dsimp only
  split
  · simp [h]
  split
  · simp [h]
  split
  · simp [h]
  split
  · exact State.windowOrder_getD_wf _ _ _ _ h (by simp [h])
  · simp [h]

@[simp] theorem execFence_keeps (f : M64) (s : State) : KeepsForm s (execFence f s) := by
  refine State.issueWith_keeps _ _ _ fun i t h => ?_
  dsimp only
  split
  · simp [h]
  split
  · split
    · next hb => simp [State.blockHead_ok _ _ hb, h]
    · next hb => rwa [State.blockHead_error _ _ hb]
  · refine State.ite_keeps (by rwa [State.waitFor_wf]) ?_
    rw [State.retire_wf]
    refine State.ite_keeps (by rwa [State.dropLd_wf]) ?_
    simp only [State.modCore_wf, implies_true, State.l1Remove_wf, State.dropLd_wf, h]

@[simp] theorem State.l2Back_wf (s : State) (p : Loc) (thg leave : Bool) : (s.l2Back p thg leave).wf = s.wf := by
  simp only [State.l2Back]
  split
  · rfl
  split
  · split <;> simp
  · rfl

@[simp] theorem State.prefetch_wf (s : State) (i : Issue) (slot : Nat) (intoL1 : Bool) (acc : List Access) :
    (s.prefetch i slot intoL1 acc).wf = s.wf := by
  simp [State.prefetch]

@[simp] theorem execCache_keeps (f : M64) (s : State) : KeepsForm s (execCache f s) := by
  refine State.issueWith_keeps _ _ _ fun i t h => ?_
  dsimp only
  split
  · simp [h]
  rw [State.retire_wf]
  split
  · rw [State.sets_wf]
    exact (foldl_wf _ (fun st a => by split <;> simp) _ _).trans (by simp [h])
  all_goals simp [h]

/-! ### Machine/Atomics -/

@[simp] theorem State.atomWith_keeps (s : State) (f : M64) (names : List Nat) (taint : Crew → Mask)
    (access : State → Issue → Nat → Except LaneTrap Access) : KeepsForm s (s.atomWith f names taint access) :=
  State.issueWith_keeps _ _ _ fun i t h => by simp [h]

@[simp] theorem execAtom_keeps (f : M64) (s : State) : KeepsForm s (execAtom f s) := by simp [execAtom]
@[simp] theorem execSatom_keeps (f : M64) (s : State) : KeepsForm s (execSatom f s) := by simp [execSatom]

@[simp] theorem execAtomn_keeps (f : M64) (s : State) : KeepsForm s (execAtomn f s) := by
  refine State.issueWith_keeps _ _ _ fun i t h => ?_
  dsimp only
  split
  · simp [h]
  split
  · simp [h]
  split
  · next hu => rwa [State.needEntries_wf _ _ _ hu]
  · simp [h]

/-! ### Machine/Barriers -/

@[simp] theorem State.wakeGroup_wf (s : State) (core : Nat) (g : Group) (done : Await → Bool) :
    (s.wakeGroup core g done).wf = s.wf := by
  simp [State.wakeGroup]

@[simp] theorem State.updateObj_wf (s : State) (core gslot off : Nat) (f : BarObj → BarObj) (h : s.wf = true) :
    (s.updateObj core gslot off f).wf = true := by
  unfold State.updateObj
  split <;> simp [h]

@[simp] theorem State.recheckWaits_wf (s : State) (r : CrewRef) : (s.recheckWaits r).wf = s.wf := by
  unfold State.recheckWaits
  split <;> simp

@[simp] theorem State.bindObj_wf (s : State) (core gslot off expect wclass : Nat) (h : s.wf = true) :
    (s.bindObj core gslot off expect wclass).wf = true := by
  simp [State.bindObj, h]

/-- A barrier instruction keeps the form when what it does once its checks have passed does. -/
@[simp] theorem State.barrierWith_keeps (s : State) (f : M64) (bare bind : Bool) (regs : List Nat)
    (body : Issue → State → Mask → Nat → Nat → State) (hb : ∀ i t m l o, t.wf = true → (body i t m l o).wf = true) :
    KeepsForm s (s.barrierWith f bare bind regs body) := by
  refine State.issueWith_keeps _ _ _ fun i t h => ?_
  dsimp only
  split
  · simp [h]
  split
  · simp [h]
  split
  · simp [h]
  · exact hb _ _ _ _ _ h

@[simp] theorem State.holdBarrier_wf (s : State) (i : Issue) (f : M64) (e : Effect) :
    (s.holdBarrier i f e).wf = s.wf := by
  simp only [State.holdBarrier]
  split
  · next h => exact State.needEntries_wf s i 1 h
  · simp

@[simp] theorem execBari_keeps (f : M64) (s : State) : KeepsForm s (execBari f s) := by simp [execBari]
@[simp] theorem execBara_keeps (f : M64) (s : State) : KeepsForm s (execBara f s) := by simp [execBara]
@[simp] theorem execBarx_keeps (f : M64) (s : State) : KeepsForm s (execBarx f s) := by simp [execBarx]

@[simp] theorem State.awaitWith_wf (s : State) (i : Issue) (part stay : Mask) (what : Nat → Await) (n : Nat) :
    (s.awaitWith i part stay what n).wf = s.wf := by
  obtain ⟨t, hb, ht⟩ | ⟨t, hb, ht⟩ := s.blockHead_cases i <;> by_cases h : (stay == 0) = true <;>
    simp only [State.awaitWith, hb, h, if_true, Bool.false_eq_true] <;> simp [ht]

@[simp] theorem execBarw_keeps (f : M64) (s : State) : KeepsForm s (execBarw f s) := by
  refine State.barrierWith_keeps _ _ _ _ _ _ fun i t m l o h => ?_
  dsimp only
  split <;> simp [h]

@[simp] theorem execBart_keeps (f : M64) (s : State) : KeepsForm s (execBart f s) := by
  refine State.barrierWith_keeps _ _ _ _ _ _ fun i t m l o h => ?_
  dsimp only
  split
  · exact h
  split
  · next hu => rwa [State.orderWait_wf _ _ _ _ hu]
  split
  · next hu => rwa [State.needCredits_wf _ _ _ _ hu]
  · simp [h]

end Sys2Proof.Machine
end

section
/-! ## Crews, levels and releases -/

open Sys2Proof

namespace Sys2Proof.Machine

/-! ### Machine/Arbitrate -/

@[simp] theorem State.valuesDue_wf (s : State) (r : CrewRef) : (s.valuesDue r).wf = s.wf := by simp [State.valuesDue]
@[simp] theorem State.dueHead_wf (s : State) (r : CrewRef) : (s.dueHead r).wf = s.wf := by simp [State.dueHead]

@[simp] theorem State.codesDue_wf (s : State) (r : CrewRef) : (s.codesDue r).wf = s.wf := by
  simp only [State.codesDue]
  split <;> simp

@[simp] theorem State.watchdog_wf (s : State) (r : CrewRef) : (s.watchdog r).wf = s.wf := by simp [State.watchdog]
@[simp] theorem State.stopHead_wf (s : State) (r : CrewRef) : (s.stopHead r).wf = s.wf := by simp [State.stopHead]

@[simp] theorem State.settleCrew_wf (s : State) (r : CrewRef) : (s.settleCrew r).wf = s.wf := by
  simp [State.settleCrew]

@[simp] theorem State.takeEvents_wf (s : State) (core sub : Nat) : (s.takeEvents core sub).wf = s.wf := by
  simp [State.takeEvents]

@[simp] theorem State.issueGroup_wf (s : State) (i : Issue) (op : Option Instr) : (s.issueGroup i op).wf = s.wf := by
  simp only [State.issueGroup, State.wf_mk, State.modSub_wf]

@[simp] theorem State.issueOrLatch_wf (s : State) (i : Issue) (op : Option Instr) :
    (s.issueOrLatch i op).wf = s.wf := by
  simp [State.issueOrLatch]

theorem State.lockedSlot_wf (s : State) (core sub : Nat) (x : Locked) {u : State}
    (h : s.lockedSlot core sub x = some u) : u.wf = s.wf := by
  simp only [State.lockedSlot] at h
  split at h
  · cases h
  · split_ifs at h <;> cases h <;> simp

@[simp] theorem State.chooseGroup_wf (s : State) (core sub : Nat) : (s.chooseGroup core sub).wf = s.wf := by
  unfold State.chooseGroup
  dsimp only
  (repeat' split) <;> simp

@[simp] theorem State.chooseIssue_wf (s : State) (core sub : Nat) : (s.chooseIssue core sub).wf = s.wf := by
  simp only [State.chooseIssue]
  split
  · rfl
  split
  · next x _ =>
    cases h : s.lockedSlot core sub x with
    | none => simp
    | some u => exact State.lockedSlot_wf s core sub x h
  · simp

@[simp] theorem State.arbitrate_wf (s : State) (core sub : Nat) : (s.arbitrate core sub).wf = s.wf := by
  simp [State.arbitrate]

@[simp] theorem execIssueArbitration_keeps (s : State) : KeepsForm s (execIssueArbitration s) := by
  simp [execIssueArbitration]

@[simp] theorem execRjoinRelease_keeps (s : State) : KeepsForm s (execRjoinRelease s) := by
  refine keepsForm_of fun h => ?_
  simp only [execRjoinRelease]
  split <;> simp [h]

@[simp] theorem execTrapEntry_keeps (s : State) : KeepsForm s (execTrapEntry s) := by simp [execTrapEntry]

/-! ### Machine/Start -/

@[simp] theorem State.startHead_wf (s : State) (r : CrewRef) : (s.startHead r).wf = s.wf := by simp [State.startHead]

@[simp] theorem State.startCrew_wf (s : State) (r : CrewRef) (o : Owner) (pc : Addr) (args : List Content) :
    (s.startCrew r o pc args).wf = s.wf := by
  simp [State.startCrew]

@[simp] theorem State.startGroupCrew_wf (s : State) (l : Launch) (r : CrewRef) (o : Owner) :
    (s.startGroupCrew l r o).wf = s.wf := by
  simp [State.startGroupCrew]

@[simp] theorem State.startHandler_wf (s : State) (l : Launch) (r : CrewRef) (o : Owner) (m : Message) :
    (s.startHandler l r o m).wf = s.wf := by
  simp [State.startHandler]

/-! ### Machine/Levels -/

@[simp] theorem State.interrupt_wf (s : State) (vec : Nat) : (s.interrupt vec).wf = s.wf := by rfl

@[simp] theorem State.releaseRun_wf (s : State) (x : Nat × List Byte) (reply : Option HeldReply) (h : s.wf = true) :
    (s.releaseRun x reply).wf = true := by
  simp [State.releaseRun, h]

@[simp] theorem State.releaseWrite_wf (s : State) (pa : Nat) (bs : List Byte) (h : s.wf = true) :
    (s.releaseWrite pa bs).wf = true :=
  foldl_keeps _ (fun st x hs => State.releaseRun_wf st x none hs) _ s h

theorem State.deviceWalk_wf (s : State) (ctx va : Nat) (write : Bool) {q : (Nat × State)}
    (hq : s.deviceWalk ctx va write = some q) (h : s.wf = true) : q.2.wf = true := by
  simp only [State.deviceWalk] at hq
  split at hq
  · cases hq
  split at hq
  · cases hq
  · split_ifs at hq <;> cases hq <;> simp [h]

theorem State.recPa_wf (s : State) (a : RecAddr) (write : Bool) {q : (Nat × State)} (hq : s.recPa a write = some q)
    (h : s.wf = true) : q.2.wf = true := by
  simp only [State.recPa] at hq
  split at hq
  · split_ifs at hq
    cases hq
    exact h
  · exact State.deviceWalk_wf _ _ _ _ hq h

@[simp] theorem State.logRecord_wf (s : State) (type sev cell ctx : Nat) (detail : List Byte) (h : s.wf = true) :
    (s.logRecord type sev cell ctx detail).wf = true := by
  simp [State.logRecord, h]

@[simp] theorem State.armatureActs_wf (s : State) (cell index : Nat) : (s.armatureActs cell index).wf = s.wf := by
  unfold State.armatureActs
  split <;> simp

@[simp] theorem State.countWindow_wf (s : State) (cell index : Nat) (h : s.wf = true) :
    (s.countWindow cell index).wf = true := by
  simp [State.countWindow, h]

@[simp] theorem State.countCell_wf (s : State) (cell field n : Nat) (h : s.wf = true) :
    (s.countCell cell field n).wf = true := by
  simp only [State.countCell]
  split
  · exact foldl_keeps _ (fun st _ hs => State.countWindow_wf st cell _ hs) _ _ (by rwa [State.wf_mk])
  · rwa [State.wf_mk]

@[simp] theorem State.logPlacement_wf (s : State) (core event ctx : Nat) (launchId : Word) (g : Nat)
    (h : s.wf = true) : (s.logPlacement core event ctx launchId g).wf = true := by
  simp [State.logPlacement, h]

@[simp] theorem State.addStats_wf (s : State) (l : Nat) (xs : List StatAdd) : (s.addStats l xs).wf = s.wf := by
  simp [State.addStats]

@[simp] theorem State.addStatsOf_wf (s : State) (r : CrewRef) (xs : List StatAdd) :
    (s.addStatsOf r xs).wf = s.wf := by
  unfold State.addStatsOf
  split <;> simp

theorem State.deviceRuns_wf (s : State) (ctx va : Nat) (bs : List Byte) {q : (List (Nat × List Byte) × State)}
    (hq : s.deviceRuns ctx va bs = some q) (h : s.wf = true) : q.2.wf = true := by
  simp only [State.deviceRuns] at hq
  split at hq
  · cases hq
  next x hx =>
  have hw := State.deviceWalk_wf _ _ _ _ hx h
  split at hq
  · cases hq
    exact hw
  · obtain ⟨y, hy, rfl⟩ := Option.map_eq_some_iff.1 hq
    exact State.deviceWalk_wf _ _ _ _ hy hw

@[simp] theorem State.writeStats_wf (s : State) (ctx addr : Nat) (launchId : Word) (counts : List (Nat × Nat))
    (h : s.wf = true) : (s.writeStats ctx addr launchId counts).wf = true := by
  simp only [State.writeStats]
  split
  · exact h
  split
  · next hx =>
    have walked := State.deviceRuns_wf _ _ _ _ hx h
    exact foldl_keeps _ (fun st r hs => State.releaseWrite_wf st r.1 r.2 hs) _ _ walked
  · simp [h]

@[simp] theorem State.writeRecord_wf (s : State) (a : RecAddr) (count target : Nat) (st : Status) (discarded : Nat)
    (h : s.wf = true) : (s.writeRecord a count target st discarded).wf = true := by
  simp only [State.writeRecord]
  split
  · next hx => simp [State.recPa_wf _ _ _ hx h]
  · exact h

@[simp] theorem State.modLevel_wf (s : State) (i : Nat) (f : Level → Level) : (s.modLevel i f).wf = s.wf := by
  unfold State.modLevel
  split <;> simp

@[simp] theorem State.relook_wf (s : State) : s.relook.wf = s.wf := by rfl
@[simp] theorem State.dropLevel_wf (s : State) (i : Nat) : (s.dropLevel i).wf = s.wf := by rfl
@[simp] theorem State.dropLaunch_wf (s : State) (l : Nat) : (s.dropLaunch l).wf = s.wf := by rfl

@[simp] theorem State.markMet_wf (s : State) (l core : Nat) : (s.markMet l core).wf = s.wf := by
  refine foldl_wf _ (fun st g => ?_) _ s
  split <;> simp

@[simp] theorem State.stopCrew_wf (s : State) (r : CrewRef) : (s.stopCrew r).wf = s.wf := by simp [State.stopCrew]
@[simp] theorem State.stopLaunch_wf (s : State) (l : Nat) : (s.stopLaunch l).wf = s.wf := by simp [State.stopLaunch]

@[simp] theorem State.acceptLaunch_wf (s : State) (l : Nat) (st : Status) : (s.acceptLaunch l st).wf = s.wf := by
  unfold State.acceptLaunch
  split <;> simp

@[simp] theorem State.acceptLevel_wf (s : State) (fuel : Nat) (i : Nat) (st : Status) :
    (s.acceptLevel fuel i st).wf = s.wf := by
  induction fuel generalizing s i st with
  | zero => rfl
  | succ n ih =>
    simp only [State.acceptLevel]
    split <;> simp [ih]

@[simp] theorem State.acceptUp_wf (s : State) (fuel : Nat) (p : Option Nat) (st : Status) :
    (s.acceptUp fuel p st).wf = s.wf := by
  fun_induction State.acceptUp <;> simp_all

@[simp] theorem State.childCounts_wf (s : State) (fuel : Nat) (p : Option Nat) (h : s.wf = true) :
    (s.childCounts fuel p).wf = true := by
  induction fuel generalizing s p with
  | zero => exact h
  | succ n ih =>
    cases p with
    | none => exact h
    | some i =>
      simp only [State.childCounts]
      split
      · exact h
      split
      · exact ih _ _ (by simp [h])
      · simp [h]

@[simp] theorem State.endLaunch_wf (s : State) (l : Nat) (st : Status) (h : s.wf = true) :
    (s.endLaunch l st).wf = true := by
  simp only [State.endLaunch]
  split
  · exact h
  · next x _ =>
    have stats := State.writeStats_wf s x.ctx x.desc.stats x.desc.launchId x.stats h
    cases x.fixed <;> simp [apply_ite State.wf, stats]

@[simp] theorem State.dropHeld_wf (s : State) (r : CrewRef) : (s.dropHeld r).wf = s.wf := by simp [State.dropHeld]
@[simp] theorem State.orphan_wf (s : State) (r : CrewRef) : (s.orphan r).wf = s.wf := by simp [State.orphan]
@[simp] theorem State.leaveSlot_wf (s : State) (r : CrewRef) : (s.leaveSlot r).wf = s.wf := by simp [State.leaveSlot]

@[simp] theorem State.dropCircuits_wf (s : State) (core : Nat) (p : Circuit → Bool) :
    (s.dropCircuits core p).wf = s.wf := by
  simp only [State.dropCircuits, State.wf_mk]
  simp

@[simp] theorem State.dropSubs_wf (s : State) (core gslot : Nat) (p : Nat → Bool) :
    (s.dropSubs core gslot p).wf = s.wf := by
  simp only [State.dropSubs, State.wf_mk, State.modGroup_wf]

@[simp] theorem State.dropWindows_wf (s : State) (core gslot : Nat) : (s.dropWindows core gslot).wf = s.wf := by
  refine foldl_wf _ (fun st n => ?_) _ s
  split <;> simp

@[simp] theorem State.endHandlers_wf (s : State) (core l : Nat) : (s.endHandlers core l).wf = s.wf := by
  simp [State.endHandlers]

@[simp] theorem State.freeGroup_wf (s : State) (core gslot : Nat) : (s.freeGroup core gslot).wf = s.wf := by
  unfold State.freeGroup
  split <;> simp

@[simp] theorem State.tryDone_wf (s : State) (l : Nat) (h : s.wf = true) : (s.tryDone l).wf = true := by
  unfold State.tryDone
  split <;> simp [h]

@[simp] theorem State.orphanPoints_wf (s : State) (r : CrewRef) : (s.orphanPoints r).wf = s.wf := by rfl

@[simp] theorem State.killGroup_wf (s : State) (core gslot : Nat) : (s.killGroup core gslot).wf = s.wf := by
  unfold State.killGroup
  split <;> simp

@[simp] theorem State.killHandlers_wf (s : State) (core l : Nat) : (s.killHandlers core l).wf = s.wf := by
  simp [State.killHandlers]

@[simp] theorem State.terminateContext_wf (s : State) (ctx : Nat) (trapping : Option Nat) (cls : Nat) :
    (s.terminateContext ctx trapping cls).wf = s.wf := by
  simp [State.terminateContext]

@[simp] theorem State.terminate6_wf (s : State) (ctx : Nat) (l : Option Nat) (cell : Nat) (h : s.wf = true) :
    (s.terminate6 ctx l cell).wf = true := by
  simp [State.terminate6, h]

@[simp] theorem State.loseGroup_wf (s : State) (core gslot : Nat) (h : s.wf = true) :
    (s.loseGroup core gslot).wf = true := by
  unfold State.loseGroup
  dsimp only
  (repeat' split) <;> simp [h]

/-! ### Machine/Release -/

@[simp] theorem State.settleOwn_wf (s : State) (core : Nat) (line : Loc) (h : s.wf = true) :
    (s.settleOwn core line).wf = true := by
  refine foldl_keeps _ (fun st t hs => ?_) _ s h
  dsimp only
  split
  · split <;> simp [hs]
  · simp [hs]

@[simp] theorem State.race_wf (s : State) (core gslot : Nat) (mine : EngOp → Bool) (p : Loc) (n : Nat) :
    (s.race core gslot mine p n).wf = s.wf := by
  rfl

@[simp] theorem State.raceLanes_wf (s : State) (r : CrewRef) (l : List (Nat × Loc × Nat)) :
    (s.raceLanes r l).wf = s.wf := by
  unfold State.raceLanes
  split <;> simp

@[simp] theorem State.releaseLine_wf (s now : State) (r : CrewRef) (e : StoreEff) (line : Loc) (h : s.wf = true) :
    (s.releaseLine now r e line).wf = true := by
  simp only [State.releaseLine]
  refine State.ite_keeps ?_ (by simp [h])
  rw [State.modCrew_wf]
  refine State.applyWrite_wf _ _ _ _ (State.settleOwn_wf _ _ _ ?_)
  simp [apply_ite State.wf, h]

@[simp] theorem State.releaseStore_wf (s : State) (r : CrewRef) (e : StoreEff) (h : s.wf = true) :
    (s.releaseStore r e).wf = true := by
  simp only [State.releaseStore, State.addStatsOf_wf]
  exact foldl_keeps _ (fun st line hs => State.releaseLine_wf st s r e line hs) _ s h

@[simp] theorem State.sendAtom_wf (s : State) (r : CrewRef) (e : AtomEff) (point : Bool) :
    (s.sendAtom r e point).wf = s.wf := by
  simp [State.sendAtom]

@[simp] theorem State.markAtomic_wf (s : State) (r : CrewRef) : (s.markAtomic r).wf = s.wf := by
  unfold State.markAtomic
  split <;> simp

@[simp] theorem State.startParts_wf (s : State) (core gslot : Nat) (x : Subscription) :
    (s.startParts core gslot x).wf = s.wf := by
  refine foldl_wf _ (fun st k => ?_) _ s
  split
  · rfl
  · simp only [State.wf_mk]; simp

@[simp] theorem State.startSub_wf (s : State) (core gslot id : Nat) : (s.startSub core gslot id).wf = s.wf := by
  unfold State.startSub
  split <;> simp

@[simp] theorem State.sendWindow_wf (s : State) (r : CrewRef) (op off : Nat) (grant : Word) (setter : Nat) :
    (s.sendWindow r op off grant setter).wf = s.wf := by
  unfold State.sendWindow
  split <;> simp

@[simp] theorem State.applyArrival_wf (s : State) (core gslot : Nat) (e : Effect) (h : s.wf = true) :
    (s.applyArrival core gslot e).wf = true := by
  unfold State.applyArrival
  split <;> simp [h]

@[simp] theorem State.arrive_wf (s : State) (r : CrewRef) (gslot : Nat) (e : Effect) (m : Mask) (h : s.wf = true) :
    (s.arrive r gslot e m).wf = true := by
  simp [State.arrive, h]

@[simp] theorem State.settleArrivals_wf (s : State) (core : Nat) (h : s.wf = true) :
    (s.settleArrivals core).wf = true := by
  simp only [State.settleArrivals]
  split
  · exact foldl_keeps _ (fun st a hs => State.applyArrival_wf st core a.gslot a.effect hs) _ _ (by simp [h])
  · exact h

@[simp] theorem State.takeEffect_wf (s : State) (r : CrewRef) (e : Effect) (h : s.wf = true) :
    (s.takeEffect r e).wf = true := by
  unfold State.takeEffect
  split <;> simp [h]

@[simp] theorem State.sysWrite_wf (s : State) (r : CrewRef) (m : Mask) (space index : Nat) (v : Content) :
    (s.sysWrite r m space index v).wf = s.wf := by
  unfold State.sysWrite
  split <;> simp

@[simp] theorem State.endPoint_wf (s : State) (r : CrewRef) (p : Point) (failed : Mask) :
    (s.endPoint r p failed).wf = s.wf := by
  simp only [State.endPoint, State.modSub_wf, State.modCrew_wf, State.head_wf]

@[simp] theorem State.sendCircuit_wf (s : State) (r : CrewRef) (p : Point) (m : MessageReq) :
    (s.sendCircuit r p m).wf = s.wf := by
  simp only [State.sendCircuit, State.markAtomic_wf, State.request_wf, State.modCore_wf, implies_true, State.wf_mk]
  simp

@[simp] theorem State.reserveCircuit_wf (s : State) (r : CrewRef) (m : MessageReq) :
    (s.reserveCircuit r m).2.wf = s.wf := by
  simp only [State.reserveCircuit]
  split
  · split
    · rfl
    · simp only [State.wf_mk]; simp
  · rfl

@[simp] theorem State.sendPoint_wf (s : State) (r : CrewRef) (p : Point) : (s.sendPoint r p).wf = s.wf := by
  unfold State.sendPoint
  dsimp only
  (repeat' split) <;> simp

@[simp] theorem State.tryPoint_wf (s : State) (r : CrewRef) : (s.tryPoint r).wf = s.wf := by
  unfold State.tryPoint
  split <;> simp

@[simp] theorem State.crewCompletes_wf (s : State) (r : CrewRef) (o : Owner) (h : s.wf = true) :
    (s.crewCompletes r o).wf = true := by
  unfold State.crewCompletes
  split <;> simp [h]

@[simp] theorem State.releaseRegion_wf (s : State) (r : CrewRef) (g : Region) (h : s.wf = true) :
    (s.releaseRegion r g).wf = true := by
  have effects := foldl_keeps _ (fun st e hs => State.takeEffect_wf st r e hs) g.effects s h
  simp only [State.releaseRegion]
  split
  · split <;> simp [effects]
  · simp [effects]

@[simp] theorem execRegionRelease_keeps (s : State) : KeepsForm s (execRegionRelease s) := by
  refine keepsForm_of fun h => ?_
  unfold execRegionRelease
  dsimp only
  (repeat' split) <;> simp [h]

@[simp] theorem State.pointAtom_wf (s : State) (r : CrewRef) (p : Point) (e : AtomEff) (d : Nat) (txs : List Tx) :
    (s.pointAtom r p e d txs).wf = s.wf := by
  simp only [State.pointAtom]
  refine (foldl_wf _ (fun st k => State.writeReg_wf ..) _ _).trans (foldl_wf _ (fun st t => ?_) _ s)
  split
  · split <;> simp
  · rfl

@[simp] theorem State.pointFails_wf (s : State) (r : CrewRef) (p : Point) (stay : Mask) (fs : List LaneTrap) :
    (s.pointFails r p stay fs).wf = s.wf := by
  simp only [State.pointFails, State.raiseTrap_wf, State.modCrew_wf, State.endPoint_wf]

@[simp] theorem State.finishPoint_wf (s : State) (r : CrewRef) (p : Point) : (s.finishPoint r p).wf = s.wf := by
  unfold State.finishPoint
  split <;> simp

@[simp] theorem execReleasePointComplete_keeps (s : State) : KeepsForm s (execReleasePointComplete s) := by
  refine keepsForm_of fun h => ?_
  unfold execReleasePointComplete
  dsimp only
  (repeat' split) <;> simp [h]

@[simp] theorem execContextTerminate_keeps (s : State) : KeepsForm s (execContextTerminate s) := by
  refine keepsForm_of fun h => ?_
  unfold execContextTerminate
  dsimp only
  (repeat' split) <;> simp [h]

end Sys2Proof.Machine
end

section
/-! ## Homes, engines and windows -/

open Sys2Proof

namespace Sys2Proof.Machine

/-! ### Machine/HomeSteps -/

@[simp] theorem State.servePort_wf (s : State) (t : Tx) (h : s.wf = true) : (s.servePort t).wf = true := by
  have served : ((s.together t).foldl (fun (st : State) u => ((st.tx u.id).map st.serveTx).getD st) s).wf = true :=
    foldl_keeps _ (fun st u hs => by cases st.tx u.id <;> simp [hs]) _ s h
  simp only [State.servePort]
  split
  · rwa [State.modHome_wf]
  · exact served

@[simp] theorem execHomeServeRead_keeps (s : State) : KeepsForm s (execHomeServeRead s) := by
  refine keepsForm_of fun h => ?_
  unfold execHomeServeRead
  (repeat' split) <;> simp [h]

@[simp] theorem execHomePerformWrite_keeps (s : State) : KeepsForm s (execHomePerformWrite s) := by
  refine keepsForm_of fun h => ?_
  unfold execHomePerformWrite
  (repeat' split) <;> simp [h]

@[simp] theorem execHomePerformAtomic_keeps (s : State) : KeepsForm s (execHomePerformAtomic s) := by
  refine keepsForm_of fun h => ?_
  unfold execHomePerformAtomic
  (repeat' split) <;> simp [h]

theorem State.acceptMessage_wf (s : State) (t : Tx) (m : MessageReq) (crew : CrewRef) (lslot handler : Nat)
    {u : State} (h : s.acceptMessage t m crew lslot handler = some u) : u.wf = s.wf := by
  simp only [State.acceptMessage] at h
  split_ifs at h <;> cases h <;> simp

@[simp] theorem execAmsgAccept_keeps (s : State) : KeepsForm s (execAmsgAccept s) := by
  refine keepsForm_of fun h => ?_
  unfold execAmsgAccept
  split
  · next t _ =>
    split
    · next m crew lslot handler _ =>
      split
      · cases hu : s.acceptMessage t m crew lslot handler with
        | none => simp
        | some u => simp [State.acceptMessage_wf _ _ _ _ _ _ hu]
      · simp
    · simp
  · simp

@[simp] theorem State.startEntry_wf (s : State) (core : Nat) (q : Nat × Message × CrewRef × Nat) :
    (s.startEntry core q).wf = s.wf := by
  simp only [State.startEntry]
  split <;> simp

@[simp] theorem execHandlerCrewStart_keeps (s : State) : KeepsForm s (execHandlerCrewStart s) := by
  refine keepsForm_of fun h => ?_
  unfold execHandlerCrewStart
  split <;> simp [h]

@[simp] theorem State.sendReply_wf (s : State) (q : Option HeldReply) : (s.sendReply q).wf = s.wf := by
  unfold State.sendReply
  split <;> simp

@[simp] theorem execClearSend_keeps (s : State) : KeepsForm s (execClearSend s) := by
  refine keepsForm_of fun h => ?_
  unfold execClearSend
  dsimp only
  (repeat' split) <;> simp [h]

@[simp] theorem State.clearTags_wf (s : State) (core : Nat) (c : Tag) : (s.clearTags core c).wf = s.wf := by
  simp only [State.clearTags, State.wf_mk]
  simp

@[simp] theorem State.lineBacked_wf (s : State) (slice : Nat) (x : L2Line) : (s.lineBacked slice x).wf = s.wf := by
  simp [State.lineBacked]

@[simp] theorem State.clearSlice_wf (s : State) (slice : Nat) (c : Tag) : (s.clearSlice slice c).wf = s.wf := by
  simp [State.clearSlice]

@[simp] theorem execClearReceive_keeps (s : State) : KeepsForm s (execClearReceive s) := by
  refine keepsForm_of fun h => ?_
  unfold execClearReceive
  split <;> simp [h]

@[simp] theorem State.ended_wf (s : State) (t : Tx) (h : s.wf = true) : (s.ended t).wf = true := by
  unfold State.ended
  split <;> simp [h]

@[simp] theorem execLoadValueReturn_keeps (s : State) : KeepsForm s (execLoadValueReturn s) := by
  refine keepsForm_of fun h => ?_
  unfold execLoadValueReturn
  (repeat' split) <;> simp [h]

@[simp] theorem State.endFor_wf (s : State) (t : Tx) (h : s.wf = true) : (s.endFor t).wf = true := by
  unfold State.endFor
  split <;> simp [h]

@[simp] theorem State.uncertain_wf (s : State) (t : Tx) (e : AtomEff) (code : Nat) :
    (s.uncertain t e code).wf = s.wf := by
  unfold State.uncertain
  dsimp only
  (repeat' split) <;> simp

@[simp] theorem State.damaged_wf (s : State) (t : Tx) (e : AtomEff) (bad : List (Nat × Nat)) :
    (s.damaged t e bad).wf = s.wf := by
  unfold State.damaged
  dsimp only
  (repeat' split) <;> simp

@[simp] theorem State.takeAck_wf (s : State) (t : Tx) (h : s.wf = true) : (s.takeAck t).wf = true := by
  unfold State.takeAck
  dsimp only
  (repeat' split) <;> simp [h]

@[simp] theorem execWriteAckReceive_keeps (s : State) : KeepsForm s (execWriteAckReceive s) := by
  refine keepsForm_of fun h => ?_
  unfold execWriteAckReceive
  (repeat' split) <;> simp [h]

@[simp] theorem State.resend_wf (s : State) (t : Tx) (limit : Nat) (req : Req) :
    (s.resend t limit req).wf = s.wf := by
  simp [State.resend]

@[simp] theorem execAtomicResendTimeout_keeps (s : State) : KeepsForm s (execAtomicResendTimeout s) := by
  unfold execAtomicResendTimeout
  (repeat' split) <;> simp

@[simp] theorem execTransactionTimeout_keeps (s : State) : KeepsForm s (execTransactionTimeout s) := by
  refine keepsForm_of fun h => ?_
  unfold execTransactionTimeout
  (repeat' split) <;> simp [h]

@[simp] theorem execL1LeaseExpiry_keeps (s : State) : KeepsForm s (execL1LeaseExpiry s) := by simp [execL1LeaseExpiry]

@[simp] theorem execEpochRotate_keeps (s : State) : KeepsForm s (execEpochRotate s) := by
  refine keepsForm_of fun h => ?_
  simp only [execEpochRotate]
  split <;> simp [h]

@[simp] theorem execXblkGrant_keeps (s : State) : KeepsForm s (execXblkGrant s) := by
  refine keepsForm_of fun h => ?_
  unfold execXblkGrant
  split <;> simp [h]

@[simp] theorem execAsyncTrapDue_keeps (s : State) : KeepsForm s (execAsyncTrapDue s) := by
  refine keepsForm_of fun h => ?_
  unfold execAsyncTrapDue
  dsimp only
  (repeat' split) <;> simp [h]

@[simp] theorem State.writeDiag_wf (s : State) (r : CrewRef) (a : Await) (wl : Nat) (h : s.wf = true) :
    (s.writeDiag r a wl).wf = true := by
  unfold State.writeDiag
  split
  · split
    · exact h
    · split
      · next hq => simp [State.deviceWalk_wf _ _ _ _ hq h]
      · simp [h]
  · exact h

@[simp] theorem State.markTimeouts_wf (s : State) (r : CrewRef) (h : s.wf = true) : (s.markTimeouts r).wf = true := by
  unfold State.markTimeouts
  split
  · exact h
  · exact foldl_keeps _ (fun st off hs => State.putBytes_wf st _ _ hs) _ s h

@[simp] theorem execBarrierTimeout_keeps (s : State) : KeepsForm s (execBarrierTimeout s) := by
  refine keepsForm_of fun h => ?_
  simp only [execBarrierTimeout]
  split <;> simp [h]

/-! ### Machine/Engines -/

/-- An engine instruction keeps the form when what it does once its checks have passed does. -/
@[simp] theorem State.engineWith_keeps (s : State) (f : L64) (names writes : List Nat) (handler : Bool)
    (body : Issue → State → Mask → Nat → State) (hb : ∀ i t m l, t.wf = true → (body i t m l).wf = true) :
    KeepsForm s (s.engineWith f names writes handler body) := by
  refine State.issueWith_keeps _ _ _ fun i t h => ?_
  dsimp only
  split
  · simp [h]
  split
  · simp [h]
  · exact hb _ _ _ _ h

@[simp] theorem State.failL0_wf (s : State) (i : Issue) (l0 : Nat) (c : Cause) (va : Nat) :
    (s.failL0 i l0 c va).wf = s.wf := by
  simp [State.failL0]

@[simp] theorem State.landNumber_wf (s : State) (core gslot tl n : Nat) :
    (s.landNumber core gslot tl n).wf = s.wf := by
  simp only [State.landNumber]
  split <;> simp

@[simp] theorem State.accept_wf (s : State) (i : Issue) (l0 unit tl total : Nat) (work : EngWork) (started : Bool) :
    (s.accept i l0 unit tl total work started).wf = s.wf := by
  unfold State.accept
  split <;> simp

theorem State.strongFirst_wf (s : State) (i : Issue) (l0 : Nat) (pages : List Page) {u : State}
    (h : s.strongFirst i l0 pages = some u) : u.wf = s.wf := by
  obtain ⟨t, hb, ht⟩ | ⟨t, hb, ht⟩ := s.blockHead_cases i <;>
    (simp only [State.strongFirst, hb] at h; split_ifs at h; cases h; simp [ht])

theorem State.acceptWait_wf (s : State) (i : Issue) (l0 unit : Nat) (tainted : Bool) {u : State}
    (h : s.acceptWait i l0 unit tainted = some u) : u.wf = s.wf := by
  simp only [State.acceptWait] at h
  split_ifs at h
  · cases h; simp
  · cases h; simp
  · exact State.needEntries_wf s i 1 h

@[simp] theorem State.command_wf (s : State) (i : Issue) (f : L64) (l0 unit total : Nat) (tainted : Bool)
    (work : EngWork) : (s.command i f l0 unit total tainted work).wf = s.wf := by
  simp only [State.command]
  split
  · next h => exact State.acceptWait_wf s i l0 unit tainted h
  · simp

@[simp] theorem State.copyRuns_wf (s : State) (i : Issue) (f : L64) (part : Mask) (l0 : Nat) (runs : List VRun)
    (h : s.wf = true) : (s.copyRuns i f part l0 runs).wf = true := by
  simp only [State.copyRuns]
  split
  · simp [h]
  · simp [h]
  split
  · next hu =>
    rcases Option.or_eq_some_iff.1 hu with hs | ⟨-, ha⟩
    · rwa [State.strongFirst_wf _ _ _ _ hs]
    · rwa [State.acceptWait_wf _ _ _ _ _ ha]
  · rw [State.command_wf]
    exact foldl_keeps _ (fun st x hs => by simp [hs]) _ s h

@[simp] theorem execCpy_keeps (f : L64) (s : State) : KeepsForm s (execCpy f s) := by
  refine State.engineWith_keeps _ _ _ _ _ _ fun i t m l h => ?_
  dsimp only
  split_ifs <;> simp [h]

@[simp] theorem execCpyt_keeps (f : L64) (s : State) : KeepsForm s (execCpyt f s) := by
  refine State.engineWith_keeps _ _ _ _ _ _ fun i t m l h => ?_
  dsimp only
  split
  · simp [h]
  split
  · simp [h]
  split <;> simp [h]

@[simp] theorem execCpyg_keeps (f : L64) (s : State) : KeepsForm s (execCpyg f s) := by
  refine State.engineWith_keeps _ _ _ _ _ _ fun i t m l h => ?_
  dsimp only
  split
  · simp [h]
  split
  · simp [h]
  split
  · simp [h]
  · split_ifs <;> simp [h]

@[simp] theorem execTlwait_keeps (f : L64) (s : State) : KeepsForm s (execTlwait f s) := by simp [execTlwait]

@[simp] theorem State.commandMul_wf (s : State) (i : Issue) (f : L64) (l0 : Nat) (x : Except (Cause × Nat) TileMul) :
    (s.commandMul i f l0 x).wf = s.wf := by
  unfold State.commandMul
  split <;> simp

@[simp] theorem execTmac_keeps (f : L64) (s : State) : KeepsForm s (execTmac f s) := by simp [execTmac]
@[simp] theorem execTconv_keeps (f : L64) (s : State) : KeepsForm s (execTconv f s) := by simp [execTconv]

@[simp] theorem execTdrain_keeps (f : L64) (s : State) : KeepsForm s (execTdrain f s) := by
  refine State.engineWith_keeps _ _ _ _ _ _ fun i t m l h => ?_
  dsimp only
  split
  · simp [h]
  split
  · simp [h]
  split
  · simp [h]
  split
  · simp [h]
  split
  · simp [h]
  split
  · simp [h]
  split
  · next hu =>
    rcases Option.or_eq_some_iff.1 hu with hs | ⟨-, ha⟩
    · rwa [State.strongFirst_wf _ _ _ _ hs]
    · rwa [State.acceptWait_wf _ _ _ _ _ ha]
  · rw [State.command_wf]
    exact foldl_keeps _ (fun st x hs => State.useTarget_wf _ _ _ _ _ hs) _ _ h

@[simp] theorem execTctlZero_keeps (f : L64) (s : State) : KeepsForm s (execTctlZero f s) := by simp [execTctlZero]
@[simp] theorem execTctlLoad_keeps (f : L64) (s : State) : KeepsForm s (execTctlLoad f s) := by simp [execTctlLoad]

@[simp] theorem execTctlStat_keeps (f : L64) (s : State) : KeepsForm s (execTctlStat f s) := by
  refine State.engineWith_keeps _ _ _ _ _ _ fun i t m l h => ?_
  dsimp only
  split
  · simp [h]
  split
  · next hu => rwa [State.acceptWait_wf _ _ _ _ _ hu]
  split
  · next hu => rwa [State.needCredits_wf _ _ _ _ hu]
  · simp [h]

theorem State.riserWith_wf (s : State) (i : Issue) (l0 : Nat) (bank : Word) (body : Nat → State → State)
    (h : s.wf = true) (hb : ∀ n t, t.wf = true → (body n t).wf = true) : (s.riserWith i l0 bank body).wf = true := by
  unfold State.riserWith
  split
  · simp [h]
  split
  · simp [h]
  · exact hb _ _ (by simp [h])

@[simp] theorem State.modBank_wf (s : State) (core bank : Nat) (f : Bank → Bank) :
    (s.modBank core bank f).wf = s.wf := by
  simp [State.modBank]

@[simp] theorem State.activate_wf (s : State) (core bank row : Nat) : (s.activate core bank row).wf = s.wf := by
  simp only [State.activate]
  split <;> simp

@[simp] theorem execRact_keeps (f : L64) (s : State) : KeepsForm s (execRact f s) := by
  refine State.engineWith_keeps _ _ _ _ _ _ fun i t m l h => State.riserWith_wf _ _ _ _ _ h fun bank u hu => ?_
  dsimp only
  split <;> simp [h, hu]

@[simp] theorem execRpre_keeps (f : L64) (s : State) : KeepsForm s (execRpre f s) :=
  State.engineWith_keeps _ _ _ _ _ _ fun i t m l h => State.riserWith_wf _ _ _ _ _ h fun bank u hu => by simp [hu]

@[simp] theorem State.startRcon_wf (s : State) (i : Issue) (f : L64) (l0 bank row : Nat) (dst : Option Nat) :
    (s.startRcon i f l0 bank row dst).wf = s.wf := by
  simp [State.startRcon]

@[simp] theorem execRcon_keeps (f : L64) (s : State) : KeepsForm s (execRcon f s) := by
  unfold execRcon
  refine State.engineWith_keeps _ _ _ _ _ _ fun i t m l h => State.riserWith_wf _ _ _ _ _ h fun bank u hu => ?_
  dsimp only
  split
  · simp [h]
  split
  · split_ifs <;> simp [h, hu]
  · split
    · next hw => rwa [State.acceptWait_wf _ _ _ _ _ hw]
    · split <;> simp [hu]

/-! ### Machine/EngineSteps -/

@[simp] theorem State.modOps_wf (s : State) (core unit : Nat) (f : List EngOp → List EngOp) :
    (s.modOps core unit f).wf = s.wf := by
  simp [State.modOps]

@[simp] theorem State.modOp_wf (s : State) (core unit id : Nat) (f : EngOp → EngOp) :
    (s.modOp core unit id f).wf = s.wf := by
  simp [State.modOp]

@[simp] theorem State.modTile_wf (s : State) (core gslot k : Nat) (f : TileSlot → TileSlot) :
    (s.modTile core gslot k f).wf = s.wf := by
  simp [State.modTile]

@[simp] theorem State.forkTile_wf (s : State) (core : Nat) (o : EngOp) : (s.forkTile core o).wf = s.wf := by
  unfold State.forkTile
  dsimp only
  (repeat' split) <;> simp

@[simp] theorem execEngineOpStart_keeps (s : State) : KeepsForm s (execEngineOpStart s) := by
  refine keepsForm_of fun h => ?_
  simp only [execEngineOpStart]
  split <;> simp [h]

@[simp] theorem State.engineError_wf (s : State) (core : Nat) (o : EngOp) (code va : Nat) :
    (s.engineError core o code va).wf = s.wf := by
  simp only [State.engineError]
  split
  · simp
  · split <;> simp

@[simp] theorem State.abandon_wf (s : State) (core unit : Nat) (o : EngOp) (code va : Nat) :
    (s.abandon core unit o code va).wf = s.wf := by
  simp [State.abandon]

@[simp] theorem State.engineTags_wf (s : State) (core : Nat) (l : List (Loc × Page)) :
    (s.engineTags core l).2.wf = s.wf := by
  refine foldl_snd_wf _ (fun acc x => ?_) l ([], s)
  dsimp only
  split <;> simp

@[simp] theorem State.stage_wf (s : State) (core unit : Nat) (o : EngOp) (u : Option Staged) (next : Nat) :
    (s.stage core unit o u next).wf = s.wf := by
  simp [State.stage]

@[simp] theorem State.stepCopy_wf (s : State) (core unit : Nat) (o : EngOp) (runs : List CopyRun) (credit : Bool) :
    (s.stepCopy core unit o runs credit).wf = s.wf := by
  simp only [State.stepCopy]
  split <;> simp

@[simp] theorem State.stepMul_wf (s : State) (core unit : Nat) (o : EngOp) (p : TileMul) :
    (s.stepMul core unit o p).wf = s.wf := by
  simp only [State.stepMul]
  split <;> simp

@[simp] theorem State.stepDrain_wf (s : State) (core unit : Nat) (o : EngOp) (p : TileDrain) (h : s.wf = true) :
    (s.stepDrain core unit o p).wf = true := by
  simp only [State.stepDrain]
  split <;> simp [h]

@[simp] theorem State.stepLoad_wf (s : State) (core unit : Nat) (o : EngOp) (k off : Nat) (chk : Bool) :
    (s.stepLoad core unit o k off chk).wf = s.wf := by
  simp only [State.stepLoad]
  split <;> simp

@[simp] theorem State.stepStat_wf (s : State) (core unit : Nat) (o : EngOp) (k setter : Nat) :
    (s.stepStat core unit o k setter).wf = s.wf := by
  unfold State.stepStat
  split <;> simp

@[simp] theorem State.stepRcon_wf (s : State) (core unit : Nat) (o : EngOp) (dst : Option Nat) (data : List Byte)
    (descs : List (Nat × Nat)) (bad : Option (Nat × Nat)) :
    (s.stepRcon core unit o dst data descs bad).wf = s.wf := by
  unfold State.stepRcon
  split <;> simp

@[simp] theorem State.landRun_wf (s : State) (o : EngOp) (thg : Bool) (p : Loc) (bs : List Byte) (desc : Option Nat)
    (h : s.wf = true) : (s.landRun o thg p bs desc).wf = true := by
  unfold State.landRun
  split <;> simp [h]

@[simp] theorem State.landUnit_wf (s : State) (o : EngOp) (u : Staged) (h : s.wf = true) :
    (s.landUnit o u).wf = true := by
  unfold State.landUnit
  split
  · simp [h]
  have landed : ∀ g : State → Loc × List Byte → State, (∀ st x, st.wf = true → (g st x).wf = true) →
      (u.writes.foldl g s).wf = true := fun g hg => foldl_keeps g hg _ s h
  dsimp only
  split
  · rw [State.addStats_wf]
    refine landed _ fun st x hs => ?_
    split
    · split <;> simp [hs]
    · simp [hs]
  · refine landed _ fun st x hs => ?_
    split
    · split <;> simp [hs]
    · simp [hs]

@[simp] theorem State.creditUnit_wf (s : State) (o : EngOp) (u : Staged) (h : s.wf = true) :
    (s.creditUnit o u).wf = true := by
  unfold State.creditUnit
  split <;> simp [h]

@[simp] theorem State.settleTiles_wf (s : State) (core : Nat) : (s.settleTiles core).wf = s.wf := by
  simp [State.settleTiles]

@[simp] theorem State.afterRerun_wf (core unit : Nat) (o : EngOp) (s : State) :
    (State.afterRerun core unit o s).wf = s.wf := by
  simp [State.afterRerun]

@[simp] theorem execUnitCompleteInStaging_keeps (s : State) : KeepsForm s (execUnitCompleteInStaging s) := by
  refine keepsForm_of fun h => ?_
  unfold execUnitCompleteInStaging
  dsimp only
  (repeat' split) <;> simp [h]

@[simp] theorem State.opLanded_wf (s : State) (core unit : Nat) (o : EngOp) : (s.opLanded core unit o).wf = s.wf := by
  simp [State.opLanded]

@[simp] theorem State.landLatch_wf (s : State) (core : Nat) (o : EngOp) : (s.landLatch core o).wf = s.wf := by
  unfold State.landLatch
  dsimp only
  (repeat' split) <;> simp

@[simp] theorem State.occupy_wf (s : State) (o : EngOp) (u : Staged) : (s.occupy o u).wf = s.wf := by
  simp [State.occupy]

@[simp] theorem State.landLoose_wf (s : State) (core : Nat) (o : EngOp) : (s.landLoose core o).wf = s.wf := by
  unfold State.landLoose
  split <;> simp

@[simp] theorem execEngineLand_keeps (s : State) : KeepsForm s (execEngineLand s) := by
  refine keepsForm_of fun h => ?_
  unfold execEngineLand
  dsimp only
  (repeat' split) <;> simp [h]

@[simp] theorem execActivationStart_keeps (s : State) : KeepsForm s (execActivationStart s) := by
  refine keepsForm_of fun h => ?_
  unfold execActivationStart
  dsimp only
  (repeat' split) <;> simp [h]

@[simp] theorem execRowReady_keeps (s : State) : KeepsForm s (execRowReady s) := by
  refine keepsForm_of fun h => ?_
  unfold execRowReady
  dsimp only
  (repeat' split) <;> simp [h]

@[simp] theorem execRefreshSlotStart_keeps (s : State) : KeepsForm s (execRefreshSlotStart s) := by
  refine keepsForm_of fun h => ?_
  simp only [execRefreshSlotStart]
  split <;> simp [h]

@[simp] theorem execRefreshSlotEnd_keeps (s : State) : KeepsForm s (execRefreshSlotEnd s) := by
  refine keepsForm_of fun h => ?_
  simp only [execRefreshSlotEnd]
  split <;> simp [h]

/-! ### Machine/Windows -/

@[simp] theorem State.holdWopen_wf (s : State) (i : Issue) (f : L64) (part : Mask) (gslot off : Nat) (grant : Word) :
    (s.holdWopen i f part gslot off grant).wf = s.wf := by
  simp [State.holdWopen]

@[simp] theorem execWopen_keeps (f : L64) (s : State) : KeepsForm s (execWopen f s) := by
  unfold execWopen
  refine State.engineWith_keeps _ _ _ _ _ _ fun i t m l h => ?_
  refine State.ite_keeps (by simp [h]) (State.ite_keeps (by simp [h]) (State.ite_keeps (by simp [h]) ?_))
  split
  · next hu => rwa [State.needEntries_wf _ _ _ hu]
  · simp [h]

@[simp] theorem execWindowTableUpdate_keeps (s : State) : KeepsForm s (execWindowTableUpdate s) := by
  unfold execWindowTableUpdate
  split
  · simp
  split
  · simp [Core.setWindow]
  · simp

@[simp] theorem State.holdSub_wf (s : State) (i : Issue) (f : L64) (part : Mask) (l0 : Nat) (gslot id : Nat)
    (parts : List SubPart) (vault : Bool) (range : Nat × Nat × Nat) :
    (s.holdSub i f part l0 gslot id parts vault range).wf = s.wf := by
  simp [State.holdSub]

@[simp] theorem execSubsOn_keeps (f : L64) (s : State) : KeepsForm s (execSubsOn f s) := by
  refine State.engineWith_keeps _ _ _ _ _ _ fun i t m l h => ?_
  dsimp only
  split
  · simp [h]
  split
  · simp [h]
  · split
    · simp [h]
    split
    · simp [h]
    split
    · next hu => rwa [State.acceptWait_wf _ _ _ _ _ hu]
    · rw [State.holdSub_wf]
      exact foldl_keeps _ (fun st x hs => State.useTarget_wf _ _ _ _ _ hs) _ _ h
  · simp [h]

@[simp] theorem execSubsOff_keeps (f : L64) (s : State) : KeepsForm s (execSubsOff f s) := by
  refine State.engineWith_keeps _ _ _ _ _ _ fun i t m l h => ?_
  dsimp only
  split
  · split
    · simp [h]
    split
    · next hu => rwa [State.needEntries_wf _ _ _ hu]
    · simp [h]
  · simp [h]

@[simp] theorem State.modUpdate_wf (s : State) (id : Nat) (f : Update → Update) : (s.modUpdate id f).wf = s.wf := by
  rfl

@[simp] theorem execSubscriptionUpdateSend_keeps (s : State) : KeepsForm s (execSubscriptionUpdateSend s) := by
  unfold execSubscriptionUpdateSend
  (repeat' split) <;> simp

@[simp] theorem execSubscriptionNackResend_keeps (s : State) : KeepsForm s (execSubscriptionNackResend s) := by
  unfold execSubscriptionNackResend
  (repeat' split) <;> simp

@[simp] theorem execSubscriptionAckReceive_keeps (s : State) : KeepsForm s (execSubscriptionAckReceive s) := by
  refine keepsForm_of fun h => ?_
  unfold execSubscriptionAckReceive
  dsimp only
  (repeat' split) <;> simp [h]

@[simp] theorem State.applyUpdate_wf (s : State) (u : Update) (h : s.wf = true) : (s.applyUpdate u).wf = true := by
  simp only [State.applyUpdate]
  split
  · simp [h]
  · rw [State.modGroup_wf]
    exact foldl_keeps _ (fun st b hs => by simp [hs]) _ _ (by simp [h])

@[simp] theorem execSubscriptionUpdateApply_keeps (upd : Nat) (damaged : Bool) (s : State) :
    KeepsForm s (execSubscriptionUpdateApply upd damaged s) := by
  refine keepsForm_of fun h => ?_
  unfold execSubscriptionUpdateApply
  (repeat' split) <;> simp [h]

@[simp] theorem execAmsg_keeps (f : L64) (s : State) : KeepsForm s (execAmsg f s) :=
  State.issueWith_keeps _ _ _ fun i t h => by simp [h]

@[simp] theorem execCircSetup_keeps (f : L64) (s : State) : KeepsForm s (execCircSetup f s) :=
  State.issueWith_keeps _ _ _ fun i t h => by simp [h]

@[simp] theorem execCircSend_keeps (f : L64) (s : State) : KeepsForm s (execCircSend f s) := by
  refine State.issueWith_keeps _ _ _ fun i t h => ?_
  dsimp only
  (repeat' split) <;> simp [h]

@[simp] theorem execCircRel_keeps (f : L64) (s : State) : KeepsForm s (execCircRel f s) := by
  refine State.issueWith_keeps _ _ _ fun i t h => ?_
  dsimp only
  split
  · simp [h]
  split
  · simp [h]
  split
  · next hu => rwa [State.needEntries_wf _ _ _ hu]
  · simp [h]

@[simp] theorem execCircuitIdleTeardown_keeps (s : State) : KeepsForm s (execCircuitIdleTeardown s) := by
  simp only [execCircuitIdleTeardown]
  split
  · split
    · simp only [keepsForm_next, State.wf_mk]
      simp
    · simp
  · simp

end Sys2Proof.Machine
end

section
/-! ## Scheduling: slots, queues, launches and pre-emption -/

open Sys2Proof

namespace Sys2Proof.Machine

/-! ### Machine/Restart -/

@[simp] theorem State.discardOps_wf (s : State) (r : CrewRef) : (s.discardOps r).wf = s.wf := by
  simp [State.discardOps]

@[simp] theorem State.restartCrew_wf (s : State) (r : CrewRef) (h : s.wf = true) : (s.restartCrew r).wf = true := by
  simp only [State.restartCrew]
  split <;> simp [h]

@[simp] theorem State.baseTile_wf (s : State) (core gslot k : Nat) : (s.baseTile core gslot k).wf = s.wf := by
  simp [State.baseTile]

@[simp] theorem State.rerunTile_wf (s : State) (core gslot k : Nat) : (s.rerunTile core gslot k).wf = s.wf := by
  simp [State.rerunTile]

@[simp] theorem State.rerunTiles_wf (s : State) (core : Nat) : (s.rerunTiles core).wf = s.wf :=
  foldl_wf _ (fun _ _ => foldl_wf _ (fun _ _ => State.rerunTile_wf ..) _ _) _ s

@[simp] theorem State.recoverEngines_wf (s : State) (core : Nat) : (s.recoverEngines core).wf = s.wf :=
  (State.rerunTiles_wf _ core).trans (foldl_wf _ (fun _ _ => State.modOps_wf ..) _ s)

@[simp] theorem State.flushXpos_wf (s : State) (core : Nat) : (s.flushXpos core).wf = s.wf := by
  simp [State.flushXpos]

theorem State.restartCrews_wf (s : State) (l : List CrewRef) (h : s.wf = true) :
    (l.foldl State.restartCrew s).wf = true :=
  foldl_keeps _ State.restartCrew_wf l s h

@[simp] theorem State.coreEvent_wf (s : State) (core : Nat) (h : s.wf = true) : (s.coreEvent core).wf = true := by
  have restarted := State.restartCrews_wf s (coreRefs core) h
  unfold State.coreEvent
  refine State.undoHome_wf _ _ (State.undoHome_wf _ _ ?_)
  rwa [State.flushXpos_wf, State.recoverEngines_wf]

@[simp] theorem execSensorEventCore_keeps (cls : SensorClass) (cell : Nat) (s : State) :
    KeepsForm s (execSensorEventCore cls cell s) := by
  refine keepsForm_of fun h => ?_
  unfold execSensorEventCore
  dsimp only
  (repeat' split) <;> simp [h]

@[simp] theorem State.undoCounted_wf (s : State) (h : HomeId) (n : Nat) (hw : s.wf = true) :
    (s.undoCounted h n).wf = true := by
  simp [State.undoCounted, hw]

@[simp] theorem execSensorEventHome_keeps (cls : SensorClass) (cell : Nat) (s : State) :
    KeepsForm s (execSensorEventHome cls cell s) := by
  refine keepsForm_of fun h => ?_
  unfold execSensorEventHome
  split <;> simp [h]

@[simp] theorem State.redo_wf (s : State) (core : Nat) (c : Tag) (h : s.wf = true) : (s.redo core c).wf = true := by
  simp only [State.redo]
  simp [State.restartCrews_wf s _ h]

@[simp] theorem State.redoSlice_wf (s : State) (slice : Nat) (c : Tag) (h : s.wf = true) :
    (s.redoSlice slice c).wf = true := by
  simp only [State.redoSlice]
  split <;> simp [h]

@[simp] theorem execRedoNoticeReceive_keeps (s : State) : KeepsForm s (execRedoNoticeReceive s) := by
  refine keepsForm_of fun h => ?_
  unfold execRedoNoticeReceive
  split <;> simp [h]

@[simp] theorem State.losePacket_wf (s : State) (p : Packet) : (s.losePacket p).wf = s.wf := by rfl

@[simp] theorem State.loseReads_wf (s : State) (router : Nat) : (s.loseReads router).2.wf = s.wf := by
  refine foldl_snd_wf _ (fun _ core => foldl_snd_wf _ (fun _ u => foldl_snd_wf _ (fun acc o => ?_) _ _) _ _) _ (0, s)
  split
  · rfl
  · simp only [apply_ite State.wf, State.abandon_wf, State.modOp_wf, ite_self]

@[simp] theorem State.loseRouter_wf (s : State) (router : Nat) : (s.loseRouter router).2.wf = s.wf := by
  simp [State.loseRouter]

@[simp] theorem State.losePort_wf (s : State) (port : Nat) : (s.losePort port).2.wf = s.wf := by simp [State.losePort]

@[simp] theorem execSensorEventRouterPort_keeps (cls : SensorClass) (cell : Nat) (s : State) :
    KeepsForm s (execSensorEventRouterPort cls cell s) := by
  refine keepsForm_of fun h => ?_
  unfold execSensorEventRouterPort
  dsimp only
  (repeat' split) <;> simp [h]

@[simp] theorem execCrossingSlip_keeps (cell : Nat) (s : State) : KeepsForm s (execCrossingSlip cell s) := by
  unfold execCrossingSlip
  split
  · exact execSensorEventCore_keeps _ _ _
  · split
    · exact execSensorEventRouterPort_keeps _ _ _
    · exact execSensorEventHome_keeps _ _ _

@[simp] theorem State.modPort_wf (s : State) (n : Nat) (f : LinkPort → LinkPort) : (s.modPort n f).wf = s.wf := by rfl

@[simp] theorem execLinkCrcFail_keeps (port lane : Nat) (s : State) : KeepsForm s (execLinkCrcFail port lane s) := by
  simp [execLinkCrcFail]

@[simp] theorem execLinkResend_keeps (s : State) : KeepsForm s (execLinkResend s) := by
  refine keepsForm_of fun h => ?_
  unfold execLinkResend
  split <;> simp [h]

@[simp] theorem State.logLink_wf (s : State) (port event lane : Nat) (h : s.wf = true) :
    (s.logLink port event lane).wf = true := by
  simp [State.logLink, h]

@[simp] theorem execLaneRemap_keeps (port lane : Nat) (lost : Bool) (s : State) :
    KeepsForm s (execLaneRemap port lane lost s) := by
  refine keepsForm_of fun h => ?_
  unfold execLaneRemap
  dsimp only
  (repeat' split) <;> simp [h]

@[simp] theorem execLaneRemapEnd_keeps (s : State) : KeepsForm s (execLaneRemapEnd s) := by
  refine keepsForm_of fun h => ?_
  simp only [execLaneRemapEnd]
  split <;> simp [h]

/-! ### Machine/Images -/

@[simp] theorem State.loadCrew_wf (s : State) (r : CrewRef) (o : Owner) (b : List Byte) :
    (s.loadCrew r o b).wf = s.wf := by
  simp only [State.loadCrew, State.startHead_wf, State.modCrew_wf, State.modSub_wf, State.modKeep_wf]

@[simp] theorem State.loadOp_wf (s : State) (core gslot : Nat) (r : CrewRef) (b : List Byte) :
    (s.loadOp core gslot r b).wf = s.wf := by
  simp [State.loadOp]

@[simp] theorem State.loadScratch_wf (s : State) (core base : Nat) (b : List Byte) (h : s.wf = true) :
    (s.loadScratch core base b).wf = true :=
  foldl_keeps _ (fun st _ hs => State.putDesc_wf _ _ _ (State.putBytes_wf st _ _ hs)) _ s h

@[simp] theorem State.loadSubs_wf (s : State) (core gslot : Nat) (r : CrewRef) (b : List Byte) :
    (s.loadSubs core gslot r b).wf = s.wf := by
  refine foldl_wf _ (fun st k => ?_) _ s
  dsimp only
  split
  · rfl
  · split <;> simp

@[simp] theorem State.loadWindows_wf (s : State) (core gslot : Nat) (b : List Byte) :
    (s.loadWindows core gslot b).wf = s.wf := by
  refine foldl_wf _ (fun st k => ?_) _ s
  dsimp only
  split
  · rfl
  · exact foldl_wf _ (fun t n => by split <;> simp) _ st

@[simp] theorem State.loadGroup_wf (s : State) (core gslot : Nat) (x : GroupImage) (ctx lslot : Nat)
    (h : s.wf = true) : (s.loadGroup core gslot x ctx lslot).wf = true := by
  have forgot : (s.modCore core Core.forget).wf = true :=
    (s.modCore_wf core Core.forget (fun _ => rfl) (fun _ => rfl)).trans h
  simp only [State.loadGroup]
  split
  · exact h
  · rw [foldl_wf _ (fun st o => State.loadOp_wf ..)]
    split <;> simp only [State.modCore_wf, State.loadWindows_wf, State.loadSubs_wf, implies_true]
    all_goals
      refine State.loadScratch_wf _ _ _ _ ?_
      simp [forgot]

@[simp] theorem State.loadHandlers_wf (s : State) (core lslot ctx : Nat) (l : List (List Byte)) :
    (s.loadHandlers core lslot ctx l).wf = s.wf := by
  refine foldl_wf _ (fun st b => ?_) l s
  dsimp only
  split <;> simp

/-! ### Machine/Slots -/

@[simp] theorem State.modCluster_wf (s : State) (n : Nat) (f : ClusterMark → ClusterMark) :
    (s.modCluster n f).wf = s.wf := by
  rfl

@[simp] theorem State.placeRecord_wf (s : State) (b : BindRecord) (restore : Option (Nat × Nat)) (stolen : Bool) :
    (s.placeRecord b restore stolen).wf = s.wf := by
  simp [State.placeRecord]

@[simp] theorem execBindRecordWrite_keeps (die : Nat) (rec : BindRecord) (s : State) :
    KeepsForm s (execBindRecordWrite die rec s) := by
  refine keepsForm_of fun h => ?_
  simp only [execBindRecordWrite]
  split <;> simp [h]

@[simp] theorem execRestoreRecordWrite_keeps (die : Nat) (rec : RestoreRecord) (s : State) :
    KeepsForm s (execRestoreRecordWrite die rec s) := by
  refine keepsForm_of fun h => ?_
  unfold execRestoreRecordWrite
  dsimp only
  (repeat' split) <;> simp [h]

@[simp] theorem execLogOverrunClear_keeps (die : Nat) (value : BitVec 64) (s : State) :
    KeepsForm s (execLogOverrunClear die value s) := by
  refine keepsForm_of fun h => ?_
  unfold execLogOverrunClear
  split <;> simp [h]

theorem Core.addHandlers_scratch (k : Core) (b : BindRecord) : (k.addHandlers b).scratch = k.scratch := by
  unfold Core.addHandlers; split <;> rfl

theorem Core.addHandlers_descs (k : Core) (b : BindRecord) : (k.addHandlers b).descs = k.descs := by
  unfold Core.addHandlers; split <;> rfl

@[simp] theorem State.reserveRecord_wf (s : State) (core gslot : Nat) (l : Launch) (b : BindRecord) :
    (s.reserveRecord core gslot l b).wf = s.wf := by
  simp [State.reserveRecord, Core.addHandlers_scratch, Core.addHandlers_descs]

@[simp] theorem State.clearTraps_wf (s : State) (r : CrewRef) : (s.clearTraps r).wf = s.wf := by
  simp [State.clearTraps]

@[simp] theorem State.clearHandlers_wf (s : State) (core : Nat) (b : BindRecord) :
    (s.clearHandlers core b).wf = s.wf := by
  simp [State.clearHandlers]

@[simp] theorem State.startCrews_wf (s : State) (core gslot : Nat) (l : Launch) (b : BindRecord) :
    (s.startCrews core gslot l b).wf = s.wf := by
  simp [State.startCrews]

@[simp] theorem State.startRecord_wf (s : State) (core : Nat) (x : SlotRecord) (h : s.wf = true) :
    (s.startRecord core x).wf = true := by
  unfold State.startRecord
  dsimp only
  (repeat' split) <;> simp [h]

@[simp] theorem execRecordStart_keeps (s : State) : KeepsForm s (execRecordStart s) := by
  refine keepsForm_of fun h => ?_
  rw [execRecordStart, keepsForm_next]
  exact fun _ => foldl_keeps _ (fun st x hs => State.startRecord_wf st x.1 x.2 hs) _ s h

@[simp] theorem execGroupComplete_keeps (s : State) : KeepsForm s (execGroupComplete s) := by
  refine keepsForm_of fun h => ?_
  unfold execGroupComplete
  split
  · split <;> simp [h]
  · simp

@[simp] theorem execStealAttempt_keeps (s : State) : KeepsForm s (execStealAttempt s) := by
  refine keepsForm_of fun h => ?_
  simp only [execStealAttempt]
  split <;> simp [h]

@[simp] theorem State.dropRecord_wf (s : State) (core : Nat) (x : SlotRecord) : (s.dropRecord core x).wf = s.wf := by
  simp [State.dropRecord]

@[simp] theorem execStealRequest_keeps (s : State) : KeepsForm s (execStealRequest s) := by
  refine keepsForm_of fun h => ?_
  unfold execStealRequest
  dsimp only
  (repeat' split) <;> simp [h]

/-! ### Machine/Queues -/

@[simp] theorem State.modQueue_wf (s : State) (q : Nat) (f : QueueState → QueueState) :
    (s.modQueue q f).wf = s.wf := by
  rfl

@[simp] theorem State.register_wf (s : State) (q : Nat) : (s.register q).wf = s.wf := by simp [State.register]

@[simp] theorem State.ringDoorbell_wf (s : State) (q : Nat) (value : BitVec 64) (h : s.wf = true) :
    (s.ringDoorbell q value).wf = true := by
  simp [State.ringDoorbell, h]

@[simp] theorem execDoorbellWrite_keeps (q : Nat) (value : BitVec 64) (s : State) :
    KeepsForm s (execDoorbellWrite q value s) :=
  keepsForm_of fun h => by simp [execDoorbellWrite, h]

@[simp] theorem State.haltQueue_wf (s : State) (q : Nat) (d : QueueDesc) (code off : Nat) (h : s.wf = true) :
    (s.haltQueue q d code off).wf = true := by
  simp [State.haltQueue, h]

@[simp] theorem State.passCommand_wf (s : State) (q : Nat) (d : QueueDesc) (h : s.wf = true) :
    (s.passCommand q d).wf = true := by
  simp [State.passCommand, h]

theorem State.loseGroups_wf {α : Type} (l : List α) (c g : α → Nat) (s : State) (h : s.wf = true) :
    (l.foldl (fun (st : State) x => st.loseGroup (c x) (g x)) s).wf = true :=
  foldl_keeps _ (fun st x hs => State.loseGroup_wf st (c x) (g x) hs) l s h

@[simp] theorem State.refuse_wf (s : State) (d : QueueDesc) (admin : Bool) (c : List Byte) (h : s.wf = true) :
    (s.refuse d admin c).wf = true := by
  simp only [State.refuse]
  split
  · split
    · split
      · exact State.childCounts_wf _ _ _ (by simp [h])
      · simp [h]
    · exact h
  · split
    · split
      · simp [h]
      · simp [h]
    · exact h

/-- A queue command keeps the form when what it does once it is read and accepted does. -/
@[simp] theorem State.queueCommand_keeps (s : State) (opc : Nat) (body : QueueDesc → Bool → List Byte → State → State)
    (hb : s.wf = true → ∀ d admin c, (body d admin c s).wf = true) : KeepsForm s (s.queueCommand opc body) := by
  refine keepsForm_of fun h => ?_
  simp only [State.queueCommand]
  split
  · simp
  split
  · simp
  split
  · simp [h]
  · simp
  · simp
  · split <;> simp [h]
  · simp [hb h]

@[simp] theorem execNopCommand_keeps (s : State) : KeepsForm s (execNopCommand s) :=
  State.queueCommand_keeps _ _ _ fun h _ _ _ => h

@[simp] theorem State.openLevel_wf (s : State) (d : QueueDesc) (admin : Bool) (c : List Byte) :
    (s.openLevel d admin c).wf = s.wf := by
  unfold State.openLevel
  dsimp only
  split
  · rfl
  · rw [State.wf_mk]
    split
    · exact State.modLevel_wf ..
    · rfl

@[simp] theorem execOpenLevel_keeps (s : State) : KeepsForm s (execOpenLevel s) :=
  State.queueCommand_keeps _ _ _ fun h _ _ _ => (State.openLevel_wf ..).trans h

@[simp] theorem State.cancelAt_wf (s : State) (ctx : Nat) (a : RecAddr) : (s.cancelAt ctx a).wf = s.wf := by
  unfold State.cancelAt
  split <;> simp

@[simp] theorem execCancelLevel_keeps (s : State) : KeepsForm s (execCancelLevel s) :=
  State.queueCommand_keeps _ _ _ fun h _ _ _ => (State.cancelAt_wf ..).trans h

@[simp] theorem State.storeWord_wf (s : State) (a : RecAddr) (v : Nat) (h : s.wf = true) :
    (s.storeWord a v).wf = true := by
  unfold State.storeWord
  split
  · next hx => simp [State.recPa_wf _ _ _ hx h]
  · exact h

@[simp] theorem execWriteWord_keeps (s : State) : KeepsForm s (execWriteWord s) :=
  State.queueCommand_keeps _ _ _ fun h _ _ _ => State.storeWord_wf _ _ _ h

@[simp] theorem execNotifyCores_keeps (s : State) : KeepsForm s (execNotifyCores s) :=
  State.queueCommand_keeps _ _ _ fun h _ _ _ => by simp [h]

@[simp] theorem State.invalidate_wf (s : State) (ctx base limit : Nat) : (s.invalidate ctx base limit).wf = s.wf :=
  State.map_cores_wf rfl rfl (fun _ => rfl) (fun _ => rfl)

@[simp] theorem execInval_keeps (s : State) : KeepsForm s (execInval s) :=
  State.queueCommand_keeps _ _ _ fun h _ _ _ => by simp [h]

@[simp] theorem State.setContext_wf (s : State) (n : Nat) (x : Context) : (s.setContext n x).wf = s.wf := by rfl

@[simp] theorem execCtxset_keeps (s : State) : KeepsForm s (execCtxset s) :=
  State.queueCommand_keeps _ _ _ fun h _ _ _ => by simp [h]

@[simp] theorem execWaitRecheckTimer_keeps (s : State) : KeepsForm s (execWaitRecheckTimer s) := by
  simp [execWaitRecheckTimer]

@[simp] theorem execQueueTableTimeout_keeps (s : State) : KeepsForm s (execQueueTableTimeout s) := by
  refine keepsForm_of fun h => ?_
  unfold execQueueTableTimeout
  dsimp only
  (repeat' split) <;> simp [h]

/-! ### Machine/Launches -/

@[simp] theorem State.openLaunch_wf (s : State) (d : QueueDesc) (admin : Bool) (c : List Byte) (h : s.wf = true) :
    (s.openLaunch d admin c).wf = true := by
  unfold State.openLaunch
  dsimp only
  (repeat' split) <;> simp [h]

@[simp] theorem execLaunch_keeps (s : State) : KeepsForm s (execLaunch s) :=
  State.queueCommand_keeps _ _ _ fun h _ _ _ => State.openLaunch_wf _ _ _ _ h

@[simp] theorem State.becomeReady_wf (s : State) (i : Nat) (l : Launch) (h : s.wf = true) :
    (s.becomeReady i l).wf = true := by
  simp [State.becomeReady, h]

@[simp] theorem execLaunchReady_keeps (s : State) : KeepsForm s (execLaunchReady s) := by
  refine keepsForm_of fun h => ?_
  unfold execLaunchReady
  (repeat' split) <;> simp [h]

@[simp] theorem State.endGroups_wf (s : State) (i : Nat) (l : Launch) (h : s.wf = true) :
    (s.endGroups i l).wf = true := by
  refine foldl_keeps _ (fun st c hs => ?_) _ s h
  rw [State.killHandlers_wf]
  refine foldl_keeps _ (fun t g ht => ?_) _ st hs
  split
  · split <;> simp [ht]
  · exact ht

@[simp] theorem State.endLevel_wf (s : State) (i : Nat) (x : Level) (st : Status) (h : s.wf = true) :
    (s.endLevel i x st).wf = true := by
  simp [State.endLevel, h]

@[simp] theorem execCancelComplete_keeps (s : State) : KeepsForm s (execCancelComplete s) := by
  refine keepsForm_of fun h => ?_
  unfold execCancelComplete
  dsimp only
  (repeat' split) <;> simp [h]

/-! ### Machine/Preempt -/

@[simp] theorem State.drainGroups_wf (s : State) (victims handlers : List (Nat × Nat)) :
    (s.drainGroups victims handlers).wf = s.wf := by
  simp [State.drainGroups]

@[simp] theorem State.beginJob_wf (s : State) (die : Nat) (j : PreemptJob) : (s.beginJob die j).wf = s.wf := by
  simp [State.beginJob]

@[simp] theorem State.nextJob_wf (s : State) (die : Nat) (fuel : Nat) : (s.nextJob die fuel).wf = s.wf := by
  fun_induction State.nextJob <;> simp_all

@[simp] theorem State.askJob_wf (s : State) (die : Nat) (j : PreemptJob) : (s.askJob die j).wf = s.wf := by
  simp [State.askJob]

@[simp] theorem execPreemptRequest_keeps (die : Nat) (req : PreemptRequest) (s : State) :
    KeepsForm s (execPreemptRequest die req s) := by
  simp [execPreemptRequest]

@[simp] theorem State.saveGroup_wf (s : State) (v : Nat × Nat) (image len : Nat) (inPlace : Bool) :
    (s.saveGroup v image len inPlace).wf = s.wf := by
  unfold State.saveGroup
  split <;> simp

@[simp] theorem State.freeHandlers_wf (s : State) (core l : Nat) : (s.freeHandlers core l).wf = s.wf := by
  simp [State.freeHandlers]

@[simp] theorem State.saveAll_wf (s : State) (j : PreemptJob) (base : Nat) (images : List ((Nat × Nat) × List Byte))
    (h : s.wf = true) : (s.saveAll j base images).wf = true := by
  simp only [State.saveAll]
  rw [foldl_wf _ (fun st x => State.freeHandlers_wf ..)]
  exact foldl_fst_keeps _ (fun a x ha => by simp [ha]) _ (s, base) h

@[simp] theorem State.closeCore_wf (s : State) (core : Nat) : (s.closeCore core).wf = s.wf := by
  simp [State.closeCore]

@[simp] theorem State.endJob_wf (s : State) (die : Nat) (j : PreemptJob) (h : s.wf = true) :
    (s.endJob die j).wf = true := by
  have started : (s.modDie die (fun d => { d with preempt := none })).wf = true := (State.modDie_wf ..).trans h
  have lost := State.loseGroups_wf (j.victims.filter s.victimLeft) (fun v => v.1) (fun v => v.2) _ started
  rw [State.endJob, State.nextJob_wf]
  cases ho : j.origin with
  | port =>
    simp only [beq_self_eq_true, Bool.true_and, if_true]
    split
    · simp [lost]
    · simp [State.saveAll_wf _ _ _ _ started]
  | fence => exact (State.closeCore_wf ..).trans (State.saveAll_wf _ _ _ _ started)
  | _ => exact State.saveAll_wf _ _ _ _ started

@[simp] theorem execPreemptComplete_keeps (s : State) : KeepsForm s (execPreemptComplete s) := by
  refine keepsForm_of fun h => ?_
  unfold execPreemptComplete
  (repeat' split) <;> simp [h]

@[simp] theorem State.unbindCore_wf (s : State) (core : Nat) : (s.unbindCore core).wf = s.wf := by
  simp [State.unbindCore]

@[simp] theorem State.logFence_wf (s : State) (kind n : Nat) (r : FenceReason) (h : s.wf = true) :
    (s.logFence kind n r).wf = true := by
  simp [State.logFence, h]

@[simp] theorem State.fenceCore_wf (s : State) (core : Nat) (r : FenceReason) (h : s.wf = true) :
    (s.fenceCore core r).wf = true := by
  have lost : ∀ (l : List Nat) (t : State), t.wf = true →
      (l.foldl (fun (st : State) g => st.loseGroup core g) t).wf = true := fun l t =>
    State.loseGroups_wf l (fun _ => core) (fun g => g) t
  simp only [State.fenceCore]
  split
  · exact h
  · split <;> simp [lost, h]

@[simp] theorem execFenceEvacuationTimeout_keeps (s : State) : KeepsForm s (execFenceEvacuationTimeout s) := by
  refine keepsForm_of fun h => ?_
  simp only [execFenceEvacuationTimeout]
  split
  · simp [State.loseGroups_wf _ (fun _ => s.sel.a) (fun g => g) s h]
  · simp

@[simp] theorem State.listOne_wf (s : State) (r : CrewRef) (p : Parked) (h : s.wf = true) :
    (s.listOne r p).wf = true := by
  simp only [State.listOne, State.interrupt_wf, State.wf_mk]
  simp [h]

@[simp] theorem State.listParked_wf (s : State) (fuel : Nat) (h : s.wf = true) : (s.listParked fuel).wf = true := by
  induction fuel generalizing s with
  | zero => exact h
  | succ n ih =>
    simp only [State.listParked]
    split
    · exact h
    split
    · exact ih _ (State.listOne_wf _ _ _ h)
    · exact h

@[simp] theorem execFqheadWrite_keeps (value : Word) (s : State) : KeepsForm s (execFqheadWrite value s) :=
  keepsForm_of fun h => by simp [execFqheadWrite, h]

@[simp] theorem State.ignoreResponse_wf (s : State) : s.ignoreResponse.wf = s.wf := by rfl

@[simp] theorem execFaultrespReplay_keeps (token : Word) (s : State) : KeepsForm s (execFaultrespReplay token s) := by
  refine keepsForm_of fun h => ?_
  unfold execFaultrespReplay
  split <;> simp [h]

@[simp] theorem execFaultrespDecline_keeps (token : Word) (s : State) :
    KeepsForm s (execFaultrespDecline token s) := by
  refine keepsForm_of fun h => ?_
  unfold execFaultrespDecline
  split <;> simp [h]

@[simp] theorem execFaultrespTerminate_keeps (token : Word) (s : State) :
    KeepsForm s (execFaultrespTerminate token s) := by
  refine keepsForm_of fun h => ?_
  unfold execFaultrespTerminate
  split <;> simp [h]

@[simp] theorem execFrstatRead_keeps (s : State) : KeepsForm s (execFrstatRead s) := by simp [execFrstatRead]

@[simp] theorem State.logUe_wf (s : State) (cell ctx pa unit : Nat) (h : s.wf = true) :
    (s.logUe cell ctx pa unit).wf = true := by
  simp [State.logUe, h]

@[simp] theorem State.poison_wf (s : State) (block : Nat) : (s.poison block).wf = s.wf := by rfl

@[simp] theorem execUncorrectableStorageError_keeps (what : StorageDamage) (s : State) :
    KeepsForm s (execUncorrectableStorageError what s) := by
  refine keepsForm_of fun h => ?_
  cases what with
  | block pa => simp [execUncorrectableStorageError, h]
  | group core gslot unit =>
    simp only [execUncorrectableStorageError]
    split <;> simp [h]
  | homeRecord hm =>
    rw [execUncorrectableStorageError, keepsForm_next]
    exact fun _ => foldl_keeps _ (fun st c hs => State.terminate6_wf _ _ _ _ hs) _ _ (State.countCell_wf s _ 5 1 h)
  | device die table => simp [execUncorrectableStorageError, h]

/-! ### Machine/Cast -/

@[simp] theorem State.loadMemory_wf (s : State) (x : CastRecord) (h : s.wf = true) : (s.loadMemory x).wf = true := by
  simp only [State.loadMemory]
  split
  · refine foldl_keeps _ (fun st k hs => ?_) _ s h
    obtain ⟨hc, hd⟩ := st.mem_wf hs
    refine st.mem_keeps _ hs ?_
    rw [Memory.wf, Bool.and_eq_true]
    exact ⟨cellsWrite_wf _ _ _ hc, descPut_wf _ _ _ hd⟩
  · obtain ⟨hc, hd⟩ := s.mem_wf h
    refine s.mem_keeps _ h ?_
    rw [Memory.wf, Bool.and_eq_true]
    split
    · exact ⟨cellsWf_filter _ _ hc, descsWf_filter _ _ hd⟩
    · exact ⟨hc, hd⟩

@[simp] theorem State.loadRiser_wf (s : State) (b : List Byte) : (s.loadRiser b).wf = s.wf := by
  simp [State.loadRiser]

@[simp] theorem State.loadSaved_wf (s : State) (g : List CastRecord) (handlers : List (List Byte)) (h : s.wf = true) :
    (s.loadSaved g handlers).wf = true := by
  simp [State.loadSaved, h]

@[simp] theorem State.loadGroups_wf (s : State) (handlers : List (List Byte)) (l : List (List CastRecord))
    (h : s.wf = true) : (s.loadGroups handlers l).wf = true := by
  induction l generalizing s with
  | nil => exact h
  | cons g r ih => exact ih _ (State.loadSaved_wf _ _ _ h)

@[simp] theorem State.startQueues_wf (s : State) : s.startQueues.wf = s.wf := by simp [State.startQueues]

@[simp] theorem State.applyCast_wf (s : State) (p : CastParts) (h : s.wf = true) : (s.applyCast p).wf = true := by
  have memory := foldl_keeps _ (fun st x hs => State.loadMemory_wf st x hs) p.memory s h
  simp only [State.applyCast, State.startQueues_wf]
  refine State.loadGroups_wf _ _ _ ?_
  rw [foldl_wf _ (fun st b => State.loadRiser_wf ..)]
  refine (foldl_wf _ (fun st b => ?_) _ _).trans ?_
  · exact st.modCore_wf _ _ (fun _ => rfl) (fun _ => rfl)
  · refine Eq.trans (State.map_cores_wf (s := p.memory.foldl State.loadMemory s)
      (g := fun k => (k.1, { k.2.forget with tlb := [] })) ?_ ?_ (fun _ => rfl) (fun _ => rfl)) memory
    · rfl
    · rfl

@[simp] theorem execRestoreCast_keeps (records : List CastRecord) (s : State) :
    KeepsForm s (execRestoreCast records s) := by
  refine keepsForm_of fun h => ?_
  unfold execRestoreCast
  dsimp only
  (repeat' split) <;> simp [h]

/-! ### Machine/Quiesce -/

@[simp] theorem State.reply_wf (s : State) (who : Party) (data : List Byte) (ok : Bool) :
    (s.reply who data ok).wf = s.wf := by
  rfl

@[simp] theorem State.holdAct_wf (s : State) (i : Instr) : (s.holdAct i).wf = s.wf := by rfl

@[simp] theorem State.beginQuiesce_wf (s : State) (req : QuiesceRequest) : (s.beginQuiesce req).wf = s.wf := by
  simp [State.beginQuiesce]

@[simp] theorem execQuiesce_keeps (req : QuiesceRequest) (s : State) : KeepsForm s (execQuiesce req s) := by
  refine keepsForm_of fun h => ?_
  unfold execQuiesce
  split <;> simp [h]

@[simp] theorem State.writeBack_wf (s : State) : s.writeBack.wf = s.wf := by simp [State.writeBack]
@[simp] theorem State.removeSlice_wf (s : State) (n : Nat) : (s.removeSlice n).wf = s.wf := by rfl
@[simp] theorem State.emitCast_wf (s : State) (req : QuiesceRequest) : (s.emitCast req).wf = s.wf := by rfl
@[simp] theorem State.restoreInPlace_wf (s : State) : s.restoreInPlace.wf = s.wf := by simp [State.restoreInPlace]

@[simp] theorem State.endQuiesce_wf (s : State) (req : QuiesceRequest) : (s.endQuiesce req).wf = s.wf := by
  unfold State.endQuiesce
  split <;> simp

@[simp] theorem State.quiesceTick_wf (s : State) : s.quiesceTick.wf = s.wf := by
  unfold State.quiesceTick
  split <;> simp

@[simp] theorem execFenceUnit_keeps (kind : FenceKind) (n : Nat) (reason : FenceReason) (s : State) :
    KeepsForm s (execFenceUnit kind n reason s) := by
  refine keepsForm_of fun h => ?_
  unfold execFenceUnit
  (repeat' split) <;> simp [h]

end Sys2Proof.Machine
end

section
/-! ## The package and its host -/

open Sys2Proof

namespace Sys2Proof.Machine

/-! ### Machine/Package -/

@[simp] theorem State.modRegs_wf (s : State) (f : Regs → Regs) : (s.modRegs f).wf = s.wf := by rfl
@[simp] theorem State.setLock_wf (s : State) (bits : BitVec 64) : (s.setLock bits).wf = s.wf := by rfl
@[simp] theorem State.accErr_wf (s : State) : s.accErr.wf = s.wf := by rfl

@[simp] theorem State.lockBit_wf (s : State) (who : Party) (i : Nat) : (s.lockBit who i).wf = s.wf := by
  simp [State.lockBit]

@[simp] theorem State.lockRegions_wf (s : State) (who : Party) : (s.lockRegions who).wf = s.wf := by
  simp [State.lockRegions]

@[simp] theorem execLockRegion_keeps (who : Party) (s : State) : KeepsForm s (execLockRegion who s) := by
  simp [execLockRegion]

@[simp] theorem State.clearErrors_wf (s : State) (value : BitVec 64) : (s.clearErrors value).wf = s.wf := by rfl

@[simp] theorem execLockErrorClear_keeps (value : BitVec 64) (s : State) :
    KeepsForm s (execLockErrorClear value s) := by
  simp [execLockErrorClear]

@[simp] theorem State.ifRight_wf (s : State) (right : Bool) (t : State) (h : t.wf = s.wf) :
    (s.ifRight right t).wf = s.wf := by
  simp [State.ifRight, h]

@[simp] theorem State.writePart_wf (s : State) (off : Nat) (v : BitVec 64) : (s.writePart off v).wf = s.wf := by rfl

theorem State.writeFaultresp_wf (s : State) (v : BitVec 64) (h : s.wf = true) : (s.writeFaultresp v).wf = true := by
  simp only [State.writeFaultresp]
  split
  · split
    · next t ht => exact (execFaultrespReplay_keeps _ _).next t ht h
    · exact h
  · split
    · next t ht => exact (execFaultrespDecline_keeps _ _).next t ht h
    · exact h
  · split
    · next t ht => exact (execFaultrespTerminate_keeps _ _).next t ht h
    · exact h
  · exact h

@[simp] theorem State.writeFq_wf (s : State) (off : Nat) (v : BitVec 64) (h : s.wf = true) :
    (s.writeFq off v).wf = true := by
  simp only [State.writeFq]
  split <;> simp [h, State.writeFaultresp_wf]

@[simp] theorem State.writeDie_wf (s : State) (die off : Nat) (v : BitVec 64) : (s.writeDie die off v).wf = s.wf := by
  simp only [State.writeDie]
  split
  · exact State.map_cores_wf rfl rfl (fun p => by split <;> rfl) (fun p => by split <;> rfl)
  all_goals simp

@[simp] theorem State.flushBoot_wf (s : State) (h : s.wf = true) : s.flushBoot.wf = true := by
  unfold State.flushBoot
  split
  · exact h
  · exact foldl_keeps _ (fun st x hs => State.logRecord_wf _ _ _ _ _ _ hs) _ _ h

@[simp] theorem State.writeLog_wf (s : State) (off : Nat) (v : BitVec 64) (h : s.wf = true) :
    (s.writeLog off v).wf = true := by
  unfold State.writeLog
  split <;> simp [h]

@[simp] theorem State.writePerf_wf (s : State) (off : Nat) (v : BitVec 64) : (s.writePerf off v).wf = s.wf := by
  unfold State.writePerf
  split <;> simp

@[simp] theorem State.writeCounter_wf (s : State) (cell fld : Nat) (value : Word) :
    (s.writeCounter cell fld value).wf = s.wf := by
  simp [State.writeCounter]

@[simp] theorem State.writeThreshold_wf (s : State) (kind index : Nat) (value : BitVec 64) :
    (s.writeThreshold kind index value).wf = s.wf := by
  simp [State.writeThreshold]

@[simp] theorem State.writeScrub_wf (s : State) (v : BitVec 64) : (s.writeScrub v).wf = s.wf := by
  simp [State.writeScrub]

@[simp] theorem State.writeMaps_wf (s : State) (who : Party) (off : Nat) (v : BitVec 64) :
    (s.writeMaps who off v).wf = s.wf := by
  simp [State.writeMaps]

@[simp] theorem State.writeLock_wf (s : State) (who : Party) (v : BitVec 64) : (s.writeLock who v).wf = s.wf := by
  simp [State.writeLock]

@[simp] theorem State.writeRegister_wf (s : State) (who : Party) (off : Nat) (v : BitVec 64) (wide : Bool)
    (h : s.wf = true) : (s.writeRegister who off v wide).wf = true := by
  simp [State.writeRegister, h]

@[simp] theorem execRegisterWrite_keeps (who : Party) (off : Nat) (value : BitVec 64) (s : State) :
    KeepsForm s (execRegisterWrite who off value s) :=
  keepsForm_of fun h => by simp [execRegisterWrite, h]

@[simp] theorem execCounterWrite_keeps (cell field : Nat) (value : Word) (s : State) :
    KeepsForm s (execCounterWrite cell field value s) := by
  simp [execCounterWrite]

@[simp] theorem execThresholdWrite_keeps (kind index : Nat) (value : BitVec 64) (s : State) :
    KeepsForm s (execThresholdWrite kind index value s) := by
  simp [execThresholdWrite]

@[simp] theorem execEllostClear_keeps (value : Word) (s : State) : KeepsForm s (execEllostClear value s) := by
  refine keepsForm_of fun h => ?_
  unfold execEllostClear
  split <;> simp [h]

@[simp] theorem State.afterPower_wf (s : State) (b : BootConfig) : (s.afterPower b).wf = true := rfl

@[simp] theorem State.bringUp_wf (s : State) (b : BootConfig) (active : Nat) : (s.bringUp b active).wf = s.wf := by
  simp [State.bringUp]

@[simp] theorem State.logBoot_wf (s : State) (b : BootConfig) : (s.logBoot b).wf = s.wf := by
  simp only [State.logBoot, State.wf_mk]

@[simp] theorem execPowerOn_keeps (config : BootConfig) (s : State) : KeepsForm s (execPowerOn config s) := by
  refine keepsForm_of fun h => ?_
  unfold execPowerOn
  dsimp only
  (repeat' split) <;> simp [h]

/-! ### Machine/HostSide -/

@[simp] theorem State.readRun_wf (s : State) (who : Party) (x : Nat × Nat) : (s.readRun who x).wf = s.wf := by
  simp only [State.readRun]
  split <;> simp

@[simp] theorem State.writeOut_wf (s : State) (who : Party) (pa : Nat) (bs data : List Byte) (h : s.wf = true) :
    (s.writeOut who pa bs data).wf = true := by
  have runs := foldl_keeps _ (fun st x hs => State.releaseRun_wf st x none hs)
    (lineRuns (bs.length / 128 + 2) pa bs).dropLast s h
  simp only [State.writeOut]
  split
  · simp [runs]
  · split <;> simp [runs]

@[simp] theorem State.perform_wf (s : State) (who : Party) (a : HostAccess) (h : s.wf = true) :
    (s.perform who a).wf = true := by
  unfold State.perform
  split <;> simp [h]

@[simp] theorem State.accessDevice_wf (s : State) (hart : Nat) (a : HostAccess) (h : s.wf = true) :
    (s.accessDevice hart a).wf = true := by
  unfold State.accessDevice
  split <;> simp [h]

@[simp] theorem execAppCoreAccess_keeps (hart : Nat) (acc : HostAccess) (s : State) :
    KeepsForm s (execAppCoreAccess hart acc s) := by
  refine keepsForm_of fun h => ?_
  unfold execAppCoreAccess
  dsimp only
  (repeat' split) <;> simp [h]

@[simp] theorem execPcieInboundRequest_keeps (port : Nat) (acc : HostAccess) (s : State) :
    KeepsForm s (execPcieInboundRequest port acc s) := by
  refine keepsForm_of fun h => ?_
  unfold execPcieInboundRequest
  split
  · simp
  · split_ifs <;> simp [h]

@[simp] theorem execPhoacRequest_keeps (package txid : Nat) (acc : HostAccess) (s : State) :
    KeepsForm s (execPhoacRequest package txid acc s) := by
  refine keepsForm_of fun h => ?_
  unfold execPhoacRequest
  dsimp only
  (repeat' split) <;> simp [h]

@[simp] theorem State.spdm_wf (s : State) (data : List Byte) (ok : Bool) : (s.spdm data ok).wf = s.wf := by
  simp [State.spdm]

@[simp] theorem execGetVersion_keeps (s : State) : KeepsForm s (execGetVersion s) := by
  refine keepsForm_of fun h => ?_
  unfold execGetVersion
  split <;> simp [h]

@[simp] theorem execGetCapabilities_keeps (s : State) : KeepsForm s (execGetCapabilities s) := by
  simp [execGetCapabilities]

@[simp] theorem execNegotiateAlgorithms_keeps (sig hash : Nat) (s : State) :
    KeepsForm s (execNegotiateAlgorithms sig hash s) := by
  refine keepsForm_of fun h => ?_
  unfold execNegotiateAlgorithms
  split <;> simp [h]

@[simp] theorem execGetDigests_keeps (s : State) : KeepsForm s (execGetDigests s) := by simp [execGetDigests]

@[simp] theorem execGetCertificate_keeps (slot offset length : Nat) (s : State) :
    KeepsForm s (execGetCertificate slot offset length s) := by
  refine keepsForm_of fun h => ?_
  unfold execGetCertificate
  split <;> simp [h]

@[simp] theorem execChallenge_keeps (slot : Nat) (nonce : List Byte) (s : State) :
    KeepsForm s (execChallenge slot nonce s) := by
  refine keepsForm_of fun h => ?_
  unfold execChallenge
  split <;> simp [h]

@[simp] theorem execGetMeasurements_keeps (index : Nat) (s : State) : KeepsForm s (execGetMeasurements index s) := by
  unfold execGetMeasurements
  split_ifs <;> simp

@[simp] theorem execSpdmUnsupported_keeps (code : Nat) (s : State) : KeepsForm s (execSpdmUnsupported code s) := by
  simp [execSpdmUnsupported]

/-! ### Machine/Fleet -/

@[simp] theorem State.modPower_wf (s : State) (f : Power → Power) : (s.modPower f).wf = s.wf := by rfl

@[simp] theorem execSetPowerCap_keeps (watts : Nat) (s : State) : KeepsForm s (execSetPowerCap watts s) := by
  refine keepsForm_of fun h => ?_
  unfold execSetPowerCap
  split <;> simp [h]

@[simp] theorem execPowerControlPeriod_keeps (die watts duty : Nat) (s : State) :
    KeepsForm s (execPowerControlPeriod die watts duty s) := by
  refine keepsForm_of fun h => ?_
  unfold execPowerControlPeriod
  split <;> simp [h]

@[simp] theorem execThermalThrottle_keeps (die celsius : Nat) (s : State) :
    KeepsForm s (execThermalThrottle die celsius s) := by
  refine keepsForm_of fun h => ?_
  unfold execThermalThrottle
  split <;> simp [h]

@[simp] theorem execThermalRelease_keeps (die celsius : Nat) (s : State) :
    KeepsForm s (execThermalRelease die celsius s) := by
  refine keepsForm_of fun h => ?_
  unfold execThermalRelease
  split <;> simp [h]

@[simp] theorem State.scrubDesc_wf (s : State) (block : Nat) (h : s.wf = true) : (s.scrubDesc block).wf = true := by
  simp [State.scrubDesc, h]

@[simp] theorem execScrubVisit_keeps (block : Nat) (ecc : EccResult) (s : State) :
    KeepsForm s (execScrubVisit block ecc s) := by
  refine keepsForm_of fun h => ?_
  unfold execScrubVisit
  dsimp only
  (repeat' split) <;> simp [h]

@[simp] theorem execScrubWriteback_keeps (s : State) : KeepsForm s (execScrubWriteback s) := by
  refine keepsForm_of fun h => ?_
  unfold execScrubWriteback
  dsimp only
  (repeat' split) <;> simp [h]

@[simp] theorem execClearCounters_keeps (lo hi : Nat) (s : State) : KeepsForm s (execClearCounters lo hi s) := by
  simp [execClearCounters]

@[simp] theorem execUpdateFirmware_keeps (image : FirmwareImage) (slot : Nat) (s : State) :
    KeepsForm s (execUpdateFirmware image slot s) := by
  refine keepsForm_of fun h => ?_
  unfold execUpdateFirmware
  dsimp only
  (repeat' split) <;> simp [h]

@[simp] theorem State.modTest_wf (s : State) (die : Nat) (f : FieldTest → FieldTest) :
    (s.modTest die f).wf = s.wf := by
  rfl

@[simp] theorem State.startTest_wf (s : State) (die : Nat) : (s.startTest die).wf = s.wf := by
  simp only [State.startTest]
  split <;> simp

@[simp] theorem execIftctlStart_keeps (die cluster : Nat) (s : State) :
    KeepsForm s (execIftctlStart die cluster s) := by
  refine keepsForm_of fun h => ?_
  unfold execIftctlStart
  split <;> simp [h]

@[simp] theorem execRunFieldTest_keeps (cluster : Nat) (s : State) : KeepsForm s (execRunFieldTest cluster s) := by
  refine keepsForm_of fun h => ?_
  unfold execRunFieldTest
  split <;> simp [h]

@[simp] theorem State.logSuspect_wf (s : State) (cluster ctx launch flags first last n : Nat) (h : s.wf = true) :
    (s.logSuspect cluster ctx launch flags first last n).wf = true := by
  simp [State.logSuspect, h]

@[simp] theorem State.logSuspects_wf (s : State) (die cluster : Nat) (h : s.wf = true) :
    (s.logSuspects die cluster).wf = true := by
  simp only [State.logSuspects]
  split
  · exact foldl_keeps _ (fun st c hs => State.logSuspect_wf _ _ _ _ _ _ _ _ hs) _ s h
  · refine foldl_keeps _ (fun st c hs => ?_) _ s h
    exact foldl_keeps _ (fun t l ht => State.logSuspect_wf _ _ _ _ _ _ _ _ ht) _ st hs

@[simp] theorem execIftComplete_keeps (die : Nat) (fault : Option Nat) (s : State) :
    KeepsForm s (execIftComplete die fault s) := by
  refine keepsForm_of fun h => ?_
  simp only [execIftComplete]
  split
  · simp
  split
  · simp
  split
  · simp
  · rw [keepsForm_next, State.startTest_wf, State.modCluster_wf]
    refine fun _ => State.logSuspects_wf _ _ _ (State.logRecord_wf _ _ _ _ _ _ ?_)
    exact foldl_keeps _ (fun st x hs => State.fenceCore_wf _ _ _ hs) _ _ ((State.modTest_wf ..).trans h)

/-- A core set to a core in form, such as one after a reset, keeps the form. -/
theorem State.resetCores_wf (r : Core → Core) (hr : ∀ k, (r k).wf = true) (l : List Nat) (s : State)
    (h : s.wf = true) : (l.foldl (fun st c => st.modCore c r) s).wf = true :=
  foldl_keeps _ (fun st c hs => st.modCore_keeps c r hs fun _ => hr _) l s h

@[simp] theorem State.clusterReset_wf (s : State) (cluster : Nat) (h : s.wf = true) :
    (s.clusterReset cluster).wf = true := by
  simp only [State.clusterReset, State.modCluster_wf]
  refine State.resetCores_wf _ (fun _ => rfl) _ _ ?_
  rw [foldl_wf _ (fun st c => by simp), State.wf_mk]
  refine (foldl_wf _ (fun st c => ?_) _ _).trans h
  simp only [State.wf_mk]
  exact State.modCore_wf _ _ _ (fun _ => rfl) (fun _ => rfl)

@[simp] theorem execResetCluster_keeps (cluster : Nat) (s : State) : KeepsForm s (execResetCluster cluster s) := by
  refine keepsForm_of fun h => ?_
  unfold execResetCluster
  split <;> simp [h]

@[simp] theorem execClusterResetEnd_keeps (s : State) : KeepsForm s (execClusterResetEnd s) := by
  refine keepsForm_of fun h => ?_
  simp only [execClusterResetEnd]
  split <;> simp [h]

/-! ### Machine/Due -/

@[simp] theorem State.select_wf (s : State) (x : Sel) : (s.select x).wf = s.wf := by rfl

@[simp] theorem State.tick_wf (s : State) (h : s.wf = true) : s.tick.wf = true := by
  simp only [State.tick]
  rw [foldl_wf _ (fun st t => State.startTest_wf ..), State.quiesceTick_wf]
  refine State.listParked_wf _ _ ((foldl_wf _ (fun st c => ?_) _ _).trans ?_)
  · exact st.modCore_wf _ _ (fun _ => rfl) (fun _ => rfl)
  · exact (State.netTick_wf s).trans h

end Sys2Proof.Machine
end

section
/-! ## A step keeps the form -/

open Sys2Proof

namespace Sys2Proof.Machine

theorem State.fetchBytes_wf (s : State) (r : CrewRef) (pc n : Nat) {q : List Byte × State}
    (hq : s.fetchBytes r pc n = .ok q) (h : s.wf = true) : q.2.wf = true := by
  simp only [State.fetchBytes] at hq
  split at hq
  · cases hq
  · split at hq
    · cases hq; simp [h]
    · split at hq <;> cases hq
      simp [h]

theorem State.fetch_ok_wf (s : State) (i : Issue) {q : Issue × State} (hq : s.fetch i = .ok q) (h : s.wf = true) :
    q.2.wf = true := by
  simp only [State.fetch] at hq
  split at hq
  · cases hq
  · next b hb =>
    split at hq
    · cases hq
    · next c hc =>
      cases hq
      rw [State.wf_mk, State.keptWord_wf]
      split at hc
      · cases hc; exact State.fetchBytes_wf _ _ _ _ hb h
      · exact State.fetchBytes_wf _ _ _ _ hc h

theorem State.fetch_error_wf (s : State) (i : Issue) {t : State} (ht : s.fetch i = .error t) (h : s.wf = true) :
    t.wf = true := by
  simp only [State.fetch] at ht
  split at ht
  · cases ht; simp [h]
  · split at ht <;> cases ht
    simp [h]

theorem State.fetchDecode_ok_wf (s : State) (i : Issue) {q : Instr × State} (hq : s.fetchDecode i = .ok q)
    (h : s.wf = true) : q.2.wf = true := by
  simp only [State.fetchDecode] at hq
  split at hq
  · cases hq
  · next p hp =>
    split at hq <;> cases hq
    exact State.fetch_ok_wf s i hp h

theorem State.fetchDecode_error_wf (s : State) (i : Issue) {t : State} (ht : s.fetchDecode i = .error t)
    (h : s.wf = true) : t.wf = true := by
  simp only [State.fetchDecode] at ht
  split at ht
  · next u hu => cases ht; exact State.fetch_error_wf s i hu h
  · next p hp =>
    split at ht <;> cases ht
    simp [State.fetch_ok_wf s i hp h]

theorem State.nextInput_wf (s : State) {x : Act × State} (hx : s.nextInput = some x) : x.2.wf = s.wf := by
  unfold State.nextInput at hx
  split at hx
  · split_ifs at hx
    cases hx; rfl
  · cases hx

theorem State.nextSub_wf (s : State) {x : Sel × State} (hx : s.nextSub = some x) : x.2.wf = s.wf := by
  obtain ⟨p, -, rfl⟩ := Option.map_eq_some_iff.1 hx
  rfl

theorem State.plan_ok_wf (s : State) {x : Instr × State} (hx : s.plan = .ok x) (h : s.wf = true) : x.2.wf = true := by
  unfold State.plan at hx
  split at hx
  · next i _ => exact State.fetchDecode_ok_wf s i hx h
  split at hx
  · cases hx; exact h
  split at hx
  · next y hy =>
    split_ifs at hx
    cases hx
    rwa [State.select_wf, State.nextInput_wf s hy]
  split at hx
  · next y hy =>
    cases hx
    rwa [State.select_wf, State.nextSub_wf s hy]
  · cases hx

theorem State.plan_error_wf (s : State) {t : State} (ht : s.plan = .error t) (h : s.wf = true) : t.wf = true := by
  unfold State.plan at ht
  split at ht
  · next i _ => exact State.fetchDecode_error_wf s i ht h
  split at ht
  · cases ht
  split at ht
  · next y hy =>
    split_ifs at ht
    cases ht
    rwa [State.nextInput_wf s hy]
  split at ht <;> cases ht
  exact State.tick_wf s h

/-- Every row keeps the form: most instructions by the shared operation that they call, every other row by a lemma of
its own. -/
theorem exec_keepsForm (i : Instr) (s : State) : KeepsForm s (exec i s) := by
  cases i with
  | iadd f | iaddS32 f | iaddC16 f | isub f | isubS32 f | isubC16 f | imul f | imulS32 f | imulh f | imulhS32 f
  | imac f | imacw f | imin f | iminS32 f | iminC16 f | imax f | imaxS32 f | imaxC16 f | iabs f | iabsS32 f
  | and f | andS32 f | andC16 f | or f | orS32 f | orC16 f | xor f | xorS32 f | xorC16 f | logi f | logiS32 f
  | shl f | shlS32 f | shlC16 f | shr f | shrS32 f | shrC16 f | funl f | bext f | bextS32 f | bins f | bcnt f
  | bcntS32 f | bscan f | bscanS32 f | brev f | brevS32 f | bperm f | bpermS32 f | adds f | addsS32 f | idot4 f
  | fadd f | faddS32 f | faddC16 f | fmul f | fmulS32 f | fmulC16 f | ffma f | ffms f | fnma f | fmin f
  | fminS32 f | fminC16 f | fmax f | fmaxS32 f | fmaxC16 f | fclass f | fclassS32 f | sfn f | sfnS32 f | fint f
  | fintS32 f | ftoi f | ftoiS32 f | itof f | itofS32 f | fscale f | fscaleS32 f | padd f | paddS32 f
  | paddC16 f | pmul f | pmulS32 f | pfma f | pmnx f | pmnxS32 f | pack f | packS32 f | unpk f | unpkS32 f
  | fsubC16 f | cvote f | cvoteS32 f | lxch f | lxchS32 f | pick f | maskLanes f | maskLanesS32 f | mov f
  | movS32 f | movC16 f =>
    rw [exec]
    exact State.alu_keeps ..
  | iaddi f | iaddiI32 f | movi f | moviI32 f =>
    rw [exec]
    exact State.aluK_keeps ..
  | icmp f | fcmp f =>
    rw [exec]
    exact State.compare_keeps ..
  | cvt f | cvtS32 f =>
    rw [exec]
    exact State.cvtWith_keeps ..
  | lred f | lmatch f =>
    rw [exec]
    exact State.late_keeps ..
  | sread f | sreadI32 f =>
    rw [exec]
    exact State.sreadWith_keeps ..
  | br f | brJ32 f | call f | callJ32 f =>
    rw [exec]
    exact State.branchWith_keeps ..
  | jr f | jrS32 f | ret f | retS32 f =>
    rw [exec]
    exact State.jumpWith_keeps ..
  | rjoin f | rjoinS32 f =>
    rw [exec]
    exact State.rjoinWith_keeps ..
  | exitThread f | exitThreadS32 =>
    rw [exec]
    exact State.exitWith_keeps ..
  | nop f | nopS32 =>
    rw [exec]
    exact State.nopWith_keeps ..
  | pause f | pauseS32 =>
    rw [exec]
    exact State.pauseWith_keeps ..
  | region f | regionS32 =>
    rw [exec]
    exact State.regionWith_keeps ..
  | tryGambit f =>
    rw [exec]
    exact State.tryWith_keeps ..
  | commit f | commitS32 =>
    rw [exec]
    exact State.commitWith_keeps ..
  | abort f =>
    rw [exec]
    exact State.abortWith_keeps ..
  | trap f | brk f | brkI32 f =>
    rw [exec]
    exact State.trapWith_keeps ..
  | tret f | tretS32 =>
    rw [exec]
    exact State.tretWith_keeps ..
  | xblkAcq f | xblkAcqS32 =>
    rw [exec]
    exact State.xblkAcqWith_keeps ..
  | xblkRel f | xblkRelS32 =>
    rw [exec]
    exact State.xblkRelWith_keeps ..
  | ldc f | lda f =>
    rw [exec]
    exact State.loadWith_keeps ..
  | st f | stBlk f =>
    rw [exec]
    exact State.storeWith_keeps ..
  | lockPart who | lockLmap who | lockSensors who | lockClock who | lockPhoac who =>
    rw [exec]
    exact (keepsForm_next ..).2 (State.lockBit_wf ..).trans
  | _ => simp [exec]

/-- A step keeps the form: its plan does, and so does the row that it runs. -/
theorem step_keepsForm (s : State) : KeepsForm s (step s) := by
  refine keepsForm_of fun h => ?_
  unfold step
  split
  · next t ht => exact (keepsForm_next s t).2 (State.plan_error_wf s ht)
  · next x hx => exact ⟨fun t ht _ => (exec_keepsForm x.1 x.2).next t ht (State.plan_ok_wf s hx h)⟩

end Sys2Proof.Machine
end

section

namespace Sys2Proof

open Machine

/-- Settles O59: every row keeps the form, and so does what a step does before its row runs. -/
theorem everyStepKeepsMemoryInForm : Obligations.EveryStepKeepsMemoryInForm := by
  unfold Obligations.EveryStepKeepsMemoryInForm
  exact fun s t hs ht => (step_keepsForm s).next t ht hs

end Sys2Proof
end

section
/-! ## Crew slots of the device

A crew slot that a reference names is in range when its sub-core and its place in it exist. Changing it, or any other part of
a core, is read back here; later files do not unfold the paths through the state. -/

open Sys2Proof

namespace Sys2Proof.Machine

/-- A reference names a crew slot that the state lists. -/
structure State.HasSlot (s : State) (r : CrewRef) : Prop where
  sub : r.sub < (s.core r.core).subs.length
  slot : r.slot < (s.sub r.core r.sub).crews.length

theorem sub_eq_reset (s : State) (c b : Nat) (h : ¬ b < (s.core c).subs.length) : s.sub c b = Sub.reset := by
  rw [State.sub, Core.sub, List.getD_eq_default _ _ (by omega)]

theorem Sub.reset_crew (k : Nat) : Sub.reset.crew k = Crew.idle := by
  rw [Sub.crew, Sub.reset, List.getD_eq_getElem?_getD, List.getElem?_replicate]
  split <;> rfl

/-- A slot that is not listed reads as idle, so one in which anything stands is listed. -/
theorem State.hasSlot_of_ne_idle {s : State} {r : CrewRef} (h : s.crew r ≠ Crew.idle) : s.HasSlot r := by
  have hs : r.sub < (s.core r.core).subs.length := by
    by_contra hn
    exact h (by rw [State.crew, sub_eq_reset _ _ _ hn, Sub.reset_crew])
  refine ⟨hs, ?_⟩
  by_contra hn
  exact h (by rw [State.crew, Sub.crew, List.getD_eq_default _ _ (by omega)])

theorem State.hasSlot_of_owner {s : State} {r : CrewRef} {o : Owner} (h : (s.crew r).owner = some o) : s.HasSlot r :=
  State.hasSlot_of_ne_idle fun e => by rw [e] at h; cases h

theorem crew_modCrew_of_slot (s : State) (r : CrewRef) (f : Crew → Crew) (h : s.HasSlot r) :
    (s.modCrew r f).crew r = f (s.crew r) := by
  rw [State.crew, State.modCrew, sub_modSub _ _ _ _ h.sub]
  exact modifyAt_getD_same _ _ _ _ h.slot

/-- A change of a sub-core is seen at that sub-core alone, and there only if it is listed. -/
theorem sub_modSub_cases (s : State) (c b d e : Nat) (f : Sub → Sub) :
    (s.modSub c b f).sub d e = s.sub d e ∨ (d = c ∧ e = b ∧ (s.modSub c b f).sub d e = f (s.sub d e)) := by
  by_cases h : d = c ∧ e = b
  · obtain ⟨rfl, rfl⟩ := h
    by_cases hb : e < (s.core d).subs.length
    · exact .inr ⟨rfl, rfl, sub_modSub s d e f hb⟩
    · left
      rw [sub_eq_reset s d e hb, sub_eq_reset]
      simpa using hb
  · exact .inl (sub_modSub_ne s c b d e f h)

theorem crew_modCrew_ne (s : State) (r q : CrewRef) (f : Crew → Crew) (h : q ≠ r) : (s.modCrew r f).crew q = s.crew q := by
  unfold State.modCrew State.crew
  rcases sub_modSub_cases s r.core r.sub q.core q.sub
    (fun b => { b with crews := modifyAt b.crews r.slot f }) with e | ⟨hc, hb, e⟩
  · rw [e]
  · rw [e]
    refine modifyAt_getD_ne _ _ _ _ _ fun hs => h ?_
    obtain ⟨qc, qb, qs⟩ := q
    obtain ⟨rc, rb, rs⟩ := r
    simp only at hc hb hs
    subst hc hb hs
    rfl

/-- A change of a sub-core that leaves its crews as they are changes no crew. -/
theorem crew_modSub_same (s : State) (c b : Nat) (f : Sub → Sub) (q : CrewRef) (hf : ∀ x, (f x).crews = x.crews) :
    (s.modSub c b f).crew q = s.crew q := by
  rw [State.crew, State.crew]
  rcases sub_modSub_cases s c b q.core q.sub f with e | ⟨-, -, e⟩ <;> rw [e]
  exact congrArg (fun l : List Crew => l.getD q.slot Crew.idle) (hf _)

/-- A change of a core that leaves its sub-cores as they are changes no crew. -/
theorem crew_modCore_same (s : State) (c : Nat) (f : Core → Core) (q : CrewRef) (hf : ∀ k, (f k).subs = k.subs) :
    (s.modCore c f).crew q = s.crew q := by
  by_cases h : q.core = c
  · simp only [State.crew, State.sub, Core.sub, h, core_modCore, hf]
  · simp only [State.crew, State.sub, core_modCore_ne _ _ _ _ h]

end Sys2Proof.Machine
end

section
/-! ## What retiring and heads change in a crew -/

open Sys2Proof Sys2Proof.Claims

namespace Sys2Proof.Machine

/-- Retiring changes of a crew only its turn pointer, its counters, the time of its last issue and its gambit's count. -/
theorem retired_crew_fields (s : State) (i : Issue) (moves : Bool) (h : s.hasCrew i.ref = true) :
    ∃ tn rn, (s.retired i moves).crew i.ref =
      { s.crew i.ref with
        turn := tn, run := rn, retired := (s.crew i.ref).retired + 1, lastIssue := s.cycle
        gambit := (s.crew i.ref).gambit.map
          (fun g => if g.lanes &&& i.part != 0 then { g with count := g.count + 1 } else g) } := by
  obtain ⟨tn, rn, e⟩ := turned_fields (s.crew i.ref) i.part moves
  exact ⟨tn, rn, by rw [State.retired, retiredWith_crew _ _ _ _ h, e]⟩

theorem retired_sameElse (s : State) (i : Issue) (moves : Bool) (h : s.hasCrew i.ref = true) :
    SameElse s (s.retired i moves) i.ref :=
  retiredWith_same s i moves none h

theorem retired_hasCrew (s : State) (i : Issue) (moves : Bool) (h : s.hasCrew i.ref = true) :
    (s.retired i moves).hasCrew i.ref = true :=
  retiredWith_hasCrew s i moves none h

/-- What retiring an advanced group says: the group's threads have advanced, and no register has changed. -/
theorem retire_retired (s : State) (i : Issue) (moves : Bool) (h : s.hasCrew i.ref = true) :
    Retired s (s.retire i moves) i ∧ SameRegs (s.crew i.ref) ((s.retire i moves).crew i.ref) ∧
      SamePreds (s.crew i.ref) ((s.retire i moves).crew i.ref) := by
  obtain ⟨r, p, g, t⟩ := retire_spec s i moves none h
  exact ⟨r, ⟨g, t⟩, p⟩

theorem retire_hasCrew (s : State) (i : Issue) (moves : Bool) (h : s.hasCrew i.ref = true) :
    (s.retire i moves).hasCrew i.ref = true :=
  retired_hasCrew _ i moves (modCrew_advance_hasCrew s i.ref i.part i.len h)

theorem retire_crew_fields (s : State) (i : Issue) (moves : Bool) (h : s.hasCrew i.ref = true) :
    ∃ tn rn, (s.retire i moves).crew i.ref =
      { (s.crew i.ref).advance i.part i.len with
        turn := tn, run := rn, retired := (s.crew i.ref).retired + 1, lastIssue := s.cycle
        gambit := (s.crew i.ref).gambit.map
          (fun g => if g.lanes &&& i.part != 0 then { g with count := g.count + 1 } else g) } := by
  obtain ⟨tn, rn, e⟩ := retired_crew_fields _ i moves (modCrew_advance_hasCrew s i.ref i.part i.len h)
  rw [crew_modCrew _ _ _ h] at e
  exact ⟨tn, rn, e⟩

/-! ### Heads -/

theorem head_crew (s : State) (r : CrewRef) (h : s.hasCrew r = true) :
    (s.head r).crew r = (s.crew r).head s.nextId s.cycle (s.keep r).side := by
  rw [State.head, crew_modCrew _ _ _ (show s.fresh.2.hasCrew r = true from h)]
  rfl

theorem head_sameElse (s : State) (r : CrewRef) (h : s.hasCrew r = true) : SameElse s (s.head r) r :=
  (SameElse.fresh s r).trans (SameElse.modCrew _ r _ (show s.fresh.2.hasCrew r = true from h))

@[simp] theorem head_issue (s : State) (r : CrewRef) : (s.head r).issue = s.issue := rfl

@[simp] theorem Crew.head_map (w : Crew) (id cycle : Nat) (side : SideBuffer) : (w.head id cycle side).map = w.map := rfl
@[simp] theorem Crew.head_threads (w : Crew) (id cycle : Nat) (side : SideBuffer) :
    (w.head id cycle side).threads = w.threads := rfl
@[simp] theorem Crew.head_thread (w : Crew) (id cycle : Nat) (side : SideBuffer) (l : Nat) :
    (w.head id cycle side).thread l = w.thread l := rfl

/-- Registers and their taint are read from the map and the threads alone. -/
theorem sameRegs_congr {w v u : Crew} (h : SameRegs w v) (hm : u.map = v.map) (ht : u.threads = v.threads) :
    SameRegs w u := by
  simpa only [SameRegs, Crew.reg, Crew.thread, hm, ht] using h

theorem samePreds_congr {w v u : Crew} (h : SamePreds w v) (ht : u.threads = v.threads) : SamePreds w u := by
  simpa only [SamePreds, Crew.thread, ht] using h

/-- The regions of a crew after a head: the last one is closed, and one that holds nothing stands behind it (R153). -/
theorem Crew.head_regions (w : Crew) (id cycle : Nat) (side : SideBuffer) :
    (w.head id cycle side).regions =
      modifyAt w.regions (w.regions.length - 1) (fun g => { g with closed := some cycle }) ++
        [Region.open_ id cycle (w.snapshot side)] := rfl

/-- The region that a head closes keeps all but its closing time. -/
theorem Crew.head_closes (w : Crew) (id cycle : Nat) (side : SideBuffer) (g : Region) (h : w.regions.getLast? = some g) :
    (w.head id cycle side).regions[w.regions.length - 1]? = some { g with closed := some cycle } := by
  have hn : w.regions.length - 1 < w.regions.length := by
    cases hr : w.regions with
    | nil => simp [hr] at h
    | cons a r => simp
  rw [Crew.head_regions, List.getElem?_append_left (by simpa using hn), modifyAt_getElem?, if_pos rfl,
    ← List.getLast?_eq_getElem?, h]
  rfl

/-- A head takes the snapshot that R154 asks for. -/
theorem Crew.head_tookHead (w : Crew) (id cycle : Nat) (side : SideBuffer) :
    TookHead w (w.head id cycle side) cycle := by
  refine ⟨by simp [Crew.head_regions], rfl, rfl, fun g hg => ⟨_, w.head_closes id cycle side g hg, rfl, rfl, rfl, rfl⟩, ?_⟩
  exact ⟨_, by rw [Crew.head_regions, List.getLast?_concat], rfl, rfl, rfl, rfl, rfl, rfl, rfl, rfl, rfl, rfl⟩

end Sys2Proof.Machine
end

section
/-! ## RJOIN, NOP, PAUSE, REGION and EXIT (R18, R19, R21, R288, R289) -/

open Sys2Proof Sys2Proof.Claims

namespace Sys2Proof.Machine

/-! ### Rejoin -/

/-- The crew of an issue group whose lanes of a mask are held at an RJOIN; the others go past it (R18, R192). -/
def Crew.heldAt (w : Crew) (i : Issue) (x : Srcs) : Crew :=
  (w.advance (i.part &&& ~~~ x.part) i.len).modLanes x.part (fun l th => { th with run := .rejoin (lane x.a l) i.len })

theorem Crew.heldAt_thread (w : Crew) (i : Issue) (x : Srcs) (l : Nat) (h : l < w.threads.length) :
    (w.heldAt i x).thread l =
      if x.part.getLsbD l then { w.thread l with run := .rejoin (lane x.a l) i.len }
      else if (i.part &&& ~~~ x.part).getLsbD l then { w.thread l with pc := (w.thread l).pc + BitVec.ofNat 64 i.len }
      else w.thread l := by
  rw [Crew.heldAt, thread_modLanes _ _ _ _ (by simpa [Crew.advance] using h), advance_thread _ _ _ _ h]
  by_cases hx : x.part.getLsbD l = true
  · have : (i.part &&& ~~~ x.part).getLsbD l = false := by simp [hx]
    simp [hx, this]
  · simp [hx]

theorem rjoinWith_ok (s : State) (i : Issue) (f : L64) (x : Srcs) (h : s.issues i (lNeeds f [f.a.toNat] []) = true)
    (hx : s.sources i f true false false = .ok x) :
    s.rjoinWith f = .next ((s.modCrew i.ref (fun w => w.heldAt i x)).retired i true) := by
  rw [State.rjoinWith, issueWith_ok _ h]
  simp only [hx]
  rfl

theorem modCrew_heldAt_hasCrew (s : State) (i : Issue) (x : Srcs) (h : s.hasCrew i.ref = true) :
    (s.modCrew i.ref (fun w => w.heldAt i x)).hasCrew i.ref = true := by
  obtain ⟨-, -, h3, h4⟩ := (hasCrew_iff s i.ref).1 h
  exact modCrew_hasCrew _ _ _ h (by simp [Crew.heldAt, Crew.advance, h3])
    (by simp [Crew.heldAt, Crew.advance, Crew.modLanes, h4])

theorem mem_allLanes (l : Nat) : l ∈ allLanes ↔ l < 32 :=
  ⟨(by decide : ∀ k ∈ allLanes, k < 32) l, fun h => by interval_cases l <;> decide⟩

theorem Mask.mem_lanes (m : Mask) (l : Nat) : l ∈ m.lanes ↔ l < 32 ∧ m.getLsbD l = true := by
  rw [Mask.lanes, List.mem_filter, mem_allLanes]

/-- A thread's rejoin condition in the words of R18: every other thread that its mask names has exited or is held at the
same PC. -/
theorem Crew.rejoinMet_iff (w : Crew) (l : Nat) : w.rejoinMet l = true ↔
    ∃ m n, (w.thread l).run = .rejoin m n ∧ ∀ j, j < 32 → m.getLsbD j = true → j = l ∨ (w.thread j).run = .exited ∨
      ((∃ m n, (w.thread j).run = .rejoin m n) ∧ (w.thread j).pc = (w.thread l).pc) := by
  unfold Crew.rejoinMet
  cases hr : (w.thread l).run
  case rejoin m n =>
    simp only [List.all_eq_true, Mask.mem_lanes, Bool.or_assoc, Bool.or_eq_true (_ == _) (_ || _), beq_iff_eq,
      and_imp, RunState.rejoin.injEq, and_assoc, exists_and_left, exists_eq_left']
    refine forall_congr' fun j => imp_congr_right fun _ => imp_congr_right fun _ => or_congr_right ?_
    cases (w.thread j).run <;> simp
  all_goals simp

/-- A released thread stands READY at the next instruction; every other thread is as it was (R18). -/
theorem Crew.rejoinRelease_thread (w : Crew) (l : Nat) (h : l < w.threads.length) (h32 : l < 32) :
    (w.rejoinMet l = false → w.rejoinRelease.thread l = w.thread l) ∧
      ∀ m n, (w.thread l).run = .rejoin m n → w.rejoinMet l = true →
        w.rejoinRelease.thread l = { w.thread l with pc := (w.thread l).pc + BitVec.ofNat 64 n, run := .ready } := by
  rw [Crew.rejoinRelease, thread_modLanes _ _ _ _ h, Crew.rejoinReady, getLsbD_ofFn _ _ h32]
  refine ⟨fun hn => by simp [hn], fun m n hr hm => by simp [hm, hr]⟩

/-- With no condition met no thread is released, so that the release of none is the release of all. -/
theorem Crew.rejoinRelease_none (w : Crew) (h : w.rejoinReady = 0) (l : Nat) (h32 : l < 32) : w.rejoinMet l = false := by
  rw [← getLsbD_ofFn w.rejoinMet l h32, ← Crew.rejoinReady, h]
  exact BitVec.getLsbD_zero

/-! ### The statement -/

/-- RJOIN holds its effective threads (R18, R288). -/
theorem rjoinWith_holds (s : State) (i : Issue) (f : L64) (x : Srcs) (h : s.issues i (lNeeds f [f.a.toNat] []) = true)
    (hx : s.sources i f true false false = .ok x) :
    ∃ t, s.rjoinWith f = .next t ∧ t.issue = none ∧ SameElse s t i.ref ∧ SameRegs (s.crew i.ref) (t.crew i.ref) ∧
      SamePreds (s.crew i.ref) (t.crew i.ref) ∧ ∀ l, l < 32 →
        (x.part.getLsbD l = true → ((t.crew i.ref).thread l).run = .rejoin (lane x.a l) i.len ∧
          ((t.crew i.ref).thread l).pc = ((s.crew i.ref).thread l).pc) ∧
        (x.part.getLsbD l = false → ((t.crew i.ref).thread l).run = ((s.crew i.ref).thread l).run) := by
  have hc := issues_hasCrew h
  obtain ⟨-, -, h32, -⟩ := (hasCrew_iff s i.ref).1 hc
  have hd := modCrew_heldAt_hasCrew s i x hc
  obtain ⟨tn, rn, e⟩ := retired_crew_fields _ i true hd
  rw [crew_modCrew _ _ _ hc] at e
  have held : ∀ l, l < 32 → (((s.modCrew i.ref (fun w => w.heldAt i x)).retired i true).crew i.ref).thread l =
      ((s.crew i.ref).heldAt i x).thread l := fun l _ => by rw [e]; rfl
  refine ⟨_, rjoinWith_ok s i f x h hx, rfl,
    (SameElse.modCrew s i.ref _ hc).trans (retired_sameElse _ i true hd), ⟨fun k => by rw [e]; rfl, fun l hl => ?_⟩,
    fun l hl => ?_, fun l hl => ?_⟩
  all_goals rw [held l hl, Crew.heldAt_thread _ _ _ _ (by omega)]
  · split_ifs <;> rfl
  · split_ifs <;> rfl
  · constructor
    · intro hp; simp [hp]
    · intro hp
      rw [if_neg (by simp [hp])]
      split_ifs <;> rfl

theorem execRjoinRelease_eq (s : State) : execRjoinRelease s =
    if (s.crew (selCrew s)).rejoinReady == 0 then .next s
    else .next ((s.modCrew (selCrew s) Crew.rejoinRelease).returnsAfter (selCrew s) 2) := rfl

/-- RJOIN_RELEASE lets go together the threads whose conditions are met (R18, R19). -/
theorem execRjoinRelease_releases (s : State) (hc : s.hasCrew (selCrew s) = true) :
    ∃ t, execRjoinRelease s = .next t ∧ SameElse s t (selCrew s) ∧ SameRegs (s.crew (selCrew s)) (t.crew (selCrew s)) ∧
      ∀ l, l < 32 → (t.crew (selCrew s)).thread l = (s.crew (selCrew s)).rejoinRelease.thread l := by
  obtain ⟨-, -, h32, h64⟩ := (hasCrew_iff s (selCrew s)).1 hc
  rw [execRjoinRelease_eq]
  split
  · next h0 =>
    refine ⟨s, rfl, .refl _ _, ⟨fun _ => rfl, fun _ _ => rfl⟩, fun l hl => ?_⟩
    have hn := (s.crew (selCrew s)).rejoinRelease_none (by simpa using h0) l hl
    exact (((s.crew (selCrew s)).rejoinRelease_thread l (by omega) hl).1 hn).symm
  · have h1 : (s.modCrew (selCrew s) Crew.rejoinRelease).hasCrew (selCrew s) = true :=
      modCrew_hasCrew _ _ _ hc (by simp [Crew.rejoinRelease, h32]) h64
    have e : ((s.modCrew (selCrew s) Crew.rejoinRelease).returnsAfter (selCrew s) 2).crew (selCrew s) =
        { (s.crew (selCrew s)).rejoinRelease with
          resumeAt := max (s.crew (selCrew s)).rejoinRelease.resumeAt (s.cycle + 2) } := by
      rw [State.returnsAfter, crew_modCrew _ _ _ h1, crew_modCrew _ _ _ hc]
      rfl
    refine ⟨_, rfl, (SameElse.modCrew s _ _ hc).trans (SameElse.modCrew _ _ _ h1), ⟨fun k => ?_, fun l hl => ?_⟩,
      fun l _ => ?_⟩
    all_goals rw [e]
    · rfl
    · change (((s.crew (selCrew s)).rejoinRelease).thread l).taint = _
      exact thread_modLanes_field _ _ _ Thread.taint (fun _ t => by cases t.run <;> rfl) l
    · rfl

end Sys2Proof.Machine
end

section

namespace Sys2Proof

open Machine Claims

/-- Settles O12: RJOIN's effective threads take the held state with their masks, and a release takes the threads of
`Crew.rejoinReady`, whose conditions `Crew.rejoinMet_iff` puts in R18's words. -/
theorem rejoinHoldsAndReleases : Obligations.RejoinHoldsAndReleases := by
  unfold Obligations.RejoinHoldsAndReleases
  refine ⟨?_, fun s hc => ?_⟩
  · rintro ins f (rfl | ⟨g, rfl, rfl⟩) s i x h hx
    · exact rjoinWith_holds s i f x h hx
    · exact rjoinWith_holds s i _ x h hx
  · intro w held met
    have h32 : w.threads.length = 32 := ((hasCrew_iff s (selCrew s)).1 hc).2.2.1
    obtain ⟨t, ht, hs, hr, th⟩ := execRjoinRelease_releases s hc
    refine ⟨t, ht, hs, hr, fun l hl => ⟨fun m n hm h => ?_, fun h => ?_⟩⟩
    all_goals rw [th l hl]
    · rw [(w.rejoinRelease_thread l (by omega) hl).2 m n hm ((w.rejoinMet_iff l).2 h)]
      exact ⟨rfl, rfl⟩
    · refine (w.rejoinRelease_thread l (by omega) hl).1 ?_
      exact Bool.eq_false_iff.2 fun hm => h ((w.rejoinMet_iff l).1 hm)

end Sys2Proof
end

section
/-! ## NOP, PAUSE, REGION and EXIT (R21, R153, R289) -/

open Sys2Proof Sys2Proof.Claims

namespace Sys2Proof.Machine

theorem nopWith_retires (s : State) (i : Issue) (f : L64) (h : s.issues i (lNeeds f [] []) = true) :
    ∃ t, s.nopWith f = .next t ∧ Retired s t i ∧ SameRegs (s.crew i.ref) (t.crew i.ref) ∧
      SamePreds (s.crew i.ref) (t.crew i.ref) :=
  ⟨_, issueWith_ok _ h, retire_retired s i false (issues_hasCrew h)⟩

/-- A change of the time until which a crew is passed over leaves a retired instruction retired. -/
theorem Retired.paused {s t : State} {i : Issue} (r : Retired s t i) (n : Nat) (h : t.hasCrew i.ref = true) :
    Retired s (t.modCrew i.ref (fun w => { w with pausedUntil := n })) i := by
  have e := crew_modCrew t i.ref (fun w => { w with pausedUntil := n }) h
  refine ⟨r.issue, r.elsewhere.trans (SameElse.modCrew t i.ref _ h), ?_, ?_, ?_, ?_, ?_, ?_, ?_, ?_, ?_⟩ <;> rw [e]
  · exact r.crew.trans ⟨rfl, rfl, rfl, rfl, rfl, rfl, rfl, rfl, rfl, rfl, rfl, rfl, rfl⟩
  exacts [r.resumeAt, r.retired, r.setters, r.regions, r.pc, r.run, r.sb, r.clockHi]

theorem pauseWith_retires (s : State) (i : Issue) (f : L64) (h : s.issues i (lNeeds f [] []) = true) :
    ∃ t, s.pauseWith f = .next t ∧ Retired s t i ∧ SameRegs (s.crew i.ref) (t.crew i.ref) ∧
      SamePreds (s.crew i.ref) (t.crew i.ref) ∧
      (partL s i f ≠ 0 → (t.crew i.ref).pausedUntil = s.cycle + 8) := by
  have hc := issues_hasCrew h
  have hr := retire_hasCrew s i true hc
  obtain ⟨r, regs, preds⟩ := retire_retired s i true hc
  refine ⟨_, issueWith_ok _ h, ?_⟩
  by_cases hp : s.eff i f.pred f.pn = 0
  · simp only [hp, beq_self_eq_true, if_true]
    exact ⟨r, regs, preds, fun hn => absurd hp hn⟩
  · simp only [beq_iff_eq, hp, if_false]
    have e := crew_modCrew (s.retire i true) i.ref (fun w => { w with pausedUntil := s.cycle + 8 }) hr
    refine ⟨r.paused _ hr, ?_, ?_, fun _ => ?_⟩ <;> rw [e]
    · exact sameRegs_congr regs rfl rfl
    · exact samePreds_congr preds rfl

/-- A retired instruction followed by a head: no register and no predicate differs from before, and the head has closed the
region in which the instruction stood. -/
theorem retire_head (s : State) (i : Issue) (moves : Bool) (hc : s.hasCrew i.ref = true) :
    SameElse s ((s.retire i moves).head i.ref) i.ref ∧
      SameRegs (s.crew i.ref) (((s.retire i moves).head i.ref).crew i.ref) ∧
      SamePreds (s.crew i.ref) (((s.retire i moves).head i.ref).crew i.ref) ∧
      TookHead (s.crew i.ref) (((s.retire i moves).head i.ref).crew i.ref) s.cycle := by
  have hr := retire_hasCrew s i moves hc
  obtain ⟨r, regs, preds⟩ := retire_retired s i moves hc
  obtain ⟨tn, rn, e⟩ := retire_crew_fields s i moves hc
  have same : ((s.retire i moves).crew i.ref).regions = (s.crew i.ref).regions := by rw [e]; rfl
  have took := ((s.retire i moves).crew i.ref).head_tookHead (s.retire i moves).nextId (s.retire i moves).cycle
    ((s.retire i moves).keep i.ref).side
  rw [← head_crew _ _ hr, r.elsewhere.cycle] at took
  refine ⟨r.elsewhere.trans (head_sameElse _ _ hr), ?_, ?_, ?_⟩
  · rw [head_crew _ _ hr]; exact sameRegs_congr regs (Crew.head_map ..) (Crew.head_threads ..)
  · rw [head_crew _ _ hr]; exact samePreds_congr preds (Crew.head_threads ..)
  · simpa only [TookHead, same] using took

theorem regionWith_heads (s : State) (i : Issue) (f : L64)
    (h : s.issues i { lNeeds f [] [] with head := true } = true) (hg : (s.crew i.ref).inGambit = 0)
    (hp : partL s i f ≠ 0) :
    ∃ t, s.regionWith f = .next t ∧ SameElse s t i.ref ∧ SameRegs (s.crew i.ref) (t.crew i.ref) ∧
      SamePreds (s.crew i.ref) (t.crew i.ref) ∧ TookHead (s.crew i.ref) (t.crew i.ref) s.cycle := by
  refine ⟨_, issueWith_ok _ h, ?_⟩
  have hp' : s.eff i f.pred f.pn ≠ 0 := hp
  have outside : s.eff i f.pred f.pn &&& ~~~ (0 : Mask) = s.eff i f.pred f.pn := BitVec.and_allOnes
  have inside : s.eff i f.pred f.pn &&& (0 : Mask) = 0 := by simp
  simp only [hg, outside, inside, beq_iff_eq, hp', if_false, bne_self_eq_false, Bool.false_eq_true]
  exact retire_head s i false (issues_hasCrew h)

theorem regionWith_retires (s : State) (i : Issue) (f : L64)
    (h : s.issues i { lNeeds f [] [] with head := true } = true)
    (hp : partL s i f &&& ~~~ (s.crew i.ref).inGambit = 0) :
    ∃ t, s.regionWith f = .next t ∧ Retired s t i ∧ SameRegs (s.crew i.ref) (t.crew i.ref) ∧
      SamePreds (s.crew i.ref) (t.crew i.ref) := by
  refine ⟨_, issueWith_ok _ h, ?_⟩
  have hp' : s.eff i f.pred f.pn &&& ~~~ (s.crew i.ref).inGambit = 0 := hp
  simp only [hp', beq_self_eq_true, if_true]
  exact retire_retired s i false (issues_hasCrew h)

/-! ### Exit -/

/-- The state after an EXIT outside any gambit has retired and its threads have moved to EXITED (R21). -/
def State.exited (s : State) (i : Issue) (part : Mask) : State :=
  (s.retire i false).modCrew i.ref (fun w => (w.commitLanes 0).setRun part .exited)

/-- The crew's current region is its last, and returns the extended block that the crew holds (R159, R188, R289). -/
def Crew.markLast (w : Crew) : Crew :=
  w.modRegion (fun g => { g with last := true, effects := g.effects ++ (if w.ext then [Effect.freeBlock] else []) })

/-- EXIT outside any gambit: the exit of the crew's last thread is a head, which closes the crew's last region. -/
theorem exitWith_ok (s : State) (i : Issue) (f : L64) (h : s.issues i (lNeeds f [] []) = true)
    (hg : (s.crew i.ref).gambit = none) (hp : partL s i f ≠ 0) (hh : (s.crew i.ref).canHead = true) :
    s.exitWith f = .next (if (s.crew i.ref).aliveLanes &&& ~~~ (partL s i f) == 0 then
      ((s.exited i (partL s i f)).modCrew i.ref Crew.markLast).head i.ref else s.exited i (partL s i f)) := by
  have hp' : s.eff i f.pred f.pn ≠ 0 := hp
  rw [State.exitWith, issueWith_ok _ h]
  simp only [beq_iff_eq, hp', if_false, hg, hh, Bool.not_true, Bool.and_false, Bool.false_eq_true, Option.isSome_none,
    beq_self_eq_true, if_true]
  rfl

theorem Crew.commitLanes_of_none {w : Crew} (h : w.gambit = none) (m : Mask) : w.commitLanes m = w := by
  rw [Crew.commitLanes, h]

theorem Crew.setRun_thread (w : Crew) (m : Mask) (q : RunState) (l : Nat) (h : l < w.threads.length) :
    (w.setRun m q).thread l = if m.getLsbD l then { w.thread l with run := q } else w.thread l :=
  thread_modLanes w m _ l h

@[simp] theorem Crew.setRun_length (w : Crew) (m : Mask) (q : RunState) :
    (w.setRun m q).threads.length = w.threads.length := modLanes_length w m _

theorem Crew.setRun_taint (w : Crew) (m : Mask) (q : RunState) (l : Nat) :
    ((w.setRun m q).thread l).taint = (w.thread l).taint :=
  thread_modLanes_field w m (fun _ t => { t with run := q }) Thread.taint (fun _ _ => rfl) l

theorem Crew.setRun_preds (w : Crew) (m : Mask) (q : RunState) (l : Nat) :
    ((w.setRun m q).thread l).preds = (w.thread l).preds :=
  thread_modLanes_field w m (fun _ t => { t with run := q }) Thread.preds (fun _ _ => rfl) l

/-- What an exit changes of a crew: the run state of the lanes that exit. -/
structure ExitedTo (w v : Crew) (part : Mask) : Prop where
  regs : SameRegs w v
  preds : SamePreds w v
  run : ∀ l, l < 32 → (v.thread l).run = if part.getLsbD l then .exited else (w.thread l).run
  regions : v.regions = w.regions
  ext : v.ext = w.ext

theorem exited_spec (s : State) (i : Issue) (part : Mask) (hc : s.hasCrew i.ref = true)
    (hg : (s.crew i.ref).gambit = none) :
    (s.exited i part).issue = none ∧ SameElse s (s.exited i part) i.ref ∧ (s.exited i part).hasCrew i.ref = true ∧
      ExitedTo (s.crew i.ref) ((s.exited i part).crew i.ref) part := by
  obtain ⟨-, -, h32, -⟩ := (hasCrew_iff s i.ref).1 hc
  have hr := retire_hasCrew s i false hc
  obtain ⟨-, -, r32, r64⟩ := (hasCrew_iff _ i.ref).1 hr
  obtain ⟨r, regs, preds⟩ := retire_retired s i false hc
  obtain ⟨tn, rn, e⟩ := retire_crew_fields s i false hc
  have none_ : ((s.retire i false).crew i.ref).gambit = none := by rw [e, hg]; rfl
  have regions : ((s.retire i false).crew i.ref).regions = (s.crew i.ref).regions := by rw [e]; rfl
  have ext : ((s.retire i false).crew i.ref).ext = (s.crew i.ref).ext := by rw [e]; rfl
  have x : (s.exited i part).crew i.ref = ((s.retire i false).crew i.ref).setRun part .exited := by
    rw [State.exited, crew_modCrew _ _ _ hr, Crew.commitLanes_of_none none_]
  have hx : (s.exited i part).hasCrew i.ref = true :=
    modCrew_hasCrew _ _ _ hr (by rw [Crew.commitLanes_of_none none_]; simpa using r32)
      (by rw [Crew.commitLanes_of_none none_]; exact r64)
  refine ⟨rfl, r.elsewhere.trans (SameElse.modCrew _ _ _ hr), hx, ?_⟩
  rw [x]
  exact
    { regs := ⟨regs.1, fun l hl => (Crew.setRun_taint _ _ _ l).trans (regs.2 l hl)⟩
      preds := fun l hl => (Crew.setRun_preds _ _ _ l).trans (preds l hl)
      run := fun l hl => by
        rw [Crew.setRun_thread _ _ _ _ (by omega), ← r.run l hl]
        split_ifs <;> rfl
      regions := regions
      ext := ext }

/-- The last region of a crew, marked as such and closed by the head of the last exit. -/
theorem Crew.markLast_head_closes (w : Crew) (id cycle : Nat) (side : SideBuffer) (g : Region)
    (h : w.regions.getLast? = some g) :
    ∃ x, (w.markLast.head id cycle side).regions[w.regions.length - 1]? = some x ∧ x.last = true ∧
      x.closed = some cycle ∧ x.effects = g.effects ++ (if w.ext then [Effect.freeBlock] else []) := by
  have len : w.markLast.regions.length = w.regions.length := modifyAt_length ..
  have last : w.markLast.regions.getLast? =
      some { g with last := true, effects := g.effects ++ (if w.ext then [Effect.freeBlock] else []) } := by
    rw [List.getLast?_eq_getElem?, len, Crew.markLast, Crew.modRegion]
    simp only
    rw [modifyAt_getElem?, if_pos rfl, ← List.getLast?_eq_getElem?, h]
    rfl
  exact ⟨_, len ▸ w.markLast.head_closes id cycle side _ last, rfl, rfl, rfl⟩

@[simp] theorem Crew.markLast_map (w : Crew) : w.markLast.map = w.map := rfl
@[simp] theorem Crew.markLast_threads (w : Crew) : w.markLast.threads = w.threads := rfl

theorem exitWith_exits (s : State) (i : Issue) (f : L64) (h : s.issues i (lNeeds f [] []) = true)
    (hg : (s.crew i.ref).gambit = none) (hp : partL s i f ≠ 0) (hh : (s.crew i.ref).canHead = true) :
    ∃ t, s.exitWith f = .next t ∧ t.issue = none ∧ SameElse s t i.ref ∧ SameRegs (s.crew i.ref) (t.crew i.ref) ∧
      SamePreds (s.crew i.ref) (t.crew i.ref) ∧
      (∀ l, l < 32 → ((t.crew i.ref).thread l).run =
        if (partL s i f).getLsbD l then .exited else ((s.crew i.ref).thread l).run) ∧
      ((s.crew i.ref).aliveLanes &&& ~~~ (partL s i f) ≠ 0 →
        (t.crew i.ref).regions = (s.crew i.ref).regions) ∧
      ((s.crew i.ref).aliveLanes &&& ~~~ (partL s i f) = 0 → ∀ g, (s.crew i.ref).regions.getLast? = some g →
        ∃ h, (t.crew i.ref).regions[(s.crew i.ref).regions.length - 1]? = some h ∧ h.last = true ∧
          h.closed = some s.cycle ∧
          h.effects = g.effects ++ (if (s.crew i.ref).ext then [Effect.freeBlock] else [])) := by
  obtain ⟨idle, else_, hx, x⟩ := exited_spec s i (partL s i f) (issues_hasCrew h) hg
  refine ⟨_, exitWith_ok s i f h hg hp hh, ?_⟩
  by_cases last : (s.crew i.ref).aliveLanes &&& ~~~ (partL s i f) = 0
  · rw [if_pos (by simpa using last)]
    generalize s.exited i (partL s i f) = u at *
    obtain ⟨-, -, u32, u64⟩ := (hasCrew_iff u i.ref).1 hx
    have hm : (u.modCrew i.ref Crew.markLast).hasCrew i.ref = true := modCrew_hasCrew _ _ _ hx u32 u64
    have e := head_crew _ _ hm
    rw [crew_modCrew _ _ _ hx] at e
    refine ⟨idle, else_.trans ((SameElse.modCrew u _ _ hx).trans (head_sameElse _ _ hm)), ?_⟩
    rw [e]
    refine ⟨sameRegs_congr x.regs (by simp) (by simp), samePreds_congr x.preds (by simp), fun l hl => ?_, fun hn => absurd last hn, fun _ g hl => ?_⟩
    · rw [← x.run l hl, Crew.thread, Crew.head_threads, Crew.markLast_threads, Crew.thread]
    have closes := (u.crew i.ref).markLast_head_closes (u.modCrew i.ref Crew.markLast).nextId u.cycle
      ((u.modCrew i.ref Crew.markLast).keep i.ref).side g (by rw [x.regions, hl])
    simpa only [x.regions, x.ext, State.modCrew_cycle, else_.cycle] using closes
  · rw [if_neg (by simpa using last)]
    exact ⟨idle, else_, x.regs, x.preds, x.run, fun _ => x.regions, fun hn => absurd hn last⟩

end Sys2Proof.Machine
end

section

namespace Sys2Proof

open Machine Claims

/-- Settles O13: each of the four is its shared operation, whose effect the lemmas above give. -/
theorem nopPauseRegionAndExit : Obligations.NopPauseRegionAndExit := by
  unfold Obligations.NopPauseRegionAndExit
  refine ⟨⟨?_, ?_, ?_⟩, ?_⟩
  · rintro ins f (rfl | ⟨rfl, rfl⟩) s i h <;> exact nopWith_retires s i _ h
  · rintro ins f (rfl | ⟨rfl, rfl⟩) s i h <;> exact pauseWith_retires s i _ h
  · rintro ins f (rfl | ⟨rfl, rfl⟩) s i h <;>
      exact ⟨regionWith_heads s i _ h, regionWith_retires s i _ h⟩
  · rintro ins f (rfl | ⟨rfl, rfl⟩) s i h hg hp hh <;> exact exitWith_exits s i _ h hg hp hh

end Sys2Proof
end

section
/-! ## Views: what a whole family of updates leaves alone

A view gives the part of a state that a family of updates leaves as it is; each function of the family has one equation, that
the view of its result is the view of what it is given. The first view is what stands when the device itself writes memory
(R26): everything but memory, the network, the counters, what leaves the package, and the banks that the writes reach. -/

open Sys2Proof

namespace Sys2Proof.Machine

/-- Updates that leave a view as it is do so one after the other. -/
theorem foldl_view {α β : Type} (v : State → β) (g : State → α → State) (hg : ∀ t x, v (g t x) = v t) (l : List α)
    (s : State) : v (l.foldl g s) = v s := by
  induction l generalizing s with
  | nil => rfl
  | cons x r ih => exact (ih _).trans (hg s x)

theorem foldl_snd_view {α β γ : Type} (v : State → γ) (g : β × State → α → β × State) (hg : ∀ a x, v (g a x).2 = v a.2)
    (l : List α) (a : β × State) : v (l.foldl g a).2 = v a.2 := by
  induction l generalizing a with
  | nil => rfl
  | cons x r ih => exact (ih _).trans (hg a x)

/-- What stands when the device writes memory. -/
structure Control where
  cycle : Nat
  inputs : List Input
  issue : Option Issue
  sel : Sel
  arb : Nat
  sched : Sched
  pkg : Package
  cores : Nat → Core

/-- The control of a state: its clocks, its schedule, its package, and its cores but for their banks. -/
def State.control (s : State) : Control :=
  { cycle := s.cycle, inputs := s.inputs, issue := s.issue, sel := s.sel, arb := s.arb, sched := s.sched, pkg := s.pkg
    cores := fun c => { s.core c with banks := [] } }

@[simp] theorem State.modHome_control (s : State) (h : HomeId) (f : Home → Home) : (s.modHome h f).control = s.control := rfl
@[simp] theorem State.modLine_control (s : State) (slice line : Nat) (f : L2Line → L2Line) :
    (s.modLine slice line f).control = s.control := rfl
@[simp] theorem State.l2Drop_control (s : State) (slice line : Nat) : (s.l2Drop slice line).control = s.control := rfl
@[simp] theorem State.settleRaced_control (s : State) (by_ : CrewRef) (p : Loc) (n : Nat) :
    (s.settleRaced by_ p n).control = s.control := rfl
@[simp] theorem State.sendOut_control (s : State) (p : Loc) (bs : List Byte) : (s.sendOut p bs).control = s.control := rfl

/-- A core of which only the banks change. -/
theorem State.modCore_control (s : State) (c : Nat) (f : Core → Core)
    (hf : ∀ k, ({ f k with banks := [] } : Core) = { k with banks := [] }) : (s.modCore c f).control = s.control := by
  have cores : (fun d => ({ (s.modCore c f).core d with banks := [] } : Core)) = fun d => { s.core d with banks := [] } := by
    funext d
    by_cases h : d = c
    · rw [h, core_modCore, hf]
    · rw [core_modCore_ne _ _ _ _ h]
  exact congrArg (fun k => ({ s.control with cores := k } : Control)) cores

@[simp] theorem State.touchVault_control (s : State) (pa : Nat) : (s.touchVault pa).control = s.control := by
  unfold State.touchVault
  split
  · exact s.modCore_control _ _ fun _ => rfl
  · rfl

@[simp] theorem State.respond_control (s : State) (h : HomeId) (x : Response) : (s.respond h x).2.control = s.control := by
  unfold State.respond
  split <;> rfl

@[simp] theorem State.stackAnswer_control (s : State) (slice line : Nat) :
    (s.stackAnswer slice line).2.control = s.control := by
  unfold State.stackAnswer
  split <;> simp

@[simp] theorem State.l2WriteBack_control (s : State) (slice line : Nat) (leave : Bool) :
    (s.l2WriteBack slice line leave).control = s.control := by
  simp [State.l2WriteBack]

@[simp] theorem State.l2Evict_control (s : State) (slice line : Nat) : (s.l2Evict slice line).control = s.control := by
  unfold State.l2Evict
  dsimp only
  (repeat' split) <;> simp

@[simp] theorem State.l2Use_control (s : State) (h : HomeId) (p : Loc) (page : Page) (write : Bool) :
    (s.l2Use h p page write).2.control = s.control := by
  unfold State.l2Use
  dsimp only
  (repeat' split) <;> simp

@[simp] theorem State.reach_control (s : State) (h : HomeId) (p : Loc) (page : Page) (write : Bool) :
    (s.reach h p page write).2.control = s.control := by
  unfold State.reach
  split <;> simp

@[simp] theorem State.publish_control (s : State) (h : HomeId) (p : Loc) (bs : List Byte) :
    (s.publish h p bs).2.control = s.control := by
  cases p with
  | scratch => rfl
  | mem a =>
    refine foldl_snd_view State.control _ (fun acc t => ?_) _ ([], s)
    dsimp only
    split <;> rfl

/-- A run of bytes in memory applied at its home; one in a scratchpad may abort gambits there. -/
@[simp] theorem State.putRun_control (s : State) (h : HomeId) (by_ : CrewRef) (page : Page) (a : Nat) (bs : List Byte) :
    (s.putRun h by_ page (.mem a) bs).2.control = s.control := by
  simp only [State.putRun, State.publish_control, State.settleRaced_control, State.reach_control, State.putBytes]
  split <;> rfl

/-- A write of one run of bytes in memory, without descriptors, applied at its home. -/
theorem State.applyWrite_control (s : State) (h : HomeId) (w : WriteReq) (a : Nat) (bs : List Byte)
    (hb : w.bytes = [(.mem a, bs)]) (hd : w.descs = []) : (s.applyWrite h w none).2.2.control = s.control := by
  unfold State.applyWrite
  split
  · rw [hb]; rfl
  · simp [hb, hd]

@[simp] theorem State.releaseRun_control (s : State) (x : Nat × List Byte) (reply : Option HeldReply) :
    (s.releaseRun x reply).control = s.control := by
  simp only [State.releaseRun, State.modHome_control, State.writeFor, State.respond_control]
  exact s.applyWrite_control _ _ x.1 x.2 rfl rfl

@[simp] theorem State.releaseWrite_control (s : State) (pa : Nat) (bs : List Byte) :
    (s.releaseWrite pa bs).control = s.control :=
  foldl_view State.control _ (fun st x => st.releaseRun_control x none) _ s

theorem State.deviceWalk_control (s : State) (ctx va : Nat) (write : Bool) {q : Nat × State}
    (h : s.deviceWalk ctx va write = some q) : q.2.control = s.control := by
  simp only [State.deviceWalk] at h
  split at h
  · cases h
  split at h
  · cases h
  · split_ifs at h <;> cases h <;> simp

theorem State.recPa_control (s : State) (a : RecAddr) (write : Bool) {q : Nat × State} (h : s.recPa a write = some q) :
    q.2.control = s.control := by
  simp only [State.recPa] at h
  split at h
  · split_ifs at h
    cases h
    rfl
  · exact State.deviceWalk_control _ _ _ _ h

theorem State.deviceRuns_control (s : State) (ctx va : Nat) (bs : List Byte) {q : List (Nat × List Byte) × State}
    (h : s.deviceRuns ctx va bs = some q) : q.2.control = s.control := by
  simp only [State.deviceRuns] at h
  split at h
  · cases h
  next x hx =>
  have first := State.deviceWalk_control _ _ _ _ hx
  split at h
  · cases h
    exact first
  · obtain ⟨y, hy, rfl⟩ := Option.map_eq_some_iff.1 h
    exact (State.deviceWalk_control _ _ _ _ hy).trans first

/-! ### What the control of a state says -/

theorem State.core_of_control {s t : State} (h : t.control = s.control) (c : Nat) :
    ({ t.core c with banks := [] } : Core) = { s.core c with banks := [] } :=
  congrFun (congrArg Control.cores h) c

end Sys2Proof.Machine
end

section
/-! ## The next cycle, and the order of steps (log 3) -/

open Sys2Proof

namespace Sys2Proof.Machine

/-- The clock of a state: its cycle, the sub-core that arbitrates next, and the stage of a quiesce. -/
structure Clock where
  cycle : Nat
  arb : Nat
  stage : QuiesceStage

/-- The clock of a state. -/
def State.clockOf (s : State) : Clock := ⟨s.cycle, s.arb, s.sched.quiesce.stage⟩

@[simp] theorem State.modCore_clockOf (s : State) (c : Nat) (f : Core → Core) : (s.modCore c f).clockOf = s.clockOf := rfl

@[simp] theorem State.listOne_clockOf (s : State) (r : CrewRef) (p : Parked) : (s.listOne r p).clockOf = s.clockOf := by
  have h := s.releaseWrite_control (s.sched.fq.base.toNat / 4096 * 4096 + 32 * (s.sched.fq.tail.toNat % s.fqCapacity))
    (s.fqEntry r p)
  exact congrArg (fun k : Control => (⟨k.cycle, k.arb, k.sched.quiesce.stage⟩ : Clock)) h

@[simp] theorem State.listParked_clockOf (s : State) (fuel : Nat) : (s.listParked fuel).clockOf = s.clockOf := by
  induction fuel generalizing s with
  | zero => rfl
  | succ n ih =>
    simp only [State.listParked]
    split
    · rfl
    split
    · rw [ih, State.listOne_clockOf]
    · rfl

@[simp] theorem State.startTest_clockOf (s : State) (die : Nat) : (s.startTest die).clockOf = s.clockOf := by
  unfold State.startTest
  dsimp only
  split
  · split <;> rfl
  · rfl

/-- With no quiesce there is none to go on with. -/
theorem State.quiesceTick_of_none {s : State} (h : s.sched.quiesce.stage = .none) : s.quiesceTick = s := by
  rw [State.quiesceTick, h]

@[simp] theorem State.netTick_sched (s : State) : s.netTick.sched = s.sched := by
  unfold State.netTick
  split
  · rfl
  · exact foldl_view State.sched (fun st (p : Packet) => st.modTx p.tx (p.deliver (s.cycle + 1))) (fun st p => rfl) _ _

/-- The new cycle before parked crews, a quiesce and waiting tests go on: the torus has moved, and the idle cycles of a core
that is not idle count anew (R430, R467). -/
def State.newCycle (s : State) : State :=
  (s.coreList.filter (fun c => (s.core c).newest.isSome && !s.idleCore c)).foldl
    (fun (st : State) c => st.modCore c (fun k => { k with idleSince := s.cycle + 1 }))
    { s.netTick with cycle := s.cycle + 1, arb := 0 }

theorem State.tick_eq (s : State) : s.tick =
    ((((s.newCycle.listParked s.newCycle.slotCount).quiesceTick).pkg.tests).filter (fun t => !t.waiting.isEmpty)).foldl
      (fun (st : State) t => st.startTest t.die) (s.newCycle.listParked s.newCycle.slotCount).quiesceTick := rfl

theorem State.newCycle_clockOf (s : State) : s.newCycle.clockOf = ⟨s.cycle + 1, 0, s.sched.quiesce.stage⟩ := by
  rw [State.newCycle, foldl_view State.clockOf _ fun st c => st.modCore_clockOf c _]
  simp only [State.clockOf, State.netTick_sched]

/-- Where no quiesce runs the next cycle begins with the first sub-core. -/
theorem State.tick_clockOf (s : State) (h : s.sched.quiesce.stage = .none) :
    s.tick.clockOf = ⟨s.cycle + 1, 0, .none⟩ := by
  have listed : (s.newCycle.listParked s.newCycle.slotCount).clockOf = ⟨s.cycle + 1, 0, .none⟩ := by
    rw [State.listParked_clockOf, State.newCycle_clockOf, h]
  rw [State.tick_eq, State.quiesceTick_of_none (congrArg Clock.stage listed)]
  exact (foldl_view State.clockOf (fun st (t : FieldTest) => st.startTest t.die) (fun st t => st.startTest_clockOf t.die) _ _).trans
    listed

/-! ### The plan of a step with no issue group waiting -/

theorem step_of_due {s : State} {a : Act} (hi : s.issue = none) (hd : s.due = some a) :
    step s = exec a.row (s.select a.sel) := by
  rw [step, State.plan, hi]
  simp only [hd]

theorem step_of_input {s : State} {x : Input} {r : List Input} (hi : s.issue = none) (hd : s.due = none)
    (hx : s.inputs = x :: r) (ht : x.time ≤ s.cycle) :
    step s = if isAct x.act.row then exec x.act.row { s with inputs := r, sel := x.act.sel } else .next { s with inputs := r } := by
  have hn : s.nextInput = some (x.act, { s with inputs := r }) := by
    rw [State.nextInput, hx]
    simp only [ht, if_true]
  unfold step State.plan
  simp only [hi, hd, hn]
  cases isAct x.act.row <;> rfl

theorem step_of_sub {s u : State} {x : Sel} (hi : s.issue = none) (hd : s.due = none) (hn : s.nextInput = none)
    (hs : s.nextSub = some (x, u)) : step s = exec .issueArbitration (u.select x) := by
  rw [step, State.plan, hi]
  simp only [hd, hn, hs]

theorem step_of_tick {s : State} (hi : s.issue = none) (hd : s.due = none) (hn : s.nextInput = none)
    (hs : s.nextSub = none) : step s = .next s.tick := by
  rw [step, State.plan, hi]
  simp only [hd, hn, hs]

/-! ### Which sub-core arbitrates -/

/-- The last sub-core chose a group that was not ready, and chooses again (R14, R207). -/
def State.ChoosesAgain (s : State) (p : Nat × Core) : Prop :=
  0 < s.arb ∧ s.cores[(s.arb - 1) / 4]? = some p ∧ (s.sub p.1 ((s.arb - 1) % 4)).again = true

theorem State.nextSub_of_again {s : State} {p : Nat × Core} (h : s.ChoosesAgain p) :
    s.nextSub = some (⟨p.1, (s.arb - 1) % 4, 0⟩, s) := by
  obtain ⟨ha, hp, hg⟩ := h
  have same : s.arb - 1 + 1 = s.arb := by omega
  simp [State.nextSub, hp, ha, hg, same]

theorem State.nextSub_of_not_again {s : State} (h : ∀ p, ¬ s.ChoosesAgain p) :
    s.nextSub = (s.cores[s.arb / 4]?).map (fun p => (⟨p.1, s.arb % 4, 0⟩, { s with arb := s.arb + 1 })) := by
  have no : (s.cores[(s.arb - 1) / 4]?).any (fun p => 0 < s.arb && (s.sub p.1 ((s.arb - 1) % 4)).again) = false := by
    cases hp : s.cores[(s.arb - 1) / 4]? with
    | none => rfl
    | some p => simpa [State.ChoosesAgain, hp] using h p
  simp [State.nextSub, no]

end Sys2Proof.Machine
end

section

namespace Sys2Proof

open Machine

/-- Settles O57: each case is one branch of the plan, and the next cycle is the model's `tick`, whose clock is known. -/
theorem stepsTakeTheirOrder : Obligations.StepsTakeTheirOrder := by
  unfold Obligations.StepsTakeTheirOrder
  refine ⟨fun s a hi hd => step_of_due hi hd, fun s x r hi hd hx ht => step_of_input hi hd hx ht,
    fun s hi hd hn => ⟨fun p hp => ?_, fun p hno hp => ?_, fun hno hp hq => ?_⟩⟩
  · exact step_of_sub hi hd hn (State.nextSub_of_again hp)
  · refine step_of_sub (u := { s with arb := s.arb + 1 }) hi hd hn ?_
    rw [State.nextSub_of_not_again hno, hp]
    rfl
  · have clock := s.tick_clockOf hq
    refine ⟨s.tick, step_of_tick hi hd hn ?_, congrArg Clock.cycle clock, congrArg Clock.arb clock⟩
    rw [State.nextSub_of_not_again hno, hp]
    rfl

end Sys2Proof
end

section
/-! ## The shape of the cores: what the work of crews leaves alone

Whatever a crew waits for, writes, aborts or heads, no sub-core and no crew slot comes or goes, no run is locked or unlocked,
and the issue group and the schedule stay as they are. -/

open Sys2Proof

namespace Sys2Proof.Machine

/-- The shape of a core: of each sub-core its number of crew slots and its locked run. -/
def Core.shape (k : Core) : List (Nat × Option Locked) := k.subs.map (fun b => (b.crews.length, b.locked))

/-- What the work of crews leaves alone. -/
structure Outline where
  issue : Option Issue
  sched : Sched
  shapes : Nat → List (Nat × Option Locked)

/-- The outline of a state: its issue group, its schedule, and the shape of each core. -/
def State.outline (s : State) : Outline := ⟨s.issue, s.sched, fun c => (s.core c).shape⟩

theorem State.outline_of_cores {s t : State} (hi : t.issue = s.issue) (hs : t.sched = s.sched)
    (hc : ∀ c, (t.core c).shape = (s.core c).shape) : t.outline = s.outline := by
  simp only [State.outline, hi, hs, hc]

/-- A core changed in no sub-core, or in none of what the shape says. -/
theorem State.modCore_outline (s : State) (c : Nat) (f : Core → Core) (hf : (f (s.core c)).shape = (s.core c).shape) :
    (s.modCore c f).outline = s.outline := by
  refine State.outline_of_cores rfl rfl fun d => ?_
  by_cases h : d = c
  · rw [h, core_modCore, hf]
  · rw [core_modCore_ne _ _ _ _ h]

theorem modifyAt_map {α β : Type} (m : List α) (n : Nat) (f : α → α) (g : α → β) (h : ∀ x, g (f x) = g x) :
    (modifyAt m n f).map g = m.map g := by
  induction m generalizing n with
  | nil => rfl
  | cons x r ih => cases n <;> simp [modifyAt, h, ih]

/-- A sub-core changed in neither its number of crew slots nor its locked run. -/
theorem State.modSub_outline (s : State) (c b : Nat) (f : Sub → Sub) (hc : ∀ x, (f x).crews.length = x.crews.length)
    (hl : ∀ x, (f x).locked = x.locked) : (s.modSub c b f).outline = s.outline :=
  s.modCore_outline c _ (modifyAt_map _ _ _ _ fun x => by rw [hc, hl])

@[simp] theorem State.modCrew_outline (s : State) (r : CrewRef) (f : Crew → Crew) : (s.modCrew r f).outline = s.outline :=
  s.modSub_outline _ _ _ (fun _ => modifyAt_length ..) fun _ => rfl

@[simp] theorem State.fresh_outline (s : State) : s.fresh.2.outline = s.outline := rfl

/-! ### Registers -/

@[simp] theorem Sub.purgeOne_shape (b : Sub) (p : PhysReg) : (b.purgeOne p).crews = b.crews ∧ (b.purgeOne p).locked = b.locked := by
  unfold Sub.purgeOne
  split <;> exact ⟨rfl, rfl⟩

@[simp] theorem Sub.store_length (b : Sub) (slot k : Nat) (c : Content) :
    (b.store slot k c).crews.length = b.crews.length := by
  rw [(store_crews b slot k c).1, modifyAt_length]

@[simp] theorem Sub.store_locked (b : Sub) (slot k : Nat) (c : Content) : (b.store slot k c).locked = b.locked := by
  unfold Sub.store
  exact (Sub.purgeOne_shape _ _).2

@[simp] theorem Sub.writeReg_length (b : Sub) (slot k : Nat) (m : Mask) (c : Content) (taint : Mask) (back : Bool) :
    (b.writeReg slot k m c taint back).crews.length = b.crews.length := by
  obtain ⟨p, -, h, -⟩ := sub_writeReg b slot k m c taint back
  rw [h, modifyAt_length]

@[simp] theorem Sub.countStore_locked (b : Sub) (c : Content) : (b.countStore c).locked = b.locked := by
  obtain ⟨e, h⟩ := countStore_same b c
  rw [h]

@[simp] theorem Sub.writeReg_locked (b : Sub) (slot k : Nat) (m : Mask) (c : Content) (taint : Mask) (back : Bool) :
    (b.writeReg slot k m c taint back).locked = b.locked := by
  cases back <;> simp [Sub.writeReg]

@[simp] theorem State.writeReg_outline (s : State) (r : CrewRef) (k : Nat) (m : Mask) (c : Content) (taint : Mask)
    (back : Bool) : (s.writeReg r k m c taint back).outline = s.outline := by
  unfold State.writeReg
  rw [State.modSub_outline _ _ _ _ (fun _ => Sub.writeReg_length ..) (fun _ => Sub.writeReg_locked ..),
    State.modCrew_outline]

/-! ### Heads and aborts -/

@[simp] theorem State.head_outline (s : State) (r : CrewRef) : (s.head r).outline = s.outline := by simp [State.head]

theorem Sub.rollback_shape (b : Sub) (slot : Nat) (ab : Mask) (was : List PhysReg) (ks : List Nat) :
    (b.rollback slot ab was ks).crews.length = b.crews.length ∧ (b.rollback slot ab was ks).locked = b.locked := by
  induction ks generalizing b with
  | nil => exact ⟨rfl, rfl⟩
  | cons k ks ih => exact ⟨(ih _).1.trans (Sub.store_length ..), (ih _).2.trans (Sub.store_locked ..)⟩

@[simp] theorem State.abortCode_outline (s : State) (r : CrewRef) (ab : Mask) (k code : Nat) :
    (s.abortCode r ab k code).outline = s.outline := by
  unfold State.abortCode
  dsimp only
  split <;> simp

@[simp] theorem State.abortLanes_outline (s : State) (r : CrewRef) (lanes : Mask) (code : Nat) :
    (s.abortLanes r lanes code).outline = s.outline := by
  have rolled : ∀ ab was ks, (s.modSub r.core r.sub (fun b => b.rollback r.slot ab was ks)).outline = s.outline :=
    fun ab was ks => s.modSub_outline _ _ _ (fun b => (b.rollback_shape ..).1) fun b => (b.rollback_shape ..).2
  have counted : ∀ (t : State) n, (t.modSub r.core r.sub (fun b => b.countN 10 n)).outline = t.outline :=
    fun t n => t.modSub_outline _ _ _ (fun _ => rfl) fun _ => rfl
  unfold State.abortLanes
  dsimp only
  (repeat' split) <;> simp only [State.head_outline, State.modCrew_outline, State.abortCode_outline, counted, rolled]

@[simp] theorem State.raiseTrap_outline (s : State) (r : CrewRef) (p : PendingTrap) :
    (s.raiseTrap r p).outline = s.outline := by
  simp [State.raiseTrap]

@[simp] theorem State.leaveHandler_outline (s : State) (r : CrewRef) : (s.leaveHandler r).outline = s.outline := by
  unfold State.leaveHandler
  dsimp only
  split
  · simp
  · rw [State.head_outline, State.modCrew_outline]
    exact foldl_view State.outline _ (fun st k => State.writeReg_outline ..) _ s

/-! ### Results of loads -/

theorem Sub.patchSnapshot_shape (b : Sub) (slot : Nat) (q : LoadRec) (id : Nat) (dst : List (Nat × Mask)) :
    (b.patchSnapshot slot q id dst).crews.length = b.crews.length ∧ (b.patchSnapshot slot q id dst).locked = b.locked := by
  unfold Sub.patchSnapshot
  induction upTo dst.length generalizing b with
  | nil => exact ⟨rfl, rfl⟩
  | cons j js ih =>
    rw [List.foldl_cons]
    refine ⟨(ih _).1.trans ?_, (ih _).2.trans ?_⟩
    · dsimp only
      split <;> simp
    · dsimp only
      split <;> rfl

theorem Sub.patchSnapshots_shape (b : Sub) (slot : Nat) (q : LoadRec) (l : List (Nat × List (Nat × Mask))) :
    (l.foldl (fun x p => x.patchSnapshot slot q p.1 p.2) b).crews.length = b.crews.length ∧
      (l.foldl (fun x p => x.patchSnapshot slot q p.1 p.2) b).locked = b.locked := by
  induction l generalizing b with
  | nil => exact ⟨rfl, rfl⟩
  | cons p l ih =>
    obtain ⟨hc, hl⟩ := b.patchSnapshot_shape slot q p.1 p.2
    exact ⟨(ih _).1.trans hc, (ih _).2.trans hl⟩

@[simp] theorem Sub.insert_shape (b : Sub) (e : XEntry) : (b.insert e).crews = b.crews ∧ (b.insert e).locked = b.locked := by
  unfold Sub.insert
  dsimp only
  split <;> exact ⟨rfl, rfl⟩

@[simp] theorem State.writeLoad_outline (s : State) (r : CrewRef) (q : LoadRec) : (s.writeLoad r q).outline = s.outline := by
  have patched : (s.modSub r.core r.sub (fun b => q.snaps.foldl (fun x p => x.patchSnapshot r.slot q p.1 p.2) b)).outline =
      s.outline :=
    s.modSub_outline _ _ _ (fun b => (b.patchSnapshots_shape ..).1) fun b => (b.patchSnapshots_shape ..).2
  have written : ∀ (t : State) (k : Nat) (m : Mask) (c : Content) (taint : Mask),
      (t.modSub r.core r.sub (fun b => b.writeReg r.slot k m c taint)).outline = t.outline :=
    fun t k m c taint => t.modSub_outline _ _ _ (fun _ => Sub.writeReg_length ..) fun _ => Sub.writeReg_locked ..
  have results : ∀ g : State → Nat → State, (∀ t j, (g t j).outline = t.outline) →
      ((upTo q.dst.length).foldl g
        (s.modSub r.core r.sub (fun b => q.snaps.foldl (fun x p => x.patchSnapshot r.slot q p.1 p.2) b))).outline = s.outline :=
    fun g hg => (foldl_view State.outline g hg _ _).trans patched
  have word : ∀ (t : State) (j : Nat), (match q.dst[j]? with
      | some d =>
        if d.2 == 0 then t
        else t.modSub r.core r.sub (fun b =>
          b.writeReg r.slot d.1 d.2 (q.content j) (if q.kind.consumes then d.2 else q.taint &&& d.2))
      | none => t).outline = t.outline := fun t j => by
    split
    · split
      · rfl
      · exact written ..
    · rfl
  have consumed : ∀ (t : State) (f : Crew → Crew), t.outline = s.outline →
      (if q.kind.consumes = true then t.modCrew r f else t).outline = s.outline := fun t f h => by
    split
    · exact (t.modCrew_outline r f).trans h
    · exact h
  unfold State.writeLoad
  dsimp only
  split
  · split
    · refine (State.modSub_outline _ _ _ _ (fun b => ?_) fun b => ?_).trans (consumed _ _ (results _ word)) <;> split
      · exact congrArg List.length (b.insert_shape _).1
      · rfl
      · exact (b.insert_shape _).2
      · rfl
    · exact consumed _ _ (results _ word)
  · exact consumed _ _ (results _ word)

@[simp] theorem State.lateFail_outline (s : State) (r : CrewRef) (q : LoadRec) (fs : List LaneTrap) :
    (s.lateFail r q fs).outline = s.outline := by
  unfold State.lateFail
  dsimp only
  (repeat' split) <;> simp

@[simp] theorem State.finishLoad_outline (s : State) (r : CrewRef) (q : LoadRec) :
    (s.finishLoad r q).outline = s.outline := by
  unfold State.finishLoad
  dsimp only
  split <;> simp

/-! ### What crews wait for (R14) -/

@[simp] theorem State.valuesDue_outline (s : State) (r : CrewRef) : (s.valuesDue r).outline = s.outline :=
  foldl_view State.outline _ (fun st q => st.finishLoad_outline r q) _ s

@[simp] theorem State.codesDue_outline (s : State) (r : CrewRef) : (s.codesDue r).outline = s.outline := by
  unfold State.codesDue
  dsimp only
  (repeat' split) <;> simp

@[simp] theorem State.dueHead_outline (s : State) (r : CrewRef) : (s.dueHead r).outline = s.outline := by
  unfold State.dueHead
  dsimp only
  split <;> simp

@[simp] theorem State.stopHead_outline (s : State) (r : CrewRef) : (s.stopHead r).outline = s.outline := by
  unfold State.stopHead
  split <;> simp

@[simp] theorem State.finishTret_outline (s : State) (r : CrewRef) : (s.finishTret r).outline = s.outline := by
  unfold State.finishTret
  dsimp only
  (repeat' split) <;> simp

@[simp] theorem State.watchdog_outline (s : State) (r : CrewRef) : (s.watchdog r).outline = s.outline := by
  unfold State.watchdog
  dsimp only
  (repeat' split) <;> simp

@[simp] theorem State.settleCrew_outline (s : State) (r : CrewRef) : (s.settleCrew r).outline = s.outline := by
  unfold State.settleCrew
  dsimp only
  split <;> simp

end Sys2Proof.Machine
end

section
/-! ## The choice of an issue group (R15, R207)

A sub-core forms a group from the candidate's READY threads at one PC, or from the threads of its locked run; the choice
changes no crew. What precedes it in the cycle keeps the issue group and the locked run. -/

open Sys2Proof Sys2Proof.Claims

namespace Sys2Proof.Machine

/-! ### Groups that stand -/

/-- The issue group that a crew's lanes of a mask at a PC would be. -/
def groupAt (c b k : Nat) (part : Mask) (pc : Addr) : Issue :=
  { core := c, sub := b, slot := k, part := part, pc := pc, len := 0, word := 0 }

/-- A group is of a sub-core, has a thread, and its threads stand READY at its PC. -/
structure Standing (s : State) (c b : Nat) (i : Issue) : Prop where
  core : i.core = c
  sub : i.sub = b
  some_ : i.part ≠ 0
  stands : ∀ l, l < 32 → i.part.getLsbD l = true →
    ((s.crew i.ref).thread l).run = .ready ∧ ((s.crew i.ref).thread l).pc = i.pc

/-- Every READY thread of the group's crew at its PC is in it. -/
def Whole (s : State) (i : Issue) : Prop :=
  ∀ l, l < 32 → ((s.crew i.ref).thread l).run = .ready → ((s.crew i.ref).thread l).pc = i.pc → i.part.getLsbD l = true

theorem Standing.congr {s t : State} {c b : Nat} {i : Issue} (h : Standing s c b i) (hc : ∀ q, t.crew q = s.crew q) :
    Standing t c b i :=
  ⟨h.core, h.sub, h.some_, fun l hl hp => by rw [hc]; exact h.stands l hl hp⟩

theorem Whole.congr {s t : State} {i : Issue} (h : Whole s i) (hc : ∀ q, t.crew q = s.crew q) : Whole t i :=
  fun l hl => by rw [hc]; exact h l hl

theorem firstFrom_some {turn : Nat} {p : Nat → Bool} {l : Nat} (h : firstFrom turn p = some l) : l < 32 ∧ p l = true := by
  obtain ⟨k, -, rfl⟩ := List.mem_map.1 (List.mem_of_find?_eq_some h)
  exact ⟨Nat.mod_lt _ (by omega), List.find?_some h⟩

theorem Mask.ne_zero_of_getLsbD {m : Mask} {l : Nat} (h : m.getLsbD l = true) : m ≠ 0 := by
  rintro rfl
  exact absurd h (by simp)

/-- What a crew selects: the READY threads at the PC of one of them (R15). -/
theorem Crew.select_spec {w : Crew} {pc : Addr} {part : Mask} (h : w.select = some (pc, part)) :
    part ≠ 0 ∧ ∀ l, l < 32 → (part.getLsbD l = true ↔ (w.thread l).run = .ready ∧ (w.thread l).pc = pc) := by
  obtain ⟨l, hl, e⟩ := Option.map_eq_some_iff.1 h
  obtain ⟨h32, ready⟩ := firstFrom_some hl
  obtain ⟨rfl, rfl⟩ := Prod.mk.inj e
  refine ⟨Mask.ne_zero_of_getLsbD (l := l) ?_, fun j hj => ?_⟩
  · rw [getLsbD_ofFn _ _ h32]
    simpa using ready
  · rw [getLsbD_ofFn _ _ hj]
    simp

theorem State.groupOfSlot_eq (s : State) (c b k : Nat) :
    s.groupOfSlot c b k = (s.crew ⟨c, b, k⟩).select.map (fun p => groupAt c b k p.2 p.1) := rfl

theorem State.groupOfSlot_ref {s : State} {c b k : Nat} {i : Issue} (h : s.groupOfSlot c b k = some i) :
    i.core = c ∧ i.sub = b ∧ i.slot = k := by
  rw [State.groupOfSlot_eq] at h
  obtain ⟨p, -, rfl⟩ := Option.map_eq_some_iff.1 h
  exact ⟨rfl, rfl, rfl⟩

theorem State.groupOfSlot_standing {s : State} {c b k : Nat} {i : Issue} (h : s.groupOfSlot c b k = some i) :
    Standing s c b i ∧ Whole s i := by
  rw [State.groupOfSlot_eq] at h
  obtain ⟨⟨pc, part⟩, hp, rfl⟩ := Option.map_eq_some_iff.1 h
  obtain ⟨ne, iff⟩ := Crew.select_spec hp
  exact ⟨⟨rfl, rfl, ne, fun l hl => (iff l hl).1⟩, fun l hl hr hpc => (iff l hl).2 ⟨hr, hpc⟩⟩

theorem State.lockedGroup_standing {s : State} {c b : Nat} {x : Locked} {i : Issue} (h : s.lockedGroup c b x = some i)
    (hx : x.part ≠ 0) : Standing s c b i := by
  unfold State.lockedGroup at h
  dsimp only at h
  split at h
  next hr =>
    cases h
    simp only [Bool.and_eq_true, List.all_eq_true, beq_iff_eq] at hr
    exact ⟨rfl, rfl, hx, fun l hl hp => hr.2 l ((Mask.mem_lanes _ _).2 ⟨hl, hp⟩)⟩
  · cases h

/-! ### Issuing a group changes no crew -/

theorem State.issueGroup_crew (s : State) (i : Issue) (op : Option Instr) (q : CrewRef) :
    (s.issueGroup i op).crew q = s.crew q := by
  unfold State.issueGroup
  exact crew_modSub_same s i.core i.sub _ q fun _ => rfl

/-- A group that may issue does, or waits a cycle for its latch (R210); no crew changes. -/
theorem State.issueOrLatch_chooses (s : State) (i : Issue) (op : Option Instr) :
    (∀ q, (s.issueOrLatch i op).crew q = s.crew q) ∧
      ((s.issueOrLatch i op).issue = s.issue ∨ (s.issueOrLatch i op).issue = some i) := by
  unfold State.issueOrLatch
  split
  · exact ⟨fun q => crew_modSub_same s _ _ _ q fun _ => rfl, .inl rfl⟩
  · exact ⟨fun q => s.issueGroup_crew i op q, .inr rfl⟩

theorem State.lockedSlot_chooses {s t : State} {c b : Nat} {x : Locked} (h : s.lockedSlot c b x = some t) :
    (∀ q, t.crew q = s.crew q) ∧ (t.issue = s.issue ∨ ∃ i, s.lockedGroup c b x = some i ∧ t.issue = some i) := by
  unfold State.lockedSlot at h
  split at h
  · cases h
  next i hi =>
  dsimp only at h
  split_ifs at h
  · cases h
    exact ⟨fun _ => rfl, .inl rfl⟩
  · cases h
    obtain ⟨crews, issue⟩ := s.issueOrLatch_chooses i (s.peekInstr i)
    exact ⟨crews, issue.imp_right fun e => ⟨i, hi, e⟩⟩

theorem State.chooseGroup_chooses (s : State) (c b : Nat) :
    (∀ q, (s.chooseGroup c b).crew q = s.crew q) ∧ ((s.chooseGroup c b).issue = s.issue ∨
      ∃ k i, s.groupOfSlot c b k = some i ∧ (s.chooseGroup c b).issue = some i) := by
  unfold State.chooseGroup
  dsimp only
  split
  · exact ⟨fun q => crew_modSub_same s _ _ _ q fun _ => rfl, .inl rfl⟩
  next k hk =>
  split
  · exact ⟨fun _ => rfl, .inl rfl⟩
  next i hi =>
  split_ifs
  · exact ⟨fun _ => rfl, .inl rfl⟩
  · exact ⟨fun q => crew_modSub_same s _ _ _ q fun _ => rfl, .inl rfl⟩
  · obtain ⟨crews, issue⟩ := s.issueOrLatch_chooses i (s.peekInstr i)
    exact ⟨crews, issue.imp_right fun e => ⟨k, i, hi, e⟩⟩

/-- The choice of a sub-core with no group waiting (R15, R207): the group it chooses stands, and is whole with no run
locked. -/
theorem State.chooseIssue_chooses {s : State} {c b : Nat} {i : Issue} (idle : s.issue = none)
    (hl : ∀ x, (s.sub c b).locked = some x → x.part ≠ 0) (h : (s.chooseIssue c b).issue = some i) :
    Standing (s.chooseIssue c b) c b i ∧ ((s.sub c b).locked = none → Whole (s.chooseIssue c b) i) := by
  unfold State.chooseIssue at h ⊢
  split at h
  · simp [idle] at h
  next hd =>
  rw [if_neg hd]
  cases lock : (s.sub c b).locked with
  | none =>
    simp only [lock] at h ⊢
    obtain ⟨crews, e | ⟨k, j, hj, e⟩⟩ := s.chooseGroup_chooses c b
    · simp [e, idle] at h
    · cases e.symm.trans h
      obtain ⟨stands, whole⟩ := State.groupOfSlot_standing hj
      exact ⟨stands.congr crews, fun _ => whole.congr crews⟩
  | some x =>
    simp only [lock] at h ⊢
    refine ⟨?_, nofun⟩
    cases slot : s.lockedSlot c b x with
    | some t =>
      simp only [slot, Option.getD_some] at h ⊢
      obtain ⟨crews, e | ⟨j, hj, e⟩⟩ := State.lockedSlot_chooses slot
      · simp [e, idle] at h
      · cases e.symm.trans h
        exact (State.lockedGroup_standing hj (hl x lock)).congr crews
    | none =>
      simp only [slot, Option.getD_none] at h ⊢
      obtain ⟨crews, e | ⟨k, j, hj, e⟩⟩ := (s.modSub c b Sub.breakRun).chooseGroup_chooses c b
      · simp [e, idle] at h
      · cases e.symm.trans h
        exact (State.groupOfSlot_standing hj).1.congr crews

/-! ### What precedes the choice -/

/-- The counts of a sub-core's cycle, before its write buffer drains (R205, R508). -/
def Sub.counted (b : Sub) (busy : Bool) (queued : Nat) : Sub := ((if busy then b.count 15 else b).countN 14 queued).countWaits

theorem Sub.countWaits_events (b : Sub) : ∃ e, b.countWaits = { b with events := e } := by
  unfold Sub.countWaits
  dsimp only
  split_ifs <;> exact ⟨_, rfl⟩

theorem Sub.counted_events (b : Sub) (busy : Bool) (queued : Nat) : ∃ e, b.counted busy queued = { b with events := e } := by
  obtain ⟨e, h⟩ := ((if busy then b.count 15 else b).countN 14 queued).countWaits_events
  refine ⟨e, h.trans ?_⟩
  split <;> rfl

/-- Counts leave all of a sub-core but its events. -/
theorem Sub.counted_keeps {α : Type} (g : Sub → α) (b : Sub) (busy : Bool) (queued : Nat)
    (hg : ∀ e, g { b with events := e } = g b := by exact fun _ => rfl) : g (b.counted busy queued) = g b := by
  obtain ⟨e, h⟩ := b.counted_events busy queued
  rw [h, hg]

/-- A cycle of a sub-core before its choice (R14, R205, R508). -/
def State.beforeChoice (s : State) (c b : Nat) : State :=
  if (s.sub c b).again then s.modSub c b (fun x => { x with again := false })
  else
    let u := (crewRefs c b).foldl State.settleCrew s
    let busy := b == 0 && (u.core c).engineBusy
    let queued := if b == 0 then u.queueOcc c else 0
    (u.modSub c b (fun x => (x.counted busy queued).drainWrites s.cycle)).takeEvents c b

theorem State.arbitrate_eq (s : State) (c b : Nat) : s.arbitrate c b = (s.beforeChoice c b).chooseIssue c b := by
  unfold State.arbitrate State.beforeChoice
  split <;> rfl

@[simp] theorem State.takeEvents_outline (s : State) (c b : Nat) : (s.takeEvents c b).outline = s.outline := by
  unfold State.takeEvents
  dsimp only
  split
  · rfl
  · refine (State.modSub_outline _ _ _ _ ?_ ?_).trans (s.modCore_outline c _ ?_)
    · exact fun _ => rfl
    · exact fun _ => rfl
    · rfl

@[simp] theorem State.beforeChoice_outline (s : State) (c b : Nat) : (s.beforeChoice c b).outline = s.outline := by
  unfold State.beforeChoice
  dsimp only
  split
  · exact s.modSub_outline _ _ _ (fun _ => rfl) fun _ => rfl
  · rw [State.takeEvents_outline, State.modSub_outline]
    · exact foldl_view State.outline _ (fun st r => st.settleCrew_outline r) _ s
    · exact fun x => x.counted_keeps (fun b => b.crews.length) _ _
    · exact fun x => x.counted_keeps Sub.locked _ _

theorem State.locked_of_outline {s t : State} (h : t.outline = s.outline) (c b : Nat) :
    (t.sub c b).locked = (s.sub c b).locked := by
  have read : ∀ k : Core, (k.sub b).locked = (k.shape.getD b (Sub.reset.crews.length, Sub.reset.locked)).2 := fun k => by
    rw [Core.shape, List.getD_map]; rfl
  have shape : (t.core c).shape = (s.core c).shape := congrFun (congrArg Outline.shapes h) c
  rw [State.sub, State.sub, read, read, shape]

theorem State.issue_of_outline {s t : State} (h : t.outline = s.outline) : t.issue = s.issue := congrArg Outline.issue h

/-! ### A quiet sub-core -/

/-- No run is locked, and no latch, bank, unit or result of a sub-core is in use. -/
structure Sub.Resting (b : Sub) : Prop where
  locked : b.locked = none
  claims : b.claims = []
  ready : b.ready = []
  unitFree : b.unitFree = [0, 0]
  latches : ∀ x ∈ b.latches, x = none

theorem Sub.Resting.events {b : Sub} (h : b.Resting) (e : List Nat) : ({ b with events := e } : Sub).Resting :=
  ⟨h.locked, h.claims, h.ready, h.unitFree, h.latches⟩

theorem Sub.Resting.latchReg {b : Sub} (h : b.Resting) (slot : Nat) (part : Mask) (sel : Nat) :
    b.latchReg slot part sel = none := by
  have empty : b.latches.getD (sel - 64) none = none := by
    rw [List.getD_eq_getElem?_getD]
    cases e : b.latches[sel - 64]? with
    | none => rfl
    | some x => exact h.latches x (List.mem_of_getElem? e)
  unfold Sub.latchReg
  split
  · rfl
  · rw [empty]; rfl

theorem Sub.Resting.notReady {b : Sub} (h : b.Resting) (slot t : Nat) (op : Instr) (rs : List (List (BitVec 7))) :
    b.notReady slot t op rs = false := by
  have free : ∀ u, b.unitFree.getD u 0 = 0 := fun u => by
    rw [h.unitFree]
    match u with
    | 0 => rfl
    | 1 => rfl
    | u + 2 => rfl
  have idle : b.unitBusy t op = false := by
    unfold Sub.unitBusy
    split
    · rw [free]; simp
    · rfl
  simp [Sub.notReady, idle, h.ready]

theorem Sub.Resting.conflicts {b : Sub} (h : b.Resting) (uses : List BankUse) : b.conflicts uses = false := by
  simp [Sub.conflicts, h.claims]

/-- In a sub-core at rest the candidate's group issues. -/
theorem State.chooseIssue_resting {s : State} {c b k : Nat} {i : Issue} (hd : s.dutyOn c = true)
    (hf : (s.core c).fenced = false) (rest : (s.sub c b).Resting) (hk : (s.sub c b).candidate s.cycle = some k)
    (hi : s.groupOfSlot c b k = some i) : s.chooseIssue c b = s.issueGroup i (s.peekInstr i) := by
  obtain ⟨rfl, rfl, -⟩ := State.groupOfSlot_ref hi
  have noWait : ((s.peekInstr i).map (s.groupWaits i)).getD false = false := by
    cases s.peekInstr i with
    | none => rfl
    | some op => exact rest.notReady ..
  have noLatch : ((s.peekInstr i).map (s.latchLate i)).getD false = false := by
    cases s.peekInstr i with
    | none => rfl
    | some op => simp [State.latchLate, rest.latchReg]
  simp [State.chooseIssue, hd, hf, rest.locked, State.chooseGroup, hk, hi, noWait, rest.conflicts, State.issueOrLatch, noLatch]

/-- A change of a sub-core changes of every core at most the list of its sub-cores. -/
theorem modSub_core_subs (s : State) (c b d : Nat) (f : Sub → Sub) :
    ∃ l, (s.modSub c b f).core d = { s.core d with subs := l } := by
  by_cases h : d = c
  · rw [h, State.modSub, core_modCore]; exact ⟨_, rfl⟩
  · rw [State.modSub, core_modCore_ne _ _ _ _ h]; exact ⟨_, rfl⟩

theorem sameMemory_modSub (s : State) (c b : Nat) (f : Sub → Sub) : SameMemory s (s.modSub c b f) := by
  refine ⟨rfl, fun d => ?_⟩
  obtain ⟨l, e⟩ := modSub_core_subs s c b d f
  rw [e]; exact ⟨rfl, rfl⟩

theorem sameMemory_trans {s t u : State} (h : SameMemory s t) (k : SameMemory t u) : SameMemory s u :=
  ⟨k.1.trans h.1, fun c => ⟨(k.2 c).1.trans (h.2 c).1, (k.2 c).2.trans (h.2 c).2⟩⟩

theorem State.issueGroup_memory (s : State) (i : Issue) (op : Option Instr) : SameMemory s (s.issueGroup i op) := by
  unfold State.issueGroup
  exact sameMemory_modSub s i.core i.sub _

/-- A sub-core's cycle before its choice when nothing has ended: its crews, its loser, its core's duty and memory are as they
were, and at rest it stays. -/
structure Undisturbed (s u : State) (c b : Nat) : Prop where
  crew : ∀ q, u.crew q = s.crew q
  crews : (u.sub c b).crews = (s.sub c b).crews
  loser : (u.sub c b).loser = (s.sub c b).loser
  cycle : u.cycle = s.cycle
  duty : u.dutyOn c = s.dutyOn c
  fenced : (u.core c).fenced = (s.core c).fenced
  memory : SameMemory s u
  rest : (s.sub c b).Resting → (s.sub c b).writes = [] → (u.sub c b).Resting ∧ (u.sub c b).writes = []

theorem Undisturbed.refl (s : State) (c b : Nat) : Undisturbed s s c b :=
  ⟨fun _ => rfl, rfl, rfl, rfl, rfl, rfl, ⟨rfl, fun _ => ⟨rfl, rfl⟩⟩, fun h w => ⟨h, w⟩⟩

theorem Undisturbed.trans {s u v : State} {c b : Nat} (h : Undisturbed s u c b) (k : Undisturbed u v c b) :
    Undisturbed s v c b where
  crew q := (k.crew q).trans (h.crew q)
  crews := k.crews.trans h.crews
  loser := k.loser.trans h.loser
  cycle := k.cycle.trans h.cycle
  duty := k.duty.trans h.duty
  fenced := k.fenced.trans h.fenced
  memory := sameMemory_trans h.memory k.memory
  rest r w := (h.rest r w).elim k.rest

theorem Undisturbed.modCore (s : State) (c b : Nat) (f : Core → Core) (hs : ∀ k, (f k).subs = k.subs)
    (hr : ∀ k, (f k).resetAt = k.resetAt) (hf : ∀ k, (f k).fenced = k.fenced)
    (hm : ∀ k, (f k).scratch = k.scratch ∧ (f k).descs = k.descs) : Undisturbed s (s.modCore c f) c b := by
  have sub : (s.modCore c f).sub c b = s.sub c b := by rw [State.sub, Core.sub, core_modCore, hs]; rfl
  refine ⟨fun q => crew_modCore_same s c f q hs, by rw [sub], by rw [sub], rfl, ?_, by rw [core_modCore, hf], ⟨rfl, fun d => ?_⟩,
    fun h w => by rw [sub]; exact ⟨h, w⟩⟩
  · simp only [State.dutyOn, State.clock, core_modCore, hr]; rfl
  · by_cases h : d = c
    · rw [h, core_modCore]; exact hm _
    · rw [core_modCore_ne _ _ _ _ h]; exact ⟨rfl, rfl⟩

theorem Undisturbed.modSub (s : State) (c b : Nat) (f : Sub → Sub) (hc : ∀ x, (f x).crews = x.crews)
    (hl : ∀ x, (f x).loser = x.loser)
    (hr : (s.sub c b).Resting → (s.sub c b).writes = [] → (f (s.sub c b)).Resting ∧ (f (s.sub c b)).writes = []) :
    Undisturbed s (s.modSub c b f) c b := by
  have sub : (s.modSub c b f).sub c b = s.sub c b ∨ (s.modSub c b f).sub c b = f (s.sub c b) :=
    (sub_modSub_cases s c b c b f).imp_right fun h => h.2.2
  obtain ⟨l, hcore⟩ := modSub_core_subs s c b c f
  refine ⟨fun q => crew_modSub_same s c b f q hc, ?_, ?_, rfl, ?_, by rw [hcore], sameMemory_modSub s c b f, fun h w => ?_⟩
  · rcases sub with e | e <;> rw [e]; rw [hc]
  · rcases sub with e | e <;> rw [e]; rw [hl]
  · simp only [State.dutyOn, State.clock, hcore]; rfl
  · rcases sub with e | e <;> rw [e]
    · exact ⟨h, w⟩
    · exact hr h w

theorem Undisturbed.takeEvents (s : State) (c b : Nat) : Undisturbed s (s.takeEvents c b) c b := by
  unfold State.takeEvents
  dsimp only
  split
  · exact .refl s c b
  · refine .trans (.modCore s c b _ ?_ ?_ ?_ ?_) (.modSub _ c b _ ?_ ?_ ?_)
    case refine_7 => exact fun h w => ⟨h.events _, w⟩
    case refine_4 => exact fun _ => ⟨rfl, rfl⟩
    all_goals exact fun _ => rfl

theorem foldl_of_fixed {α β : Type} (g : β → α → β) (s : β) (l : List α) (h : ∀ x ∈ l, g s x = s) : l.foldl g s = s := by
  induction l with
  | nil => rfl
  | cons x r ih => rw [List.foldl_cons, h x (by simp), ih fun y hy => h y (by simp [hy])]

theorem Sub.drainWrites_resting {b : Sub} (h : b.Resting) (w : b.writes = []) (t : Nat) :
    (b.drainWrites t).Resting ∧ (b.drainWrites t).writes = [] := by
  refine ⟨⟨h.locked, ?_, ?_, h.unitFree, h.latches⟩, ?_⟩ <;> simp [Sub.drainWrites, h.claims, h.ready, w]

theorem State.beforeChoice_undisturbed (s : State) (c b : Nat) (h : ∀ j, j < 8 → s.settleCrew ⟨c, b, j⟩ = s) :
    Undisturbed s (s.beforeChoice c b) c b := by
  have settled : (crewRefs c b).foldl State.settleCrew s = s := by
    refine foldl_of_fixed _ _ _ fun r hr => ?_
    obtain ⟨j, hj, rfl⟩ := List.mem_map.1 hr
    exact h j (List.mem_range.1 hj)
  unfold State.beforeChoice
  dsimp only
  split
  · exact .modSub s c b _ (fun _ => rfl) (fun _ => rfl) fun r w => ⟨⟨r.1, r.2, r.3, r.4, r.5⟩, w⟩
  · rw [settled]
    refine .trans (.modSub s c b _ (fun x => ?_) (fun x => ?_) fun r w => ?_) (.takeEvents _ c b)
    · exact x.counted_keeps Sub.crews _ _
    · exact x.counted_keeps Sub.loser _ _
    · obtain ⟨e, h⟩ := (s.sub c b).counted_events (b == 0 && (s.core c).engineBusy) (if b == 0 then s.queueOcc c else 0)
      rw [h]
      exact Sub.drainWrites_resting (r.events e) w s.cycle

theorem Sub.candidate_congr {b x : Sub} (hc : x.crews = b.crews) (hl : x.loser = b.loser) (now : Nat) :
    x.candidate now = b.candidate now := by
  cases b
  cases x
  cases hc
  cases hl
  rfl

end Sys2Proof.Machine
end

section

namespace Sys2Proof

open Machine Claims

/-- Settles O31: what is chosen stands where the choice is made, and the choice itself changes no crew; in a quiet sub-core
nothing holds the candidate's group back. -/
theorem arbitrationChoosesAGroup : Obligations.ArbitrationChoosesAGroup := by
  unfold Obligations.ArbitrationChoosesAGroup
  refine ⟨fun s t i idle part h hi => ?_, fun s k i idle duty open_ settled lock claims ready writes units latches cand hi => ?_⟩
  · cases h
    have before := s.beforeChoice_outline s.sel.a s.sel.b
    have lock := State.locked_of_outline before s.sel.a s.sel.b
    rw [State.arbitrate_eq] at hi ⊢
    obtain ⟨⟨core, sub, ne, stands⟩, whole⟩ := State.chooseIssue_chooses ((State.issue_of_outline before).trans idle)
      (fun x hx => part x (lock ▸ hx)) hi
    exact ⟨core, sub, ne, fun l hl => ⟨stands l hl, fun none_ => whole (lock.trans none_) l hl⟩⟩
  · have u := s.beforeChoice_undisturbed _ _ settled
    have rest := (u.rest ⟨lock, claims, ready, units, latches⟩ writes).1
    have cand' := (Sub.candidate_congr u.crews u.loser s.cycle).trans cand
    have group : (s.beforeChoice s.sel.a s.sel.b).groupOfSlot s.sel.a s.sel.b k = some i := by
      rw [State.groupOfSlot_eq, u.crew, ← State.groupOfSlot_eq, hi]
    refine ⟨_, rfl, ?_⟩
    rw [State.arbitrate_eq, State.chooseIssue_resting (u.duty.trans duty) (u.fenced.trans open_) rest
      (u.cycle.symm ▸ cand') group]
    exact ⟨rfl, sameMemory_trans u.memory (State.issueGroup_memory _ i _),
      fun q => (State.issueGroup_crew _ i _ q).trans (u.crew q)⟩

end Sys2Proof
end

section
/-! ## Launches of the table, and what leaves memory and the schedule alone

Memory with the scratchpads and the schedule are the ledger of a state: what the end of a group, of a crew or of a trap leaves
as it is. -/

open Sys2Proof Sys2Proof.Claims

namespace Sys2Proof.Machine

/-! ### Listed entries of a sparse table -/

@[simp] theorem tfind_tset_same {α : Type} (m : List (Nat × α)) (i : Nat) (x : α) : tfind (tset m i x) i = some x := by
  induction m with
  | nil => simp [tset, tfind]
  | cons p r ih =>
    obtain ⟨k, v⟩ := p
    unfold tset
    split_ifs with h h' <;> simp_all [tfind]

theorem tfind_tset_ne {α : Type} (m : List (Nat × α)) (i j : Nat) (x : α) (h : j ≠ i) : tfind (tset m i x) j = tfind m j := by
  have hij : (i == j) = false := by simp; omega
  induction m with
  | nil => simp [tset, tfind, hij]
  | cons p r ih =>
    obtain ⟨k, v⟩ := p
    unfold tset
    split_ifs with hk
    · simp_all [tfind]
    · simp [tfind, hij]
    · simp [tfind, ih]

theorem mem_of_tfind {α : Type} {m : List (Nat × α)} {i : Nat} {x : α} (h : tfind m i = some x) : (i, x) ∈ m := by
  induction m with
  | nil => cases h
  | cons p r ih =>
    obtain ⟨k, v⟩ := p
    unfold tfind at h
    split_ifs at h with hk
    · cases h
      simp_all
    · exact List.mem_cons_of_mem _ (ih h)

theorem State.launch?_modLaunch (s : State) (i : Nat) (f : Launch → Launch) :
    (s.modLaunch i f).launch? i = (s.launch? i).map f := by
  unfold State.modLaunch
  split
  next x hx => rw [hx]; exact tfind_tset_same ..
  next hx => rw [hx]; rfl

theorem State.launch?_modLaunch_ne (s : State) (i j : Nat) (f : Launch → Launch) (h : j ≠ i) :
    (s.modLaunch i f).launch? j = s.launch? j := by
  unfold State.modLaunch
  split
  · exact tfind_tset_ne _ _ _ _ h
  · rfl

@[simp] theorem State.modLaunch_core (s : State) (i : Nat) (f : Launch → Launch) (c : Nat) :
    (s.modLaunch i f).core c = s.core c := by
  unfold State.modLaunch
  split <;> rfl

@[simp] theorem State.modLaunch_mem (s : State) (i : Nat) (f : Launch → Launch) : (s.modLaunch i f).mem = s.mem := by
  unfold State.modLaunch
  split <;> rfl

/-! ### The ledger -/

/-- Memory, the schedule, and of each core its scratchpad with the descriptors. -/
structure Ledger where
  mem : Memory
  sched : Sched
  stores : Nat → List Host.Cell × List (Nat × Nat × Nat)

/-- The ledger of a state. -/
def State.ledger (s : State) : Ledger := ⟨s.mem, s.sched, fun c => ((s.core c).scratch, (s.core c).descs)⟩

theorem sameMemory_of_ledger {s t : State} (h : t.ledger = s.ledger) : SameMemory s t :=
  ⟨congrArg Ledger.mem h, fun c => Prod.mk.inj (congrFun (congrArg Ledger.stores h) c)⟩

theorem State.sched_of_ledger {s t : State} (h : t.ledger = s.ledger) : t.sched = s.sched := congrArg Ledger.sched h

theorem State.launch?_of_sched {s t : State} (h : t.sched = s.sched) (i : Nat) : t.launch? i = s.launch? i := by
  rw [State.launch?, State.launch?, h]

theorem State.modCore_ledger (s : State) (c : Nat) (f : Core → Core)
    (hf : ∀ k, (f k).scratch = k.scratch ∧ (f k).descs = k.descs := by exact fun _ => ⟨rfl, rfl⟩) :
    (s.modCore c f).ledger = s.ledger := by
  have stores : (fun d => (((s.modCore c f).core d).scratch, ((s.modCore c f).core d).descs)) =
      fun d => ((s.core d).scratch, (s.core d).descs) := by
    funext d
    by_cases h : d = c
    · rw [h, core_modCore, (hf _).1, (hf _).2]
    · rw [core_modCore_ne _ _ _ _ h]
  exact congrArg (Ledger.mk s.mem s.sched) stores

@[simp] theorem State.modSub_ledger (s : State) (c b : Nat) (f : Sub → Sub) : (s.modSub c b f).ledger = s.ledger :=
  s.modCore_ledger c _

@[simp] theorem State.modCrew_ledger (s : State) (r : CrewRef) (f : Crew → Crew) : (s.modCrew r f).ledger = s.ledger :=
  s.modSub_ledger ..

@[simp] theorem State.modKeep_ledger (s : State) (r : CrewRef) (f : SlotKeep → SlotKeep) : (s.modKeep r f).ledger = s.ledger :=
  s.modSub_ledger ..

@[simp] theorem State.modGroup_ledger (s : State) (c g : Nat) (f : Group → Group) : (s.modGroup c g f).ledger = s.ledger :=
  s.modCore_ledger c _

@[simp] theorem State.raiseTrap_ledger (s : State) (r : CrewRef) (p : PendingTrap) : (s.raiseTrap r p).ledger = s.ledger :=
  s.modCrew_ledger ..

@[simp] theorem State.dropLd_ledger (s : State) (r : CrewRef) : (s.dropLd r).ledger = s.ledger := s.modSub_ledger ..

@[simp] theorem State.dropHeld_ledger (s : State) (r : CrewRef) : (s.dropHeld r).ledger = s.ledger := by
  unfold State.dropHeld
  split <;> rfl

@[simp] theorem State.orphan_ledger (s : State) (r : CrewRef) : (s.orphan r).ledger = s.ledger := s.dropHeld_ledger r

@[simp] theorem State.orphanPoints_ledger (s : State) (r : CrewRef) : (s.orphanPoints r).ledger = s.ledger := rfl

@[simp] theorem State.forgetRaced_ledger (s : State) (p : Raced → Bool) : (s.forgetRaced p).ledger = s.ledger := rfl

theorem State.forgetRaced_core (s : State) (p : Raced → Bool) (c : Nat) : (s.forgetRaced p).core c = s.core c := rfl

@[simp] theorem State.leaveSlot_ledger (s : State) (r : CrewRef) : (s.leaveSlot r).ledger = s.ledger := by
  simp [State.leaveSlot]

@[simp] theorem State.dropCircuits_ledger (s : State) (c : Nat) (p : Circuit → Bool) :
    (s.dropCircuits c p).ledger = s.ledger :=
  s.modCore_ledger c (fun k => { k with circuits := k.circuits.filter (fun x => !(p x)) })

@[simp] theorem State.dropSubs_ledger (s : State) (c g : Nat) (p : Nat → Bool) : (s.dropSubs c g p).ledger = s.ledger :=
  s.modGroup_ledger c g _

@[simp] theorem State.dropWindows_ledger (s : State) (c g : Nat) : (s.dropWindows c g).ledger = s.ledger := by
  refine foldl_view State.ledger _ (fun st n => ?_) _ s
  split
  · exact st.modCore_ledger _ _
  · rfl

@[simp] theorem State.endHandlers_ledger (s : State) (c l : Nat) : (s.endHandlers c l).ledger = s.ledger := by
  unfold State.endHandlers
  split
  · exact s.modCore_ledger _ _
  · rfl

/-- What a group holds is of its core and of the network (R23, R36). -/
@[simp] theorem State.freeGroup_ledger (s : State) (c g : Nat) : (s.freeGroup c g).ledger = s.ledger := by
  unfold State.freeGroup
  split
  · rfl
  · rw [State.endHandlers_ledger, State.forgetRaced_ledger]
    refine (State.modCore_ledger _ _ _).trans ?_
    rw [foldl_view State.ledger _ State.leaveSlot_ledger, State.dropCircuits_ledger, State.dropWindows_ledger,
      State.dropSubs_ledger]

@[simp] theorem State.killGroup_ledger (s : State) (c g : Nat) : (s.killGroup c g).ledger = s.ledger := by
  unfold State.killGroup
  split
  · rfl
  · rw [State.freeGroup_ledger, foldl_view State.ledger _ State.orphanPoints_ledger]

@[simp] theorem State.killHandlers_ledger (s : State) (c l : Nat) : (s.killHandlers c l).ledger = s.ledger := by
  unfold State.killHandlers
  dsimp only
  refine (State.modCore_ledger _ _ _).trans ?_
  exact foldl_view State.ledger _ (fun st r => by simp) _ s

end Sys2Proof.Machine
end

section
/-! ## A group completes (R23, R31, R41) -/

open Sys2Proof Sys2Proof.Claims

namespace Sys2Proof.Machine

theorem modifyAt_none_getD {α : Type} (l : List (Option α)) (g : Nat) : (modifyAt l g (fun _ => none)).getD g none = none := by
  by_cases h : g < l.length
  · rw [modifyAt_getD_same _ _ _ _ h]
  · rw [List.getD_eq_default _ _ (by simpa using h)]

theorem State.endHandlers_groups (s : State) (c l d : Nat) : ((s.endHandlers c l).core d).groups = (s.core d).groups := by
  unfold State.endHandlers
  split
  · by_cases h : d = c
    · rw [h, core_modCore]
    · rw [core_modCore_ne _ _ _ _ h]
  · rfl

/-- A freed group's slot is empty. -/
theorem State.freeGroup_group (s : State) (c g : Nat) : (s.freeGroup c g).group c g = none := by
  cases h : s.group c g with
  | none => rw [State.freeGroup, h]; exact h
  | some x =>
    rw [State.freeGroup, h, State.group]
    dsimp only
    rw [State.endHandlers_groups]
    rw [State.forgetRaced_core, core_modCore]
    exact modifyAt_none_getD ..

/-- A launch of which groups are still to complete is not done (R41). -/
theorem State.tryDone_of_open {s : State} {i : Nat} {x : Launch} (h : s.launch? i = some x) (hc : x.counter ≠ x.target)
    (hs : x.status ≠ some (1, 0)) : s.tryDone i = s := by
  simp [State.tryDone, h, hc, hs]

theorem State.modLaunch_sameMemory (s : State) (i : Nat) (f : Launch → Launch) : SameMemory s (s.modLaunch i f) :=
  ⟨s.modLaunch_mem i f, fun c => by rw [s.modLaunch_core]; exact ⟨rfl, rfl⟩⟩

theorem execGroupComplete_counts (s : State) (g : Group) (l : Launch) (hg : s.group s.sel.a s.sel.b = some g)
    (hd : s.groupDone s.sel.a s.sel.b = true) (hl : s.launch? g.lslot = some l) (hc : l.counter + 1 ≠ l.target)
    (hs : l.status ≠ some (1, 0)) :
    ∃ t, execGroupComplete s = .next t ∧ SameMemory s t ∧ t.group s.sel.a s.sel.b = none ∧
      t.launch? g.lslot = some { l with counter := l.counter + 1, done := insertUp l.done g.g } := by
  have freed := s.freeGroup_ledger s.sel.a s.sel.b
  have counted : ((s.freeGroup s.sel.a s.sel.b).modLaunch g.lslot (fun l =>
      { l with counter := l.counter + 1, done := insertUp l.done g.g })).launch? g.lslot =
      some { l with counter := l.counter + 1, done := insertUp l.done g.g } := by
    rw [State.launch?_modLaunch, State.launch?_of_sched (State.sched_of_ledger freed), hl]; rfl
  refine ⟨_, by simp only [execGroupComplete, hg, hd, if_true]; rw [State.tryDone_of_open counted hc hs], ?_, ?_, counted⟩
  · exact sameMemory_trans (sameMemory_of_ledger freed) (State.modLaunch_sameMemory ..)
  · rw [State.group, State.modLaunch_core]
    exact s.freeGroup_group _ _

end Sys2Proof.Machine
end

section
/-! ## The end of a context (R29, R303) -/

open Sys2Proof Sys2Proof.Claims

namespace Sys2Proof.Machine

/-! ### Stopping a launch -/

@[simp] theorem State.modGroup_outline (s : State) (c g : Nat) (f : Group → Group) : (s.modGroup c g f).outline = s.outline :=
  s.modCore_outline c _ rfl

@[simp] theorem State.markMet_outline (s : State) (l c : Nat) : (s.markMet l c).outline = s.outline := by
  refine foldl_view State.outline _ (fun st g => ?_) _ s
  (repeat' split) <;> simp

@[simp] theorem State.stopCrew_outline (s : State) (r : CrewRef) : (s.stopCrew r).outline = s.outline := by
  simp [State.stopCrew]

@[simp] theorem State.stopLaunch_outline (s : State) (l : Nat) : (s.stopLaunch l).outline = s.outline := by
  unfold State.stopLaunch
  dsimp only
  rw [foldl_view State.outline _ State.stopCrew_outline, foldl_view State.outline _ fun st c => st.markMet_outline l c]
  exact foldl_view State.outline _ (fun st c => st.modCore_outline c _ rfl) _ s

theorem State.shape_of_outline {s t : State} (h : t.outline = s.outline) (c : Nat) : (t.core c).shape = (s.core c).shape :=
  congrFun (congrArg Outline.shapes h) c

theorem State.sched_of_outline {s t : State} (h : t.outline = s.outline) : t.sched = s.sched := congrArg Outline.sched h

/-- Of cores of one shape the same crew slots are listed. -/
theorem State.HasSlot.congr {s t : State} {r : CrewRef} (h : s.HasSlot r) (hs : (t.core r.core).shape = (s.core r.core).shape) :
    t.HasSlot r := by
  have subs : ∀ k : Core, k.subs.length = k.shape.length := fun k => (List.length_map _).symm
  have crews : ∀ k : Core, (k.sub r.sub).crews.length =
      (k.shape.getD r.sub (Sub.reset.crews.length, Sub.reset.locked)).1 := fun k => by
    rw [Core.shape, List.getD_map]; rfl
  refine ⟨?_, ?_⟩
  · rw [subs, hs, ← subs]
    exact h.sub
  · rw [State.sub, crews, hs, ← crews]
    exact h.slot

/-! ### Causes accepted (R31) -/

/-- The status of a launch that the table lists. -/
def State.statusOf (s : State) (i : Nat) : Option (Option Status) := (s.launch? i).map Launch.status

theorem State.acceptLaunch_shape (s : State) (l : Nat) (st : Status) (c : Nat) :
    ((s.acceptLaunch l st).core c).shape = (s.core c).shape := by
  unfold State.acceptLaunch
  split
  · split
    · rfl
    · rw [State.shape_of_outline (State.stopLaunch_outline ..), State.modLaunch_core]
  · rfl

/-- The first terminating cause fixes a launch's status. -/
theorem State.acceptLaunch_statusOf (s : State) (l : Nat) (st : Status) :
    (s.acceptLaunch l st).statusOf l = (s.statusOf l).map (fun x => x.or (some st)) := by
  unfold State.acceptLaunch State.statusOf
  cases h : s.launch? l with
  | none => simp [h]
  | some x =>
    dsimp only
    split_ifs with hx
    · obtain ⟨v, hv⟩ := Option.isSome_iff_exists.1 hx
      simp [h, hv]
    · rw [State.launch?_of_sched (State.sched_of_outline (State.stopLaunch_outline ..)), State.launch?_modLaunch, h]
      simp [Option.not_isSome_iff_eq_none.1 hx]

theorem State.acceptLaunch_statusOf_ne (s : State) (l i : Nat) (st : Status) (h : i ≠ l) :
    (s.acceptLaunch l st).statusOf i = s.statusOf i := by
  unfold State.acceptLaunch State.statusOf
  split
  · split
    · rfl
    · rw [State.launch?_of_sched (State.sched_of_outline (State.stopLaunch_outline ..)), State.launch?_modLaunch_ne _ _ _ _ h]
  · rfl

/-- Causes accepted one after the other: each launch named takes its own, once. -/
theorem State.acceptLaunches_statusOf (f : Nat → Status) (i : Nat) (ls : List Nat) (s : State) (v : Option Status)
    (h : s.statusOf i = some v) :
    (ls.foldl (fun t l => t.acceptLaunch l (f l)) s).statusOf i = some (if i ∈ ls then v.or (some (f i)) else v) := by
  induction ls generalizing s v with
  | nil => simpa using h
  | cons l ls ih =>
    rw [List.foldl_cons]
    by_cases hl : i = l
    · subst hl
      rw [ih _ (v.or (some (f i))) (by rw [State.acceptLaunch_statusOf, h]; rfl)]
      cases v <;> simp
    · rw [ih _ v ((s.acceptLaunch_statusOf_ne l i _ hl).trans h)]
      simp [hl]

theorem State.modLevel_cores (s : State) (i : Nat) (f : Level → Level) : (s.modLevel i f).cores = s.cores := by
  unfold State.modLevel
  split <;> rfl

theorem State.modLevel_launches (s : State) (i : Nat) (f : Level → Level) :
    (s.modLevel i f).sched.launches = s.sched.launches := by
  unfold State.modLevel
  split <;> rfl

/-- A context's termination gives the launch that trapped its cause, and lists the same crew slots (R303). -/
theorem State.terminateContext_spec (s : State) (ctx i cls : Nat) (l : Launch) (h : s.launch? i = some l) (hc : l.ctx = ctx)
    (hs : l.status = none) :
    (s.terminateContext ctx (some i) cls).statusOf i = some (some (3, cls)) ∧
      ∀ c, ((s.terminateContext ctx (some i) cls).core c).shape = (s.core c).shape := by
  have listed : i ∈ (s.sched.launches.filter (fun x => x.2.ctx == ctx)).map (fun x => x.1) :=
    List.mem_map.2 ⟨(i, l), List.mem_filter.2 ⟨mem_of_tfind h, by simpa using hc⟩, rfl⟩
  have start : s.statusOf i = some none := by rw [State.statusOf, h, ← hs]; rfl
  unfold State.terminateContext
  dsimp only
  refine ⟨?_, fun c => ?_⟩
  · refine (foldl_view (fun t => t.statusOf i) _ (fun t v => ?_) _ _).trans ?_
    · simp only [State.statusOf, State.launch?, State.modLevel_launches]
    · rw [State.acceptLaunches_statusOf _ i _ s none start, if_pos listed]
      simp
  · refine (foldl_view (fun t => (t.core c).shape) _ (fun t v => ?_) _ _).trans ?_
    · simp only [State.core, State.modLevel_cores]
    · exact foldl_view (fun t => (t.core c).shape) _ (fun t l => t.acceptLaunch_shape l _ c) _ s

theorem execContextTerminate_ends (s : State) (cls : Nat) (o : Owner) (l : Launch)
    (hd : (s.crew (selCrew s)).dying = some cls) (ho : (s.crew (selCrew s)).owner = some o)
    (dead : (s.crew (selCrew s)).dead = true) (hl : s.launch? o.lslot = some l) (hc : l.ctx = o.ctx) (hs : l.status = none) :
    ∃ t, execContextTerminate s = .next t ∧ (t.crew (selCrew s)).dying = none ∧ (t.crew (selCrew s)).stopped = true ∧
      (t.launch? o.lslot).map (fun x => x.status) = some (some (3, cls)) := by
  obtain ⟨status, shape⟩ := s.terminateContext_spec o.ctx o.lslot cls l hl hc hs
  have slot : (s.terminateContext o.ctx (some o.lslot) cls).HasSlot (selCrew s) :=
    (State.hasSlot_of_owner ho).congr (shape _)
  refine ⟨(s.terminateContext o.ctx (some o.lslot) cls).modCrew (selCrew s) (fun w => { w with dying := none, stopped := true }),
    ?_, ?_, ?_, status⟩
  · unfold selCrew at hd ho dead ⊢
    simp only [execContextTerminate, hd, ho, dead, if_true]
  · rw [crew_modCrew_of_slot _ _ _ slot]
  · rw [crew_modCrew_of_slot _ _ _ slot]

end Sys2Proof.Machine
end

section
/-! ## Asynchronous causes and timeouts (R304, R332) -/

open Sys2Proof Sys2Proof.Claims

namespace Sys2Proof.Machine

theorem execAsyncTrapDue_delivers (s : State) (c : AsyncCause) (h : lowestCause (s.crew (selCrew s)).async = some c)
    (hp : (s.crew (selCrew s)).pendingTrap = none) (hh : (s.crew (selCrew s)).handling = none)
    (hg : (s.crew (selCrew s)).gambit = none) :
    let of := fun (xs : List (Nat × Addr)) (l : Nat) => ((xs.find? (fun x => x.1 == l)).map (fun x => x.2)).getD 0
    ∃ t, execAsyncTrapDue s = .next t ∧ SameMemory s t ∧ OtherCrewsSame s t (selCrew s) ∧
      PendingIs (t.crew (selCrew s)) c.cls true (c.lanes.lanes.map (fun l => ⟨l, c.cls, c.code, of c.addrs l, of c.auxs l⟩)) := by
  have slot : s.HasSlot (selCrew s) := State.hasSlot_of_ne_idle fun e => by
    rw [e] at h; cases h
  intro of
  unfold selCrew at *
  simp only [execAsyncTrapDue, h, hp, hg, Option.isSome_none, Bool.false_eq_true, if_false]
  refine ⟨_, rfl, sameMemory_of_ledger (by simp), fun q hq => ?_, ?_⟩
  · rw [State.raiseTrap, crew_modCrew_ne _ _ _ _ hq, crew_modCrew_ne _ _ _ _ hq]
  · rw [State.raiseTrap, crew_modCrew_of_slot, crew_modCrew_of_slot _ _ _ slot]
    · simp only [hh, Option.isSome_none, Bool.false_eq_true, if_false]
      exact ⟨_, rfl, rfl, rfl, rfl, rfl⟩
    · exact slot.congr (State.shape_of_outline (State.modCrew_outline ..) _)

/-! ### Timeouts -/

/-- The crews of a state, with its schedule. -/
def State.staff (s : State) : (Nat → List Sub) × Sched := (fun c => (s.core c).subs, s.sched)

theorem State.crew_of_staff {s t : State} (h : t.staff = s.staff) (q : CrewRef) : t.crew q = s.crew q := by
  have subs : (t.core q.core).subs = (s.core q.core).subs := congrFun (congrArg Prod.fst h) q.core
  simp only [State.crew, State.sub, Core.sub, subs]

@[simp] theorem State.putScratch_staff (s : State) (c o : Nat) (bs : List Byte) :
    (s.putBytes (.scratch c o) bs).staff = s.staff := by
  have subs : (fun d => ((s.putBytes (.scratch c o) bs).core d).subs) = fun d => (s.core d).subs := by
    funext d
    rw [State.putBytes]
    by_cases h : d = c
    · rw [h, core_modCore]
    · rw [core_modCore_ne _ _ _ _ h]
  exact congrArg (·, s.sched) subs

/-- The TO bits of barrier objects lie in scratchpads. -/
@[simp] theorem State.markTimeouts_staff (s : State) (r : CrewRef) : (s.markTimeouts r).staff = s.staff := by
  unfold State.markTimeouts
  split
  · rfl
  · exact foldl_view State.staff _ (fun st off => st.putScratch_staff ..) _ s

theorem State.launchOf_of_staff {s t : State} (h : t.staff = s.staff) (r : CrewRef) : t.launchOf r = s.launchOf r := by
  have sched : t.sched = s.sched := congrArg Prod.snd h
  simp only [State.launchOf, State.crew_of_staff h, State.launch?, sched]

/-- No record is written where the launch asks for none or has one. -/
theorem State.writeDiag_none {s : State} {r : CrewRef} (h : ∀ x, s.launchOf r = some x → x.desc.diag = 0 ∨ x.diagWritten = true)
    (a : Await) (l : Nat) : s.writeDiag r a l = s := by
  unfold State.writeDiag
  split
  next x g n hx _ _ =>
    rcases h x hx with hd | hw
    · simp [hd]
    · simp [hw]
  · rfl

theorem State.firstTimeout_lane {s : State} {r : CrewRef} {l : Nat} {a : Await} (h : s.firstTimeout r = some (l, a)) :
    (s.crew r).barrierLanes.getLsbD l = true := by
  obtain ⟨k, hk, e⟩ := List.exists_of_findSome?_eq_some h
  obtain ⟨b, hb, e⟩ := Option.map_eq_some_iff.1 e
  cases e
  rw [Crew.barrierLanes, getLsbD_ofFn _ _ ((mem_allLanes l).1 hk)]
  unfold State.timedOut at hb
  split at hb
  next w since hr =>
    split_ifs at hb with hw
    exact (Bool.and_eq_true_iff.1 hw).1
  · cases hb

/-- The cause that a barrier timeout raises: it concerns the lanes that wait (R297, R332). -/
def Crew.timeoutCause (w : Crew) (code : Nat) : AsyncCause :=
  { cls := 5, code := code, lanes := w.barrierLanes, addrs := [], auxs := [], kept := false, held := false }

/-- What a timeout changes of its crew (R304, R332). -/
def Crew.timesOut (w : Crew) (code now : Nat) : Crew :=
  if w.pendingTrap.isSome then w.restartWaits now else { w with async := w.async ++ [w.timeoutCause code] }

theorem execBarrierTimeout_eq (s : State) (l : Nat) (a : Await) (hd : s.timeoutDue (selCrew s) = true)
    (hf : s.firstTimeout (selCrew s) = some (l, a)) : ∃ code, execBarrierTimeout s =
      .next (((s.markTimeouts (selCrew s)).writeDiag (selCrew s) a l).modCrew (selCrew s) (fun w => w.timesOut code s.cycle)) := by
  unfold selCrew at *
  simp only [execBarrierTimeout, hd, hf, if_true]
  exact ⟨_, rfl⟩

theorem execBarrierTimeout_raises (s : State) (l : Nat) (a : Await) (hd : s.timeoutDue (selCrew s) = true)
    (hf : s.firstTimeout (selCrew s) = some (l, a)) (hp : (s.crew (selCrew s)).pendingTrap = none)
    (hx : ∀ x, s.launchOf (selCrew s) = some x → x.desc.diag = 0 ∨ x.diagWritten = true) :
    ∃ t c, execBarrierTimeout s = .next t ∧ OtherCrewsSame s t (selCrew s) ∧
      (t.crew (selCrew s)).async = (s.crew (selCrew s)).async ++ [c] ∧ c.cls = 5 ∧ c.lanes.getLsbD l = true ∧ c.held = false := by
  have marked := s.markTimeouts_staff (selCrew s)
  have slot : (s.markTimeouts (selCrew s)).HasSlot (selCrew s) := State.hasSlot_of_ne_idle fun e => by
    rw [State.crew_of_staff marked] at e
    rw [State.timeoutDue, e] at hd
    cases hd
  obtain ⟨code, step⟩ := execBarrierTimeout_eq s l a hd hf
  rw [State.writeDiag_none (by rw [State.launchOf_of_staff marked]; exact hx)] at step
  refine ⟨_, (s.crew (selCrew s)).timeoutCause code, step, fun q hq => ?_, ?_, rfl, State.firstTimeout_lane hf, rfl⟩
  · rw [crew_modCrew_ne _ _ _ _ hq, State.crew_of_staff marked]
  · rw [crew_modCrew_of_slot _ _ _ slot, State.crew_of_staff marked, Crew.timesOut, if_neg (by simp [hp])]

end Sys2Proof.Machine
end

section

namespace Sys2Proof

open Machine Claims

/-- Settles O34: the four steps, each by what its operation keeps. -/
theorem groupsCompleteAndContextsEnd : Obligations.GroupsCompleteAndContextsEnd := by
  unfold Obligations.GroupsCompleteAndContextsEnd
  exact ⟨execGroupComplete_counts, execContextTerminate_ends, execAsyncTrapDue_delivers, execBarrierTimeout_raises⟩

end Sys2Proof
end

section
/-! ## What the device's own writes and ends keep of the launch table -/

open Sys2Proof Sys2Proof.Claims

namespace Sys2Proof.Machine

/-- The launch table of a state. -/
def State.launchTable (s : State) : List (Nat × Launch) := s.sched.launches

theorem State.launchTable_of_control {s t : State} (h : t.control = s.control) : t.launchTable = s.launchTable :=
  congrArg (fun k : Control => k.sched.launches) h

theorem State.launchTable_of_ledger {s t : State} (h : t.ledger = s.ledger) : t.launchTable = s.launchTable :=
  congrArg (fun k : Ledger => k.sched.launches) h

@[simp] theorem State.releaseWrite_launchTable (s : State) (pa : Nat) (bs : List Byte) :
    (s.releaseWrite pa bs).launchTable = s.launchTable :=
  State.launchTable_of_control (s.releaseWrite_control pa bs)

@[simp] theorem State.modDie_launchTable (s : State) (d : Nat) (f : DieState → DieState) :
    (s.modDie d f).launchTable = s.launchTable := rfl

theorem State.interrupt_launchTable (s : State) (vec : Nat) : (s.interrupt vec).launchTable = s.launchTable := rfl

theorem State.withPkg_launchTable (s : State) (p : Package) : ({ s with pkg := p } : State).launchTable = s.launchTable := rfl

@[simp] theorem State.logRecord_launchTable (s : State) (type sev cell ctx : Nat) (detail : List Byte) :
    (s.logRecord type sev cell ctx detail).launchTable = s.launchTable := by
  unfold State.logRecord
  dsimp only
  split
  · rfl
  · split
    · rfl
    · rw [State.interrupt_launchTable, State.withPkg_launchTable, State.releaseWrite_launchTable]

@[simp] theorem State.logPlacement_launchTable (s : State) (core event ctx : Nat) (launchId : Word) (g : Nat) :
    (s.logPlacement core event ctx launchId g).launchTable = s.launchTable := by
  unfold State.logPlacement
  dsimp only
  rw [State.modDie_launchTable]
  split <;> simp

@[simp] theorem State.writeRecord_launchTable (s : State) (a : RecAddr) (count target : Nat) (st : Status) (discarded : Nat) :
    (s.writeRecord a count target st discarded).launchTable = s.launchTable := by
  unfold State.writeRecord
  split
  next x hx => exact (State.releaseWrite_launchTable ..).trans (State.launchTable_of_control (s.recPa_control a true hx))
  · rfl

@[simp] theorem State.writeStats_launchTable (s : State) (ctx addr : Nat) (launchId : Word) (counts : List (Nat × Nat)) :
    (s.writeStats ctx addr launchId counts).launchTable = s.launchTable := by
  unfold State.writeStats
  split
  · rfl
  · split
    next x hx =>
      refine (foldl_view State.launchTable _ (fun st r => by simp) _ _).trans ?_
      exact State.launchTable_of_control (s.deviceRuns_control _ _ _ hx)
    · simp

/-- The groups and handlers of a stopped launch end without its entry (R30). -/
theorem State.endGroups_launchTable (s : State) (i : Nat) (l : Launch) : (s.endGroups i l).launchTable = s.launchTable := by
  refine foldl_view State.launchTable _ (fun st c => ?_) _ s
  refine (State.launchTable_of_ledger (State.killHandlers_ledger ..)).trans ?_
  refine foldl_view State.launchTable _ (fun t g => ?_) _ st
  split
  · have killed := State.launchTable_of_ledger (t.killGroup_ledger c g)
    split
    · rw [State.logPlacement_launchTable, killed]
    · exact killed
  · rfl

/-- A launch of no graph that terminates leaves the table, and no other does (R26). -/
theorem State.endLaunch_launchTable {s : State} {i : Nat} {x : Launch} (h : s.launch? i = some x) (hg : x.graph = none)
    (st : Status) : (s.endLaunch i st).launchTable = tdel s.launchTable i := by
  have dropped : ∀ u : State, u.launchTable = s.launchTable → (u.dropLaunch i).launchTable = tdel s.launchTable i :=
    fun u hu => congrArg (fun l => tdel l i) hu
  have none_ : ∀ u : State, (if st.1 == 1 then u.childCounts 4 x.graph else u.acceptUp 4 x.graph st) = u := fun u => by
    rw [hg]
    split <;> rfl
  rw [State.endLaunch, h]
  dsimp only
  rw [none_]
  refine dropped _ ?_
  split <;> simp

theorem execCancelComplete_ends (s : State) (l : Launch) (ha : s.sel.a = 0) (hr : s.cancelReady 0 s.sel.b = true)
    (hl : s.launch? s.sel.b = some l) (hg : l.graph = none) :
    ∃ t, execCancelComplete s = .next t ∧ t.sched.launches = tdel s.sched.launches s.sel.b := by
  have ended := s.endGroups_launchTable s.sel.b l
  refine ⟨(s.endGroups s.sel.b l).endLaunch s.sel.b (l.status.getD (2, 0)), ?_, ?_⟩
  · simp [execCancelComplete, ha, hr, hl]
  · refine (State.endLaunch_launchTable (x := l) ?_ hg _).trans (congrArg (fun m => tdel m s.sel.b) ended)
    exact (congrArg (fun m => tfind m s.sel.b) ended).trans hl

/-! ### Launches that become ready (R423) -/

theorem execLaunchReady_readies (s : State) (l : Launch) (hl : s.launch? s.sel.a = some l) (hr : s.readyDue l = true)
    (hi : l.desc.indirect = false) (ht : l.target ≠ 0) :
    ∃ t, execLaunchReady s = .next t ∧ SameMemory s t ∧ t.launch? s.sel.a = some { l with ready := true } := by
  refine ⟨s.modLaunch s.sel.a (fun _ => { l with ready := true }), ?_, State.modLaunch_sameMemory .., ?_⟩
  · simp [execLaunchReady, hl, hr, hi, State.becomeReady, ht]
  · rw [State.launch?_modLaunch, hl]; rfl

end Sys2Proof.Machine
end

section
/-! ## Records placed (R427, R449) -/

open Sys2Proof Sys2Proof.Claims

namespace Sys2Proof.Machine

theorem State.modDie_sameMemory (s : State) (d : Nat) (f : DieState → DieState) : SameMemory s (s.modDie d f) :=
  ⟨rfl, fun _ => ⟨rfl, rfl⟩⟩

@[simp] theorem State.modDie_core (s : State) (d c : Nat) (f : DieState → DieState) : (s.modDie d f).core c = s.core c := rfl

@[simp] theorem State.die_modDie (s : State) (d : Nat) (f : DieState → DieState) : (s.modDie d f).die d = f (s.die d) := by
  rw [State.modDie, State.die]
  exact tget_tset_same ..

@[simp] theorem State.modLaunch_die (s : State) (i : Nat) (f : Launch → Launch) (d : Nat) :
    (s.modLaunch i f).die d = s.die d := by
  unfold State.modLaunch
  split <;> rfl

theorem State.placeRecord_sameMemory (s : State) (b : BindRecord) (restore : Option (Nat × Nat)) (stolen : Bool) :
    SameMemory s (s.placeRecord b restore stolen) := by
  refine sameMemory_of_ledger ?_
  exact s.modCore_ledger _ _

theorem State.placeRecord_slots (s : State) (b : BindRecord) (restore : Option (Nat × Nat)) (stolen : Bool) :
    ((s.placeRecord b restore stolen).core b.core.toNat).slots = (s.core b.core.toNat).slots ++ [⟨b, restore, stolen⟩] := by
  rw [State.placeRecord, core_modCore]

/-- BINDSTAT written at a die's port. -/
def State.bindStat (s : State) (die n : Nat) : State := s.modDie die (fun d => { d with bindStat := n })

theorem State.die_bindStat (s : State) (die n : Nat) : ((s.bindStat die n).die die).bindStat = n := by
  rw [State.bindStat, State.die_modDie]

theorem execBindRecordWrite_eq (die : Nat) (b : BindRecord) (s : State) : execBindRecordWrite die b s =
    if s.bindCheck die b false != 0 then .next (s.bindStat die (s.bindCheck die b false))
    else .next (((s.bindStat die (s.bindCheck die b false)).placeRecord b none false).modLaunch b.lslot.toNat
      (fun l => { l with bound := l.bound ++ [b.group.toNat] })) := rfl

theorem execBindRecordWrite_places (s : State) (die : Nat) (b : BindRecord) (h : s.bindCheck die b false = 0) (l : Launch)
    (hl : s.launch? b.lslot.toNat = some l) :
    ∃ t, execBindRecordWrite die b s = .next t ∧ SameMemory s t ∧ (t.die die).bindStat = 0 ∧
      (t.core b.core.toNat).slots = (s.core b.core.toNat).slots ++ [⟨b, none, false⟩] ∧
      t.launch? b.lslot.toNat = some { l with bound := l.bound ++ [b.group.toNat] } := by
  rw [execBindRecordWrite_eq, h]
  refine ⟨_, rfl, ?_, ?_, ?_, ?_⟩
  · exact sameMemory_trans (s.modDie_sameMemory _ _)
      (sameMemory_trans (State.placeRecord_sameMemory ..) (State.modLaunch_sameMemory ..))
  · rw [State.modLaunch_die]
    exact s.die_bindStat die 0
  · rw [State.modLaunch_core]
    exact State.placeRecord_slots ..
  · rw [State.launch?_modLaunch]
    exact congrArg (Option.map _) hl

theorem execBindRecordWrite_refuses (s : State) (die : Nat) (b : BindRecord) (h : s.bindCheck die b false ≠ 0) :
    ∃ t, execBindRecordWrite die b s = .next t ∧ SameMemory s t ∧ (t.die die).bindStat = s.bindCheck die b false ∧
      (∀ c, t.core c = s.core c) ∧ t.sched.launches = s.sched.launches := by
  rw [execBindRecordWrite_eq, if_pos (by simpa using h)]
  exact ⟨_, rfl, s.modDie_sameMemory _ _, s.die_bindStat die _, fun _ => rfl, rfl⟩

/-- BINDSTAT of a restore record (R449). -/
def State.restoreStat (s : State) (die : Nat) (r : RestoreRecord) : Nat :=
  let a := if r.mbz != 0 then 1 else s.bindCheck die r.bind true
  if a != 0 then a else s.restoreCheck r

theorem execRestoreRecordWrite_eq (die : Nat) (r : RestoreRecord) (s : State) : execRestoreRecordWrite die r s =
    if s.restoreStat die r != 0 then .next (s.bindStat die (s.restoreStat die r))
    else .next ((s.bindStat die (s.restoreStat die r)).placeRecord r.bind (some (r.image.toNat, r.imglen.toNat)) false) := rfl

theorem execRestoreRecordWrite_places (s : State) (die : Nat) (r : RestoreRecord) (hm : r.mbz = 0)
    (hb : s.bindCheck die r.bind true = 0) (hr : s.restoreCheck r = 0) :
    ∃ t, execRestoreRecordWrite die r s = .next t ∧ SameMemory s t ∧ (t.die die).bindStat = 0 ∧
      (t.core r.bind.core.toNat).slots =
        (s.core r.bind.core.toNat).slots ++ [⟨r.bind, some (r.image.toNat, r.imglen.toNat), false⟩] := by
  have stat : s.restoreStat die r = 0 := by simp [State.restoreStat, hm, hb, hr]
  rw [execRestoreRecordWrite_eq, stat]
  exact ⟨_, rfl, sameMemory_trans (s.modDie_sameMemory _ _) (State.placeRecord_sameMemory ..), s.die_bindStat die 0,
    State.placeRecord_slots ..⟩

theorem execRestoreRecordWrite_refuses (s : State) (die : Nat) (r : RestoreRecord) (hm : r.mbz = 0)
    (hb : s.bindCheck die r.bind true ≠ 0) :
    ∃ t, execRestoreRecordWrite die r s = .next t ∧ SameMemory s t ∧ (t.die die).bindStat = s.bindCheck die r.bind true ∧
      ∀ c, t.core c = s.core c := by
  have stat : s.restoreStat die r = s.bindCheck die r.bind true := by simp [State.restoreStat, hm, hb]
  rw [execRestoreRecordWrite_eq, stat, if_pos (by simpa using hb)]
  exact ⟨_, rfl, s.modDie_sameMemory _ _, s.die_bindStat die _, fun _ => rfl⟩

theorem execLogOverrunClear_clears (s : State) (die : Nat) :
    ∃ t, execLogOverrunClear die 0 s = .next t ∧ SameMemory s t ∧ (t.die die).overrun = false :=
  ⟨s.modDie die (fun d => { d with overrun := false }), rfl, s.modDie_sameMemory _ _, by rw [State.die_modDie]⟩

end Sys2Proof.Machine
end

section
/-! ## Starts of crews leave all of a state but its sub-cores (R11, R39, R428) -/

open Sys2Proof Sys2Proof.Claims

namespace Sys2Proof.Machine

/-- Memory, the schedule, the package, and of each core all but its sub-cores. -/
structure Shell where
  mem : Memory
  sched : Sched
  pkg : Package
  cores : Nat → Core

/-- The shell of a state: what the starts of crews leave alone. -/
def State.shell (s : State) : Shell := ⟨s.mem, s.sched, s.pkg, fun c => { s.core c with subs := [] }⟩

/-- What does not read the sub-cores of a core reads the same of one shell. -/
theorem State.read_of_shell {α : Type} {s t : State} (h : t.shell = s.shell) (c : Nat) (g : Core → α)
    (hg : ∀ k, g { k with subs := [] } = g k := by exact fun _ => rfl) : g (t.core c) = g (s.core c) := by
  have frame : ({ t.core c with subs := [] } : Core) = { s.core c with subs := [] } := congrFun (congrArg Shell.cores h) c
  rw [← hg (t.core c), frame, hg]

theorem sameMemory_of_shell {s t : State} (h : t.shell = s.shell) : SameMemory s t :=
  ⟨congrArg Shell.mem h, fun c => ⟨State.read_of_shell h c Core.scratch, State.read_of_shell h c Core.descs⟩⟩

@[simp] theorem State.modSub_shell (s : State) (c b : Nat) (f : Sub → Sub) : (s.modSub c b f).shell = s.shell := by
  have cores : (fun d => ({ (s.modSub c b f).core d with subs := [] } : Core)) = fun d => { s.core d with subs := [] } := by
    funext d
    obtain ⟨l, e⟩ := modSub_core_subs s c b d f
    rw [e]
  exact congrArg (Shell.mk s.mem s.sched s.pkg) cores

@[simp] theorem State.modCrew_shell (s : State) (r : CrewRef) (f : Crew → Crew) : (s.modCrew r f).shell = s.shell :=
  s.modSub_shell ..

@[simp] theorem State.modKeep_shell (s : State) (r : CrewRef) (f : SlotKeep → SlotKeep) : (s.modKeep r f).shell = s.shell :=
  s.modSub_shell ..

@[simp] theorem State.startHead_shell (s : State) (r : CrewRef) : (s.startHead r).shell = s.shell :=
  (State.modCrew_shell ..).trans rfl

@[simp] theorem State.startCrew_shell (s : State) (r : CrewRef) (o : Owner) (pc : Addr) (args : List Content) :
    (s.startCrew r o pc args).shell = s.shell := by
  simp [State.startCrew]

@[simp] theorem State.clearTraps_shell (s : State) (r : CrewRef) : (s.clearTraps r).shell = s.shell := s.modKeep_shell ..

@[simp] theorem State.raiseTrap_shell (s : State) (r : CrewRef) (p : PendingTrap) : (s.raiseTrap r p).shell = s.shell :=
  s.modCrew_shell ..

@[simp] theorem State.clearHandlers_shell (s : State) (c : Nat) (b : BindRecord) : (s.clearHandlers c b).shell = s.shell := by
  unfold State.clearHandlers
  split
  · rfl
  · exact foldl_view State.shell _ (fun st x => st.clearTraps_shell _) _ s

@[simp] theorem State.startCrews_shell (s : State) (c g : Nat) (l : Launch) (b : BindRecord) :
    (s.startCrews c g l b).shell = s.shell :=
  foldl_view State.shell _ (fun st k => by simp [State.startGroupCrew]) _ s

end Sys2Proof.Machine
end

section
/-! ## Work stealing (R430, R431) -/

open Sys2Proof Sys2Proof.Claims

namespace Sys2Proof.Machine

/-- A record of no image starts afresh: reserved, its crews started, logged, its context seen by the cluster. -/
theorem State.startRecord_fresh {s : State} {c gslot : Nat} {x : SlotRecord} {l : Launch}
    (hl : s.launch? x.bind.lslot.toNat = some l) (hg : s.slotFor c x = some gslot) (hr : x.restore = none) :
    ∃ event f, s.startRecord c x =
      ((((s.clearHandlers c x.bind).reserveRecord c gslot l x.bind).startCrews c gslot l x.bind).logPlacement c event l.ctx
        l.desc.launchId x.bind.group.toNat).modCluster (s.clusterOf c) f := by
  have image : s.recordImage x = none := by rw [State.recordImage, hr]; rfl
  rw [State.startRecord, hl, hg]
  dsimp only
  rw [image]
  exact ⟨_, _, rfl⟩

/-- The slot table of a core, and the core that it has asked for work. -/
def Core.table (k : Core) : List SlotRecord × Option Nat := (k.slots, k.asked)

theorem State.table_of_shell {s t : State} (h : t.shell = s.shell) (c : Nat) : (t.core c).table = (s.core c).table :=
  State.read_of_shell h c Core.table

theorem State.table_of_control {s t : State} (h : t.control = s.control) (c : Nat) : (t.core c).table = (s.core c).table := by
  have unbanked : ∀ k : Core, ({ k with banks := [] } : Core).table = k.table := fun _ => rfl
  rw [← unbanked (t.core c), State.core_of_control h c, unbanked]

theorem State.logPlacement_table (s : State) (core event ctx : Nat) (launchId : Word) (g c : Nat) :
    ((s.logPlacement core event ctx launchId g).core c).table = (s.core c).table := by
  unfold State.logPlacement
  dsimp only
  rw [State.modDie_core]
  split
  · rfl
  · exact State.table_of_control (s.releaseWrite_control ..) c

theorem Core.addHandlers_table (k : Core) (b : BindRecord) : (k.addHandlers b).table = k.table := by
  unfold Core.addHandlers
  split <;> rfl

theorem State.modCore_table (s : State) (c d : Nat) (f : Core → Core) (hf : ∀ k, (f k).table = k.table) :
    ((s.modCore c f).core d).table = (s.core d).table := by
  by_cases h : d = c
  · rw [h, core_modCore, hf]
  · rw [core_modCore_ne _ _ _ _ h]

theorem State.modCluster_core (s : State) (n : Nat) (f : ClusterMark → ClusterMark) (c : Nat) :
    (s.modCluster n f).core c = s.core c := rfl

/-- A record that starts afresh leaves every slot table as it is. -/
theorem State.startRecord_table (s : State) (c : Nat) (x : SlotRecord) (hr : x.restore = none) (d : Nat) :
    ((s.startRecord c x).core d).table = (s.core d).table := by
  cases hl : s.launch? x.bind.lslot.toNat with
  | none => simp only [State.startRecord, hl]
  | some l =>
    cases hg : s.slotFor c x with
    | none => simp only [State.startRecord, hl, hg]
    | some gslot =>
      obtain ⟨event, f, e⟩ := State.startRecord_fresh hl hg hr
      rw [e, State.modCluster_core, State.logPlacement_table, State.table_of_shell (State.startCrews_shell ..),
        State.reserveRecord, State.modCore_table, State.table_of_shell (State.clearHandlers_shell ..)]
      exact fun k => k.addHandlers_table x.bind

theorem State.endHandlers_table (s : State) (c l d : Nat) : ((s.endHandlers c l).core d).table = (s.core d).table := by
  unfold State.endHandlers
  split
  · exact s.modCore_table _ _ _ fun _ => rfl
  · rfl

theorem execStealAttempt_steps (s : State) (h : s.stealDue s.sel.a = true) :
    ∃ t, execStealAttempt s = .next t ∧ SameMemory s t ∧ (t.core s.sel.a).idleSince = s.cycle ∧ (t.core s.sel.a).lfsr =
      lfsrStep (if (s.core s.sel.a).lfsr == 0 then (s.die (s.dieOf s.sel.a)).seed else (s.core s.sel.a).lfsr) := by
  simp only [execStealAttempt, h, if_true]
  refine ⟨_, rfl, sameMemory_of_ledger ?_, ?_, ?_⟩
  · exact s.modCore_ledger _ _
  · rw [core_modCore]
  · rw [core_modCore]

theorem execStealRequest_moves (s : State) (x y : SlotRecord) (ha : (s.core s.sel.b).asked = some s.sel.a)
    (hne : s.sel.a ≠ s.sel.b) :
    let u := s.modCore s.sel.b (fun k => { k with asked := none })
    (u.pending s.sel.a).reverse.findSome? (fun x => (u.stealable s.sel.a s.sel.b x).map (fun y => (x, y))) = some (x, y) →
    y.restore = none →
    ∃ t, execStealRequest s = .next t ∧ (t.core s.sel.a).slots = (s.core s.sel.a).slots.erase x ∧
      (t.core s.sel.b).slots = (s.core s.sel.b).slots ++ [y] ∧ (t.core s.sel.b).asked = none := by
  intro u hf hr
  let v := (u.dropRecord s.sel.a x).modCore s.sel.b (fun k => { k with slots := k.slots ++ [y] })
  have step : execStealRequest s = .next (v.startRecord s.sel.b y) := by
    unfold execStealRequest
    dsimp only
    rw [if_neg (by simp [ha]), hf]
  have victim : ((v.startRecord s.sel.b y).core s.sel.a).table = ((s.core s.sel.a).slots.erase x, (s.core s.sel.a).asked) := by
    rw [State.startRecord_table _ _ _ hr, core_modCore_ne _ _ _ _ hne, State.dropRecord, State.endHandlers_table, core_modCore,
      core_modCore_ne _ _ _ _ hne]
    rfl
  have thief : ((v.startRecord s.sel.b y).core s.sel.b).table = ((s.core s.sel.b).slots ++ [y], none) := by
    have before : ((u.dropRecord s.sel.a x).core s.sel.b).table = ((s.core s.sel.b).slots, none) := by
      rw [State.dropRecord, State.endHandlers_table, core_modCore_ne _ _ _ _ hne.symm, core_modCore]
      rfl
    obtain ⟨slots, asked⟩ := Prod.mk.inj before
    rw [State.startRecord_table _ _ _ hr, core_modCore, Core.table, slots, asked]
  exact ⟨_, step, congrArg Prod.fst victim, congrArg Prod.fst thief, congrArg Prod.snd thief⟩

end Sys2Proof.Machine
end

section

namespace Sys2Proof

open Machine Claims

/-- Settles O43: the seven steps, each by what its operation keeps. -/
theorem launchesAndRecords : Obligations.LaunchesAndRecords := by
  unfold Obligations.LaunchesAndRecords
  refine ⟨execLaunchReady_readies, execCancelComplete_ends, fun s die b => ⟨execBindRecordWrite_places s die b,
    execBindRecordWrite_refuses s die b⟩, fun s die r hm => ⟨execRestoreRecordWrite_places s die r hm,
    execRestoreRecordWrite_refuses s die r hm⟩, execStealAttempt_steps, execStealRequest_moves, execLogOverrunClear_clears⟩

end Sys2Proof
end

section
/-! ## The start of a crew (R11, R39)

A crew that starts has its registers from the sub-core's register file, every thread READY at one address, and one region. -/

open Sys2Proof Sys2Proof.Claims

namespace Sys2Proof.Machine

/-- A change of a sub-core that changes one slot's crew at most changes no other. -/
theorem crew_modSub_slot_ne (s : State) (r q : CrewRef) (f : Sub → Sub)
    (hf : ∀ x, ∃ g, (f x).crews = modifyAt x.crews r.slot g) (h : q ≠ r) :
    (s.modSub r.core r.sub f).crew q = s.crew q := by
  rw [State.crew, State.crew]
  rcases sub_modSub_cases s r.core r.sub q.core q.sub f with e | ⟨hc, hb, e⟩ <;> rw [e]
  obtain ⟨g, hg⟩ := hf (s.sub q.core q.sub)
  rw [Sub.crew, hg]
  refine modifyAt_getD_ne _ _ _ _ _ fun hs => h ?_
  cases q
  cases r
  simp_all

/-! ### The start map -/

theorem modifyAt_modifyAt {α : Type} (l : List α) (n : Nat) (f g : α → α) :
    modifyAt (modifyAt l n f) n g = modifyAt l n (fun x => g (f x)) := by
  induction l generalizing n with
  | nil => rfl
  | cons a r ih => cases n <;> simp [modifyAt, ih]

/-- A sub-core in which one slot's map is another one. -/
structure Sub.Remapped (b x : Sub) (slot : Nat) (m : List PhysReg) : Prop where
  crews : x.crews = modifyAt b.crews slot (fun w => { w with map := m })
  locked : x.locked = b.locked

/-- A register of a slot's map given a content. -/
def Sub.putMap (b : Sub) (slot k : Nat) (c : Content) : Sub :=
  { b with crews := modifyAt b.crews slot (fun w => { w with map := modifyAt w.map k (fun _ => (b.register c).1) }) }

theorem Sub.Remapped.putMap {b x : Sub} {slot : Nat} {m : List PhysReg} (h : b.Remapped x slot m) (k : Nat) (c : Content) :
    b.Remapped (x.putMap slot k c) slot (modifyAt m k (fun _ => (x.register c).1)) :=
  ⟨by rw [Sub.putMap, h.crews, modifyAt_modifyAt], h.locked⟩

/-- The map of a slot holds the contents given for the first registers, and no other is named. -/
def Sub.Given (b x : Sub) (slot : Nat) (args : List Content) (n : Nat) : Prop :=
  ∃ m, b.Remapped x slot m ∧ m.length = 64 ∧
    ∀ k, k < n → (m.getD k PhysReg.none_).content = args.getD k zeroContent

theorem Sub.given_args (b x : Sub) (slot : Nat) (args : List Content) (n : Nat) (hn : n ≤ 64) (h : b.Given x slot args 0) :
    b.Given ((upTo n).foldl (fun x k => x.putMap slot k (args.getD k zeroContent)) x) slot args n := by
  induction n with
  | zero => exact h
  | succ n ih =>
    obtain ⟨m, remapped, len, holds⟩ := ih (by omega)
    rw [upTo, List.range_succ, List.foldl_append]
    refine ⟨_, remapped.putMap n (args.getD n zeroContent), by simpa using len, fun k hk => ?_⟩
    by_cases e : k = n
    · rw [e, modifyAt_getD_same _ _ _ _ (by omega)]
      exact register_content ..
    · rw [modifyAt_getD_ne _ _ _ _ _ e]
      exact holds k (by omega)

theorem Sub.startMap_eq (b : Sub) (slot : Nat) (args : List Content) :
    let b1 := (upTo args.length).foldl (fun x k => x.putMap slot k (args.getD k zeroContent))
      { b with crews := modifyAt b.crews slot (fun w => { w with map := List.replicate 64 PhysReg.none_ }) }
    b.startMap slot args = { b1 with crews := modifyAt b1.crews slot (fun w =>
      { w with map := w.map.take args.length ++ List.replicate (32 - args.length) (b1.register zeroContent).1 ++
                      List.replicate 32 PhysReg.none_ }) } := rfl

/-- The start map holds what is given, and zero in the other base registers (R11, R188). -/
theorem Sub.startMap_spec (b : Sub) (slot : Nat) (args : List Content) (hn : args.length ≤ 32) :
    ∃ m, b.Remapped (b.startMap slot args) slot m ∧
      ∀ k, k < 32 → (m.getD k PhysReg.none_).content = args.getD k zeroContent := by
  have empty : b.Given { b with crews := modifyAt b.crews slot (fun w => { w with map := List.replicate 64 PhysReg.none_ }) }
      slot args 0 := ⟨_, ⟨rfl, rfl⟩, List.length_replicate, nofun⟩
  obtain ⟨m, remapped, len, holds⟩ := b.given_args _ slot args args.length (by omega) empty
  rw [Sub.startMap_eq]
  generalize (upTo args.length).foldl _ _ = x at remapped ⊢
  refine ⟨m.take args.length ++ List.replicate (32 - args.length) (x.register zeroContent).1 ++ List.replicate 32 PhysReg.none_,
    ⟨by rw [remapped.crews, modifyAt_modifyAt], remapped.locked⟩, fun k hk => ?_⟩
  rw [List.getD_append _ _ _ _ (by simp; omega)]
  by_cases h : k < args.length
  · rw [List.getD_append _ _ _ _ (by simp; omega), ← holds k h]
    simp [List.getD_eq_getElem?_getD, h]
  · rw [List.getD_append_right _ _ _ _ (by simp; omega), List.getD_eq_default args _ (by omega), List.getD_eq_getElem?_getD,
      List.getElem?_replicate, if_pos (by simp; omega)]
    exact register_content ..

/-! ### A crew that has started -/

/-- A crew as it is put in its slot. -/
def Crew.placed (o : Owner) (pc : Addr) (now : Nat) : Crew :=
  { Crew.idle with owner := some o, threads := List.replicate 32 (startThread pc), lastIssue := now }

/-- A crew as it starts, with its map and its region. -/
def Crew.starting (o : Owner) (pc : Addr) (now : Nat) (m : List PhysReg) (g : Region) : Crew :=
  { Crew.placed o pc now with map := m, regions := [g], pinned := BitVec.allOnes 64, retired := 0 }

theorem State.startCrew_eq (s : State) (r : CrewRef) (o : Owner) (pc : Addr) (args : List Content) :
    s.startCrew r o pc args = ((s.modCrew r (fun _ => Crew.placed o pc s.cycle)).modSub r.core r.sub
      (fun b => b.startMap r.slot args)).startHead r := rfl

/-- Making a start map leaves the shape of the cores. -/
theorem State.startMap_outline (s : State) (r : CrewRef) (args : List Content) (hn : args.length ≤ 32) :
    (s.modSub r.core r.sub (fun b => b.startMap r.slot args)).outline = s.outline := by
  refine s.modSub_outline _ _ _ (fun b => ?_) fun b => ?_ <;> obtain ⟨m, remapped, -⟩ := b.startMap_spec r.slot args hn
  · rw [remapped.crews, modifyAt_length]
  · exact remapped.locked

theorem State.startCrew_outline (s : State) (r : CrewRef) (o : Owner) (pc : Addr) (args : List Content)
    (hn : args.length ≤ 32) : (s.startCrew r o pc args).outline = s.outline := by
  rw [State.startCrew, State.startHead, State.modCrew_outline, State.fresh_outline, State.startMap_outline _ _ _ hn,
    State.modCrew_outline]

theorem State.HasSlot.of_outline {s t : State} {r : CrewRef} (h : s.HasSlot r) (e : t.outline = s.outline) : t.HasSlot r :=
  h.congr (State.shape_of_outline e _)

/-- What a started crew is (R11, R39). -/
theorem State.startCrew_crew (s : State) (r : CrewRef) (o : Owner) (pc : Addr) (args : List Content) (h : s.HasSlot r)
    (hn : args.length ≤ 32) : ∃ m g, (s.startCrew r o pc args).crew r = Crew.starting o pc s.cycle m g ∧
      ∀ k, k < 32 → (m.getD k PhysReg.none_).content = args.getD k zeroContent := by
  have placed := crew_modCrew_of_slot s r (fun _ => Crew.placed o pc s.cycle) h
  have h1 := h.of_outline (s.modCrew_outline r (fun _ => Crew.placed o pc s.cycle))
  rw [State.startCrew_eq]
  generalize s.modCrew r _ = u at placed h1 ⊢
  have h2 := h1.of_outline (u.startMap_outline r args hn)
  obtain ⟨m, remapped, holds⟩ := (u.sub r.core r.sub).startMap_spec r.slot args hn
  have mapped : (u.modSub r.core r.sub (fun b => b.startMap r.slot args)).crew r = { u.crew r with map := m } := by
    rw [State.crew, sub_modSub _ _ _ _ h1.sub, Sub.crew, remapped.crews, modifyAt_getD_same _ _ _ _ h1.slot]
    rfl
  generalize u.modSub r.core r.sub _ = v at mapped h2 ⊢
  refine ⟨m, Region.open_ v.fresh.1 v.cycle ((v.crew r).snapshot (v.keep r).side), ?_, holds⟩
  have head : (v.startHead r).crew r = { v.crew r with
      regions := [Region.open_ v.fresh.1 v.cycle ((v.crew r).snapshot (v.keep r).side)], pinned := BitVec.allOnes 64
      retired := 0 } := crew_modCrew_of_slot v.fresh.2 r _ ⟨h2.sub, h2.slot⟩
  rw [head]
  simp only [mapped, placed]
  rfl

/-- A started crew's threads. -/
theorem Crew.starting_thread (o : Owner) (pc : Addr) (now : Nat) (m : List PhysReg) (g : Region) (l : Nat) (h : l < 32) :
    (Crew.starting o pc now m g).thread l = startThread pc := by
  exact List.getD_replicate _ h

/-- A crew that is as one that started has started. -/
theorem started_of_crew {t : State} {r : CrewRef} {o : Owner} {pc : Addr} {now : Nat} {args : List Content}
    {m : List PhysReg} {g : Region} {p : Option PendingTrap}
    (h : t.crew r = { Crew.starting o pc now m g with pendingTrap := p })
    (hm : ∀ k, k < 32 → (m.getD k PhysReg.none_).content = args.getD k zeroContent) : Started t r o pc args := by
  have thread : ∀ l, l < 32 → (t.crew r).thread l = startThread pc := fun l hl =>
    (congrArg (fun w : Crew => w.thread l) h).trans (Crew.starting_thread o pc now m g l hl)
  refine ⟨by rw [h]; rfl, fun l hl => ?_, fun k l hk _ => ?_, by rw [h]; rfl, by rw [h]; rfl, by rw [h]; rfl, by rw [h]; rfl,
    by rw [h]; rfl, by rw [h]; rfl⟩
  · rw [thread l hl]
    exact ⟨rfl, rfl, rfl, rfl⟩
  · rw [← hm k hk, h]
    rfl

theorem State.startCrew_started (s : State) (r : CrewRef) (o : Owner) (pc : Addr) (args : List Content) (h : s.HasSlot r)
    (hn : args.length ≤ 32) : Started (s.startCrew r o pc args) r o pc args := by
  obtain ⟨m, g, e, holds⟩ := s.startCrew_crew r o pc args h hn
  exact started_of_crew e holds

/-- A crew's start changes no other crew. -/
theorem State.startCrew_crew_ne (s : State) (r q : CrewRef) (o : Owner) (pc : Addr) (args : List Content)
    (hn : args.length ≤ 32) (hq : q ≠ r) : (s.startCrew r o pc args).crew q = s.crew q := by
  rw [State.startCrew_eq, State.startHead, crew_modCrew_ne _ _ _ _ hq]
  refine (crew_modSub_slot_ne _ r q _ (fun b => ?_) hq).trans (crew_modCrew_ne _ _ _ _ hq)
  obtain ⟨m, remapped, -⟩ := b.startMap_spec r.slot args hn
  exact ⟨_, remapped.crews⟩

theorem started_congr {s t : State} {r : CrewRef} {o : Owner} {pc : Addr} {args : List Content} (h : Started s r o pc args)
    (e : t.crew r = s.crew r) : Started t r o pc args := by
  constructor <;> rw [e]
  exacts [h.owner, h.ready, h.regs, h.region, h.gambit, h.point, h.mode, h.turn, h.ext]

end Sys2Proof.Machine
end

section
/-! ## The start of a record (R11, R426, R428) -/

open Sys2Proof Sys2Proof.Claims

namespace Sys2Proof.Machine

theorem slotsOf_nodup (x : Nat) : (slotsOf x).Nodup := by
  refine List.Nodup.map_on (fun a _ b _ e => ?_) (List.nodup_range.filter _)
  obtain ⟨hd, hm⟩ := Prod.mk.inj e
  omega

/-- The owner of a group's crew, by its place in the group. -/
def crewOwner (l : Launch) (b : BindRecord) (gslot k : Nat) : Owner :=
  { ctx := l.ctx, lslot := b.lslot.toNat, gslot := some gslot, index := k }

/-- What a group's crews are given: the argument block's address (R11). -/
def Launch.groupArgs (l : Launch) : List Content :=
  [sameWord (l.desc.args.setWidth 32), sameWord ((l.desc.args >>> 32).setWidth 32)]

/-- One crew of a group that starts afresh. -/
def State.startAt (s : State) (core gslot : Nat) (l : Launch) (b : BindRecord) (k : Nat) : State :=
  let x := (slotsOf b.crews.toNat).getD k (0, 0)
  (s.clearTraps ⟨core, x.1, x.2⟩).startCrew ⟨core, x.1, x.2⟩ (crewOwner l b gslot k) (l.imageAt l.header.entry) l.groupArgs

theorem State.startCrews_eq (s : State) (core gslot : Nat) (l : Launch) (b : BindRecord) :
    s.startCrews core gslot l b =
      (upTo (slotsOf b.crews.toNat).length).foldl (fun st k => st.startAt core gslot l b k) s := rfl

theorem State.clearTraps_outline (s : State) (r : CrewRef) : (s.clearTraps r).outline = s.outline :=
  s.modSub_outline _ _ _ (fun _ => rfl) fun _ => rfl

theorem State.clearTraps_crew (s : State) (r q : CrewRef) : (s.clearTraps r).crew q = s.crew q :=
  crew_modSub_same s _ _ _ q fun _ => rfl

theorem State.startAt_outline (s : State) (core gslot : Nat) (l : Launch) (b : BindRecord) (k : Nat) :
    (s.startAt core gslot l b k).outline = s.outline :=
  (State.startCrew_outline _ _ _ _ _ (by simp [Launch.groupArgs])).trans (s.clearTraps_outline _)

/-- The group's crews start one after the other, none in another's slot. -/
theorem State.startAts_started (s : State) (core gslot : Nat) (l : Launch) (b : BindRecord)
    (hs : ∀ c ∈ slotsOf b.crews.toNat, s.HasSlot ⟨core, c.1, c.2⟩) (n : Nat) (hn : n ≤ (slotsOf b.crews.toNat).length) :
    ∀ k c, k < n → (slotsOf b.crews.toNat)[k]? = some c →
      Started ((upTo n).foldl (fun st k => st.startAt core gslot l b k) s) ⟨core, c.1, c.2⟩ (crewOwner l b gslot k)
        (l.imageAt l.header.entry) l.groupArgs := by
  induction n with
  | zero => nofun
  | succ n ih =>
    intro k c hk hc
    have outline : ((upTo n).foldl (fun st k => st.startAt core gslot l b k) s).outline = s.outline :=
      foldl_view State.outline _ (fun st k => st.startAt_outline ..) _ s
    rw [upTo, List.range_succ, List.foldl_append, List.foldl_cons, List.foldl_nil]
    by_cases e : k = n
    · subst e
      have at_ : (slotsOf b.crews.toNat).getD k (0, 0) = c := by rw [List.getD_eq_getElem?_getD, hc]; rfl
      rw [State.startAt, at_]
      exact State.startCrew_started _ _ _ _ _
        (((hs c (List.mem_of_getElem? hc)).of_outline outline).of_outline (State.clearTraps_outline ..))
        (by simp [Launch.groupArgs])
    · refine started_congr (ih (by omega) k c (by omega) hc) ?_
      refine (State.startCrew_crew_ne _ _ _ _ _ _ (by simp [Launch.groupArgs]) fun same => e ?_).trans
        (State.clearTraps_crew ..)
      have eq : c = (slotsOf b.crews.toNat).getD n (0, 0) := by
        simp only [CrewRef.mk.injEq] at same
        exact Prod.ext same.2.1 same.2.2
      have hn' : n < (slotsOf b.crews.toNat).length := by omega
      rw [List.getD_eq_getElem _ _ hn'] at eq
      exact (List.getElem?_inj (by omega) (slotsOf_nodup _)).1 (hc.trans (by rw [eq, List.getElem?_eq_getElem hn']))

/-! ### What a record reserves -/

theorem Sub.reserve_crews (b : Sub) (gslot : Nat) : (b.reserve gslot).crews = b.crews := by
  unfold Sub.reserve
  split <;> rfl

theorem Core.addHandlers_fields (k : Core) (b : BindRecord) :
    (k.addHandlers b).scratch = k.scratch ∧ (k.addHandlers b).descs = k.descs := by
  unfold Core.addHandlers
  split <;> exact ⟨rfl, rfl⟩

theorem State.reserveRecord_ledger (s : State) (core gslot : Nat) (l : Launch) (b : BindRecord) :
    (s.reserveRecord core gslot l b).ledger = s.ledger :=
  s.modCore_ledger core _ fun k => k.addHandlers_fields b

theorem State.reserveRecord_group (s : State) (core gslot : Nat) (l : Launch) (b : BindRecord)
    (h : gslot < (s.core core).groups.length) :
    (s.reserveRecord core gslot l b).group core gslot = some (groupOfRecord l b) := by
  rw [State.group, State.reserveRecord, core_modCore]
  exact modifyAt_getD_same _ _ _ _ h

theorem State.HasSlot.reserveRecord {s : State} {core c k : Nat} (h : s.HasSlot ⟨core, c, k⟩) (gslot : Nat) (l : Launch)
    (b : BindRecord) : (s.reserveRecord core gslot l b).HasSlot ⟨core, c, k⟩ := by
  have subs : ((s.reserveRecord core gslot l b).core core).subs = (upTo (s.core core).subs.length).map (fun i =>
      if bit b.xsub.toNat i then ((s.core core).sub i).reserve gslot else (s.core core).sub i) := by
    rw [State.reserveRecord, core_modCore]
  refine ⟨?_, ?_⟩
  · rw [subs, List.length_map, upTo, List.length_range]
    exact h.sub
  · have hc : c < (upTo (s.core core).subs.length).length := by rw [upTo, List.length_range]; exact h.sub
    rw [State.sub, Core.sub, subs, List.getD_eq_getElem?_getD, List.getElem?_map, List.getElem?_eq_getElem hc]
    simp only [upTo, List.getElem_range, Option.map_some, Option.getD_some]
    split
    · rw [Sub.reserve_crews]; exact h.slot
    · exact h.slot

theorem State.clearHandlers_outline (s : State) (core : Nat) (b : BindRecord) :
    (s.clearHandlers core b).outline = s.outline := by
  unfold State.clearHandlers
  split
  · rfl
  · exact foldl_view State.outline _ (fun st x => st.clearTraps_outline _) _ s

/-! ### The log off -/

/-- With no placement log an entry only counts (R429). -/
theorem State.logPlacement_off {s : State} {core : Nat} (h : (s.die (s.dieOf core)).logSize = 0) (event ctx : Nat)
    (launchId : Word) (g : Nat) : ∃ f, s.logPlacement core event ctx launchId g = s.modDie (s.dieOf core) f := by
  rw [State.logPlacement]
  simp only [h]
  exact ⟨_, rfl⟩

theorem State.die_of_shell {s t : State} (h : t.shell = s.shell) (core : Nat) :
    t.die (t.dieOf core) = s.die (s.dieOf core) := by
  have sched : t.sched = s.sched := congrArg Shell.sched h
  have pkg : t.pkg = s.pkg := congrArg Shell.pkg h
  simp only [State.die, State.dieOf, State.physCore, sched, pkg]

theorem State.modCluster_crew (s : State) (n : Nat) (f : ClusterMark → ClusterMark) (q : CrewRef) :
    (s.modCluster n f).crew q = s.crew q := rfl

theorem State.modCluster_sameMemory (s : State) (n : Nat) (f : ClusterMark → ClusterMark) : SameMemory s (s.modCluster n f) :=
  ⟨rfl, fun _ => ⟨rfl, rfl⟩⟩

theorem State.modDie_crew (s : State) (d : Nat) (f : DieState → DieState) (q : CrewRef) : (s.modDie d f).crew q = s.crew q := rfl

theorem execRecordStart_starts (s : State) (core gslot : Nat) (x : SlotRecord) (l : Launch)
    (hp : s.startPlan s.sel.a = [(core, x)]) (hl : s.launch? x.bind.lslot.toNat = some l)
    (hg : s.slotFor core x = some gslot) (hr : x.restore = none) (log : (s.die (s.dieOf core)).logSize = 0)
    (room : gslot < (s.core core).groups.length)
    (hs : ∀ c ∈ slotsOf x.bind.crews.toNat, c.1 < (s.core core).subs.length ∧ c.2 < (s.sub core c.1).crews.length) :
    ∃ t, execRecordStart s = .next t ∧ SameMemory s t ∧ t.group core gslot = some (groupOfRecord l x.bind) ∧
      ∀ k c, (slotsOf x.bind.crews.toNat)[k]? = some c →
        Started t ⟨core, c.1, c.2⟩ { ctx := l.ctx, lslot := x.bind.lslot.toNat, gslot := some gslot, index := k }
          (l.imageAt l.header.entry)
          [sameWord (l.desc.args.setWidth 32), sameWord ((l.desc.args >>> 32).setWidth 32)] := by
  obtain ⟨event, f, e⟩ := State.startRecord_fresh hl hg hr
  have step : execRecordStart s = .next (s.startRecord core x) := by rw [execRecordStart, hp]; rfl
  have cleared := s.clearHandlers_shell core x.bind
  let u := (s.clearHandlers core x.bind).reserveRecord core gslot l x.bind
  have crews := u.startCrews_shell core gslot l x.bind
  have logOff : ((u.startCrews core gslot l x.bind).die ((u.startCrews core gslot l x.bind).dieOf core)).logSize = 0 :=
    (congrArg DieState.logSize ((State.die_of_shell crews core).trans (State.die_of_shell cleared core))).trans log
  obtain ⟨d, hd⟩ := State.logPlacement_off logOff event l.ctx l.desc.launchId x.bind.group.toNat
  refine ⟨_, step, ?_⟩
  rw [e, hd]
  refine ⟨?_, ?_, fun k c hc => started_congr ?_ (State.modCluster_crew ..)⟩
  · exact sameMemory_trans (sameMemory_of_shell cleared)
      (sameMemory_trans (sameMemory_of_ledger (State.reserveRecord_ledger ..)) (sameMemory_trans (sameMemory_of_shell crews)
        (sameMemory_trans (State.modDie_sameMemory ..) (State.modCluster_sameMemory ..))))
  · rw [State.group, State.modCluster_core, State.modDie_core]
    rw [State.read_of_shell crews core (fun k => k.groups.getD gslot none)]
    refine State.reserveRecord_group _ _ _ _ _ ?_
    rw [State.read_of_shell cleared core (fun k => k.groups.length)]
    exact room
  · refine started_congr ?_ (State.modDie_crew ..)
    rw [State.startCrews_eq]
    refine State.startAts_started u core gslot l x.bind (fun q hq => ?_) _ le_rfl k c (List.getElem?_eq_some_iff.1 hc).1 hc
    obtain ⟨sub, slot⟩ := hs q hq
    exact State.HasSlot.reserveRecord (State.HasSlot.of_outline ⟨sub, slot⟩ (s.clearHandlers_outline core x.bind)) ..

end Sys2Proof.Machine
end

section
/-! ## Handler crews and extended blocks (R36, R39, R190) -/

open Sys2Proof Sys2Proof.Claims

namespace Sys2Proof.Machine

/-! ### Handler crews -/

theorem State.l1Remove_core (s : State) (c : Nat) (hit : Nat → Bool) (d : Nat) :
    (s.l1Remove c hit).core d = (s.modCore c (fun k => { k with l1 := k.l1.filter (fun x => !(hit x.line)) })).core d := rfl

/-- An applied signature changes of a core its accumulators and its L1. -/
theorem State.acquire_core (s : State) (core : Nat) (g : Sig) (c : Nat) :
    ∃ acc l1, (s.acquire core g).core c = { s.core c with acc := acc, l1 := l1 } := by
  rw [State.acquire, State.l1Remove_core]
  by_cases h : c = core
  · rw [h, core_modCore, core_modCore]
    exact ⟨_, _, rfl⟩
  · rw [core_modCore_ne _ _ _ _ h, core_modCore_ne _ _ _ _ h]
    exact ⟨_, _, rfl⟩

theorem State.acquire_sameMemory (s : State) (core : Nat) (g : Sig) : SameMemory s (s.acquire core g) := by
  refine ⟨rfl, fun c => ?_⟩
  obtain ⟨acc, l1, e⟩ := s.acquire_core core g c
  rw [e]
  exact ⟨rfl, rfl⟩

/-- The state in which a handler's entry is taken, before its crew starts (R39, R377). -/
def State.takeEntry (s : State) (core n : Nat) (m : Message) : State :=
  (s.modCore core (fun k => { k with inbound := k.inbound.eraseIdx n })).acquire core m.sig

theorem State.takeEntry_sameMemory (s : State) (core n : Nat) (m : Message) : SameMemory s (s.takeEntry core n m) := by
  refine sameMemory_trans (sameMemory_of_ledger ?_) (State.acquire_sameMemory ..)
  exact s.modCore_ledger _ _

theorem State.takeEntry_inbound (s : State) (core n : Nat) (m : Message) :
    ((s.takeEntry core n m).core core).inbound = (s.core core).inbound.eraseIdx n := by
  obtain ⟨acc, l1, e⟩ := (s.modCore core (fun k => { k with inbound := k.inbound.eraseIdx n })).acquire_core core m.sig core
  rw [State.takeEntry, e, core_modCore]

theorem State.takeEntry_subs (s : State) (core n : Nat) (m : Message) (c : Nat) :
    ((s.takeEntry core n m).core c).subs = (s.core c).subs := by
  obtain ⟨acc, l1, e⟩ := (s.modCore core (fun k => { k with inbound := k.inbound.eraseIdx n })).acquire_core core m.sig c
  rw [State.takeEntry, e]
  by_cases h : c = core
  · rw [h, core_modCore]
  · rw [core_modCore_ne _ _ _ _ h]

theorem State.HasSlot.takeEntry {s : State} {r : CrewRef} (h : s.HasSlot r) (core n : Nat) (m : Message) :
    (s.takeEntry core n m).HasSlot r := by
  have subs := s.takeEntry_subs core n m r.core
  exact ⟨by rw [subs]; exact h.sub, by rw [State.sub, Core.sub, subs]; exact h.slot⟩

/-- The owner of a handler crew that a message starts (R39). -/
def handlerOwner (l : Launch) (m : Message) (j : Nat) : Owner := { ctx := l.ctx, lslot := m.lslot, gslot := none, index := j }

/-- What a handler crew is given: the payload, the sender, the sequence number (R39). -/
def Message.args (m : Message) : List Content :=
  [contentOf (fun i => m.payload.getD i 0), sameWord (BitVec.ofNat 32 m.src), sameWord (BitVec.ofNat 32 m.seq)]

theorem State.startEntry_eq {s : State} {core n j : Nat} {m : Message} {r : CrewRef} {l : Launch}
    (hl : s.launch? m.lslot = some l) :
    let u := (s.takeEntry core n m).startCrew r (handlerOwner l m j) (l.imageAt (l.header.handlers.getD m.handler 0)) m.args
    s.startEntry core (n, m, r, j) = u ∨ ∃ p, s.startEntry core (n, m, r, j) = u.raiseTrap r p := by
  rw [State.startEntry]
  dsimp only
  rw [hl]
  dsimp only
  split
  · exact .inl rfl
  · exact .inr ⟨_, rfl⟩

/-- A trap raised at its start leaves a crew started. -/
theorem State.raiseTrap_started {s : State} {r : CrewRef} {o : Owner} {pc : Addr} {now : Nat} {args : List Content}
    {m : List PhysReg} {g : Region} (h : s.crew r = Crew.starting o pc now m g)
    (hm : ∀ k, k < 32 → (m.getD k PhysReg.none_).content = args.getD k zeroContent) (hs : s.HasSlot r) (p : PendingTrap) :
    Started (s.raiseTrap r p) r o pc args := by
  refine started_of_crew (now := now) (g := g) (p := some p) ?_ hm
  rw [State.raiseTrap, crew_modCrew_of_slot _ _ _ hs, h]
  rfl

theorem execHandlerCrewStart_starts (s : State) (n : Nat) (m : Message) (r : CrewRef) (j : Nat) (l : Launch)
    (hd : s.handlerDue s.sel.a = some (n, m, r, j)) (hl : s.launch? m.lslot = some l)
    (sub : r.sub < (s.core r.core).subs.length) (slot : r.slot < (s.sub r.core r.sub).crews.length) :
    ∃ t, execHandlerCrewStart s = .next t ∧ SameMemory s t ∧
      (t.core s.sel.a).inbound = (s.core s.sel.a).inbound.eraseIdx n ∧
      Started t r { ctx := l.ctx, lslot := m.lslot, gslot := none, index := j }
        (l.imageAt (l.header.handlers.getD m.handler 0))
        [contentOf (fun i => m.payload.getD i 0), sameWord (BitVec.ofNat 32 m.src), sameWord (BitVec.ofNat 32 m.seq)] := by
  have step : execHandlerCrewStart s = .next (s.startEntry s.sel.a (n, m, r, j)) := by simp only [execHandlerCrewStart, hd]
  have taken : (s.takeEntry s.sel.a n m).HasSlot r := State.HasSlot.takeEntry ⟨sub, slot⟩ ..
  let pc := l.imageAt (l.header.handlers.getD m.handler 0)
  have started := (s.takeEntry s.sel.a n m).startCrew_started r (handlerOwner l m j) pc m.args taken (by simp [Message.args])
  obtain ⟨q, g, crew, holds⟩ := (s.takeEntry s.sel.a n m).startCrew_crew r (handlerOwner l m j) pc m.args taken
    (by simp [Message.args])
  have slot' := taken.of_outline ((s.takeEntry s.sel.a n m).startCrew_outline r (handlerOwner l m j) pc m.args
    (by simp [Message.args]))
  have kept : ∀ t : State, t.shell = (s.takeEntry s.sel.a n m).shell →
      SameMemory s t ∧ (t.core s.sel.a).inbound = (s.core s.sel.a).inbound.eraseIdx n := fun t ht =>
    ⟨sameMemory_trans (s.takeEntry_sameMemory ..) (sameMemory_of_shell ht),
      (State.read_of_shell ht _ Core.inbound).trans (s.takeEntry_inbound ..)⟩
  refine ⟨_, step, ?_⟩
  obtain e | ⟨p, e⟩ := State.startEntry_eq (core := s.sel.a) (n := n) (r := r) (j := j) hl <;> rw [e]
  · obtain ⟨memory, inbound⟩ := kept _ (State.startCrew_shell ..)
    exact ⟨memory, inbound, started⟩
  · obtain ⟨memory, inbound⟩ := kept _ ((State.raiseTrap_shell _ r p).trans (State.startCrew_shell ..))
    exact ⟨memory, inbound, State.raiseTrap_started crew holds slot' p⟩

/-! ### Extended blocks -/

/-- A crew granted a block: it waits no more, and its XBLK.ACQ issues again (R190, R381). -/
def Crew.granted (w : Crew) : Crew :=
  { w with xwait := none, threads := w.threads.map (fun h => if h.run == .xblock then { h with run := .ready } else h) }

/-- A sub-core after a grant of a block to the crew of a slot. -/
def Sub.grant (b : Sub) (k n : Nat) : Sub :=
  { b.takeBlock n k with crews := modifyAt b.crews k Crew.granted }

theorem execXblkGrant_eq {s : State} {k n : Nat} (h : s.grantDue s.sel.a s.sel.b = some (k, n)) :
    execXblkGrant s = .next (s.modSub s.sel.a s.sel.b (fun b => b.grant k n)) := by
  rw [execXblkGrant, h]
  rfl

/-- A free block is one that the sub-core lists. -/
theorem Sub.blockFor_lt {b : Sub} {g : Option Nat} {n : Nat} (h : b.blockFor g = some n) : n < b.blocks.length := by
  unfold Sub.blockFor at h
  obtain h | ⟨-, h⟩ := Option.or_eq_some_iff.1 h <;> exact List.mem_range.1 (List.mem_of_find?_eq_some h)

/-- The crew that is granted a block waits for one. -/
theorem Sub.waiters_waits {b : Sub} {k : Nat} (h : k ∈ b.waiters) : (b.crew k).xwait ≠ none := by
  obtain ⟨p, hp, rfl⟩ := List.mem_map.1 h
  obtain ⟨j, -, e⟩ := List.mem_filterMap.1 ((List.mergeSort_perm ..).mem_iff.1 hp)
  obtain ⟨x, hx, rfl⟩ := Option.map_eq_some_iff.1 e
  rw [hx]
  nofun

theorem execXblkGrant_grants (s : State) (k n : Nat) (h : s.grantDue s.sel.a s.sel.b = some (k, n)) :
    let r : CrewRef := ⟨s.sel.a, s.sel.b, k⟩
    ∃ t, execXblkGrant s = .next t ∧ SameMemory s t ∧ OtherCrewsSame s t r ∧ (t.crew r).xwait = none ∧
      (t.crew r).threads = (s.crew r).threads.map (fun h => if h.run == .xblock then { h with run := .ready } else h) ∧
      ∃ b, (t.sub s.sel.a s.sel.b).blocks[n]? = some b ∧ b.holder = some k ∧ b.freeing = false := by
  intro r
  obtain ⟨j, hj, e⟩ := List.exists_of_findSome?_eq_some h
  obtain ⟨_, block, e⟩ := Option.map_eq_some_iff.1 e
  cases e
  have slot : s.HasSlot r := State.hasSlot_of_ne_idle fun idle =>
    Sub.waiters_waits hj (congrArg (fun w : Crew => w.xwait) idle)
  have sub := sub_modSub s s.sel.a s.sel.b (fun b => b.grant k n) slot.sub
  have crew : (s.modSub s.sel.a s.sel.b (fun b => b.grant k n)).crew r = (s.crew r).granted := by
    rw [State.crew, sub]
    exact modifyAt_getD_same _ _ _ _ slot.slot
  refine ⟨_, execXblkGrant_eq h, sameMemory_modSub .., fun q hq => ?_, by rw [crew]; rfl, by rw [crew]; rfl, ?_⟩
  · exact crew_modSub_slot_ne s r q _ (fun b => ⟨_, rfl⟩) hq
  · rw [sub]
    refine ⟨{ (s.sub s.sel.a s.sel.b).blocks[n]'(Sub.blockFor_lt block) with holder := some k, freeing := false }, ?_, rfl, rfl⟩
    refine (modifyAt_getElem? ..).trans ?_
    rw [if_pos rfl, List.getElem?_eq_getElem (Sub.blockFor_lt block)]
    rfl

end Sys2Proof.Machine
end

section

namespace Sys2Proof

open Machine Claims

/-- Settles O32: each of the three starts its crews, or lets one go on, in slots that the state lists. -/
theorem recordsAndHandlersStart : Obligations.RecordsAndHandlersStart := by
  unfold Obligations.RecordsAndHandlersStart
  exact ⟨execRecordStart_starts, execHandlerCrewStart_starts, execXblkGrant_grants⟩

end Sys2Proof
end

section
/-! ## The device at reset (R72, R412, R502)

A device with no core, no packet, no quiesce and no waiting field test only counts its cycles; at reset nothing is due of it
either, so its first step is such a cycle. -/

open Sys2Proof

namespace Sys2Proof.Machine

/-! ### What a step finds in a device without cores -/

theorem State.nextInput_of_no_inputs {s : State} (h : s.inputs = []) : s.nextInput = none := by
  rw [State.nextInput, h]

theorem State.nextSub_of_no_cores {s : State} (h : s.cores = []) : s.nextSub = none := by
  rw [State.nextSub_of_not_again fun p again => ?_, h]
  · rfl
  · obtain ⟨-, listed, -⟩ := again
    simp [h] at listed

theorem State.coreList_of_no_cores {s : State} (h : s.cores = []) : s.coreList = [] :=
  congrArg (List.map (fun p : Nat × Core => p.1)) h

theorem State.coresDue_of_no_cores {s : State} (h : s.cores = []) : s.coresDue = none := by
  rw [State.coresDue, State.coreList_of_no_cores h]
  rfl

theorem State.netDue_of_reset {s : State} (h : s.net = .reset) : s.netDue = none := by
  rw [State.netDue, h]
  rfl

theorem State.redoDue_of_reset {s : State} (h : s.net = .reset) : s.redoDue = none := by
  rw [State.redoDue, h]
  rfl

theorem State.schedDue_of_reset {s : State} (h : s.sched = .reset) : s.schedDue = none := by
  simp [State.schedDue, h, Sched.reset]

theorem State.pkgDue_of_reset {s : State} (h : s.pkg = .reset) : s.pkgDue = none := by
  rw [State.pkgDue, h]
  rfl

/-- Nothing is due of a device whose parts are as reset leaves them, whatever its cycle and its memory. -/
theorem State.due_of_reset {s : State} (hc : s.cores = []) (hn : s.net = .reset) (hs : s.sched = .reset)
    (hp : s.pkg = .reset) : s.due = none := by
  simp [State.due, State.netDue_of_reset hn, State.coresDue_of_no_cores hc, State.redoDue_of_reset hn,
    State.schedDue_of_reset hs, State.pkgDue_of_reset hp]

/-! ### A cycle of a device without cores -/

theorem State.netTick_of_no_packets {s : State} (h : s.net.packets = []) : s.netTick = s := by
  rw [State.netTick, h]
  rfl

theorem State.newCycle_of_no_cores {s : State} (hc : s.cores = []) (hp : s.net.packets = []) :
    s.newCycle = { s with cycle := s.cycle + 1, arb := 0 } := by
  rw [State.newCycle, State.netTick_of_no_packets hp, State.coreList_of_no_cores hc]
  rfl

/-- Without a core there is no crew that could be parked. -/
theorem State.listParked_of_no_cores {s : State} (h : s.cores = []) : s.listParked s.slotCount = s := by
  rw [State.slotCount, h]
  rfl

/-- Without cores, packets, a quiesce and field tests, the end of a cycle counts it and does no more. -/
theorem State.tick_of_no_cores {s : State} (hc : s.cores = []) (hp : s.net.packets = [])
    (hq : s.sched.quiesce.stage = .none) (ht : s.pkg.tests = []) :
    s.tick = { s with cycle := s.cycle + 1, arb := 0 } := by
  have new := State.newCycle_of_no_cores hc hp
  have quiet : (s.newCycle.listParked s.newCycle.slotCount).quiesceTick = s.newCycle := by
    rw [State.listParked_of_no_cores (by rw [new, hc]), State.quiesceTick_of_none (by rw [new, hq])]
  rw [State.tick_eq, quiet, new, ht]
  rfl

/-! ### Reset -/

theorem State.reset_wf : State.reset.wf = true := rfl

/-- Both copies of every descriptor are 0x0000, in memory and in every scratchpad (R72). -/
theorem State.reset_descAt (p : Loc) : State.reset.descAt p = (0, 0) := by
  cases p with
  | mem a => rfl
  | scratch c o => rfl

/-- No context is listed, so each is the default (R412). -/
theorem State.reset_context (c : Nat) : State.reset.context c = Context.reset := rfl

theorem State.reset_due : State.reset.due = none := State.due_of_reset rfl rfl rfl rfl

/-- The first step counts a cycle and changes nothing else at all. -/
theorem step_reset : step State.reset = .next { State.reset with cycle := 1 } := by
  rw [step_of_tick rfl State.reset_due (State.nextInput_of_no_inputs rfl) (State.nextSub_of_no_cores rfl),
    State.tick_of_no_cores rfl rfl rfl rfl]
  rfl

end Sys2Proof.Machine
end

section

namespace Sys2Proof

open Machine

/-- Settles O60: the state at reset lists nothing, and its step is a cycle of a device without cores. -/
theorem resetStands : Obligations.ResetStands := by
  unfold Obligations.ResetStands
  exact ⟨State.reset_wf, rfl, State.reset_descAt, State.reset_context, rfl, rfl, State.reset_due,
    _, step_reset, rfl, rfl⟩

end Sys2Proof
end

section
/-! ## The exchange: what a home's work beside its bytes leaves alone (R64, R81, R171)

Reading at a home, recording a response and copying a line into L1 change neither memory nor what is under way between cores
and homes. What changes nothing but sub-cores leaves the exchange alone too, so that an abort of gambits does. -/

open Sys2Proof Sys2Proof.Claims

namespace Sys2Proof.Machine

/-- The ledger, with the requests and the updates under way. -/
structure Exchange where
  ledger : Ledger
  txs : List Tx
  updates : List Update

/-- The exchange of a state. -/
def State.exchange (s : State) : Exchange := ⟨s.ledger, s.net.txs, s.net.updates⟩

theorem State.exchange_of_net {s t : State} (hl : t.ledger = s.ledger) (hn : t.net = s.net) : t.exchange = s.exchange := by
  simp only [State.exchange, hl, hn]

theorem State.ledger_of_exchange {s t : State} (h : t.exchange = s.exchange) : t.ledger = s.ledger := congrArg Exchange.ledger h

theorem State.txs_of_exchange {s t : State} (h : t.exchange = s.exchange) : t.net.txs = s.net.txs := congrArg Exchange.txs h

theorem State.updates_of_exchange {s t : State} (h : t.exchange = s.exchange) : t.net.updates = s.net.updates :=
  congrArg Exchange.updates h

theorem State.modCore_exchange (s : State) (c : Nat) (f : Core → Core)
    (hf : ∀ k, (f k).scratch = k.scratch ∧ (f k).descs = k.descs := by exact fun _ => ⟨rfl, rfl⟩) :
    (s.modCore c f).exchange = s.exchange :=
  State.exchange_of_net (s.modCore_ledger c f hf) rfl

@[simp] theorem State.modSub_exchange (s : State) (c b : Nat) (f : Sub → Sub) : (s.modSub c b f).exchange = s.exchange :=
  s.modCore_exchange c _

@[simp] theorem State.modGroup_exchange (s : State) (c g : Nat) (f : Group → Group) :
    (s.modGroup c g f).exchange = s.exchange :=
  s.modCore_exchange c _

@[simp] theorem State.fresh_exchange (s : State) : s.fresh.2.exchange = s.exchange := rfl
@[simp] theorem State.spend_exchange (s : State) : s.spend.exchange = s.exchange := rfl
@[simp] theorem State.modHome_exchange (s : State) (h : HomeId) (f : Home → Home) : (s.modHome h f).exchange = s.exchange := rfl
@[simp] theorem State.modLine_exchange (s : State) (slice line : Nat) (f : L2Line → L2Line) :
    (s.modLine slice line f).exchange = s.exchange := rfl
@[simp] theorem State.l2Drop_exchange (s : State) (slice line : Nat) : (s.l2Drop slice line).exchange = s.exchange := rfl
@[simp] theorem State.settleRaced_exchange (s : State) (by_ : CrewRef) (p : Loc) (n : Nat) :
    (s.settleRaced by_ p n).exchange = s.exchange := rfl

/-! ### Reads and responses of a home -/

@[simp] theorem State.touchVault_exchange (s : State) (pa : Nat) : (s.touchVault pa).exchange = s.exchange := by
  unfold State.touchVault
  split
  · exact s.modCore_exchange _ _
  · rfl

@[simp] theorem State.respond_exchange (s : State) (h : HomeId) (x : Response) :
    (s.respond h x).2.exchange = s.exchange := by
  unfold State.respond
  split <;> rfl

@[simp] theorem State.stackAnswer_exchange (s : State) (slice line : Nat) :
    (s.stackAnswer slice line).2.exchange = s.exchange := by
  unfold State.stackAnswer
  split <;> simp

@[simp] theorem State.l2WriteBack_exchange (s : State) (slice line : Nat) (leave : Bool) :
    (s.l2WriteBack slice line leave).exchange = s.exchange := by
  simp [State.l2WriteBack]

@[simp] theorem State.l2Evict_exchange (s : State) (slice line : Nat) : (s.l2Evict slice line).exchange = s.exchange := by
  unfold State.l2Evict
  dsimp only
  (repeat' split) <;> simp

@[simp] theorem State.l2Use_exchange (s : State) (h : HomeId) (p : Loc) (page : Page) (write : Bool) :
    (s.l2Use h p page write).2.exchange = s.exchange := by
  unfold State.l2Use
  dsimp only
  (repeat' split) <;> simp

@[simp] theorem State.reach_exchange (s : State) (h : HomeId) (p : Loc) (page : Page) (write : Bool) :
    (s.reach h p page write).2.exchange = s.exchange := by
  unfold State.reach
  split <;> simp

@[simp] theorem State.lineAnswer_exchange (s : State) (h : HomeId) (p : Loc) (acq : Bool) :
    (s.lineAnswer h p acq).2.exchange = s.exchange := by
  simp only [State.lineAnswer, State.lineData]
  split <;> simp

@[simp] theorem State.atomSig_exchange (s : State) (h : HomeId) (e : AtomEff) (sig : Option Sig) (returning : Bool) :
    (s.atomSig h e sig returning).2.exchange = s.exchange := by
  unfold State.atomSig
  split <;> simp

/-! ### Copies in L1 -/

@[simp] theorem State.l1Install_exchange (s : State) (c : Nat) (x : L1Line) : (s.l1Install c x).exchange = s.exchange :=
  s.modCore_exchange c _

@[simp] theorem State.l1Fill_exchange (s : State) (core line sent : Nat) (data : List Byte) (descs : List (Nat × Nat))
    (tag : Option Tag) : (s.l1Fill core line sent data descs tag).exchange = s.exchange := by
  simp [State.l1Fill]

@[simp] theorem State.l1Atomic_exchange (s : State) (t : Tx) (e : AtomEff) (tag : Option Tag) :
    (s.l1Atomic t e tag).exchange = s.exchange := by
  unfold State.l1Atomic
  split
  · split <;> simp
  · rfl

@[simp] theorem State.l1Store_exchange (s : State) (c : Nat) (p : Loc) (bs : List Byte) :
    (s.l1Store c p bs).exchange = s.exchange := by
  unfold State.l1Store
  split
  · rfl
  · split
    · exact s.modCore_exchange _ _
    · rfl

/-! ### Aborts of gambits -/

/-- A view that neither a change of a sub-core nor a fresh number touches is left alone by an abort. -/
theorem State.abortLanes_view {β : Type} (v : State → β) (hs : ∀ (s : State) c b f, v (s.modSub c b f) = v s)
    (hf : ∀ s : State, v s.fresh.2 = v s) (s : State) (r : CrewRef) (lanes : Mask) (code : Nat) :
    v (s.abortLanes r lanes code) = v s := by
  have crew : ∀ (s : State) r f, v (s.modCrew r f) = v s := fun s r f => hs s _ _ _
  have head : ∀ (s : State) r, v (s.head r) = v s := fun s r => (crew ..).trans (hf s)
  have code_ : ∀ (s : State) r ab k n, v (s.abortCode r ab k n) = v s := fun s r ab k n => by
    unfold State.abortCode
    dsimp only
    split
    · exact crew ..
    · exact (hs ..).trans (crew ..)
  unfold State.abortLanes
  dsimp only
  (repeat' split) <;> simp only [head, crew, code_, hs]

/-- A write to a scratchpad aborts gambits and does no more beside its bytes (R180). -/
@[simp] theorem State.scratchConflict_exchange (s : State) (core off len : Nat) (by_ : CrewRef) :
    (s.scratchConflict core off len by_).exchange = s.exchange := by
  refine foldl_view State.exchange _ (fun st r => ?_) _ s
  have abort := State.abortLanes_view State.exchange State.modSub_exchange State.fresh_exchange
  split
  · rfl
  · split
    · dsimp only
      split
      · rfl
      · exact abort ..
    · rfl

end Sys2Proof.Machine
end

section
/-! ## A run of bytes performed at its home (R82, R112)

The bytes of the run are written and no others; requests stand as before, and updates are added at most. -/

open Sys2Proof Sys2Proof.Claims

namespace Sys2Proof.Machine

/-- The bytes of memory and of every scratchpad. -/
def State.cells (s : State) : List Host.Cell × (Nat → List Host.Cell) := (s.mem.cells, fun c => (s.core c).scratch)

theorem State.cells_of_ledger {s t : State} (h : t.ledger = s.ledger) : t.cells = s.cells :=
  congrArg (fun k : Ledger => (k.mem.cells, fun c => (k.stores c).1)) h

theorem State.cells_of_exchange {s t : State} (h : t.exchange = s.exchange) : t.cells = s.cells :=
  State.cells_of_ledger (State.ledger_of_exchange h)

theorem State.bytesAt_of_cells {s t : State} (h : t.cells = s.cells) (p : Loc) (n : Nat) : t.bytesAt p n = s.bytesAt p n := by
  cases p with
  | mem a => exact congrArg (fun m => cellsRead m a n) (congrArg Prod.fst h)
  | scratch c o => exact congrArg (fun m => cellsRead m o n) (congrFun (congrArg Prod.snd h) c)

@[simp] theorem State.putDesc_cells (s : State) (p : Loc) (d : Nat × Nat) : (s.putDesc p d).cells = s.cells := by
  cases p with
  | mem a => rfl
  | scratch c o =>
    refine congrArg (Prod.mk s.mem.cells) (funext fun e => ?_)
    by_cases h : e = c
    · rw [h, State.putDesc, core_modCore]
    · rw [State.putDesc, core_modCore_ne _ _ _ _ h]

@[simp] theorem State.putDesc_net (s : State) (p : Loc) (d : Nat × Nat) : (s.putDesc p d).net = s.net := by cases p <;> rfl

@[simp] theorem State.putBytes_net (s : State) (p : Loc) (bs : List Byte) : (s.putBytes p bs).net = s.net := by
  cases p with
  | mem a => simp only [State.putBytes]; split <;> rfl
  | scratch c o => rfl

theorem Loc.overlaps_comm (p q : Loc) (n k : Nat) : p.overlaps n q k = q.overlaps k p n := by
  cases p <;> cases q <;> simp [Loc.overlaps, Bool.and_comm, Bool.and_left_comm, Bool.and_assoc, Bool.beq_comm]

/-- A run of bytes has been performed. -/
structure Performed (s t : State) (p : Loc) (bs : List Byte) : Prop where
  cells : t.cells = (s.putBytes p bs).cells
  txs : t.net.txs = s.net.txs
  updates : s.net.updates <+: t.net.updates

theorem Performed.bytes {s t : State} {p : Loc} {bs : List Byte} (h : Performed s t p bs) (hw : s.wf = true) :
    t.bytesAt p bs.length = bs := by
  rw [State.bytesAt_of_cells h.cells, State.bytesAt_putBytes_same _ _ _ hw]

theorem Performed.outside {s t : State} {p : Loc} {bs : List Byte} (h : Performed s t p bs) (hw : s.wf = true) :
    SameBytesOutside s t [(p, bs.length)] := by
  intro q hq
  have apart := hq (p, bs.length) (by simp)
  rw [State.bytesAt_of_cells h.cells, State.bytesAt_putBytes_apart _ _ _ _ _ hw (by rw [Loc.overlaps_comm]; exact apart)]

/-- What leaves the exchange alone may follow. -/
theorem Performed.followed {s t u : State} {p : Loc} {bs : List Byte} (h : Performed s t p bs) (e : u.exchange = t.exchange) :
    Performed s u p bs :=
  ⟨(State.cells_of_exchange e).trans h.cells, (State.txs_of_exchange e).trans h.txs,
    by rw [State.updates_of_exchange e]; exact h.updates⟩

theorem Performed.putBytes (s : State) (p : Loc) (bs : List Byte) : Performed s (s.putBytes p bs) p bs :=
  ⟨rfl, by rw [State.putBytes_net], by rw [State.putBytes_net]⟩

/-- Publishing a write adds updates and takes numbers. -/
theorem Performed.publish {s t : State} {p : Loc} {bs : List Byte} (h : Performed s t p bs) (home : HomeId) (q : Loc)
    (cs : List Byte) : Performed s (t.publish home q cs).2 p bs := by
  cases q with
  | scratch c o => exact h
  | mem a =>
    refine List.foldlRecOn (motive := fun z : List Nat × State => Performed s z.2 p bs) _ _ h fun z hz x _ => ?_
    dsimp only
    split
    · exact hz
    · exact ⟨hz.cells, hz.txs, hz.updates.trans (List.prefix_append _ _)⟩

/-- A run that touches no bound barrier object is written whole. -/
theorem State.outsideObjects_whole {s : State} {p : Loc} {bs : List Byte} (h : s.touchesObject p bs.length = false) :
    s.outsideObjects p bs = [(p, bs)] := by
  simp [State.outsideObjects, h]

theorem State.putRun_performed (s : State) (h : HomeId) (by_ : CrewRef) (page : Page) (p : Loc) (bs : List Byte)
    (ho : s.touchesObject p bs.length = false) : Performed s (s.putRun h by_ page p bs).2 p bs := by
  refine Performed.publish ?_ h p bs
  cases p with
  | mem a => exact (Performed.putBytes s _ bs).followed (by simp)
  | scratch c o => exact (Performed.putBytes s _ bs).followed (by simp [State.outsideObjects_whole ho])

/-- A write of one run applied at a home of the device. -/
theorem State.applyWrite_performed (s : State) {h : HomeId} {w : WriteReq} {p : Loc} {bs : List Byte} (sig : Option Sig)
    (hb : w.bytes = [(p, bs)]) (ho : s.touchesObject p bs.length = false) (hh : ∀ n, h ≠ .outside n) :
    Performed s (s.applyWrite h w sig).2.2 p bs := by
  have run := s.putRun_performed h w.crew w.page p bs ho
  have descs : ∀ t : State, Performed s t p bs →
      Performed s (w.descs.foldl (fun (st : State) d => st.putDesc d.1 (d.2, d.2)) t) p bs := fun t ht => by
    have cells := foldl_view State.cells (fun (st : State) (d : Loc × Nat) => st.putDesc d.1 (d.2, d.2))
      (fun st d => st.putDesc_cells ..) w.descs t
    have net := foldl_view State.net (fun (st : State) (d : Loc × Nat) => st.putDesc d.1 (d.2, d.2))
      (fun st d => st.putDesc_net ..) w.descs t
    exact ⟨cells.trans ht.cells, by rw [net]; exact ht.txs, by rw [net]; exact ht.updates⟩
  unfold State.applyWrite
  split
  · exact absurd rfl (hh _)
  · simp only [hb, List.foldl_cons, List.foldl_nil, List.head?_cons]
    split
    · exact (descs _ run).followed (State.modHome_exchange ..)
    · exact descs _ run

theorem State.writeNow_performed (s : State) {h : HomeId} {w : WriteReq} {p : Loc} {bs : List Byte}
    (hb : w.bytes = [(p, bs)]) (ho : s.touchesObject p bs.length = false) (hh : ∀ n, h ≠ .outside n) :
    Performed s (s.writeNow h w) p bs :=
  (s.applyWrite_performed none hb ho hh).followed (State.respond_exchange ..)

end Sys2Proof.Machine
end

section
/-! ## Windows and updates (R112, R113, R116, R373, R472) -/

open Sys2Proof Sys2Proof.Claims

namespace Sys2Proof.Machine

/-! ### Listed entries by their number -/

/-- The first entry of a number is found again after the entries of that number have changed, none in its number. -/
theorem find?_map_key {α : Type} (key : α → Nat) (i : Nat) (f : α → α) (hf : ∀ x, key (f x) = key x) (l : List α) :
    (l.map (fun x => if key x == i then f x else x)).find? (fun x => key x == i) =
      (l.find? (fun x => key x == i)).map f := by
  induction l with
  | nil => rfl
  | cons x r ih =>
    by_cases h : key x = i
    · simp [h, hf]
    · simpa [List.find?_cons_of_neg, h] using ih

theorem State.update?_id {s : State} {i : Nat} {u : Update} (h : s.update? i = some u) : u.id = i := by
  simpa using List.find?_some h

theorem State.update?_modUpdate {s : State} {i : Nat} {u : Update} (h : s.update? i = some u) (f : Update → Update)
    (hf : ∀ u, (f u).id = u.id := by exact fun _ => rfl) : (s.modUpdate u.id f).update? i = some (f u) := by
  rw [State.update?_id h]
  refine (find?_map_key (fun u : Update => u.id) i f hf s.net.updates).trans ?_
  rw [show s.net.updates.find? (fun u => u.id == i) = some u from h]
  rfl

theorem State.update?_of_prefix {s t : State} (h : s.net.updates <+: t.net.updates) {i : Nat} {u : Update}
    (hu : s.update? i = some u) : t.update? i = some u :=
  h.find?_eq_some hu

@[simp] theorem State.modUpdate_ledger (s : State) (i : Nat) (f : Update → Update) : (s.modUpdate i f).ledger = s.ledger := rfl

theorem home_modHome (s : State) (h : HomeId) (f : Home → Home) : (s.modHome h f).home h = f (s.home h) := by
  have set : ∀ (x : Home) (l : List (HomeId × Home)), (setHome h x l).find? (fun p => p.1 == h) = some (h, x) := fun x l => by
    induction l with
    | nil => simp [setHome]
    | cons p r ih =>
      unfold setHome
      split
      · simp
      · next hp => rw [List.find?_cons_of_neg (by simpa using hp), ih]
  rw [State.home, State.modHome]
  dsimp only
  rw [set]

/-! ### Window changes -/

/-- A change put into a copy twice stands there once. -/
theorem Core.setWindow_setWindow (k : Core) (c : WindowChange) : (k.setWindow c).setWindow c = k.setWindow c := by
  unfold Core.setWindow
  cases c.writer <;> simp

/-- A change reaches every listed copy, and no other core. -/
theorem State.setWindows_core (c : WindowChange) (ks : List Nat) (s : State) (k : Nat) :
    (ks.foldl (fun (st : State) k => st.modCore k (fun x => x.setWindow c)) s).core k =
      if k ∈ ks then (s.core k).setWindow c else s.core k := by
  induction ks generalizing s with
  | nil => rfl
  | cons n ns ih =>
    rw [List.foldl_cons, ih]
    by_cases h : k = n
    · simp [h, Core.setWindow_setWindow]
    · simp [h, core_modCore_ne _ _ _ _ h]

theorem Core.setWindow_stores (k : Core) (c : WindowChange) :
    (k.setWindow c).scratch = k.scratch ∧ (k.setWindow c).descs = k.descs := ⟨rfl, rfl⟩

theorem execWindowTableUpdate_sets (s : State) (c : WindowChange) (hc : s.windowDue s.sel.a = some c) (ha : c.applied = none) :
    ∃ t, execWindowTableUpdate s = .next t ∧ SameMemory s t ∧ ∀ k ∈ s.clusterCores s.sel.a,
      (t.core k).windows = ((s.core k).setWindow c).windows := by
  refine ⟨_, by simp only [execWindowTableUpdate, hc, ha]; rfl, sameMemory_of_ledger ?_, fun k hk => ?_⟩
  · refine (State.modCore_ledger _ _ _).trans ?_
    exact foldl_view State.ledger _ (fun st k => st.modCore_ledger k _ fun x => x.setWindow_stores c) _ s
  · have reached := s.setWindows_core c (s.clusterCores s.sel.a) k
    rw [if_pos hk] at reached
    rw [← reached]
    by_cases h : k = c.core
    · rw [h, core_modCore]
    · rw [core_modCore_ne _ _ _ _ h]

/-- A change that leaves an idle crew idle is seen at any slot that a reference names, listed or not. -/
theorem crew_modCrew_of_idle (s : State) (r : CrewRef) (f : Crew → Crew) (hf : f Crew.idle = Crew.idle) :
    (s.modCrew r f).crew r = f (s.crew r) := by
  by_cases h : s.HasSlot r
  · exact crew_modCrew_of_slot s r f h
  · have idle : ∀ t : State, ¬ t.HasSlot r → t.crew r = Crew.idle := fun t ht =>
      not_not.1 fun hn => ht (State.hasSlot_of_ne_idle hn)
    have shape := State.shape_of_outline (s.modCrew_outline r f) r.core
    rw [idle s h, hf, idle _ fun hm => h (hm.congr shape.symm)]

theorem execWindowTableUpdate_completes (s : State) (c : WindowChange) (old : Option (Nat × Nat))
    (hc : s.windowDue s.sel.a = some c) (ha : c.applied = some old) :
    ∃ t, execWindowTableUpdate s = .next t ∧ SameMemory s t ∧
      (t.core c.core).windowChanges = (s.core c.core).windowChanges.filter (fun x => x.setter != c.setter) ∧
      t.crew c.crew = (s.crew c.crew).finish c.setter 1 := by
  refine ⟨_, by simp only [execWindowTableUpdate, hc, ha]; rfl, sameMemory_of_ledger ?_, ?_, ?_⟩
  · exact (State.modCrew_ledger ..).trans (State.modCore_ledger _ _ _)
  · rw [State.read_of_shell (State.modCrew_shell ..) _ Core.windowChanges, core_modCore]
  · rw [crew_modCrew_of_idle _ _ _ rfl]
    exact congrArg (fun w : Crew => w.finish c.setter 1) (crew_modCore_same _ _ _ _ fun _ => rfl)

/-! ### Updates on their way -/

theorem execSubscriptionUpdateSend_sends (s : State) (u : Update) (hu : s.update? s.sel.a = some u) (hs : s.sendable u = true) :
    ∃ t, execSubscriptionUpdateSend s = .next t ∧ SameMemory s t ∧
      t.update? s.sel.a = some { u with sent := true, due := s.cycle + s.storeLatency u.core u.home + u.detour } := by
  refine ⟨_, by simp only [execSubscriptionUpdateSend, hu, hs, if_true]; rfl, sameMemory_of_ledger (by simp), ?_⟩
  exact State.update?_modUpdate hu _

theorem execSubscriptionNackResend_resends (s : State) (u : Update) (hu : s.update? s.sel.a = some u) (hn : u.nacked = true)
    (hd : u.due ≤ s.cycle) : ∃ t, execSubscriptionNackResend s = .next t ∧ SameMemory s t ∧
      t.update? s.sel.a = some { u with nacked := false, due := s.cycle + s.storeLatency u.core u.home } := by
  refine ⟨_, by simp only [execSubscriptionNackResend, hu, hn, hd, decide_true, Bool.and_self, if_true]; rfl,
    sameMemory_of_ledger (by simp), ?_⟩
  exact State.update?_modUpdate hu _

/-- A home at which an update has been acknowledged: the oldest number of its part moves on (R472). -/
def Home.acked (h : Home) (u : Update) : Home :=
  { h with parts := h.parts.map (fun p =>
      if p.core == u.core && p.gslot == u.gslot && p.sub == u.sub && p.part == u.part then
        { p with oldest := (u.seq + 1) % 2 ^ 32 } else p) }

theorem execSubscriptionAckReceive_ends (s : State) (u : Update) (hu : s.update? s.sel.a = some u) (ha : u.applied = true)
    (hd : u.due ≤ s.cycle) : ∃ t, execSubscriptionAckReceive s = .next t ∧ SameMemory s t ∧ t.update? s.sel.a = none ∧
      (t.home u.home).parts = (s.home u.home).parts.map (fun p =>
        if p.core == u.core && p.gslot == u.gslot && p.sub == u.sub && p.part == u.part then
          { p with oldest := (u.seq + 1) % 2 ^ 32 } else p) := by
  refine ⟨_, by simp only [execSubscriptionAckReceive, hu, ha, hd, decide_true, Bool.and_self, if_true]; rfl,
    sameMemory_of_ledger ?_, ?_, ?_⟩
  · rfl
  · simp [State.update?, State.update?_id hu]
  · exact congrArg Home.parts (home_modHome s u.home fun h => h.acked u)

theorem execSubscriptionUpdateApply_nacks (s : State) (id : Nat) (u : Update) (hu : s.update? id = some u)
    (ha : s.applicable u = true) : ∃ t, execSubscriptionUpdateApply id true s = .next t ∧ SameMemory s t ∧
      t.update? id = some { u with nacked := true, due := s.cycle + s.storeLatency u.core u.home } := by
  refine ⟨_, by simp only [execSubscriptionUpdateApply, hu, ha, Bool.not_true, Bool.false_eq_true, if_false, if_true]; rfl,
    sameMemory_of_ledger (by simp), ?_⟩
  exact State.update?_modUpdate hu _

/-! ### An update applied -/

/-- A write to local storage performed at once, with the copy in L1 (R113). -/
theorem State.applyUpdate_performed (s : State) {u : Update} {x : Subscription} {p : SubPart} {a : Nat} {bs : List Byte} {q : Loc}
    (hp : s.subPart u = some (x, p)) (hr : u.runs = [(a, bs)]) (hq : p.place a = some q)
    (ho : s.touchesObject q bs.length = false) (hh : ∀ n, s.homeOf q false ≠ .outside n) :
    Performed (s.modUpdate u.id (fun x => { x with applied := true, due := s.cycle + s.storeLatency u.core u.home }))
      (s.applyUpdate u) q bs := by
  generalize hm : s.modUpdate u.id (fun x => { x with applied := true, due := s.cycle + s.storeLatency u.core u.home }) = m
  have object : m.touchesObject q bs.length = false := by rw [← hm]; exact ho
  have home : ∀ n, m.homeOf q false ≠ .outside n := by rw [← hm]; exact hh
  simp only [State.applyUpdate, hp, hr, hm, List.filterMap_cons, List.filterMap_nil, hq, Option.map_some, List.flatMap_cons,
    List.flatMap_nil, List.append_nil, State.outsideObjects_whole object, List.foldl_cons, List.foldl_nil]
  exact ((m.writeNow_performed rfl object home).followed (State.l1Store_exchange ..)).followed (State.modGroup_exchange ..)

theorem execSubscriptionUpdateApply_applies (s : State) (id : Nat) (u : Update) (x : Subscription) (p : SubPart) (a : Nat)
    (bs : List Byte) (q : Loc) (hw : s.wf = true) (hu : s.update? id = some u) (ha : s.applicable u = true)
    (hp : s.subPart u = some (x, p)) (hr : u.runs = [(a, bs)]) (hq : p.place a = some q)
    (ho : s.touchesObject q bs.length = false) (hh : ∀ n, s.homeOf q false ≠ .outside n) :
    ∃ t v, execSubscriptionUpdateApply id false s = .next t ∧ t.bytesAt q bs.length = bs ∧
      SameBytesOutside s t [(q, bs.length)] ∧ t.update? id = some v ∧ v.applied = true := by
  have done := s.applyUpdate_performed hp hr hq ho hh
  have marked := State.update?_modUpdate hu (fun x => { x with applied := true, due := s.cycle + s.storeLatency u.core u.home })
  exact ⟨s.applyUpdate u, _, by simp [execSubscriptionUpdateApply, hu, ha], done.bytes hw, done.outside hw,
    State.update?_of_prefix done.updates marked, rfl⟩

end Sys2Proof.Machine
end

section

namespace Sys2Proof

open Machine Claims

/-- Settles O40: the seven steps, each by what its operation changes; the bytes of an applied update are those of a run
performed at its home. -/
theorem windowsAndUpdates : Obligations.WindowsAndUpdates := by
  unfold Obligations.WindowsAndUpdates
  exact ⟨execWindowTableUpdate_sets, execWindowTableUpdate_completes, execSubscriptionUpdateSend_sends,
    execSubscriptionNackResend_resends, execSubscriptionAckReceive_ends, execSubscriptionUpdateApply_nacks,
    execSubscriptionUpdateApply_applies⟩

end Sys2Proof
end

section
/-! ## Homes serve requests (R81, R82, R315, R376)

A home that serves one request answers it last: what the answer rests on is the state before it, of which the exchange or the
bytes are known. -/

open Sys2Proof Sys2Proof.Claims

namespace Sys2Proof.Machine

/-! ### Requests and their answers -/

theorem State.tx_id {s : State} {i : Nat} {x : Tx} (h : s.tx i = some x) : x.id = i := by
  simpa using List.find?_some h

theorem State.tx_of_txs {s t : State} (h : t.net.txs = s.net.txs) (i : Nat) : t.tx i = s.tx i := by
  rw [State.tx, State.tx, h]

/-- A packet put at a local input stands among the packets. -/
theorem State.inject_packets (s : State) (x : Tx) (reply : Bool) (flits : Nat) :
    ∃ l, s.inject x reply flits = { s with net := { s.net with packets := l } } := by
  unfold State.inject
  dsimp only
  split_ifs <;> exact ⟨_, rfl⟩

@[simp] theorem State.inject_exchange (s : State) (x : Tx) (reply : Bool) (flits : Nat) :
    (s.inject x reply flits).exchange = s.exchange := by
  obtain ⟨l, e⟩ := s.inject_packets x reply flits
  rw [e]
  rfl

@[simp] theorem State.inject_core (s : State) (x : Tx) (reply : Bool) (flits c : Nat) :
    (s.inject x reply flits).core c = s.core c := by
  obtain ⟨l, e⟩ := s.inject_packets x reply flits
  rw [e]
  rfl

theorem State.answerTx_ledger (s : State) (x : Tx) (a : Answer) (f : Tx → Tx) : (s.answerTx x a f).ledger = s.ledger :=
  (State.ledger_of_exchange (State.inject_exchange ..)).trans rfl

@[simp] theorem State.answerTx_core (s : State) (x : Tx) (a : Answer) (f : Tx → Tx) (c : Nat) :
    (s.answerTx x a f).core c = s.core c :=
  State.inject_core ..

/-- An answered request is found again with its answer. -/
theorem State.tx_answerTx {s : State} {i : Nat} {x : Tx} (hx : s.tx i = some x) (a : Answer) {f : Tx → Tx}
    (hf : ∀ y, (f y).id = y.id) : (s.answerTx x a f).tx i = some { f x with answer := some a } := by
  obtain rfl := State.tx_id hx
  rw [State.answerTx, State.tx_of_txs (State.txs_of_exchange (State.inject_exchange ..))]
  refine (find?_map_key (fun y : Tx => y.id) x.id (fun y => { f y with answer := some a }) hf s.net.txs).trans ?_
  rw [show s.net.txs.find? (fun y => y.id == x.id) = some x from hx]
  rfl

/-- A port that serves one request changes nothing else of the exchange. -/
theorem State.servePort_exchange {s : State} {i : Nat} {x : Tx} (hx : s.tx i = some x) (ht : s.together x = [x]) :
    (s.servePort x).exchange = (s.serveTx x).exchange := by
  obtain rfl := State.tx_id hx
  simp only [State.servePort, ht, List.foldl_cons, List.foldl_nil, hx, Option.map_some, Option.getD_some]
  split <;> simp

/-- A request served alone, of which the answer is the last that changes the exchange. -/
theorem State.servePort_answers {s u : State} {i : Nat} {x : Tx} {a : Answer} {f : Tx → Tx} (hx : s.tx i = some x)
    (ht : s.together x = [x]) (hs : (s.serveTx x).exchange = (u.answerTx x a f).exchange) (hu : u.net.txs = s.net.txs)
    (hf : ∀ y, (f y).id = y.id) :
    (s.servePort x).ledger = u.ledger ∧ (s.servePort x).tx i = some { f x with answer := some a } := by
  have served := (State.servePort_exchange hx ht).trans hs
  refine ⟨(State.ledger_of_exchange served).trans (State.answerTx_ledger ..), ?_⟩
  rw [State.tx_of_txs (State.txs_of_exchange served)]
  exact State.tx_answerTx ((State.tx_of_txs hu _).trans hx) a hf

/-! ### Reads -/

/-- The line that a home of the device supplies (R81). -/
theorem State.lineAnswer_inside (s : State) {h : HomeId} (hh : ∀ n, h ≠ .outside n) (p : Loc) (acq : Bool) :
    (s.lineAnswer h p acq).1 = .line (s.bytesAt p.line 128) [s.descAt p.line, s.descAt (p.line.plus 64)]
      [s.poisoned p.line, s.poisoned (p.line.plus 64)] (if acq then some ((s.home h).entry p.line) else none) := by
  cases h with
  | outside n => exact absurd rfl (hh n)
  | slice | vault | port | stack => rfl

/-- A read served: its answer is the line, and an outside party's has no tag (R81, R175). -/
theorem State.serveTx_read {s : State} {x : Tx} {p : Loc} {why : ReadFor} {install past acq : Bool}
    (hr : x.req = .read p why install past acq) : ∃ (u : State) (f : Tx → Tx), u.exchange = s.exchange ∧ (∀ y, (f y).id = y.id) ∧
      ((∃ n, x.home = .outside n) → (f x).tag = none) ∧
      (s.serveTx x).exchange = (u.answerTx x (s.lineAnswer x.home p acq).1 f).exchange := by
  let q := (s.lineAnswer x.home p acq).2.reach x.home p x.page false
  let r := q.2.respond x.home { Response.for_ x.core (x.answerAt s.cycle) .none with tx := some x, fill := q.1 }
  refine ⟨r.2, fun y => { y with tag := r.1, serveAt := s.cycle, dueAt := x.answerAt s.cycle }, by simp [r, q], fun _ => rfl, ?_, ?_⟩
  · rintro ⟨n, hn⟩
    simp only [r, State.respond, hn]
  · simp only [State.serveTx, hr, State.serveRead]
    split
    · split
      · exact State.l1Fill_exchange ..
      · rfl
    · rfl

theorem execHomeServeRead_serves {s : State} {x : Tx} {p : Loc} {why : ReadFor} {install past acq : Bool}
    (hx : s.tx s.sel.a = some x) (hr : x.req = .read p why install past acq) (hs : s.servable x = true)
    (ht : s.together x = [x]) : ∃ t y, execHomeServeRead s = .next t ∧ SameMemory s t ∧ t.tx s.sel.a = some y ∧
      y.answer = some (s.lineAnswer x.home p acq).1 ∧ ((∃ n, x.home = .outside n) → y.tag = none) := by
  obtain ⟨u, f, kept, hf, tag, served⟩ := State.serveTx_read (s := s) hr
  obtain ⟨ledger, found⟩ := State.servePort_answers hx ht served (State.txs_of_exchange kept) hf
  exact ⟨_, _, by simp only [execHomeServeRead, hx, hr, hs, if_true],
    sameMemory_of_ledger (ledger.trans (State.ledger_of_exchange kept)), found, rfl, tag⟩

theorem execHomeServeRead_inside (s : State) (x : Tx) (p : Loc) (why : ReadFor) (install past acq : Bool)
    (hx : s.tx s.sel.a = some x) (hr : x.req = .read p why install past acq) (hs : s.servable x = true)
    (ht : s.together x = [x]) (hh : ∀ n, x.home ≠ .outside n) :
    ∃ t y sig, execHomeServeRead s = .next t ∧ SameMemory s t ∧ t.tx s.sel.a = some y ∧ y.answer =
      some (.line (s.bytesAt p.line 128) [s.descAt p.line, s.descAt (p.line.plus 64)]
        [s.poisoned p.line, s.poisoned (p.line.plus 64)] sig) ∧ (sig.isSome = acq) := by
  obtain ⟨t, y, step, same, found, answer, -⟩ := execHomeServeRead_serves hx hr hs ht
  rw [s.lineAnswer_inside hh] at answer
  exact ⟨t, y, _, step, same, found, answer, by cases acq <;> rfl⟩

theorem execHomeServeRead_outside (s : State) (x : Tx) (p : Loc) (why : ReadFor) (install past acq : Bool) (n : Nat)
    (hx : s.tx s.sel.a = some x) (hr : x.req = .read p why install past acq) (hs : s.servable x = true)
    (ht : s.together x = [x]) (hh : x.home = .outside n) :
    ∃ t y descs bad sig, execHomeServeRead s = .next t ∧ SameMemory s t ∧ t.tx s.sel.a = some y ∧
      y.answer = some (.line (s.peek p.line 128) descs bad sig) ∧ y.tag = none := by
  obtain ⟨t, y, step, same, found, answer, tag⟩ := execHomeServeRead_serves hx hr hs ht
  rw [hh] at answer
  exact ⟨t, y, _, _, _, step, same, found, answer, tag ⟨n, hh⟩⟩

/-! ### Writes -/

/-- A write that its home has not kept is performed and then acknowledged (R82, R475). -/
theorem State.serveTx_write {s : State} {x : Tx} {w : WriteReq} {p : Loc} {bs : List Byte} (hr : x.req = .write w)
    (hb : w.bytes = [(p, bs)]) (ho : s.touchesObject p bs.length = false) (hh : ∀ n, x.home ≠ .outside n)
    (hk : (s.home x.home).writes.any (fun k => k.core == x.core && k.serial == x.id) = false) (h0 : x.resends = 0) :
    ∃ (u : State) (f : Tx → Tx), s.serveTx x = u.answerTx x .ack f ∧ (∀ y, (f y).id = y.id) ∧ Performed s u p bs := by
  have done := s.applyWrite_performed x.sig hb ho hh
  simp only [State.serveTx, hr, State.serveWrite, hk, h0, bne_self_eq_false, Bool.false_and, Bool.false_eq_true, if_false]
  exact ⟨_, _, rfl, fun _ => rfl, done.followed ((State.respond_exchange ..).trans (State.modHome_exchange ..))⟩

theorem execHomePerformWrite_performs (s : State) (x : Tx) (w : WriteReq) (p : Loc) (bs : List Byte) (hw : s.wf = true)
    (hx : s.tx s.sel.a = some x) (hr : x.req = .write w) (hs : s.servable x = true) (ht : s.together x = [x])
    (hh : ∀ n, x.home ≠ .outside n) (hb : w.bytes = [(p, bs)]) (ho : s.touchesObject p bs.length = false)
    (hk : (s.home x.home).writes.any (fun k => k.core == x.core && k.serial == x.id) = false) (h0 : x.resends = 0) :
    ∃ t y, execHomePerformWrite s = .next t ∧ t.bytesAt p bs.length = bs ∧ SameBytesOutside s t [(p, bs.length)] ∧
      t.tx s.sel.a = some y ∧ y.answer = some .ack := by
  obtain ⟨u, f, served, id, done⟩ := State.serveTx_write hr hb ho hh hk h0
  obtain ⟨ledger, found⟩ := State.servePort_answers hx ht (congrArg State.exchange served) done.txs id
  have same := State.bytesAt_of_cells (State.cells_of_ledger ledger)
  refine ⟨_, _, by simp only [execHomePerformWrite, hx, hr, hs, if_true], ?_, fun q hq => ?_, found, rfl⟩
  · rw [same, done.bytes hw]
  · rw [same, done.outside hw q hq]

/-! ### Atomics -/

/-- A place whose home is in the device reads as its bytes (R81). -/
theorem State.peek_inside {s : State} {p : Loc} (h : ∀ n, s.homeOf p false ≠ .outside n) (n : Nat) : s.peek p n = s.bytesAt p n := by
  unfold State.peek
  split
  · next k hk => exact absurd hk (h k)
  · rfl

/-- A lane's atomic writes its bytes at a home of the device, and a copy in L1. -/
theorem State.atomWrite_performed (s : State) {h : HomeId} (by_ : CrewRef) (page : Page) {p : Loc} {bs : List Byte}
    (ho : s.touchesObject p bs.length = false) (hh : ∀ n, h ≠ .outside n) :
    Performed s (s.atomWrite h by_ page p bs).2 p bs := by
  unfold State.atomWrite
  split
  · exact absurd rfl (hh _)
  · exact (s.putRun_performed _ by_ page p bs ho).followed (State.l1Store_exchange ..)

/-- What an atomic of one lane leaves: the function's value in the lane's bytes, or all bytes as they were (R315). -/
structure AtomApplied (s t : State) (e : AtomEff) (a : AtomLane) : Prop where
  bytes : t.bytesAt a.loc e.size = match atomNew e.fn e.size (s.numAt a.loc e.size) a.v a.cmp with
    | some v => toBytes e.size v
    | none => s.bytesAt a.loc e.size
  outside : SameBytesOutside s t [(a.loc, e.size)]
  txs : t.net.txs = s.net.txs

theorem AtomApplied.followed {s t u : State} {e : AtomEff} {a : AtomLane} (h : AtomApplied s t e a) (k : u.exchange = t.exchange) :
    AtomApplied s u e a := by
  have same := State.bytesAt_of_cells (State.cells_of_exchange k)
  exact ⟨(same ..).trans h.bytes, fun q hq => (same ..).trans (h.outside q hq), (State.txs_of_exchange k).trans h.txs⟩

/-- The one lane of an atomic that is no pair sum, at a home of the device (R315). -/
theorem State.atomLanes_applied {s : State} {h : HomeId} {e : AtomEff} {a : AtomLane} (by_ : CrewRef) (hw : s.wf = true)
    (hh : ∀ n, h ≠ .outside n) (hp : ∀ n, s.homeOf a.loc false ≠ .outside n) (ho : s.touchesObject a.loc e.size = false)
    (hb : s.blockFault (s.descAt a.loc.block) a.loc.block = none) :
    (s.atomLanes h e by_ 0 [a]).olds = [(a.lane, s.numAt a.loc e.size)] ∧ (s.atomLanes h e by_ 0 [a]).bad = [] ∧
      AtomApplied s (s.atomLanes h e by_ 0 [a]).state e a := by
  have old : ofBytes (s.peek a.loc e.size) = s.numAt a.loc e.size := by rw [State.peek_inside hp, State.numAt]
  have new : ∀ o, (atomStep e.fn e.size e.tid 0 o a.v a.cmp).1 = atomNew e.fn e.size o a.v a.cmp := fun _ => rfl
  simp only [State.atomLanes, hb, old, new, true_and]
  cases hn : atomNew e.fn e.size (s.numAt a.loc e.size) a.v a.cmp with
  | none =>
    have kept : AtomApplied s s e a := ⟨by rw [hn], fun _ _ => rfl, rfl⟩
    exact kept.followed (State.reach_exchange ..)
  | some v =>
    have done := s.atomWrite_performed (h := h) (p := a.loc) (bs := toBytes e.size v) by_ a.page (by rw [toBytes_length]; exact ho) hh
    have bytes := done.bytes hw
    have outside := done.outside hw
    rw [toBytes_length] at bytes outside
    exact ⟨by rw [hn]; exact bytes, outside, done.txs⟩

/-- An atomic that its home has not kept is applied and answered with the old value (R315, R318). -/
theorem State.serveTx_atomic {s : State} {x : Tx} {e : AtomEff} {crew : CrewRef} {point : Bool} {ident : Nat × Nat}
    {a : AtomLane} (hw : s.wf = true) (hr : x.req = .atomic e crew point ident false) (hh : ∀ n, x.home ≠ .outside n)
    (hp : ∀ n, s.homeOf a.loc false ≠ .outside n) (he : e.lanes = [a]) (hf : isPair e.fn = false) (hl : x.lows = none)
    (ho : s.touchesObject a.loc e.size = false) (hb : s.blockFault (s.descAt a.loc.block) a.loc.block = none)
    (hk : (s.home x.home).atoms.find? (fun k => k.core == ident.1 && k.serial == ident.2) = none) :
    ∃ (u : State) (f : Tx → Tx) (sig : Option Sig) (counts : List StatAdd),
      s.serveTx x = u.answerTx x (.olds [(a.lane, s.numAt a.loc e.size)] sig counts []) f ∧ (∀ y, (f y).id = y.id) ∧
        AtomApplied s u e a := by
  obtain ⟨olds, bad, applied⟩ := State.atomLanes_applied (h := x.home) crew hw hh hp ho hb
  simp only [State.serveTx, hr, State.serveAtomic, hk, ite_self, Bool.false_and, Bool.false_eq_true, if_false, hf, hl, he,
    Option.map_none, Option.getD_none, List.any_nil, Bool.not_false, List.filter_cons, List.filter_nil, if_true, olds, bad,
    List.append_nil, Nat.reduceBEq]
  refine ⟨_, _, _, _, rfl, fun _ => rfl, applied.followed ?_⟩
  split <;> simp

theorem execHomePerformAtomic_performs (s : State) (x : Tx) (e : AtomEff) (crew : CrewRef) (point : Bool) (ident : Nat × Nat)
    (a : AtomLane) (hw : s.wf = true) (hx : s.tx s.sel.a = some x) (hr : x.req = .atomic e crew point ident false)
    (hs : s.servable x = true) (ht : s.together x = [x]) (hh : ∀ n, x.home ≠ .outside n)
    (hp : ∀ n, s.homeOf a.loc false ≠ .outside n) (he : e.lanes = [a]) (hf : isPair e.fn = false) (hl : x.lows = none)
    (ho : s.touchesObject a.loc e.size = false) (hb : s.blockFault (s.descAt a.loc.block) a.loc.block = none)
    (hk : (s.home x.home).atoms.find? (fun k => k.core == ident.1 && k.serial == ident.2) = none) :
    let old := s.numAt a.loc e.size
    ∃ t y sig counts, execHomePerformAtomic s = .next t ∧ t.tx s.sel.a = some y ∧
      y.answer = some (.olds [(a.lane, old)] sig counts []) ∧ SameBytesOutside s t [(a.loc, e.size)] ∧
      t.bytesAt a.loc e.size = match atomNew e.fn e.size old a.v a.cmp with
        | some v => toBytes e.size v
        | none => s.bytesAt a.loc e.size := by
  intro old
  obtain ⟨u, f, sig, counts, served, id, applied⟩ := State.serveTx_atomic hw hr hh hp he hf hl ho hb hk
  obtain ⟨ledger, found⟩ := State.servePort_answers hx ht (congrArg State.exchange served) applied.txs id
  have same := State.bytesAt_of_cells (State.cells_of_ledger ledger)
  refine ⟨_, _, sig, counts, by simp only [execHomePerformAtomic, hx, hr, hs, if_true], found, rfl, fun q hq => ?_, ?_⟩
  · rw [same, applied.outside q hq]
  · rw [same, applied.bytes]

/-! ### Messages -/

@[simp] theorem State.respond_core (s : State) (h : HomeId) (x : Response) (c : Nat) : (s.respond h x).2.core c = s.core c := by
  unfold State.respond
  split <;> rfl

/-- A core that has taken a message into its queue (R376). -/
def Core.takes (k : Core) (e : Message) (n : Nat) : Core :=
  { k with
    inbound := k.inbound ++ [e]
    handlers := k.handlers.map (fun h => if h.lslot == e.lslot then { h with accepted := (n + 1) % 2 ^ 32 } else h) }

theorem State.modCore_takes_exchange (s : State) (c : Nat) (e : Message) (n : Nat) :
    (s.modCore c (fun k => k.takes e n)).exchange = s.exchange :=
  s.modCore_exchange c _

/-- A destination that holds handlers of the launch and has room takes a message and answers it (R376). -/
theorem State.acceptMessage_takes {s : State} {x : Tx} {m : MessageReq} {lslot : Nat} (crew : CrewRef) (handler : Nat)
    (hp : s.inPartition (((s.launch? lslot).map (fun l => l.ctx)).getD 0) m.dest = true)
    (hh : (s.core m.dest).handlers.any (fun h => h.lslot == lslot) = true) (hn : (s.core m.dest).inbound.length < 64) :
    ∃ e n r f, s.acceptMessage x m crew lslot handler =
        some (((s.modCore m.dest (fun k => k.takes e n)).respond x.home r).2.answerTx x (.accepted true) f) ∧
      (∀ y : Tx, (f y).id = y.id) ∧ e.lslot = lslot ∧ e.handler = handler ∧ e.src = crew.core ∧ e.payload = m.payload := by
  have room : ¬ 64 ≤ (s.core m.dest).inbound.length := by omega
  simp only [State.acceptMessage, hp, hh, room, Bool.not_true, Bool.or_self, Bool.false_eq_true, if_false, if_true]
  exact ⟨{ lslot := lslot, src := crew.core, handler := handler, seq := _, payload := m.payload, sig := _ }, _, _, _, rfl,
    fun _ => rfl, rfl, rfl, rfl, rfl⟩

/-- A destination that holds no handler of the launch refuses a message (R376). -/
theorem State.acceptMessage_refuses {s : State} {x : Tx} {m : MessageReq} {lslot : Nat} (crew : CrewRef) (handler : Nat)
    (hh : (s.inPartition (((s.launch? lslot).map (fun l => l.ctx)).getD 0) m.dest &&
      (s.core m.dest).handlers.any (fun h => h.lslot == lslot)) = false) :
    ∃ f, s.acceptMessage x m crew lslot handler = some (s.answerTx x (.accepted false) f) ∧ ∀ y : Tx, (f y).id = y.id := by
  rw [← Bool.not_eq_true', Bool.not_and] at hh
  simp only [State.acceptMessage, hh, if_true]
  exact ⟨_, rfl, fun _ => rfl⟩

theorem execAmsgAccept_answers (s : State) (x : Tx) (m : MessageReq) (crew : CrewRef) (lslot handler : Nat)
    (hx : s.tx s.sel.a = some x) (hr : x.req = .message m crew lslot handler) (hs : s.servable x = true) :
    let here := s.inPartition (((s.launch? lslot).map (fun l => l.ctx)).getD 0) m.dest &&
      (s.core m.dest).handlers.any (fun h => h.lslot == lslot)
    (here = true → (s.core m.dest).inbound.length < 64 →
      ∃ t y e, execAmsgAccept s = .next t ∧ SameMemory s t ∧ t.tx s.sel.a = some y ∧ y.answer = some (.accepted true) ∧
        (t.core m.dest).inbound = (s.core m.dest).inbound ++ [e] ∧ e.lslot = lslot ∧ e.handler = handler ∧
        e.src = crew.core ∧ e.payload = m.payload) ∧
    (here = false → ∃ t y, execAmsgAccept s = .next t ∧ SameMemory s t ∧ t.tx s.sel.a = some y ∧
      y.answer = some (.accepted false) ∧ (t.core m.dest).inbound = (s.core m.dest).inbound) := by
  intro here
  have step : ∀ t, s.acceptMessage x m crew lslot handler = some t → execAmsgAccept s = .next t := fun t ht => by
    simp only [execAmsgAccept, hx, hr, hs, if_true, ht, Option.getD_some]
  refine ⟨fun ha hn => ?_, fun hd => ?_⟩
  · obtain ⟨hp, hh⟩ := Bool.and_eq_true_iff.1 ha
    obtain ⟨e, n, r, f, taken, id, entry⟩ := State.acceptMessage_takes (x := x) crew handler hp hh hn
    have kept : ((s.modCore m.dest (fun k => k.takes e n)).respond x.home r).2.exchange = s.exchange :=
      (State.respond_exchange ..).trans (State.modCore_takes_exchange ..)
    have found := State.tx_answerTx ((State.tx_of_txs (State.txs_of_exchange kept) _).trans hx) (.accepted true) id
    refine ⟨_, _, e, step _ taken, sameMemory_of_ledger ?_, found, rfl, ?_, entry⟩
    · rw [State.answerTx_ledger, State.ledger_of_exchange kept]
    · rw [State.answerTx_core, State.respond_core, core_modCore]
      rfl
  · obtain ⟨f, refused, id⟩ := State.acceptMessage_refuses (x := x) crew handler hd
    exact ⟨_, _, step _ refused, sameMemory_of_ledger (State.answerTx_ledger ..), State.tx_answerTx hx (.accepted false) id,
      rfl, by rw [State.answerTx_core]⟩

end Sys2Proof.Machine
end

section

namespace Sys2Proof

open Machine Claims

/-- Settles O35: each request is served by its operation, whose bytes are those of a run performed at its home, and is
answered last. -/
theorem homesServeRequests : Obligations.HomesServeRequests := by
  unfold Obligations.HomesServeRequests
  exact ⟨execHomeServeRead_inside, execHomeServeRead_outside, execHomePerformWrite_performs, execHomePerformAtomic_performs,
    execAmsgAccept_answers⟩

end Sys2Proof
end

section
/-! ## The scene of an issue: what accesses and fences leave alone (R67, R81, R84, R211)

An access leaves its marks in homes, translations, copies and requests; in its crew it leaves tags, setters and results due.
The scene of a crew slot is the rest: an instruction whose other effects keep the scene has issued once its group retires. -/

open Sys2Proof Sys2Proof.Claims

namespace Sys2Proof.Machine

/-- A crew without what stands for its accesses: tags and held effects, setters with their slots, results due. -/
def Crew.settled (w : Crew) : Crew :=
  { w with regions := [], setters := [], loads := [], threads := w.threads.map (fun t => { t with sb := [] }) }

/-- The cycle, memory with the schedule, and the crews. -/
structure Scene where
  cycle : Nat
  ledger : Ledger
  crews : CrewRef → Crew

/-- The scene of a crew slot: that slot's crew is seen without what stands for its accesses. -/
def State.scene (r : CrewRef) (s : State) : Scene :=
  ⟨s.cycle, s.ledger, fun q => if q = r then (s.crew q).settled else s.crew q⟩

theorem State.scene_of_crews {s t : State} {r : CrewRef} (hc : t.cycle = s.cycle) (hl : t.ledger = s.ledger)
    (hq : ∀ q, q ≠ r → t.crew q = s.crew q) (hr : (t.crew r).settled = (s.crew r).settled) : t.scene r = s.scene r := by
  have crews : (fun q => if q = r then (t.crew q).settled else t.crew q) =
      fun q => if q = r then (s.crew q).settled else s.crew q := by
    funext q
    split
    · next h => rw [h, hr]
    · next h => exact hq q h
  simp only [State.scene, hc, hl, crews]

theorem State.scene_of_control {s t : State} (hc : t.control = s.control) (hl : t.ledger = s.ledger) (r : CrewRef) :
    t.scene r = s.scene r := by
  have crew : ∀ q, t.crew q = s.crew q := fun q => by
    have frame := congrArg Core.subs (State.core_of_control hc q.core)
    have subs : (t.core q.core).subs = (s.core q.core).subs := frame
    simp only [State.crew, State.sub, Core.sub, subs]
  exact State.scene_of_crews (congrArg Control.cycle hc) hl (fun q _ => crew q) (by rw [crew])

theorem State.modCore_scene (s : State) (c : Nat) (f : Core → Core) (r : CrewRef)
    (hf : ∀ k, (f k).scratch = k.scratch ∧ (f k).descs = k.descs := by exact fun _ => ⟨rfl, rfl⟩)
    (hs : ∀ k, (f k).subs = k.subs := by exact fun _ => rfl) : (s.modCore c f).scene r = s.scene r :=
  State.scene_of_crews rfl (s.modCore_ledger c f hf) (fun q _ => crew_modCore_same s c f q hs) (by rw [crew_modCore_same s c f r hs])

/-- A sub-core of which no crew changes. -/
theorem State.modSub_scene (s : State) (c b : Nat) (f : Sub → Sub) (r : CrewRef)
    (hf : ∀ x, (f x).crews = x.crews := by exact fun _ => rfl) : (s.modSub c b f).scene r = s.scene r :=
  State.scene_of_crews rfl (s.modSub_ledger c b f) (fun q _ => crew_modSub_same s c b f q hf) (by rw [crew_modSub_same s c b f r hf])

/-- A sub-core of which one crew changes, in what stands for its accesses alone. -/
theorem State.modSlot_scene (s : State) (r : CrewRef) (f : Sub → Sub) {g : Crew → Crew}
    (hf : ∀ x, (f x).crews = modifyAt x.crews r.slot g) (hg : ∀ w, (g w).settled = w.settled) :
    (s.modSub r.core r.sub f).scene r = s.scene r := by
  refine State.scene_of_crews rfl (s.modSub_ledger ..) (fun q hq => crew_modSub_slot_ne s r q f (fun x => ⟨g, hf x⟩) hq) ?_
  rw [State.crew, State.crew]
  rcases sub_modSub_cases s r.core r.sub r.core r.sub f with e | ⟨-, -, e⟩ <;> rw [e]
  rw [Sub.crew, Sub.crew, hf]
  by_cases h : r.slot < (s.sub r.core r.sub).crews.length
  · rw [modifyAt_getD_same _ _ _ _ h, hg]
  · rw [List.getD_eq_default _ _ (by simpa using h), List.getD_eq_default _ _ (by omega)]

theorem State.modCrew_scene (s : State) (r : CrewRef) {f : Crew → Crew} (hf : ∀ w, (f w).settled = w.settled) :
    (s.modCrew r f).scene r = s.scene r :=
  s.modSlot_scene r _ (fun _ => rfl) hf

/-! ### What a crew keeps for its accesses -/

theorem mapLanes_map {α : Type} (m : Mask) (f : Nat → Thread → Thread) (g : Thread → α) (h : ∀ l t, g (f l t) = g t) (l : Nat)
    (ts : List Thread) : (mapLanes m f l ts).map g = ts.map g := by
  induction ts generalizing l with
  | nil => rfl
  | cons t r ih =>
    rw [mapLanes, List.map_cons, ih, List.map_cons]
    split
    · rw [h]
    · rfl

@[simp] theorem Crew.addTags_settled (w : Crew) (ts : List Tag) : (w.addTags ts).settled = w.settled := by
  unfold Crew.addTags
  split <;> rfl

@[simp] theorem Crew.raise_settled (w : Crew) (slot : Nat) (m : Mask) : (w.raise slot m).settled = w.settled := by
  unfold Crew.raise
  split
  · rfl
  · refine congrArg (fun ts : List Thread => ({ w with regions := [], setters := [], loads := [], threads := ts } : Crew))
      (mapLanes_map m _ (fun t : Thread => { t with sb := [] }) ?_ 0 w.threads)
    exact fun _ _ => rfl

@[simp] theorem Crew.addSetter_settled (w : Crew) (id slot : Nat) (m : Mask) (left : Nat) :
    (w.addSetter id slot m left).settled = w.settled := by
  unfold Crew.addSetter
  split
  · rfl
  · exact w.raise_settled slot m

@[simp] theorem Crew.addTimed_settled (w : Crew) (id slot : Nat) (m : Mask) (due : Nat) :
    (w.addTimed id slot m due).settled = w.settled := by
  unfold Crew.addTimed
  split
  · rfl
  · exact w.raise_settled slot m

@[simp] theorem State.fresh_scene (s : State) (r : CrewRef) : s.fresh.2.scene r = s.scene r := rfl

@[simp] theorem State.setter_scene (s : State) (i : Issue) (slot parts : Nat) :
    (s.setter i slot parts).2.scene i.ref = s.scene i.ref :=
  (State.modCrew_scene _ _ fun w => w.addSetter_settled ..).trans (s.fresh_scene _)

@[simp] theorem State.sets_scene (s : State) (i : Issue) (slot : Nat) (m : Mask) (delay : Nat) :
    (s.sets i slot m delay).scene i.ref = s.scene i.ref := by
  unfold State.sets
  split
  · rfl
  · exact (State.modCrew_scene _ _ fun w => w.addTimed_settled ..).trans (s.fresh_scene _)

@[simp] theorem State.dropLd_scene (s : State) (r : CrewRef) : (s.dropLd r).scene r = s.scene r :=
  s.modSlot_scene r _ (fun _ => rfl) fun _ => rfl

/-! ### Translations used, and lines of homes and of L1 -/

@[simp] theorem State.reach_scene (s : State) (h : HomeId) (p : Loc) (page : Page) (write : Bool) (r : CrewRef) :
    (s.reach h p page write).2.scene r = s.scene r :=
  State.scene_of_control (s.reach_control ..) (State.ledger_of_exchange (s.reach_exchange ..)) r

@[simp] theorem State.respond_scene (s : State) (h : HomeId) (x : Response) (r : CrewRef) :
    (s.respond h x).2.scene r = s.scene r :=
  State.scene_of_control (s.respond_control ..) (State.ledger_of_exchange (s.respond_exchange ..)) r

@[simp] theorem State.walkReads_scene (s : State) (core : Nat) (l : List Nat) (r : CrewRef) :
    (s.walkReads core l).2.scene r = s.scene r := by
  induction l generalizing s with
  | nil => rfl
  | cons a l ih =>
    simp only [State.walkReads]
    rw [ih, State.respond_scene, State.reach_scene]

@[simp] theorem State.clusterPut_scene (s : State) (cl : Nat) (t : TlbEntry) (r : CrewRef) :
    (s.clusterPut cl t).scene r = s.scene r := rfl

@[simp] theorem State.fillTlb_scene (s : State) (core ctx va : Nat) (w : Walk) (pte : Nat) (r : CrewRef) :
    (s.fillTlb core ctx va w pte).2.scene r = s.scene r := by
  have put : ∀ (t : State) e, (t.modCore core (fun k => k.tlbPut e)).scene r = t.scene r := fun t e => t.modCore_scene ..
  simp only [State.fillTlb]
  (repeat' split) <;> simp [put]

@[simp] theorem State.lookTarget_scene (s : State) (r : CrewRef) (va : Nat) (t : Target) :
    (s.lookTarget r va t).scene r = s.scene r := by
  unfold State.lookTarget
  split
  · rfl
  · exact (State.modCrew_scene _ _ fun w => w.addTags_settled _).trans (s.fillTlb_scene ..)

@[simp] theorem State.l1Remove_scene (s : State) (c : Nat) (hit : Nat → Bool) (r : CrewRef) :
    (s.l1Remove c hit).scene r = s.scene r :=
  s.modCore_scene c (fun k => { k with l1 := k.l1.filter (fun x => !(hit x.line)) }) r

@[simp] theorem State.l2Back_scene (s : State) (p : Loc) (thg leave : Bool) (r : CrewRef) :
    (s.l2Back p thg leave).scene r = s.scene r := by
  have back : ∀ n line b, (s.l2WriteBack n line b).scene r = s.scene r := fun n line b =>
    State.scene_of_control (s.l2WriteBack_control ..) (State.ledger_of_exchange (s.l2WriteBack_exchange ..)) r
  have mod : ∀ n line f, (s.modLine n line f).scene r = s.scene r := fun _ _ _ => rfl
  have drop : ∀ n line, (s.l2Drop n line).scene r = s.scene r := fun _ _ => rfl
  unfold State.l2Back
  (repeat' split) <;> simp only [back, mod, drop]

/-! ### Requests made -/

@[simp] theorem State.inject_scene (s : State) (x : Tx) (reply : Bool) (flits : Nat) (r : CrewRef) :
    (s.inject x reply flits).scene r = s.scene r := by
  obtain ⟨l, e⟩ := s.inject_packets x reply flits
  rw [e]
  rfl

@[simp] theorem State.modTx_scene (s : State) (id : Nat) (f : Tx → Tx) (r : CrewRef) : (s.modTx id f).scene r = s.scene r := rfl

@[simp] theorem State.launchPacket_scene (s : State) (x : Tx) (r : CrewRef) : (s.launchPacket x).scene r = s.scene r := by
  unfold State.launchPacket
  split
  · split
    · rfl
    · simp
  · simp

@[simp] theorem State.signatureFor_scene (s : State) (x : Tx) (scope : Nat) (r : CrewRef) :
    (s.signatureFor x scope).2.scene r = s.scene r := by
  unfold State.signatureFor
  split
  · rfl
  · exact s.modCore_scene ..

@[simp] theorem State.leave_scene (s : State) (x : Tx) (r : CrewRef) : (s.leave x).scene r = s.scene r := by
  simp only [State.leave, State.launchPacket_scene]
  refine (State.modSub_scene _ _ _ _ r fun b => ?_).trans ?_
  · split <;> rfl
  · rw [State.modTx_scene]
    split <;> simp

@[simp] theorem State.send_scene (s : State) (x : Tx) (r : CrewRef) : (s.send x).scene r = s.scene r := by
  unfold State.send
  dsimp only
  split
  · exact (State.leave_scene ..).trans rfl
  · rfl

@[simp] theorem State.request_scene (s : State) (r : CrewRef) (m : Mask) (page : Page) (p : Loc) (req : Req) (after : List Nat)
    (wait back : Nat) (hold : Option Nat) (q : CrewRef) :
    (s.request r m page p req after wait back hold).scene q = s.scene q :=
  (State.send_scene ..).trans (s.fresh_scene q)

@[simp] theorem State.prefetch_scene (s : State) (i : Issue) (slot : Nat) (intoL1 : Bool) (acc : List Access) :
    (s.prefetch i slot intoL1 acc).scene i.ref = s.scene i.ref := by
  have asked : ∀ (l : List Access) (g : State → Access → State), (∀ t a, (g t a).scene i.ref = t.scene i.ref) → ∀ n,
      (l.foldl g (s.setter i slot n).2).scene i.ref = s.scene i.ref := fun l g hg n =>
    (foldl_view (State.scene i.ref) g hg l _).trans (s.setter_scene ..)
  unfold State.prefetch
  dsimp only
  generalize firstOfLine _ [] = lines
  split
  · exact asked _ _ (fun t a => t.request_scene ..) _
  · refine (State.modCrew_scene _ _ ?_).trans (asked _ _ (fun t a => t.request_scene ..) _)
    exact fun _ => rfl

/-! ### A group that retires in the scene it issued in -/

theorem hasCrew_of_crew {s : State} {r : CrewRef} (ht : (s.crew r).threads.length = 32) (hm : (s.crew r).map.length = 64) :
    s.hasCrew r = true := by
  have slot : s.HasSlot r := State.hasSlot_of_ne_idle fun e => by rw [e] at hm; cases hm
  exact (hasCrew_iff s r).2 ⟨slot.sub, slot.slot, ht, hm⟩

theorem SameElse.crew {s t : State} {r : CrewRef} (h : SameElse s t r) (q : CrewRef) (hq : q ≠ r) : t.crew q = s.crew q := by
  obtain ⟨c, b, k⟩ := q
  obtain ⟨rc, rb, rk⟩ := r
  by_cases hc : c = rc
  · subst hc
    by_cases hb : b = rb
    · subst hb
      exact h.crews k fun e => hq (by rw [show k = rk from e])
    · exact congrArg (fun x : Sub => x.crew k) (h.subs b hb)
  · simp only [State.crew, State.sub, h.cores c hc]

theorem Crew.settled_thread (w : Crew) (l : Nat) (h : l < w.threads.length) :
    w.settled.thread l = { w.thread l with sb := [] } := by
  simp [Crew.settled, Crew.thread, List.getD_eq_getElem?_getD, h]

/-- What a thread keeps beside its slots is seen in the settled crew. -/
theorem Crew.thread_of_settled {α : Type} {w v : Crew} (h : v.settled = w.settled) (l : Nat) (hl : l < w.threads.length)
    (g : Thread → α) (hg : ∀ t, g { t with sb := [] } = g t := by exact fun _ => rfl) : g (v.thread l) = g (w.thread l) := by
  have length : v.threads.length = w.threads.length := by
    simpa [Crew.settled] using congrArg (fun x : Crew => x.threads.length) h
  rw [← hg (v.thread l), ← Crew.settled_thread v l (by omega), h, Crew.settled_thread w l hl, hg]

theorem Crew.same_of_settled {w v : Crew} (h : v.settled = w.settled) : CrewSame w v := by
  have field : ∀ {α : Type} (g : Crew → α), (∀ x : Crew, g x.settled = g x) → g v = g w := fun g hg => by
    rw [← hg v, h, hg]
  constructor <;> exact field _ fun _ => rfl

@[simp] theorem State.drop_ledger (s : State) : s.drop.ledger = s.ledger := rfl
@[simp] theorem State.spend_ledger (s : State) : s.spend.ledger = s.ledger := rfl

theorem State.retire_sameMemory (s : State) (i : Issue) (moves : Bool) : SameMemory s (s.retire i moves) :=
  sameMemory_of_ledger (by simp [State.retire, State.retired, State.retiredWith])

theorem State.retire_core {α : Type} (s : State) (i : Issue) (moves : Bool) (c : Nat) (g : Core → α)
    (hg : ∀ k, g { k with subs := [] } = g k := by exact fun _ => rfl) : g ((s.retire i moves).core c) = g (s.core c) :=
  State.read_of_shell ((State.modSub_shell ..).trans (State.modCrew_shell ..)) c g hg

/-- An instruction that has kept the scene of its crew has issued once its group retires. -/
theorem State.retire_issued {s u : State} {i : Issue} (hs : s.hasCrew i.ref = true) (h : u.scene i.ref = s.scene i.ref)
    (moves : Bool) : Issued s (u.retire i moves) i ∧ SameMemory s (u.retire i moves) := by
  have crews := fun q => congrFun (congrArg Scene.crews h) q
  have others : ∀ q, q ≠ i.ref → u.crew q = s.crew q := fun q hq => by
    simpa only [State.scene, if_neg hq] using crews q
  have settled : (u.crew i.ref).settled = (s.crew i.ref).settled := by
    simpa only [State.scene, if_true] using crews i.ref
  obtain ⟨-, -, threads, map⟩ := (hasCrew_iff s i.ref).1 hs
  have maps : (u.crew i.ref).map = (s.crew i.ref).map := by
    simpa only [Crew.settled] using congrArg Crew.map settled
  have hu : u.hasCrew i.ref = true := by
    refine hasCrew_of_crew ?_ (by rw [maps, map])
    rw [← threads]
    simpa [Crew.settled] using congrArg (fun x : Crew => x.threads.length) settled
  have thread : ∀ {α : Type} (g : Thread → α), (∀ t, g { t with sb := [] } = g t) → ∀ l, l < 32 →
      g ((u.crew i.ref).thread l) = g ((s.crew i.ref).thread l) := fun g hg l hl =>
    Crew.thread_of_settled settled l (by omega) g hg
  obtain ⟨retired, ⟨regs, taint⟩, preds⟩ := retire_retired u i moves hu
  refine ⟨⟨retired.issue, retired.elsewhere.cycle.trans (congrArg Scene.cycle h),
    fun q hq => (retired.elsewhere.crew q hq).trans (others q hq), (Crew.same_of_settled settled).trans retired.crew,
    ⟨fun k => ?_, fun l hl => (taint l hl).trans (thread Thread.taint (fun _ => rfl) l hl)⟩,
    fun l hl => (preds l hl).trans (thread Thread.preds (fun _ => rfl) l hl), fun l hl => ?_,
    fun l hl => (retired.run l hl).trans (thread Thread.run (fun _ => rfl) l hl)⟩,
    sameMemory_trans (sameMemory_of_ledger (congrArg Scene.ledger h)) (State.retire_sameMemory ..)⟩
  · rw [regs k, Crew.reg, Crew.reg, maps]
  · rw [retired.pc l hl, thread Thread.pc (fun _ => rfl) l hl]

end Sys2Proof.Machine
end

section
/-! ## FENCE and CACHE (R102, R322, R323) -/

open Sys2Proof Sys2Proof.Claims

namespace Sys2Proof.Machine

/-! ### FENCE -/

theorem waitIn_crew (s : State) (i : Issue) (m : Mask) (q : RunState) (h : s.hasCrew i.ref = true) :
    (s.waitIn i m q).crew i.ref = (s.crew i.ref).setRun m q := by
  obtain ⟨-, slot, -⟩ := (hasCrew_iff s i.ref).1 h
  rw [State.waitIn, crew_drop, show s.modSub i.core i.sub = s.modSub i.ref.core i.ref.sub from rfl, crew_modSub _ _ _ h]
  dsimp only [Sub.crew]
  split_ifs <;> exact modifyAt_getD_same _ _ _ _ slot

/-- A group that waits in one run state stands where it was, with its registers and predicates. -/
theorem waitFor_heldIn (s : State) (i : Issue) (q : Hold) (h : s.hasCrew i.ref = true) :
    HeldIn s (s.waitFor i q) i i.part (fun _ => .release q) := by
  obtain ⟨-, -, threads, -⟩ := (hasCrew_iff s i.ref).1 h
  have waits : (s.waitFor i q).crew i.ref = (s.crew i.ref).setRun i.part (.release q) := waitIn_crew s i _ _ h
  have thread : ∀ l, l < 32 → ((s.waitFor i q).crew i.ref).thread l =
      if i.part.getLsbD l then { (s.crew i.ref).thread l with run := .release q } else (s.crew i.ref).thread l := fun l hl => by
    rw [waits, Crew.setRun, thread_modLanes _ _ _ _ (by omega)]
  refine ⟨rfl, sameMemory_of_ledger (by simp [State.waitFor, State.waitIn]), ⟨fun k => by rw [waits]; rfl, fun l hl => ?_⟩, fun l hl => ?_,
    fun l hl => ⟨?_, ?_⟩⟩
  all_goals rw [thread l hl]
  · split <;> rfl
  · split <;> rfl
  · cases i.part.getLsbD l <;> rfl
  · split <;> rfl

/-- A FENCE with no covered access left goes on, and beyond group scope empties its core's L1 (R98, R102). -/
theorem execFence_passes {f : M64} {s : State} {i : Issue} (h : s.issues i { mNeeds f [] [] with bare := true } = true)
    (hp : partM s i f ≠ 0) (h1 : (s.fenceBlocked i.ref (partM s i f) (f.hint == 1) f.scope.toNat).1 = false)
    (h2 : (s.fenceBlocked i.ref (partM s i f) (f.hint == 1) f.scope.toNat).2 = false) :
    ∃ t, execFence f s = .next t ∧ Issued s t i ∧ SameMemory s t ∧ (f.scope ≠ 0 → (t.core i.core).l1 = []) := by
  have part : (partM s i f == 0) = false := by simpa using hp
  unfold partM at *
  simp only [execFence, issueWith_ok _ h, part, h1, h2, Bool.false_eq_true, if_false]
  refine ⟨_, rfl, ?_⟩
  rw [← and_assoc]
  refine ⟨State.retire_issued (issues_hasCrew h) ?_ false, fun hs => ?_⟩
  · split
    · exact s.dropLd_scene _
    · exact (State.modCore_scene ..).trans ((State.l1Remove_scene ..).trans (s.dropLd_scene _))
  · rw [State.retire_core _ _ _ _ Core.l1, if_neg (by simpa using hs), core_modCore, State.l1Remove_core, core_modCore]
    simp

/-- While a request of its threads is covered, a FENCE's group waits (R102). -/
theorem execFence_waits {f : M64} {s : State} {i : Issue} (h : s.issues i { mNeeds f [] [] with bare := true } = true)
    (hp : partM s i f ≠ 0) (h1 : (s.fenceBlocked i.ref (partM s i f) (f.hint == 1) f.scope.toNat).1 = false)
    (h2 : (s.fenceBlocked i.ref (partM s i f) (f.hint == 1) f.scope.toNat).2 = true) :
    ∃ t, execFence f s = .next t ∧ HeldIn s t i i.part (fun _ => .release .fence) := by
  have part : (partM s i f == 0) = false := by simpa using hp
  unfold partM at *
  simp only [execFence, issueWith_ok _ h, part, h1, h2, Bool.false_eq_true, if_false, if_true]
  exact ⟨_, rfl, waitFor_heldIn s i .fence (issues_hasCrew h)⟩

/-! ### CACHE -/

/-- The access of a lane that resolves stands among those of its mask. -/
theorem mem_splitLanes {f : Nat → Except LaneTrap Access} {a : Access} {l : Nat} {ls : List Nat} (hl : l ∈ ls) (h : f l = .ok a) :
    a ∈ (splitLanes f ls).2 := by
  induction ls with
  | nil => cases hl
  | cons k r ih =>
    rcases List.mem_cons.1 hl with rfl | hr
    · simp [splitLanes, h]
    · have found := ih hr
      simp only [splitLanes]
      split
      · exact found
      · exact List.mem_cons_of_mem _ found

/-- Steps that add no line to an L1, each of which removes the line that its access names, leave no line named. -/
theorem foldl_l1_removes {c : Nat} {g : State → Access → State}
    (shrinks : ∀ st a y, y ∈ ((g st a).core c).l1 → y ∈ (st.core c).l1)
    (removes : ∀ st a x y, a.target.loc = .mem x → y ∈ ((g st a).core c).l1 → y.line ≠ x / 128) (acc : List Access) (s : State)
    {y : L1Line} (hy : y ∈ ((acc.foldl g s).core c).l1) {a : Access} (ha : a ∈ acc) {x : Nat} (hx : a.target.loc = .mem x) :
    y.line ≠ x / 128 := by
  have kept : ∀ (l : List Access) (st : State), y ∈ ((l.foldl g st).core c).l1 → y ∈ (st.core c).l1 := fun l => by
    induction l with
    | nil => exact fun _ h => h
    | cons b r ih => exact fun st h => shrinks st b y (ih _ h)
  induction acc generalizing s with
  | nil => cases ha
  | cons b r ih =>
    rcases List.mem_cons.1 ha with rfl | hr
    · exact removes s a x y hx (kept r _ hy)
    · exact ih _ hy hr

theorem State.mem_l1Remove {s : State} {c : Nat} {hit : Nat → Bool} {y : L1Line} (h : y ∈ ((s.l1Remove c hit).core c).l1) :
    y ∈ (s.core c).l1 ∧ hit y.line = false := by
  rw [State.l1Remove_core, core_modCore] at h
  simpa using h

theorem State.sets_core {α : Type} (s : State) (i : Issue) (slot : Nat) (m : Mask) (delay c : Nat) (g : Core → α)
    (hg : ∀ k, g { k with subs := [] } = g k := by exact fun _ => rfl) : g ((s.sets i slot m delay).core c) = g (s.core c) := by
  unfold State.sets
  split
  · rfl
  · exact State.read_of_shell ((State.modCrew_shell ..).trans rfl) c g hg

theorem execCache_goes (f : M64) (s : State) (i : Issue) (h : s.issues i (mNeeds f (pairRegs f.a.toNat) []) = true)
    (hp : partM s i f ≠ 0) : ∃ t, execCache f s = .next t ∧ Issued s t i ∧ SameMemory s t ∧
      (f.sx = 0 → f.hint = 0 → ∀ l x a, l < 32 → (partM s i f).getLsbD l = true →
        s.resolve i.ref l .load (s.addr i f l) 1 = .ok x → x.loc = .mem a → ∀ y ∈ (t.core i.core).l1, y.line ≠ a / 128) ∧
      (f.sx = 0 → f.hint = 1 → (t.core i.core).l1 = []) := by
  have part : (partM s i f == 0) = false := by simpa using hp
  have hc := issues_hasCrew h
  unfold partM at *
  simp only [execCache, issueWith_ok _ h, part, Bool.false_eq_true, if_false]
  refine ⟨_, rfl, ?_⟩
  rw [← and_assoc]
  refine ⟨State.retire_issued hc ?_ false, fun hx hh l x a hl hm hr ha y hy => ?_, fun hx hh => ?_⟩
  · have looked : ∀ acc : List Access,
        (acc.foldl (fun (st : State) x => st.lookTarget i.ref x.va x.target) s).scene i.ref = s.scene i.ref := fun acc =>
      foldl_view (State.scene i.ref) _ (fun st x => st.lookTarget_scene ..) acc s
    have back : ∀ (leave : Bool) (acc : List Access) (t : State),
        (acc.foldl (fun (st : State) a => st.l2Back a.target.loc a.target.page.thg leave) t).scene i.ref = t.scene i.ref :=
      fun leave acc t => foldl_view (State.scene i.ref) _ (fun st a => st.l2Back_scene ..) acc t
    split
    · refine (State.sets_scene ..).trans ((foldl_view (State.scene i.ref) _ (fun st a => ?_) _ _).trans (looked _))
      split
      · exact st.l1Remove_scene ..
      · rfl
    · rw [State.sets_scene, State.l1Remove_scene, looked]
    · rw [State.prefetch_scene, looked]
    · rw [State.prefetch_scene, looked]
    · rw [State.sets_scene, back, looked]
    · rw [State.sets_scene, back, looked]
  · have op : f.sx.toNat * 4 + f.hint.toNat = 0 := by simp [hx, hh]
    have named : (⟨l, s.addr i f l, x⟩ : Access) ∈ (splitLanes (s.quietAccess i f)
        ((s.crew i.ref).effective i.part f.pred.toNat (f.pn == 1)).lanes).2 :=
      mem_splitLanes ((Mask.mem_lanes _ _).2 ⟨hl, hm⟩) (by simp only [State.quietAccess, hr])
    rw [State.retire_core _ _ _ _ Core.l1] at hy
    simp only [op] at hy
    rw [State.sets_core _ _ _ _ _ _ Core.l1] at hy
    refine foldl_l1_removes (fun st b z hz => ?_) (fun st b v z hb hz => ?_) _ _ hy named ha
    · split at hz
      · exact (State.mem_l1Remove hz).1
      · exact hz
    · rw [hb] at hz
      simpa using (State.mem_l1Remove hz).2
  · have op : f.sx.toNat * 4 + f.hint.toNat = 1 := by simp [hx, hh]
    rw [State.retire_core _ _ _ _ Core.l1]
    simp only [op]
    rw [State.sets_core _ _ _ _ _ _ Core.l1]
    exact List.eq_nil_iff_forall_not_mem.2 fun y hy => by simpa using (State.mem_l1Remove hy).2

end Sys2Proof.Machine
end

section

namespace Sys2Proof

open Machine Claims

/-- Settles O23: a FENCE and a CACHE keep the scene of their crew, and what they take from L1 stays taken as the group
retires. -/
theorem fencesAndCacheOperations : Obligations.FencesAndCacheOperations := by
  unfold Obligations.FencesAndCacheOperations
  exact ⟨fun _ _ _ h hp => ⟨execFence_passes h hp, execFence_waits h hp⟩, execCache_goes⟩

end Sys2Proof
end

section
/-! ## Register instructions of FP32 arithmetic (R222, R230, R243, R255, R256)

Each is the shared operation of a register instruction, `State.alu`, in one of three forms. The modifiers of the two narrow
forms are read here from their expansions. -/

open Sys2Proof Sys2Proof.Claims

namespace Sys2Proof.Machine

/-- An instruction that executes as the shared register operation is a register instruction with its result (R243). -/
theorem regOp_of_alu {ins : Instr} {op : BitVec 7} {f : L64} {ua ub uc memo : Bool} {r res : Srcs → Content × Mask} {lat : Nat}
    (exec_eq : ∀ s, exec ins s = s.alu op f ua ub uc memo r lat) (same : r = res) : RegOp ins op f ua ub uc memo res := by
  subst same
  intro s i x h hx
  rw [exec_eq]
  exact alu_spec s i op f ua ub uc memo r lat x h hx

/-- The C field of a short form's expansion holds the upper three bits of its modifier (R222). -/
theorem cbit_short (sh : Shape) (f : S32) (k : Nat) (h : k < 3) : cbit (f.expand sh) k = f.mod.getLsbD (2 + k) := by
  simp only [cbit, S32.expand, BitVec.getLsbD_setWidth, BitVec.getLsbD_extractLsb', h, show k < 7 by omega, decide_true,
    Bool.true_and]

@[simp] theorem cbit_compact (isMov : Bool) (c : BitVec 7) (f : C16) (k : Nat) : cbit (f.expand isMov c) k = c.getLsbD k := rfl

/-- A compact form has no MX, and its expansion rounds to nearest (R129, R230). -/
@[simp] theorem mxMode_compact (isMov : Bool) (c : BitVec 7) (f : C16) : mxMode (f.expand isMov c) = .rn := rfl

@[simp] theorem negIf_false (w : Word) : negIf false w = fval w := rfl
@[simp] theorem negIf_true (w : Word) : negIf true w = (fval w).neg := rfl

end Sys2Proof.Machine
end

section

namespace Sys2Proof

open Machine Claims

/-- Settles O6: every form executes as the shared register operation. The 64-bit forms have their result by definition, the
32-bit and compact forms once their modifiers are read from the expansion. -/
theorem floatArithmetic : Obligations.FloatArithmetic := by
  unfold Obligations.FloatArithmetic
  refine ⟨?fadd, ?faddS32, ?faddC16, ?fsubC16, ?fmul, ?fmulS32, ?fmulC16, ?ffma, ?ffms, ?fnma, ?fmin, ?fminS32, ?fminC16,
    ?fmax, ?fmaxS32, ?fmaxC16⟩ <;> intro f <;> refine regOp_of_alu (fun _ => rfl) ?_
  case fadd | fmul | ffma | ffms | fnma | fmin | fmax => rfl
  case faddS32 => simp [faddRes, cbit_short]
  case fmulS32 => simp [fmulRes, cbit_short]
  case fminS32 => simp [fminRes, cbit_short]
  case fmaxS32 => simp [fmaxRes, cbit_short]
  case faddC16 | fsubC16 => simp [faddRes]
  case fmulC16 => simp [fmulRes]
  case fminC16 => simp [fminRes]
  case fmaxC16 => simp [fmaxRes]

end Sys2Proof
end

section
/-! ## TRY (R177, R290) -/

open Sys2Proof Sys2Proof.Claims

namespace Sys2Proof.Machine

/-! ### The slot of an instruction -/

/-- What raising an instruction's slot changes of its crew: its setters, and the scoreboards of its threads (R211). -/
structure SlotRaised (w v : Crew) : Prop where
  crew : v = { w with setters := v.setters, threads := v.threads }
  threads : v.threads.map (fun t => { t with sb := [] }) = w.threads.map (fun t => { t with sb := [] })

theorem SlotRaised.refl (w : Crew) : SlotRaised w w := ⟨rfl, rfl⟩

/-- What threads keep beside their scoreboards stays. -/
theorem SlotRaised.map {w v : Crew} {α : Type} (h : SlotRaised w v) (g : Thread → α)
    (hg : ∀ t, g { t with sb := [] } = g t := by exact fun _ => rfl) : v.threads.map g = w.threads.map g := by
  have e := congrArg (List.map g) h.threads
  simpa only [List.map_map, Function.comp_def, hg] using e

theorem SlotRaised.thread {w v : Crew} {α : Type} (h : SlotRaised w v) (l : Nat) (g : Thread → α)
    (hg : ∀ t, g { t with sb := [] } = g t := by exact fun _ => rfl) : g (v.thread l) = g (w.thread l) := by
  have e := congrArg (fun ts : List α => ts.getD l (g Thread.idle)) (h.map g hg)
  simpa only [Crew.thread, List.getD_eq_getElem?_getD, List.getElem?_map, Option.getD_map] using e

theorem Crew.addTimed_raises (w : Crew) (id slot : Nat) (m : Mask) (due : Nat) : SlotRaised w (w.addTimed id slot m due) := by
  refine ⟨?_, congrArg Crew.threads (w.addTimed_settled id slot m due)⟩
  unfold Crew.addTimed Crew.raise
  split <;> rfl

theorem sets_raises (s : State) (i : Issue) (slot : Nat) (m : Mask) (n : Nat) (h : s.hasCrew i.ref = true) :
    SameElse s (s.sets i slot m n) i.ref ∧ SlotRaised (s.crew i.ref) ((s.sets i slot m n).crew i.ref) := by
  have hf : s.fresh.2.hasCrew i.ref = true := h
  unfold State.sets
  split
  · exact ⟨.refl s _, .refl _⟩
  · refine ⟨(SameElse.fresh s _).trans (SameElse.modCrew _ _ _ hf), ?_⟩
    rw [crew_modCrew _ _ _ hf]
    exact Crew.addTimed_raises ..

theorem SlotRaised.sameRegs {w v : Crew} (h : SlotRaised w v) : SameRegs w v :=
  ⟨fun k => by rw [h.crew]; rfl, fun l _ => h.thread l Thread.taint⟩

theorem SlotRaised.samePreds {w v : Crew} (h : SlotRaised w v) : SamePreds w v := fun l _ => h.thread l Thread.preds

/-- A head stays taken when a slot is raised after it. -/
theorem tookHead_raised {w v u : Crew} {cycle : Nat} (h : TookHead w v cycle) (r : SlotRaised v u) : TookHead w u cycle := by
  have regions : u.regions = v.regions := by rw [r.crew]
  have map : u.map = v.map := by rw [r.crew]
  have pinned : u.pinned = v.pinned := by rw [r.crew]
  have retired : u.retired = v.retired := by rw [r.crew]
  simpa only [TookHead, regions, map, pinned, retired, r.map Thread.pc, r.map Thread.preds, r.map Thread.run] using h

/-! ### A register written before a head -/

/-- The credits that a region holds play no part in what a head says of it. -/
theorem tookHead_of_credits {w u v : Crew} {cycle : Nat} (h : TookHead u v cycle)
    (e : u.regions.map (fun g => { g with credits := [] }) = w.regions.map (fun g => { g with credits := [] })) :
    TookHead w v cycle := by
  obtain ⟨length, pinned, retired, closes, opens⟩ := h
  have same : u.regions.length = w.regions.length := by simpa using congrArg List.length e
  refine ⟨by omega, pinned, retired, fun g hg => ?_, opens⟩
  have last := congrArg List.getLast? e
  rw [List.getLast?_map, List.getLast?_map, hg, Option.map_some, Option.map_eq_some_iff] at last
  obtain ⟨q, hq, fields⟩ := last
  obtain ⟨x, hx, closed, id, effects, entries⟩ := closes q hq
  rw [Region.mk.injEq] at fields
  obtain ⟨sameId, -, -, sameEffects, sameEntries, -⟩ := fields
  exact ⟨x, same ▸ hx, closed, id.trans sameId, effects.trans sameEffects, entries.trans sameEntries⟩

theorem sameRegs_trans {w v u : Crew} (h : SameRegs w v) (k : SameRegs v u) : SameRegs w u :=
  ⟨fun n => (k.1 n).trans (h.1 n), fun l hl => (k.2 l hl).trans (h.2 l hl)⟩

theorem samePreds_trans {w v u : Crew} (h : SamePreds w v) (k : SamePreds v u) : SamePreds w u :=
  fun l hl => (k l hl).trans (h l hl)

theorem OneReg.followed {w v u : Crew} {d : Nat} {m : Mask} {val : Nat → Word} (h : OneReg w v d m val) (k : SameRegs v u) :
    OneReg w u d m val :=
  ⟨fun hd l hl => by rw [k.1]; exact h.dest hd l hl, fun n hn => (k.1 n).trans (h.others n hn),
    fun l n hl hn => by rw [k.2 l hl]; exact h.taints l n hl hn⟩

theorem RegWritten.oneReg {w v : Crew} {k : Nat} {m : Mask} {c : Content} {taint : Mask} (h : RegWritten w v k m c taint) :
    OneReg w v k m (fun l => lane c l) :=
  ⟨fun _ l hl => by rw [h.content, lane_mergeLanes _ _ _ _ hl], h.others, fun l n _ hn => h.taints l n hn⟩

theorem lane_zeroContent (l : Nat) : lane zeroContent l = 0 := by
  rw [lane, zeroContent, List.getD_eq_getElem?_getD, List.getElem?_replicate]
  split <;> rfl

/-! ### Opening a gambit -/

/-- The gambit that a TRY opens (R177, R290). -/
def openedGambit (f : K64) (i : Issue) (part : Mask) : Gambit :=
  { crewKind := f.imm.getLsbD 0, lanes := part, fail := i.pc + (f.imm &&& 0xFFFFFFFE#32).signExtend 64, code := f.d.toNat,
    count := 0, buffer := [], records := [], counts := [] }

/-- A TRY's group has retired, and its lanes are in gambit. -/
def State.tried (s : State) (f : K64) (i : Issue) (part : Mask) : State :=
  (s.retire i false).modCrew i.ref (fun w => { w with gambit := some (openedGambit f i part) })

theorem tryWith_ok {s : State} {i : Issue} {f : K64}
    (h : s.issues i { kNeeds f [f.d.toNat] [f.d.toNat] with bare := true, head := true, opens := true } = true)
    (hp : partK s i f ≠ 0) :
    s.tryWith f = .next ((((s.writeReg i.ref f.d.toNat (partK s i f) zeroContent 0).tried f i (partK s i f)).head i.ref).sets i
      (slotOf f.sbs) (partK s i f) 4) := by
  have part : s.eff i f.pred f.pn ≠ 0 := hp
  rw [State.tryWith, issueWith_ok _ h]
  simp only [beq_iff_eq, part, if_false]
  rfl

/-- What TRY's head says of the crew that retired it. -/
theorem State.tried_head (s : State) (f : K64) (i : Issue) (part : Mask) (hc : s.hasCrew i.ref = true) :
    ((s.tried f i part).head i.ref).hasCrew i.ref = true ∧ SameElse s ((s.tried f i part).head i.ref) i.ref ∧
      SameRegs (s.crew i.ref) (((s.tried f i part).head i.ref).crew i.ref) ∧
      SamePreds (s.crew i.ref) (((s.tried f i part).head i.ref).crew i.ref) ∧
      TookHead (s.crew i.ref) (((s.tried f i part).head i.ref).crew i.ref) s.cycle ∧
      (((s.tried f i part).head i.ref).crew i.ref).gambit = some (openedGambit f i part) := by
  have hr := retire_hasCrew s i false hc
  obtain ⟨-, -, r32, r64⟩ := (hasCrew_iff _ i.ref).1 hr
  obtain ⟨r, regs, preds⟩ := retire_retired s i false hc
  obtain ⟨tn, rn, e⟩ := retire_crew_fields s i false hc
  have ht : (s.tried f i part).hasCrew i.ref = true := modCrew_hasCrew _ _ _ hr r32 r64
  have crew : (s.tried f i part).crew i.ref =
      { (s.retire i false).crew i.ref with gambit := some (openedGambit f i part) } := crew_modCrew _ _ _ hr
  have regions : ((s.tried f i part).crew i.ref).regions = (s.crew i.ref).regions := by rw [crew, e]; rfl
  have took := ((s.tried f i part).crew i.ref).head_tookHead (s.tried f i part).nextId (s.tried f i part).cycle
    ((s.tried f i part).keep i.ref).side
  have else_ : SameElse s (s.tried f i part) i.ref := r.elsewhere.trans (SameElse.modCrew _ _ _ hr)
  rw [else_.cycle] at took
  have headed := head_crew _ _ ht
  refine ⟨hasCrew_of_crew ?_ ?_, else_.trans (head_sameElse _ _ ht), ?_⟩
  · rw [headed, Crew.head_threads, crew]; exact r32
  · rw [headed, Crew.head_map, crew]; exact r64
  rw [headed, else_.cycle]
  refine ⟨?_, ?_, tookHead_of_credits took (by rw [regions]), by rw [crew]; rfl⟩
  · rw [crew]; exact sameRegs_congr regs rfl rfl
  · rw [crew]; exact samePreds_congr preds rfl

theorem tryWith_opens {s : State} {i : Issue} {f : K64} (hd : f.d.toNat < 64)
    (h : s.issues i { kNeeds f [f.d.toNat] [f.d.toNat] with bare := true, head := true, opens := true } = true)
    (hp : partK s i f ≠ 0) :
    ∃ t, s.tryWith f = .next t ∧ SameElse s t i.ref ∧ SamePreds (s.crew i.ref) (t.crew i.ref) ∧
      OneReg (s.crew i.ref) (t.crew i.ref) f.d.toNat (partK s i f) (fun _ => 0) ∧
      TookHead (s.crew i.ref) (t.crew i.ref) s.cycle ∧ (t.crew i.ref).gambit = some (openedGambit f i (partK s i f)) := by
  have hc := issues_hasCrew h
  obtain ⟨wElse, written, -⟩ := writeReg_spec s i.ref f.d.toNat (partK s i f) zeroContent 0 true hc hd
  have hw := writeReg_hasCrew s i.ref f.d.toNat (partK s i f) zeroContent 0 true hc hd
  refine ⟨_, tryWith_ok h hp, ?_⟩
  generalize s.writeReg i.ref f.d.toNat (partK s i f) zeroContent 0 = u at *
  obtain ⟨hh, tElse, regs, preds, took, gambit⟩ := u.tried_head f i (partK s i f) hw
  generalize (u.tried f i (partK s i f)).head i.ref = v at *
  obtain ⟨sElse, raised⟩ := sets_raises v i (slotOf f.sbs) (partK s i f) 4 hh
  have zero : (fun l => lane zeroContent l) = fun _ => (0 : Word) := funext lane_zeroContent
  refine ⟨wElse.trans (tElse.trans sElse), ?_, ?_, ?_, ?_⟩
  · exact samePreds_trans (fun l _ => written.preds l) (samePreds_trans preds raised.samePreds)
  · exact zero ▸ written.oneReg.followed (sameRegs_trans regs raised.sameRegs)
  · exact wElse.cycle ▸ tookHead_raised (tookHead_of_credits took written.regions) raised
  · rw [raised.crew]; exact gambit

end Sys2Proof.Machine
end

section
/-! ## COMMIT (R184) -/

open Sys2Proof Sys2Proof.Claims

namespace Sys2Proof.Machine

/-- Retiring counts an instruction in the open gambit, and changes no more of it. -/
theorem retire_gambit {s : State} {i : Issue} {g : Gambit} (moves : Bool) (hc : s.hasCrew i.ref = true)
    (hg : (s.crew i.ref).gambit = some g) : ∃ n, ((s.retire i moves).crew i.ref).gambit = some { g with count := n } := by
  obtain ⟨tn, rn, e⟩ := retire_crew_fields s i moves hc
  rw [e, hg, Option.map_some]
  split
  · exact ⟨_, rfl⟩
  · exact ⟨g.count, rfl⟩

/-- What lanes that commit change of their crew: the gambit loses them, and the stores that they held stand in the crew's
current region (R184). -/
structure CommittedTo (w v : Crew) (g : Gambit) (m : Mask) : Prop where
  regs : SameRegs w v
  preds : SamePreds w v
  lanes : v.inGambit = g.lanes &&& ~~~ m
  length : v.regions.length = w.regions.length
  hands : ∀ q, w.regions.getLast? = some q → ∃ h, v.regions[w.regions.length - 1]? = some h ∧
    h.effects = q.effects ++ (handedStores g m).map Effect.store

theorem Crew.commitLanes_inGambit {w : Crew} {g : Gambit} (hg : w.gambit = some g) (m : Mask) :
    (w.commitLanes m).inGambit = g.lanes &&& ~~~ m := by
  rw [Crew.commitLanes, hg]
  by_cases h : (g.leave m).lanes = 0
  · simp only [h, beq_self_eq_true, if_true]
    exact h.symm
  · simp only [beq_iff_eq, h, if_false]
    rfl

theorem Crew.commitLanes_committed {w : Crew} {g : Gambit} (hg : w.gambit = some g) (m : Mask) :
    CommittedTo w (w.commitLanes m) g m := by
  refine ⟨?_, ?_, Crew.commitLanes_inGambit hg m, ?_, fun q hq => ?_⟩ <;> rw [Crew.commitLanes, hg]
  · exact ⟨fun _ => rfl, fun _ _ => rfl⟩
  · exact fun _ _ => rfl
  · exact modifyAt_length ..
  · rw [List.getLast?_eq_getElem?] at hq
    simp only [Crew.modRegion]
    rw [modifyAt_getElem?, if_pos rfl, hq]
    exact ⟨_, rfl, rfl⟩

/-- The state after lanes have committed, before the head that closes their gambit. -/
def State.committed (s : State) (i : Issue) (m : Mask) : State := (s.retire i false).modCrew i.ref (fun w => w.commitLanes m)

/-- The close of a gambit is a head (R184). -/
def State.headIfClosed (s : State) (r : CrewRef) : State := if (s.crew r).gambit.isNone then s.head r else s

theorem commitWith_ok {s : State} {i : Issue} {f : L64} {g : Gambit} (h : s.issues i (lNeeds f [] []) = true)
    (hg : (s.crew i.ref).gambit = some g) (hp : partL s i f &&& g.lanes ≠ 0)
    (room : (s.crew i.ref).entriesUsed + (handedStores g (commitClosure g 32 (partL s i f &&& g.lanes))).length ≤
      Config.quarantineEntries) (hh : (s.crew i.ref).canHead = true) :
    s.commitWith f = .next ((s.committed i (commitClosure g 32 (partL s i f &&& g.lanes))).headIfClosed i.ref) := by
  have mine : s.eff i f.pred f.pn &&& (s.crew i.ref).inGambit = partL s i f &&& g.lanes := by
    rw [Crew.inGambit, hg]; rfl
  have goes : s.commitWait i (commitClosure g 32 (partL s i f &&& g.lanes)) = none := by
    rw [State.commitWait, hg]
    simp only [hh, Bool.not_true, Bool.and_false, Bool.false_eq_true, if_false, if_neg (Nat.not_lt.2 room)]
  rw [State.commitWith, issueWith_ok _ h]
  simp only [mine, beq_iff_eq, hp, if_false, hg, goes]
  rfl

theorem State.committed_spec {s : State} {i : Issue} {g : Gambit} (m : Mask) (hc : s.hasCrew i.ref = true)
    (hg : (s.crew i.ref).gambit = some g) : (s.committed i m).hasCrew i.ref = true ∧ SameElse s (s.committed i m) i.ref ∧
      CommittedTo (s.crew i.ref) ((s.committed i m).crew i.ref) g m := by
  have hr := retire_hasCrew s i false hc
  obtain ⟨-, -, r32, r64⟩ := (hasCrew_iff _ i.ref).1 hr
  obtain ⟨r, regs, preds⟩ := retire_retired s i false hc
  obtain ⟨n, gambit⟩ := retire_gambit false hc hg
  obtain ⟨tn, rn, e⟩ := retire_crew_fields s i false hc
  have regions : ((s.retire i false).crew i.ref).regions = (s.crew i.ref).regions := by rw [e]; rfl
  have crew : (s.committed i m).crew i.ref = ((s.retire i false).crew i.ref).commitLanes m := crew_modCrew _ _ _ hr
  have c := Crew.commitLanes_committed gambit m
  have plain : (((s.retire i false).crew i.ref).commitLanes m).threads = ((s.retire i false).crew i.ref).threads ∧
      (((s.retire i false).crew i.ref).commitLanes m).map = ((s.retire i false).crew i.ref).map := by
    rw [Crew.commitLanes, gambit]; exact ⟨rfl, rfl⟩
  refine ⟨modCrew_hasCrew _ _ _ hr (by rw [plain.1, r32]) (by rw [plain.2, r64]),
    r.elsewhere.trans (SameElse.modCrew _ _ _ hr), ?_⟩
  rw [crew]
  exact ⟨sameRegs_trans regs c.regs, samePreds_trans preds c.preds, c.lanes, c.length.trans (by rw [regions]),
    regions ▸ c.hands⟩

/-- The head that closes a gambit leaves the lanes' stores in the region it closes. -/
theorem CommittedTo.head {w v : Crew} {g : Gambit} {m : Mask} (c : CommittedTo w v g m) (id cycle : Nat) (side : SideBuffer) :
    SameRegs w (v.head id cycle side) ∧ SamePreds w (v.head id cycle side) ∧
      (v.head id cycle side).inGambit = g.lanes &&& ~~~ m ∧ ∀ q, w.regions.getLast? = some q →
        ∃ h, (v.head id cycle side).regions[w.regions.length - 1]? = some h ∧
          h.effects = q.effects ++ (handedStores g m).map Effect.store := by
  refine ⟨sameRegs_congr c.regs rfl rfl, samePreds_congr c.preds rfl, c.lanes, fun q hq => ?_⟩
  obtain ⟨h, at_, effects⟩ := c.hands q hq
  have last : v.regions.getLast? = some h := by rw [List.getLast?_eq_getElem?, c.length, at_]
  have closes := v.head_closes id cycle side h last
  rw [c.length] at closes
  exact ⟨_, closes, effects⟩

theorem commitWith_hands {s : State} {i : Issue} {f : L64} {g : Gambit} (h : s.issues i (lNeeds f [] []) = true)
    (hg : (s.crew i.ref).gambit = some g) (hp : partL s i f &&& g.lanes ≠ 0) :
    let m := commitClosure g 32 (partL s i f &&& g.lanes)
    (s.crew i.ref).entriesUsed + (handedStores g m).length ≤ Config.quarantineEntries →
    (s.crew i.ref).canHead = true → ∀ q, (s.crew i.ref).regions.getLast? = some q →
    ∃ t, s.commitWith f = .next t ∧ SameElse s t i.ref ∧ SameRegs (s.crew i.ref) (t.crew i.ref) ∧
      SamePreds (s.crew i.ref) (t.crew i.ref) ∧ (t.crew i.ref).inGambit = g.lanes &&& ~~~ m ∧
      ∃ h, (t.crew i.ref).regions[(s.crew i.ref).regions.length - 1]? = some h ∧
        h.effects = q.effects ++ (handedStores g m).map Effect.store := by
  intro m room hh q hq
  obtain ⟨hc, else_, c⟩ := State.committed_spec m (issues_hasCrew h) hg
  refine ⟨_, commitWith_ok h hg hp room hh, ?_⟩
  rw [State.headIfClosed]
  split
  · obtain ⟨regs, preds, lanes, hands⟩ := c.head (s.committed i m).nextId (s.committed i m).cycle
      ((s.committed i m).keep i.ref).side
    rw [head_crew _ _ hc]
    exact ⟨else_.trans (head_sameElse _ _ hc), regs, preds, lanes, hands q hq⟩
  · exact ⟨else_, c.regs, c.preds, c.lanes, c.hands q hq⟩

theorem commitWith_retires {s : State} {i : Issue} {f : L64} (h : s.issues i (lNeeds f [] []) = true)
    (hp : partL s i f &&& (s.crew i.ref).inGambit = 0) :
    ∃ t, s.commitWith f = .next t ∧ Retired s t i ∧ SameRegs (s.crew i.ref) (t.crew i.ref) ∧
      SamePreds (s.crew i.ref) (t.crew i.ref) := by
  refine ⟨_, issueWith_ok _ h, ?_⟩
  have none_ : s.eff i f.pred f.pn &&& (s.crew i.ref).inGambit = 0 := hp
  simp only [none_, beq_self_eq_true, if_true]
  exact retire_retired s i false (issues_hasCrew h)

end Sys2Proof.Machine
end

section
/-! ## ABORT (R183, R184, R291) -/

open Sys2Proof Sys2Proof.Claims

namespace Sys2Proof.Machine

/-! ### Lanes that abort together -/

theorem foldl_bit_mono {α : Type} (g : Mask → α → Mask) {l : Nat} (hg : ∀ m x, m.getLsbD l = true → (g m x).getLsbD l = true)
    (xs : List α) (m : Mask) (h : m.getLsbD l = true) : (xs.foldl g m).getLsbD l = true := by
  induction xs generalizing m with
  | nil => exact h
  | cons x xs ih => exact ih _ (hg m x h)

/-- A lane in gambit that aborts is among those that abort together with it (R181, R182). -/
theorem abortClosure_mono {g : Gambit} {l : Nat} (n : Nat) {ab : Mask} (h : ab.getLsbD l = true) (hg : g.lanes.getLsbD l = true) :
    (abortClosure g n ab).getLsbD l = true := by
  induction n generalizing ab with
  | zero => exact h
  | succ n ih =>
    rw [abortClosure]
    split
    · rw [if_neg (by simpa using Mask.ne_zero_of_getLsbD h)]
      exact hg
    · refine ih (foldl_bit_mono _ (fun m e hm => ?_) _ _ h)
      split
      · rw [BitVec.getLsbD_or, hm, Bool.true_or]
      · exact hm

/-! ### Registers rolled back -/

/-- A rollback changes of a sub-core's crews the map of one alone (R183). -/
theorem Sub.rollback_crews (b : Sub) (slot : Nat) (ab : Mask) (was : List PhysReg) (ks : List Nat) :
    ∃ f : List PhysReg → List PhysReg, (∀ m, (f m).length = m.length) ∧
      (b.rollback slot ab was ks).crews = modifyAt b.crews slot (fun w => { w with map := f w.map }) ∧
      (b.rollback slot ab was ks).keep = b.keep ∧ (b.rollback slot ab was ks).blocks = b.blocks := by
  induction ks generalizing b with
  | nil =>
    refine ⟨id, fun _ => rfl, ?_, rfl, rfl⟩
    refine List.ext_getElem? fun n => ?_
    rw [modifyAt_getElem?]
    split
    · exact Option.map_id_apply.symm
    · rfl
  | cons k ks ih =>
    obtain ⟨crews, keep, blocks⟩ := store_crews b slot k
      (mergeLanes ab ((was.getD k PhysReg.none_).content) ((b.crew slot).reg k).content)
    obtain ⟨f, length, rest, keeps, blocked⟩ := ih
      (b.store slot k (mergeLanes ab ((was.getD k PhysReg.none_).content) ((b.crew slot).reg k).content))
    refine ⟨fun m => f (modifyAt m k fun _ => (b.replacement ((b.crew slot).reg k)
      (mergeLanes ab ((was.getD k PhysReg.none_).content) ((b.crew slot).reg k).content)).1), fun m => ?_, ?_,
      keeps.trans keep, blocked.trans blocks⟩
    · rw [length, modifyAt_length]
    · rw [Sub.rollback, rest, crews, modifyAt_modifyAt]

/-- The crew whose lanes have left their gambit for its fail target, with what the head's snapshot holds of them (R183). -/
def Crew.fails (w : Crew) (ab : Mask) (g : Gambit) (snap : Snapshot) : Crew :=
  { w.modLanes ab (fun l t =>
      { t with preds := snap.preds.getD l 0, taint := snap.taint.getD l 0, sb := [0, 0, 0, 0, 0, 0], pc := g.fail,
               run := .ready }) with
    setters := w.setters.map (fun q => { q with lanes := q.lanes &&& ~~~ ab })
    loads := w.loads.map (LoadRec.drop ab)
    gambit := some (g.without ab) }

/-- The state in which lanes have been rolled back, before their code is written. -/
def State.failed (s : State) (r : CrewRef) (ab : Mask) (g : Gambit) (snap : Snapshot) : State :=
  ((s.modSub r.core r.sub (fun b => b.rollback r.slot ab snap.map (changedRegs (s.crew r).map snap.map))).modCrew r
    (fun w => w.fails ab g snap)).modSub r.core r.sub (fun b => b.countN 10 ab.lanes.length)

/-- What aborting leaves of a crew: the aborted lanes stand READY at the fail target, outside the gambit; pins and regions,
and so the credits, are as before. -/
structure FailedTo (w v : Crew) (ab : Mask) (g : Gambit) : Prop where
  pc : ∀ l, l < 32 → ab.getLsbD l = true → (v.thread l).pc = g.fail
  run : ∀ l, l < 32 → ab.getLsbD l = true → (v.thread l).run = .ready
  lanes : v.gambit = some (g.without ab)
  pinned : v.pinned = w.pinned
  regions : v.regions = w.regions

theorem State.failed_spec {s : State} {r : CrewRef} (ab : Mask) (g : Gambit) (snap : Snapshot) (hc : s.hasCrew r = true) :
    (s.failed r ab g snap).hasCrew r = true ∧ SameElse s (s.failed r ab g snap) r ∧
      FailedTo (s.crew r) ((s.failed r ab g snap).crew r) ab g := by
  obtain ⟨-, slot, w32, w64⟩ := (hasCrew_iff s r).1 hc
  obtain ⟨f, length, crews, keep, blocks⟩ :=
    (s.sub r.core r.sub).rollback_crews r.slot ab snap.map (changedRegs (s.crew r).map snap.map)
  unfold State.failed
  generalize hu : s.modSub r.core r.sub (fun b => b.rollback r.slot ab snap.map (changedRegs (s.crew r).map snap.map)) = u
  have crew : u.crew r = { s.crew r with map := f (s.crew r).map } := by
    rw [← hu, crew_modSub _ _ _ hc, Sub.crew, crews, modifyAt_getD_same _ _ _ _ slot]; rfl
  have same : SameElse s u r := hu ▸ SameElse.modSub s r _ (fun k hk => by
    simp only [Sub.crew]; rw [crews, modifyAt_getD_ne _ _ _ _ _ hk]) keep blocks hc
  have hu' : u.hasCrew r = true := hasCrew_of_crew (by rw [crew]; exact w32) (by rw [crew]; exact (length _).trans w64)
  obtain ⟨-, -, u32, u64⟩ := (hasCrew_iff u r).1 hu'
  have hv : (u.modCrew r (fun w => w.fails ab g snap)).hasCrew r = true :=
    modCrew_hasCrew _ _ _ hu' ((modLanes_length ..).trans u32) u64
  refine ⟨modSub_hasCrew _ _ _ hv rfl,
    same.trans ((SameElse.modCrew _ _ _ hu').trans (SameElse.modSub _ _ _ (fun _ _ => rfl) rfl rfl hv)), ?_⟩
  rw [crew_modSub_same _ _ _ _ _ (by intro x; rfl), crew_modCrew _ _ _ hu']
  have thread : ∀ l, l < 32 → ab.getLsbD l = true → ((u.crew r).fails ab g snap).thread l = { (u.crew r).thread l with
      preds := snap.preds.getD l 0, taint := snap.taint.getD l 0, sb := [0, 0, 0, 0, 0, 0], pc := g.fail, run := .ready } :=
    fun l hl ha => (thread_modLanes (u.crew r) ab _ l (by omega)).trans (if_pos ha)
  exact ⟨fun l hl ha => by rw [thread l hl ha], fun l hl ha => by rw [thread l hl ha], rfl, by rw [crew]; rfl, by rw [crew]; rfl⟩

/-! ### The code of an abort -/

/-- The code of an abort is written, or its lanes wait for a credit (R183, R197). -/
structure Coded (w v : Crew) (ab : Mask) (k code : Nat) : Prop where
  threads : v.threads.length = w.threads.length
  map : v.map.length = w.map.length
  pc : ∀ l, (v.thread l).pc = (w.thread l).pc
  gambit : v.gambit = w.gambit
  written : w.pinned.getLsbD k = false ∨ w.creditsUsed < Config.credits → (∀ l, (v.thread l).run = (w.thread l).run) ∧
    ∀ l, l < 32 → ab.getLsbD l = true → lane (v.reg k).content l = BitVec.ofNat 32 code

theorem State.abortCode_spec {s : State} {r : CrewRef} (ab : Mask) {k : Nat} (code : Nat) (hc : s.hasCrew r = true) (hk : k < 64) :
    SameElse s (s.abortCode r ab k code) r ∧ Coded (s.crew r) ((s.abortCode r ab k code).crew r) ab k code := by
  unfold State.abortCode
  simp only []
  split
  · next h =>
    obtain ⟨pinned, full⟩ := Bool.and_eq_true_iff.1 h
    refine ⟨SameElse.modCrew _ _ _ hc, ?_⟩
    rw [crew_modCrew _ _ _ hc]
    refine ⟨modLanes_length .., rfl, thread_modLanes_field _ _ _ Thread.pc (fun _ _ => rfl), rfl, fun free => ?_⟩
    rcases free with free | free
    · rw [free] at pinned; cases pinned
    · exact absurd free (Nat.not_lt.2 (of_decide_eq_true full))
  · obtain ⟨else_, written, -⟩ := writeReg_spec s r k ab (contentOf fun _ => BitVec.ofNat 32 code) 0 true hc hk
    refine ⟨else_, written.threads, written.map, written.pc, written.gambit, fun _ => ⟨written.run, fun l hl ha => ?_⟩⟩
    rw [written.content, lane_mergeLanes _ _ _ _ hl, if_pos ha, lane_contentOf _ _ hl]

/-! ### The close of a gambit -/

/-- The close of a gambit is a head, which waits where no snapshot is free (R155, R184). -/
def State.closeGambit (s : State) (r : CrewRef) : State :=
  let u := s.modCrew r (fun w => { w with gambit := none })
  if (u.crew r).canHead then u.head r else u.modCrew r (fun w => { w with headDue := true })

theorem State.closeGambit_spec {s : State} {r : CrewRef} (hc : s.hasCrew r = true) :
    SameElse s (s.closeGambit r) r ∧ ((s.closeGambit r).crew r).threads = (s.crew r).threads ∧
      ((s.closeGambit r).crew r).map = (s.crew r).map ∧ ((s.closeGambit r).crew r).gambit = none := by
  obtain ⟨-, -, w32, w64⟩ := (hasCrew_iff s r).1 hc
  have hu : (s.modCrew r (fun w => { w with gambit := none })).hasCrew r = true := modCrew_hasCrew _ _ _ hc w32 w64
  have crew := crew_modCrew s r (fun w => { w with gambit := none }) hc
  have same := SameElse.modCrew s r (fun w => { w with gambit := none }) hc
  unfold State.closeGambit
  simp only []
  split
  · rw [head_crew _ _ hu, crew]
    exact ⟨same.trans (head_sameElse _ _ hu), rfl, rfl, rfl⟩
  · rw [crew_modCrew _ _ _ hu, crew]
    exact ⟨same.trans (SameElse.modCrew _ _ _ hu), rfl, rfl, rfl⟩

/-! ### An abort -/

/-- Lanes that abort together are rolled back, their code is written, and the last of a gambit closes it (R183, R184). -/
def State.abortsAll (s : State) (r : CrewRef) (ab : Mask) (g : Gambit) (snap : Snapshot) (code : Nat) : State :=
  let u := (s.failed r ab g snap).abortCode r ab g.code code
  if (g.without ab).lanes == 0 then u.closeGambit r else u

theorem State.abortLanes_eq {s : State} {r : CrewRef} {g : Gambit} {q : Region} {lanes : Mask} (code : Nat)
    (hg : (s.crew r).gambit = some g) (hq : (s.crew r).region = some q)
    (ha : abortClosure g 32 (lanes &&& g.lanes) ≠ 0) :
    s.abortLanes r lanes code = s.abortsAll r (abortClosure g 32 (lanes &&& g.lanes)) g q.snapshot code := by
  rw [State.abortLanes, hg, hq]
  exact if_neg (by simpa using ha)

/-- What an abort leaves of each lane that it names: it stands at the fail target outside the gambit, and READY with its
code once the code register can be written (R183). -/
structure AbortedTo (w v : Crew) (g : Gambit) (lanes : Mask) (code : Nat) : Prop where
  pc : ∀ l, l < 32 → lanes.getLsbD l = true → (v.thread l).pc = g.fail
  out : ∀ l, l < 32 → lanes.getLsbD l = true → v.inGambit.getLsbD l = false
  coded : w.pinned.getLsbD g.code = false ∨ w.creditsUsed < Config.credits → ∀ l, l < 32 → lanes.getLsbD l = true →
    (v.thread l).run = .ready ∧ lane (v.reg g.code).content l = BitVec.ofNat 32 code

theorem State.abortLanes_aborts {s : State} {r : CrewRef} {g : Gambit} {lanes : Mask} (code : Nat) (hc : s.hasCrew r = true)
    (hg : (s.crew r).gambit = some g) (hr : (s.crew r).regions ≠ []) (hk : g.code < 64) (hl : lanes &&& g.lanes ≠ 0) :
    SameElse s (s.abortLanes r lanes code) r ∧
      AbortedTo (s.crew r) ((s.abortLanes r lanes code).crew r) g (lanes &&& g.lanes) code := by
  obtain ⟨q, hq⟩ : ∃ q, (s.crew r).region = some q := ⟨_, List.getLast?_eq_some_getLast hr⟩
  have closed : ∀ l, (lanes &&& g.lanes).getLsbD l = true → (abortClosure g 32 (lanes &&& g.lanes)).getLsbD l = true :=
    fun l h => abortClosure_mono 32 h (Bool.and_eq_true_iff.1 (BitVec.getLsbD_and ▸ h)).2
  have some_ : abortClosure g 32 (lanes &&& g.lanes) ≠ 0 := by
    intro e
    refine hl (BitVec.eq_of_getLsbD_eq fun l _ => ?_)
    by_contra h
    have bit := closed l (by simpa using h)
    rw [e] at bit
    simp at bit
  rw [State.abortLanes_eq code hg hq some_]
  generalize abortClosure g 32 (lanes &&& g.lanes) = ab at *
  unfold State.abortsAll
  obtain ⟨hu, uElse, failed⟩ := State.failed_spec ab g q.snapshot hc
  generalize s.failed r ab g q.snapshot = u at *
  obtain ⟨vElse, coded⟩ := State.abortCode_spec ab code hu hk
  obtain ⟨-, -, u32, u64⟩ := (hasCrew_iff u r).1 hu
  have hv : (u.abortCode r ab g.code code).hasCrew r = true :=
    hasCrew_of_crew (coded.threads.trans u32) (coded.map.trans u64)
  generalize u.abortCode r ab g.code code = v at *
  have credits : (u.crew r).creditsUsed = (s.crew r).creditsUsed := by rw [Crew.creditsUsed, failed.regions]; rfl
  have stands : ∀ x : Crew, x.threads = (v.crew r).threads → x.map = (v.crew r).map →
      (∀ l, l < 32 → ab.getLsbD l = true → x.inGambit.getLsbD l = false) → AbortedTo (s.crew r) x g (lanes &&& g.lanes) code := by
    intro x threads map out
    have thread : ∀ l, x.thread l = (v.crew r).thread l := fun l => by rw [Crew.thread, threads]; rfl
    refine ⟨fun l h32 h => ?_, fun l h32 h => out l h32 (closed l h), fun free l h32 h => ?_⟩
    · rw [thread, coded.pc, failed.pc l h32 (closed l h)]
    · obtain ⟨run, word⟩ := coded.written (by rw [failed.pinned, credits]; exact free)
      rw [thread, run, failed.run l h32 (closed l h), Crew.reg, map]
      exact ⟨rfl, word l h32 (closed l h)⟩
  simp only []
  split
  · obtain ⟨cElse, threads, map, none_⟩ := State.closeGambit_spec hv
    refine ⟨uElse.trans (vElse.trans cElse), stands _ threads map fun l _ _ => ?_⟩
    rw [Crew.inGambit, none_]
    simp
  · refine ⟨uElse.trans vElse, stands _ rfl rfl fun l h32 h => ?_⟩
    rw [Crew.inGambit, coded.gambit, failed.lanes]
    simp [Gambit.without, h]

theorem abortWith_aborts {s : State} {i : Issue} {f : K64} {g : Gambit} (h : s.issues i (kNeeds f [] []) = true)
    (hg : (s.crew i.ref).gambit = some g) (hp : partK s i f &&& g.lanes ≠ 0) (hk : g.code < 64)
    (hr : (s.crew i.ref).regions ≠ []) :
    ∃ t, s.abortWith f = .next t ∧ SameElse s t i.ref ∧ ∀ l, l < 32 → (partK s i f &&& g.lanes).getLsbD l = true →
      ((t.crew i.ref).thread l).pc = g.fail ∧ (t.crew i.ref).inGambit.getLsbD l = false ∧
      ((s.crew i.ref).pinned.getLsbD g.code = false ∨ (s.crew i.ref).creditsUsed < Config.credits →
        ((t.crew i.ref).thread l).run = .ready ∧
        lane ((t.crew i.ref).reg g.code).content l = BitVec.ofNat 32 (0x80 + f.imm.toNat % 128)) := by
  have hc := issues_hasCrew h
  obtain ⟨r, -⟩ := retire_retired s i false hc
  obtain ⟨n, gambit⟩ := retire_gambit false hc hg
  obtain ⟨tn, rn, e⟩ := retire_crew_fields s i false hc
  have mine : s.eff i f.pred f.pn &&& (s.crew i.ref).inGambit = partK s i f &&& g.lanes := by rw [Crew.inGambit, hg]; rfl
  have again : (partK s i f &&& g.lanes) &&& g.lanes = partK s i f &&& g.lanes := by rw [BitVec.and_assoc, BitVec.and_self]
  have regions : ((s.retire i false).crew i.ref).regions = (s.crew i.ref).regions := by rw [e]; rfl
  have pinned : ((s.retire i false).crew i.ref).pinned = (s.crew i.ref).pinned := by rw [e]; rfl
  have credits : ((s.retire i false).crew i.ref).creditsUsed = (s.crew i.ref).creditsUsed := by
    rw [Crew.creditsUsed, regions]; rfl
  obtain ⟨else_, aborted⟩ := State.abortLanes_aborts (lanes := partK s i f &&& g.lanes) (0x80 + f.imm.toNat % 128)
    (retire_hasCrew s i false hc) gambit (by rw [regions]; exact hr) hk (by rw [again]; exact hp)
  refine ⟨_, issueWith_ok _ h, ?_⟩
  rw [mine]
  refine ⟨r.elsewhere.trans else_, fun l hl hm => ?_⟩
  rw [← again] at hm
  exact ⟨aborted.pc l hl hm, aborted.out l hl hm, fun free => aborted.coded (by rw [pinned, credits]; exact free) l hl hm⟩

theorem State.abortLanes_zero (s : State) (r : CrewRef) (code : Nat) : s.abortLanes r 0 code = s := by
  have none_ : ∀ (g : Gambit) n, abortClosure g n 0 = 0 := by
    intro g n
    induction n with
    | zero => rfl
    | succ n ih =>
      have fixed : g.buffer.foldl (fun m e => if e.qnt && (e.lanes &&& m) != 0 then m ||| (e.lanes &&& g.lanes) else m) (0 : Mask) = 0 :=
        foldl_of_fixed _ _ _ fun e _ => by simp
      rw [abortClosure, fixed, ih]
      simp
  unfold State.abortLanes
  simp only []
  split
  · next g _ _ _ => exact if_pos (by rw [show (0 : Mask) &&& g.lanes = 0 from BitVec.zero_and, none_]; rfl)
  · rfl

theorem abortWith_retires {s : State} {i : Issue} {f : K64} (h : s.issues i (kNeeds f [] []) = true)
    (hp : partK s i f &&& (s.crew i.ref).inGambit = 0) :
    ∃ t, s.abortWith f = .next t ∧ Retired s t i ∧ SameRegs (s.crew i.ref) (t.crew i.ref) ∧
      SamePreds (s.crew i.ref) (t.crew i.ref) := by
  refine ⟨_, issueWith_ok _ h, ?_⟩
  have none_ : s.eff i f.pred f.pn &&& (s.crew i.ref).inGambit = 0 := hp
  rw [none_, State.abortLanes_zero]
  exact retire_retired s i false (issues_hasCrew h)

end Sys2Proof.Machine
end

section

namespace Sys2Proof

open Machine Claims

/-- Settles O14: TRY's write, retiring and head in turn; COMMIT hands over the stores of its closure; ABORT rolls its lanes
back before their code is written. -/
theorem gambitsOpenAndClose : Obligations.GambitsOpenAndClose := by
  unfold Obligations.GambitsOpenAndClose
  refine ⟨fun f s i hd h hp => ?_, ?_, ?_⟩
  · obtain ⟨t, ht, else_, preds, reg, took, gambit⟩ := tryWith_opens hd h hp
    exact ⟨t, ht, else_, preds, reg, took, _, gambit, rfl, rfl, rfl, rfl, rfl, rfl, rfl⟩
  · rintro ins f (rfl | ⟨rfl, rfl⟩) s i h <;> exact ⟨commitWith_retires h, fun g hg hp => commitWith_hands h hg hp⟩
  · exact fun f s i h => ⟨abortWith_retires h, fun g hg hp hk hr => abortWith_aborts h hg hp hk hr⟩

end Sys2Proof
end

section
/-! ## A crew whose slot keeps nothing

A restart brings back its head's side buffer into what the crew's slot keeps (R160, R296). A state may hold a crew in a
sub-core whose list of kept buffers is too short for it: there is then no buffer to bring back, and a restart leaves the
one that reset gives. -/

open Sys2Proof

namespace Sys2Proof.Machine

/-- A side buffer that no slot holds at reset. -/
def usedSide : SideBuffer := { SideBuffer.zero with cls := 1 }

/-- A region whose head's snapshot holds the used side buffer, and that has received a tag. -/
def Region.withUsedSide (g : Region) : Region :=
  { g with tags := [⟨1024, 0⟩], snapshot := { g.snapshot with side := usedSide } }

/-- The placed program's crew: its sub-core keeps no side buffer, its region's head had the used one, and a redo notice
for the region's tag has arrived. -/
def keepless : State :=
  let s := ((State.reset.place 0).modSub 0 0 (fun b => { b with keep := [] })).modCrew ⟨0, 0, 0⟩
    (fun w => { w with regions := w.regions.map Region.withUsedSide })
  { s with sel := ⟨0, 0, 0⟩, net := { s.net with redos := [⟨0, ⟨1024, 0⟩, 0⟩] } }

/-- An outcome goes on, with the class that reset gives in the side buffer of the crew's slot. -/
def goesOnAsReset (o : Host.Outcome State Fault Refusal) : Bool :=
  match o with
  | .next t => (t.keep ⟨0, 0, 0⟩).side.cls == 0
  | _ => false

theorem keepless_redo : goesOnAsReset (exec .redoNoticeReceive keepless) = true := by decide +kernel

theorem keepless_event : goesOnAsReset (exec (.sensorEventCore .strike 0) keepless) = true := by decide +kernel

/-- The crew has one region, and its head's side buffer is the used one. -/
theorem keepless_regions : ∃ g, (keepless.crew ⟨0, 0, 0⟩).regions = [g] ∧ g.snapshot.side.cls = 1 := by
  have hlen : (keepless.crew ⟨0, 0, 0⟩).regions.length = 1 := by decide +kernel
  have hused : (keepless.crew ⟨0, 0, 0⟩).regions.all (fun g => g.snapshot.side.cls == 1) = true := by decide +kernel
  obtain ⟨g, hg⟩ := List.length_eq_one_iff.mp hlen
  exact ⟨g, hg, by simpa [hg] using hused⟩

theorem keepless_crew : (keepless.crew ⟨0, 0, 0⟩).owner.isSome = true ∧ (keepless.crew ⟨0, 0, 0⟩).point = none := by
  constructor <;> decide +kernel

theorem keepless_log : bits keepless.pkg.log.base.toNat 3 0 = 0 := by decide +kernel

theorem keepless_arrived : arrived keepless.net.redos 0 keepless.cycle = some ⟨0, ⟨1024, 0⟩, 0⟩ := by decide +kernel

theorem keepless_named :
    (keepless.crew ⟨0, 0, 0⟩).regions.any (fun h => h.tags.any (fun x => x.named ⟨1024, 0⟩)) = true := by decide +kernel

theorem keepless_cell : keepless.logicalCore 0 = some 0 ∧ (keepless.home (.port 0)).responses = [] ∧
    (keepless.home (.vault 0)).responses = [] := by
  and_intros <;> decide +kernel

/-- Where the slot's side buffer is still that of reset, the crew has not restarted at a head that had the used one. -/
theorem not_restarted_of_goesOnAsReset {s t : State} {o : Host.Outcome State Fault Refusal} {g : Region} (h : goesOnAsReset o = true)
    (ht : o = .next t) (hg : g.snapshot.side.cls = 1) : ¬ Claims.Restarted s t ⟨0, 0, 0⟩ g := by
  intro hr
  obtain ⟨-, -, -, -, -, -, hside, -⟩ := hr
  have hzero : (t.keep ⟨0, 0, 0⟩).side.cls = 0 := by simpa [ht, goesOnAsReset] using h
  rw [hside, hg] at hzero
  exact absurd hzero (by decide)

end Sys2Proof.Machine
end

section
namespace Sys2Proof
open Machine Claims

/-- Refutes O36: no hypothesis says that the sub-core keeps a side buffer for the crew's slot, and at `keepless`, where it
keeps none, a redo notice restarts the crew without bringing back its head's side buffer. -/
theorem not_clearsAndRedos : ¬ Obligations.ClearsAndRedos := by
  unfold Obligations.ClearsAndRedos
  rintro ⟨-, -, hredo⟩
  obtain ⟨g, hg, hused⟩ := keepless_regions
  obtain ⟨t, ht, -, -, hr⟩ := hredo keepless _ ⟨0, 0, 0⟩ g [] keepless_arrived (by decide) keepless_log rfl
    (by decide) (by decide) keepless_crew.1 hg keepless_crew.2 keepless_named
  exact not_restarted_of_goesOnAsReset keepless_redo ht hused hr

/-- Refutes O47: no hypothesis says that the sub-core keeps a side buffer for the crew's slot, and at `keepless`, where it
keeps none, a sensor event restarts the crew without bringing back its head's side buffer. -/
theorem not_eventsAndDamage : ¬ Obligations.EventsAndDamage := by
  unfold Obligations.EventsAndDamage
  rintro ⟨-, hevent, -⟩
  obtain ⟨g, hg, hused⟩ := keepless_regions
  obtain ⟨hcell, hport, hvault⟩ := keepless_cell
  obtain ⟨t, ht, -, hr⟩ := hevent keepless .strike 0 0 ⟨0, 0, 0⟩ g [] (by decide) keepless_log hcell hport hvault rfl
    (by decide) (by decide) keepless_crew.1 hg keepless_crew.2
  exact not_restarted_of_goesOnAsReset keepless_event ht hused hr

end Sys2Proof
end

section
/-! ## What requests that leave do not touch

Requests leave their cores, end, and are counted at a launch without memory, engine commands, arrivals or crews changing. Two
views of a state say so: its goods, which no change of a sub-core touches, and its stock, with the crews. -/

open Sys2Proof Sys2Proof.Claims

namespace Sys2Proof.Machine

/-- What a core holds beside its sub-cores, its accumulators, its L1 and its tables. -/
structure CoreGoods where
  scratch : List Host.Cell
  descs : List (Nat × Nat × Nat)
  engines : List Engine
  arrivals : List Arrival

def Core.goods (k : Core) : CoreGoods := ⟨k.scratch, k.descs, k.engines, k.arrivals⟩

/-- The crews of a core by sub-core. -/
def Core.roster (k : Core) : List (List Crew) := k.subs.map Sub.crews

/-- Memory, and the goods of every core. -/
def State.goods (s : State) : Memory × (Nat → CoreGoods) := (s.mem, fun c => (s.core c).goods)

/-- The goods of a state, and every core's crews. -/
def State.stock (s : State) : (Memory × (Nat → CoreGoods)) × (Nat → List (List Crew)) := (s.goods, fun c => (s.core c).roster)

theorem State.goods_of_stock {s t : State} (h : t.stock = s.stock) : t.goods = s.goods := congrArg Prod.fst h

theorem State.core_of_goods {s t : State} (h : t.goods = s.goods) (c : Nat) : (t.core c).goods = (s.core c).goods :=
  congrFun (congrArg Prod.snd h) c

theorem sameMemory_of_goods {s t : State} (h : t.goods = s.goods) : SameMemory s t :=
  ⟨congrArg Prod.fst h, fun c =>
    ⟨congrArg CoreGoods.scratch (State.core_of_goods h c), congrArg CoreGoods.descs (State.core_of_goods h c)⟩⟩

theorem State.engines_of_goods {s t : State} (h : t.goods = s.goods) (c : Nat) : (t.core c).engines = (s.core c).engines :=
  congrArg CoreGoods.engines (State.core_of_goods h c)

theorem State.arrivals_of_goods {s t : State} (h : t.goods = s.goods) (c : Nat) : (t.core c).arrivals = (s.core c).arrivals :=
  congrArg CoreGoods.arrivals (State.core_of_goods h c)

theorem State.cells_of_goods {s t : State} (h : t.goods = s.goods) : t.cells = s.cells := by
  obtain ⟨hmem, hcores⟩ := sameMemory_of_goods h
  exact Prod.ext (congrArg Memory.cells hmem) (funext fun c => (hcores c).1)

/-- The crews of a sub-core, by its core's roster. -/
theorem State.sub_crews (s : State) (c b : Nat) : (s.sub c b).crews = (s.core c).roster.getD b Sub.reset.crews := by
  rw [State.sub, Core.sub, Core.roster, List.getD_map]

theorem State.roster_of_stock {s t : State} (h : t.stock = s.stock) (c : Nat) : (t.core c).roster = (s.core c).roster :=
  congrFun (congrArg Prod.snd h) c

theorem State.subCrews_of_stock {s t : State} (h : t.stock = s.stock) (c b : Nat) : (t.sub c b).crews = (s.sub c b).crews := by
  rw [State.sub_crews, State.sub_crews, State.roster_of_stock h]

theorem State.crew_of_stock {s t : State} (h : t.stock = s.stock) (q : CrewRef) : t.crew q = s.crew q := by
  rw [State.crew, State.crew, Sub.crew, Sub.crew, State.subCrews_of_stock h]

theorem State.hasCrew_of_stock {s t : State} (h : t.stock = s.stock) (r : CrewRef) : t.hasCrew r = s.hasCrew r := by
  have subs : (t.core r.core).subs.length = (s.core r.core).subs.length := by
    simpa [Core.roster] using congrArg List.length (State.roster_of_stock h r.core)
  simp only [State.hasCrew, subs, State.subCrews_of_stock h, State.crew_of_stock h]

/-! ### Changes that keep them -/

theorem State.core_of_cores {s t : State} (h : t.cores = s.cores) (c : Nat) : t.core c = s.core c := by
  rw [State.core, State.core, h]

theorem State.stock_of_cores {s t : State} (hm : t.mem = s.mem) (hc : t.cores = s.cores) : t.stock = s.stock := by
  simp only [State.stock, State.goods, hm, State.core_of_cores hc]

theorem State.modCore_stock (s : State) (c : Nat) (f : Core → Core)
    (hg : ∀ k, (f k).goods = k.goods := by exact fun _ => rfl) (hr : ∀ k, (f k).roster = k.roster := by exact fun _ => rfl) :
    (s.modCore c f).stock = s.stock := by
  have core : ∀ d, ((s.modCore c f).core d).goods = (s.core d).goods ∧ ((s.modCore c f).core d).roster = (s.core d).roster := by
    intro d
    by_cases h : d = c
    · rw [h, core_modCore]; exact ⟨hg _, hr _⟩
    · rw [core_modCore_ne _ _ _ _ h]; exact ⟨rfl, rfl⟩
  exact Prod.ext (Prod.ext rfl (funext fun d => (core d).1)) (funext fun d => (core d).2)

theorem State.modSub_stock (s : State) (c b : Nat) (f : Sub → Sub) (hf : ∀ x, (f x).crews = x.crews := by exact fun _ => rfl) :
    (s.modSub c b f).stock = s.stock :=
  s.modCore_stock c _ (fun _ => rfl) fun k => modifyAt_map k.subs b f Sub.crews hf

/-- Whatever changes in a sub-core, the goods do not. -/
@[simp] theorem State.modSub_goods (s : State) (c b : Nat) (f : Sub → Sub) : (s.modSub c b f).goods = s.goods := by
  refine Prod.ext rfl (funext fun d => ?_)
  obtain ⟨l, e⟩ := modSub_core_subs s c b d f
  exact (congrArg Core.goods e).trans rfl

@[simp] theorem State.modCrew_goods (s : State) (r : CrewRef) (f : Crew → Crew) : (s.modCrew r f).goods = s.goods :=
  s.modSub_goods ..

@[simp] theorem State.head_goods (s : State) (r : CrewRef) : (s.head r).goods = s.goods := s.fresh.2.modCrew_goods ..

@[simp] theorem State.writeReg_goods (s : State) (r : CrewRef) (k : Nat) (m : Mask) (c : Content) (taint : Mask) (back : Bool) :
    (s.writeReg r k m c taint back).goods = s.goods :=
  (State.modSub_goods ..).trans (s.modCrew_goods ..)

@[simp] theorem State.dropTx_stock (s : State) (id : Nat) : (s.dropTx id).stock = s.stock := rfl

@[simp] theorem State.modTx_stock (s : State) (id : Nat) (f : Tx → Tx) : (s.modTx id f).stock = s.stock := rfl

@[simp] theorem State.inject_stock (s : State) (x : Tx) (reply : Bool) (flits : Nat) : (s.inject x reply flits).stock = s.stock := by
  obtain ⟨l, e⟩ := s.inject_packets x reply flits
  rw [e]
  rfl

@[simp] theorem State.launchPacket_stock (s : State) (x : Tx) : (s.launchPacket x).stock = s.stock := by
  unfold State.launchPacket
  split
  · split
    · rfl
    · exact s.inject_stock ..
  · exact s.inject_stock ..

@[simp] theorem State.signatureFor_stock (s : State) (x : Tx) (scope : Nat) : (s.signatureFor x scope).2.stock = s.stock := by
  unfold State.signatureFor
  split
  · rfl
  · exact s.modCore_stock ..

@[simp] theorem State.leave_stock (s : State) (x : Tx) : (s.leave x).stock = s.stock := by
  simp only [State.leave, State.launchPacket_stock]
  refine (State.modSub_stock _ _ _ _ fun b => ?_).trans ?_
  · split <;> rfl
  · rw [State.modTx_stock]
    split
    · rfl
    · exact s.signatureFor_stock ..

@[simp] theorem State.sendWaiting_stock (s : State) : s.sendWaiting.stock = s.stock := by
  refine foldl_view State.stock _ (fun t x => ?_) _ s
  split
  · exact (State.leave_stock ..).trans (t.modTx_stock ..)
  · rfl

@[simp] theorem State.freeHeld_stock (s : State) (r : CrewRef) (id : Nat) : (s.freeHeld r id).stock = s.stock := by
  unfold State.freeHeld
  dsimp only
  split
  · exact State.sendWaiting_stock _
  · rfl

@[simp] theorem State.modLaunch_cores (s : State) (l : Nat) (f : Launch → Launch) : (s.modLaunch l f).cores = s.cores := by
  unfold State.modLaunch
  split <;> rfl

/-- Statistics go to the launch. -/
theorem State.addStatsOf_frame (s : State) (r : CrewRef) (xs : List StatAdd) :
    (s.addStatsOf r xs).mem = s.mem ∧ (s.addStatsOf r xs).cores = s.cores := by
  unfold State.addStatsOf State.addStats
  split
  · split
    · exact ⟨rfl, rfl⟩
    · exact ⟨s.modLaunch_mem .., s.modLaunch_cores ..⟩
  · exact ⟨rfl, rfl⟩

@[simp] theorem State.addStatsOf_stock (s : State) (r : CrewRef) (xs : List StatAdd) : (s.addStatsOf r xs).stock = s.stock :=
  State.stock_of_cores (s.addStatsOf_frame r xs).1 (s.addStatsOf_frame r xs).2

@[simp] theorem State.acked_stock (s : State) (c : Nat) (p : Loc) : (s.acked c p).stock = s.stock := by
  cases p with
  | mem a => exact s.modCore_stock ..
  | scratch d o => rfl

@[simp] theorem State.acquire_stock (s : State) (core : Nat) (g : Sig) : (s.acquire core g).stock = s.stock := by
  have core : ∀ c, ((s.acquire core g).core c).goods = (s.core c).goods ∧
      ((s.acquire core g).core c).roster = (s.core c).roster := by
    intro c
    obtain ⟨acc, l1, e⟩ := s.acquire_core core g c
    rw [e]
    exact ⟨rfl, rfl⟩
  exact Prod.ext (Prod.ext rfl (funext fun c => (core c).1)) (funext fun c => (core c).2)

end Sys2Proof.Machine
end

section
/-! ## The release of a region (R86, R157, R327) -/

open Sys2Proof Sys2Proof.Claims

namespace Sys2Proof.Machine

/-- The crew without a region. -/
def Crew.without (w : Crew) (g : Region) : Crew := { w with regions := w.regions.filter (fun x => x.id != g.id) }

theorem Crew.without_regions {w : Crew} {g : Region} {rest : List Region} (h : w.regions = g :: rest) :
    (w.without g).regions = rest.filter (fun x => x.id != g.id) := by
  simp [Crew.without, h]

theorem State.modCrew_cores {s t : State} (h : t.cores = s.cores) (r : CrewRef) (f : Crew → Crew) :
    (t.modCrew r f).cores = (s.modCrew r f).cores := by
  simp only [State.modCrew, State.modSub, State.modCore, State.core, h]

/-- The state after a region's effects, once the region has left its crew. -/
def State.dropRegion (u : State) (r : CrewRef) (g : Region) : State :=
  (((u.addStatsOf r g.stats).modCrew r (fun w => w.without g)).modSub r.core r.sub Sub.purge).freeHeld r g.id

theorem State.dropRegion_stock (u : State) (r : CrewRef) (g : Region) :
    (u.dropRegion r g).stock = (u.modCrew r (fun w => w.without g)).stock := by
  obtain ⟨hmem, hcores⟩ := u.addStatsOf_frame r g.stats
  have purged : ∀ t : State, (t.modSub r.core r.sub Sub.purge).stock = t.stock := fun t => t.modSub_stock ..
  rw [State.dropRegion, State.freeHeld_stock, purged]
  exact State.stock_of_cores hmem (State.modCrew_cores hcores ..)

theorem State.dropRegion_crew {u : State} {r : CrewRef} {g : Region} {o : Owner} (ho : (u.crew r).owner = some o) :
    (u.dropRegion r g).crew r = (u.crew r).without g :=
  (State.crew_of_stock (u.dropRegion_stock r g) r).trans (crew_modCrew_of_slot u r _ (State.hasSlot_of_owner ho))

theorem State.releaseRegion_eq {s u : State} {r : CrewRef} {g : Region}
    (he : g.effects.foldl (fun (st : State) e => st.takeEffect r e) s = u) :
    s.releaseRegion r g = match ((u.dropRegion r g).crew r).owner with
      | some o => if g.last then (u.dropRegion r g).crewCompletes r o else (u.dropRegion r g).tryPoint r
      | none => u.dropRegion r g := by
  rw [← he]
  rfl

/-- A crew that goes on and stands at no release point only loses the region. -/
theorem State.releaseRegion_stays {s u : State} {r : CrewRef} {g : Region} {o : Owner}
    (he : g.effects.foldl (fun (st : State) e => st.takeEffect r e) s = u) (ho : (u.crew r).owner = some o)
    (hp : (u.crew r).point = none) (hl : g.last = false) : s.releaseRegion r g = u.dropRegion r g := by
  have crew := State.dropRegion_crew (g := g) ho
  have owner : ((u.dropRegion r g).crew r).owner = some o := (congrArg Crew.owner crew).trans ho
  have point : ((u.dropRegion r g).crew r).point = none := (congrArg Crew.point crew).trans hp
  rw [State.releaseRegion_eq he, owner]
  simp only [hl, Bool.false_eq_true, if_false, State.tryPoint, point]

/-- What stands after the release of a region. -/
structure RegionReleased (u t : State) (r : CrewRef) (g : Region) : Prop where
  goods : t.goods = u.goods
  crew : t.crew r = (u.crew r).without g
  others : OtherCrewsSame u t r

theorem State.releaseRegion_released {s u : State} {r : CrewRef} {g : Region} {o : Owner}
    (he : g.effects.foldl (fun (st : State) e => st.takeEffect r e) s = u) (ho : (u.crew r).owner = some o)
    (hp : (u.crew r).point = none) (hl : g.last = false) : RegionReleased u (s.releaseRegion r g) r g := by
  have stock := u.dropRegion_stock r g
  rw [State.releaseRegion_stays he ho hp hl]
  exact ⟨(State.goods_of_stock stock).trans (u.modCrew_goods ..), State.dropRegion_crew ho,
    fun q hq => (State.crew_of_stock stock q).trans (crew_modCrew_ne u r q _ hq)⟩

theorem exec_regionRelease {s : State} {o : Owner} {g : Region} {rest : List Region} (ho : (s.crew (selCrew s)).owner = some o)
    (hg : (s.crew (selCrew s)).regions = g :: rest) (hr : (s.crew (selCrew s)).releasable s.cycle = true) :
    exec .regionRelease s = .next (s.releaseRegion (selCrew s) g) := by
  show execRegionRelease s = _
  rw [selCrew] at ho hg hr ⊢
  simp only [execRegionRelease, hg, ho, hr, Option.isSome_some, Bool.and_self, if_true]

/-! ### A barrier update -/

/-- What a woken crew keeps: whose it is, its regions, and its release point. -/
def Crew.post (w : Crew) : Option Owner × List Region × Option Point := (w.owner, w.regions, w.point)

theorem modifyAt_getD_view {α β : Type} (v : α → β) (m : List α) (n k : Nat) (f : α → α) (d : α) (h : ∀ x, v (f x) = v x) :
    v ((modifyAt m n f).getD k d) = v (m.getD k d) := by
  have mapped : ((modifyAt m n f).map v).getD k (v d) = (m.map v).getD k (v d) := by rw [modifyAt_map m n f v h]
  rwa [List.getD_map, List.getD_map] at mapped

/-- A change of one crew of a sub-core that keeps a view of it keeps that view of every crew. -/
theorem crew_modSub_view {β : Type} (v : Crew → β) (s : State) (c b n : Nat) (f : Sub → Sub) {g : Crew → Crew}
    (hf : ∀ x, (f x).crews = modifyAt x.crews n g) (hg : ∀ w, v (g w) = v w) (q : CrewRef) :
    v ((s.modSub c b f).crew q) = v (s.crew q) := by
  rw [State.crew, State.crew]
  rcases sub_modSub_cases s c b q.core q.sub f with e | ⟨-, -, e⟩ <;> rw [e]
  rw [Sub.crew, Sub.crew, hf]
  exact modifyAt_getD_view v _ _ _ _ _ hg

/-- The goods and what every crew keeps when it is woken. -/
def State.posts (s : State) : (Memory × (Nat → CoreGoods)) × (CrewRef → Option Owner × List Region × Option Point) :=
  (s.goods, fun q => (s.crew q).post)

theorem State.modSlot_posts (s : State) (c b n : Nat) (f : Sub → Sub) {g : Crew → Crew}
    (hf : ∀ x, (f x).crews = modifyAt x.crews n g) (hg : ∀ w, (g w).post = w.post) : (s.modSub c b f).posts = s.posts :=
  Prod.ext (s.modSub_goods ..) (funext fun q => crew_modSub_view Crew.post s c b n f hf hg q)

theorem State.wakeGroup_posts (s : State) (core : Nat) (g : Group) (done : Await → Bool) :
    (s.wakeGroup core g done).posts = s.posts := by
  refine foldl_view State.posts _ (fun t x => ?_) _ s
  dsimp only
  split
  · exact (State.modSlot_posts _ _ _ x.2 _ (g := fun w => w.wakeBarrier s.cycle done) (fun _ => rfl) fun _ => rfl).trans
      (State.modSlot_posts _ _ _ x.2 _ (g := fun w => { w with loads := w.loads.map (fun (q : LoadRec) => { q with memo := none }) })
        (fun _ => rfl) fun _ => rfl)
  · rfl

theorem State.crew_putScratch (s : State) (c o : Nat) (bs : List Byte) (q : CrewRef) :
    (s.putBytes (.scratch c o) bs).crew q = s.crew q :=
  State.crew_of_staff (s.putScratch_staff c o bs) q

/-- An arrival that waits for nothing is written into its object, and changes no crew but those it wakes. -/
theorem State.takeBara_performed {s : State} {r : CrewRef} {off c gs : Nat} {m : Mask} {gr : Group}
    (hs : s.gslotOf r = some gs) (hg : s.group r.core gs = some gr)
    (ha : s.pendingTxs r m (fun x => x.ord != 2 && x.req.openAtGroup) = []) :
    let u := s.takeEffect r (.bara off c m)
    let p := Loc.scratch r.core (gr.scrBase + off)
    u.cells = (s.putBytes p (toBytes 16 ((s.barObj r.core gr off).arrive c).toNum)).cells ∧
      ∀ q, (u.crew q).post = (s.crew q).post := by
  have posts : (s.takeEffect r (.bara off c m)).posts =
      (s.putBytes (.scratch r.core (gr.scrBase + off)) (toBytes 16 ((s.barObj r.core gr off).arrive c).toNum)).posts := by
    simp only [State.takeEffect, State.arrive, hs, ha, State.applyArrival, State.updateObj, Option.getD_some, hg, List.isEmpty_nil,
      if_true]
    exact State.wakeGroup_posts ..
  refine ⟨State.cells_of_goods (congrArg Prod.fst posts), fun q => ?_⟩
  exact (congrFun (congrArg Prod.snd posts) q).trans (congrArg Crew.post (s.crew_putScratch ..))

/-! ### An engine command -/

/-- The commands of a unit with one marked as released. -/
def Engine.releaseOp (e : Engine) (op : Nat) : Engine :=
  { e with ops := e.ops.map (fun o => if o.id == op then { o with released := true } else o) }

theorem State.takeEngine (s : State) (r : CrewRef) (u op : Nat) :
    s.takeEffect r (.engine u op) = s.modCore r.core (fun k => { k with engines := modifyAt k.engines u (fun e => e.releaseOp op) }) :=
  rfl

end Sys2Proof.Machine
end

section
/-! ## The oldest region of a crew releases (R157, R165, R327) -/

open Sys2Proof Sys2Proof.Claims

namespace Sys2Proof.Machine

/-- The oldest region of a crew may release, and the crew goes on and stands at no release point. -/
structure Releasing (s : State) (o : Owner) (g : Region) (rest : List Region) : Prop where
  owner : (s.crew (selCrew s)).owner = some o
  regions : (s.crew (selCrew s)).regions = g :: rest
  releasable : (s.crew (selCrew s)).releasable s.cycle = true
  last : g.last = false
  point : (s.crew (selCrew s)).point = none

/-- The release after effects that leave of the crew whose it is, its regions and its release point. -/
theorem Releasing.exec_after {s u : State} {o : Owner} {g : Region} {rest : List Region} (h : Releasing s o g rest)
    (he : g.effects.foldl (fun (st : State) e => st.takeEffect (selCrew s) e) s = u)
    (hc : (u.crew (selCrew s)).post = (s.crew (selCrew s)).post) :
    ∃ t, exec .regionRelease s = .next t ∧ RegionReleased u t (selCrew s) g ∧
      (t.crew (selCrew s)).regions = rest.filter (fun x => x.id != g.id) := by
  simp only [Crew.post, Prod.mk.injEq] at hc
  obtain ⟨owner, regions, point⟩ := hc
  have released := State.releaseRegion_released he (owner.trans h.owner) (point.trans h.point) h.last
  exact ⟨_, exec_regionRelease h.owner h.regions h.releasable, released,
    (congrArg Crew.regions released.crew).trans (Crew.without_regions (regions.trans h.regions))⟩

theorem Releasing.without_effects {s : State} {o : Owner} {g : Region} {rest : List Region} (h : Releasing s o g rest)
    (he : g.effects = []) :
    ∃ t, exec .regionRelease s = .next t ∧ SameMemory s t ∧ OtherCrewsSame s t (selCrew s) ∧
      (t.crew (selCrew s)).regions = rest.filter (fun x => x.id != g.id) := by
  obtain ⟨t, run, released, regions⟩ := h.exec_after (u := s) (by rw [he]; rfl) rfl
  exact ⟨t, run, sameMemory_of_goods released.goods, released.others, regions⟩

theorem Releasing.with_arrival {s : State} {o : Owner} {g : Region} {rest : List Region} (h : Releasing s o g rest)
    (hw : s.wf = true) {off c gs : Nat} {m : Mask} {gr : Group} (he : g.effects = [.bara off c m]) (hs : o.gslot = some gs)
    (hg : s.group (selCrew s).core gs = some gr)
    (ha : s.pendingTxs (selCrew s) m (fun x => x.ord != 2 && x.req.openAtGroup) = []) :
    let p := Loc.scratch (selCrew s).core (gr.scrBase + off)
    ∃ t, exec .regionRelease s = .next t ∧ (t.crew (selCrew s)).regions = rest.filter (fun x => x.id != g.id) ∧
      t.bytesAt p 16 = toBytes 16 ((s.barObj (selCrew s).core gr off).arrive c).toNum ∧ SameBytesOutside s t [(p, 16)] := by
  have slot : s.gslotOf (selCrew s) = some gs := by rw [State.gslotOf, h.owner]; exact hs
  obtain ⟨cells, posts⟩ := State.takeBara_performed (c := c) slot hg ha
  obtain ⟨t, run, released, regions⟩ := h.exec_after (by rw [he]; rfl) (posts _)
  have kept := (State.cells_of_goods released.goods).trans cells
  have performed : ∀ p n, t.bytesAt p n = State.bytesAt _ p n := State.bytesAt_of_cells kept
  have len := toBytes_length 16 ((s.barObj (selCrew s).core gr off).arrive c).toNum
  refine ⟨t, run, regions, ?_, fun q hq => ?_⟩
  · have same := s.bytesAt_putBytes_same (.scratch (selCrew s).core (gr.scrBase + off))
      (toBytes 16 ((s.barObj (selCrew s).core gr off).arrive c).toNum) hw
    rw [len] at same
    rw [performed, same]
  · have apart := hq _ (List.mem_singleton.2 rfl)
    rw [performed, State.bytesAt_putBytes_apart _ _ _ _ _ hw (by rw [Loc.overlaps_comm, len]; exact apart)]

theorem Releasing.with_command {s : State} {o : Owner} {g : Region} {rest : List Region} (h : Releasing s o g rest)
    {u op : Nat} {e : Engine} (he : g.effects = [.engine u op]) (hu : (s.core (selCrew s).core).engines[u]? = some e) :
    ∃ t e', exec .regionRelease s = .next t ∧ SameMemory s t ∧ (t.core (selCrew s).core).engines[u]? = some e' ∧
      (t.crew (selCrew s)).regions = rest.filter (fun x => x.id != g.id) ∧
      e'.ops = e.ops.map (fun x => if x.id == op then { x with released := true } else x) := by
  have crew := crew_modCore_same s (selCrew s).core (fun k => { k with engines := modifyAt k.engines u (fun e => e.releaseOp op) })
    (selCrew s) fun _ => rfl
  obtain ⟨t, run, released, regions⟩ := h.exec_after (by rw [he]; exact s.takeEngine (selCrew s) u op) (congrArg Crew.post crew)
  refine ⟨t, e.releaseOp op, run, ?_, ?_, regions, rfl⟩
  · exact sameMemory_trans (sameMemory_of_ledger (s.modCore_ledger _ _)) (sameMemory_of_goods released.goods)
  · rw [State.engines_of_goods released.goods, core_modCore, modifyAt_getElem?, if_pos rfl, hu]
    rfl

end Sys2Proof.Machine
end

section
/-! ## The end of a release point (R165, R315) -/

open Sys2Proof Sys2Proof.Claims

namespace Sys2Proof.Machine

/-- A crew whose release point has ended: the region of its second head alone is left, its lanes go on behind the instruction, and
its registers are as they were. -/
structure PointEnded (w v : Crew) (p : Point) : Prop where
  point : v.point = none
  regions : v.regions.length = 1
  map : v.map = w.map
  pc : ∀ l, l < 32 → (v.thread l).pc = if p.issue.getLsbD l then p.next else (w.thread l).pc
  run : ∀ l, l < 32 → (v.thread l).run = if p.issue.getLsbD l then .ready else (w.thread l).run
  taint : ∀ l, (v.thread l).taint = (w.thread l).taint

theorem PointEnded.sameRegs {w v : Crew} {p : Point} (h : PointEnded w v p) : SameRegs w v :=
  ⟨fun k => by rw [Crew.reg, Crew.reg, h.map], fun l _ => h.taint l⟩

/-- A crew has kept its release point, its map, and where its threads stand. -/
structure Unmoved (w v : Crew) : Prop where
  point : v.point = w.point
  map : v.map = w.map
  threads : v.threads.length = w.threads.length
  pc : ∀ l, (v.thread l).pc = (w.thread l).pc
  run : ∀ l, (v.thread l).run = (w.thread l).run
  taint : ∀ l, (v.thread l).taint = (w.thread l).taint

theorem Unmoved.trans {w v u : Crew} (h : Unmoved w v) (k : Unmoved v u) : Unmoved w u :=
  ⟨k.point.trans h.point, k.map.trans h.map, k.threads.trans h.threads, fun l => (k.pc l).trans (h.pc l),
    fun l => (k.run l).trans (h.run l), fun l => (k.taint l).trans (h.taint l)⟩

/-- What a crew holds beside its release point, its map and its threads may change. -/
theorem Unmoved.of_eq {w v : Crew} (hp : v.point = w.point) (hm : v.map = w.map) (ht : v.threads = w.threads) : Unmoved w v :=
  ⟨hp, hm, congrArg List.length ht, fun _ => by rw [Crew.thread, Crew.thread, ht], fun _ => by rw [Crew.thread, Crew.thread, ht],
    fun _ => by rw [Crew.thread, Crew.thread, ht]⟩

theorem Crew.lower_unmoved (w : Crew) (slot : Nat) (m : Mask) : Unmoved w (w.lower slot m) := by
  unfold Crew.lower
  split
  · exact .of_eq rfl rfl rfl
  · exact ⟨rfl, rfl, by simp [Crew.modLanes], fun l => thread_modLanes_field w m _ Thread.pc (by intros; rfl) l,
      fun l => thread_modLanes_field w m _ Thread.run (by intros; rfl) l,
      fun l => thread_modLanes_field w m _ Thread.taint (by intros; rfl) l⟩

theorem Crew.finish_unmoved (w : Crew) (id n : Nat) : Unmoved w (w.finish id n) := by
  unfold Crew.finish
  split
  · exact .of_eq rfl rfl rfl
  · split
    · exact (w.lower_unmoved _ _).trans (.of_eq rfl rfl rfl)
    · exact .of_eq rfl rfl rfl

theorem Crew.turned_unmoved (w : Crew) (m : Mask) (b : Bool) : Unmoved w (w.turned m b) := by
  obtain ⟨t, r, e⟩ := turned_fields w m b
  rw [e]
  exact .of_eq rfl rfl rfl

/-- The crew behind its release point, none of whose lanes has failed. -/
def Crew.behind (w : Crew) (p : Point) (now : Nat) : Crew :=
  { w.modLanes p.issue (fun l t => { t with pc := if (0 : Mask).getLsbD l then p.pc else p.next, run := .ready }) with
    point := none, lastIssue := now, resumeAt := max w.resumeAt (now + 1) }

theorem Crew.behind_threads (w : Crew) (p : Point) (now : Nat) : (w.behind p now).threads.length = w.threads.length := by
  simp [Crew.behind, Crew.modLanes]

theorem Crew.behind_thread (w : Crew) (p : Point) (now : Nat) {l : Nat} (hl : l < w.threads.length) :
    (w.behind p now).thread l = if p.issue.getLsbD l then { w.thread l with pc := p.next, run := .ready } else w.thread l := by
  refine (thread_modLanes w p.issue _ l hl).trans ?_
  simp

theorem Crew.behind_taint (w : Crew) (p : Point) (now l : Nat) : ((w.behind p now).thread l).taint = (w.thread l).taint :=
  thread_modLanes_field w p.issue _ Thread.taint (by intros; rfl) l

/-- The crew with its youngest region alone. -/
def Crew.youngest (w : Crew) : Crew := { w with regions := w.regions.drop (w.regions.length - 1) }

/-- A crew that has gone behind its release point, has taken its second head there, and keeps the head's region. -/
theorem PointEnded.of_head {w v : Crew} {p : Point} {now id cycle : Nat} {side : SideBuffer} (hw : w.threads.length = 32)
    (h : Unmoved (w.behind p now) v) : PointEnded w (v.head id cycle side).youngest p := by
  have thread : ∀ l, l < 32 → (w.behind p now).thread l =
      if p.issue.getLsbD l then { w.thread l with pc := p.next, run := .ready } else w.thread l :=
    fun l hl => w.behind_thread p now (by omega)
  refine ⟨h.point, ?_, h.map, fun l hl => ?_, fun l hl => ?_, fun l => (h.taint l).trans (w.behind_taint ..)⟩
  · simp [Crew.youngest, Crew.head_regions]
  · refine (h.pc l).trans ?_
    rw [thread l hl]
    split <;> rfl
  · refine (h.run l).trans ?_
    rw [thread l hl]
    split <;> rfl

/-- The crew that takes the second head. -/
def State.pastPoint (s : State) (r : CrewRef) (p : Point) : State :=
  (s.modSub r.core r.sub (fun b => ({ b with loser := none } : Sub).count 8)).modCrew r
    (fun w => ((w.behind p s.cycle).turned p.issue false).finish p.setter 1)

theorem State.endPoint_eq (s : State) (r : CrewRef) (p : Point) :
    s.endPoint r p = (((s.pastPoint r p).head r).modCrew r Crew.youngest).modSub r.core r.sub Sub.purge := rfl

@[simp] theorem State.endPoint_goods (s : State) (r : CrewRef) (p : Point) : (s.endPoint r p).goods = s.goods := by
  simp only [State.endPoint_eq, State.modSub_goods, State.modCrew_goods, State.head_goods, State.pastPoint]

theorem State.endPoint_ended (s : State) (r : CrewRef) (p : Point) (h : s.hasCrew r = true) :
    PointEnded (s.crew r) ((s.endPoint r p).crew r) p := by
  obtain ⟨-, -, threads, map⟩ := (hasCrew_iff s r).1 h
  have unmoved := ((s.crew r).behind p s.cycle |>.turned_unmoved p.issue false).trans (Crew.finish_unmoved _ p.setter 1)
  have counted : (s.modSub r.core r.sub (fun b => ({ b with loser := none } : Sub).count 8)).stock = s.stock := s.modSub_stock ..
  have has1 := (State.hasCrew_of_stock counted r).trans h
  have crew1 : (s.pastPoint r p).crew r = (((s.crew r).behind p s.cycle).turned p.issue false).finish p.setter 1 := by
    rw [State.pastPoint, crew_modCrew _ _ _ has1, State.crew_of_stock counted]
  have has2 : (s.pastPoint r p).hasCrew r = true := by
    refine modCrew_hasCrew _ _ _ has1 ?_ ?_ <;> rw [State.crew_of_stock counted]
    · rw [unmoved.threads, Crew.behind_threads, threads]
    · rw [unmoved.map]; exact map
  have has3 : ((s.pastPoint r p).head r).hasCrew r = true := by
    obtain ⟨-, -, threads2, map2⟩ := (hasCrew_iff _ r).1 has2
    exact modCrew_hasCrew _ _ _ (show (s.pastPoint r p).fresh.2.hasCrew r = true from has2) threads2 map2
  have crew2 : (s.endPoint r p).crew r = (((s.pastPoint r p).crew r).head (s.pastPoint r p).nextId (s.pastPoint r p).cycle
      ((s.pastPoint r p).keep r).side).youngest := by
    rw [State.endPoint_eq, State.crew_of_stock (State.modSub_stock _ _ _ Sub.purge), crew_modCrew _ _ _ has3,
      head_crew _ _ has2]
  rw [crew2, crew1]
  exact .of_head threads unmoved

/-! ### The answers of a release point -/

theorem State.settleArrivals_of_none {s : State} {core : Nat} (h : (s.core core).arrivals = []) : s.settleArrivals core = s := by
  simp [State.settleArrivals, h]

/-- The state without the requests of a crew's release point. -/
def State.pointTaken (s : State) (r : CrewRef) : State := (s.pointTxs r).foldl (fun (st : State) t => st.dropTx t.id) s

@[simp] theorem State.pointTaken_stock (s : State) (r : CrewRef) : (s.pointTaken r).stock = s.stock :=
  foldl_view State.stock (fun st (t : Tx) => st.dropTx t.id) (fun st t => st.dropTx_stock t.id) _ s

/-- What an atomic's answers bring, and the state in which its old values are written. -/
def State.counted (s : State) (r : CrewRef) (txs : List Tx) : State :=
  txs.foldl (fun (st : State) t => match t.answer, t.req with
    | some (.olds _ sig stats _), .atomic x _ _ _ _ =>
      let st1 := ((x.lanes.head?).map (fun y => st.acked r.core y.loc.line)).getD st
      let st2 := st1.addStatsOf r stats
      (match sig with
       | some g => st2.acquire r.core g
       | none => st2)
    | _, _ => st) s

@[simp] theorem State.counted_stock (s : State) (r : CrewRef) (txs : List Tx) : (s.counted r txs).stock = s.stock := by
  refine foldl_view State.stock _ (fun t x => ?_) _ s
  have acked : ∀ e : AtomEff, (((e.lanes.head?).map (fun y => t.acked r.core y.loc.line)).getD t).stock = t.stock := fun e => by
    cases e.lanes.head? with
    | none => rfl
    | some y => exact t.acked_stock ..
  split
  · dsimp only
    split
    · exact (State.acquire_stock ..).trans ((State.addStatsOf_stock ..).trans (acked _))
    · exact (State.addStatsOf_stock ..).trans (acked _)
  · rfl

/-- The lanes of a release point that its answers hold an old value for. -/
def oldLanes (p : Point) (vals : List (Nat × Nat)) : Mask := p.lanes &&& Mask.ofFn (fun l => vals.any (fun x => x.1 == l))

theorem State.pointAtom_word (s : State) (r : CrewRef) (p : Point) {e : AtomEff} {d : Nat} (txs : List Tx) (he : e.size = 4)
    (hd : d < 64) : s.pointAtom r p e d txs = (s.counted r txs).writeReg r d (oldLanes p (oldValues txs))
      (contentOf (fun l => oldWord (oldValues txs) 0 l)) (p.taint &&& oldLanes p (oldValues txs)) := by
  have regs : groupRegs d (if (e.size == 8) = true then 2 else 1) = [d] := by
    rw [he]
    simp [groupRegs, upTo, show ¬ 64 ≤ d by omega]
  simp only [State.pointAtom, regs, List.foldl_cons, List.foldl_nil, Nat.sub_self]
  rfl

theorem State.finishPoint_message {s : State} {r : CrewRef} {p : Point} {m : MessageReq} (hk : p.kind = .amsg m)
    (ha : ∀ x ∈ s.pointTxs r, x.answer = some (.accepted true)) : s.finishPoint r p = (s.pointTaken r).endPoint r p := by
  have all : (s.pointTxs r).all (fun t => t.answer == some (.accepted true)) = true := by
    rw [List.all_eq_true]
    exact fun x hx => by rw [ha x hx]; rfl
  simp only [State.finishPoint, hk, all, if_true]
  rfl

theorem State.finishPoint_atom {s : State} {r : CrewRef} {p : Point} {e : AtomEff} {d : Nat} {back : Bool}
    (hk : p.kind = .atom e d back) (hu : uncertainLanes (s.pointTxs r) = []) (hd : damagedLanes (s.pointTxs r) = []) :
    s.finishPoint r p = ((s.pointTaken r).pointAtom r p e d (s.pointTxs r)).endPoint r p := by
  simp only [State.finishPoint, hk, hu, hd, List.map_nil, List.append_nil, List.isEmpty_nil, if_true]
  rfl

/-- A release point that has its answers. -/
structure PointDue (s : State) (p : Point) : Prop where
  has : s.hasCrew (selCrew s) = true
  point : (s.crew (selCrew s)).point = some p
  ready : s.pointReady (selCrew s) = true
  arrivals : (s.core (selCrew s).core).arrivals = []

/-- A release point whose span ends after its answers have been taken in: nothing that stands after them waits. -/
theorem PointDue.exec_ends {s u : State} {p : Point} (h : PointDue s p)
    (he : s.finishPoint (selCrew s) p = u.endPoint (selCrew s) p) (hg : u.goods = s.goods)
    (hu : u.hasCrew (selCrew s) = true) :
    ∃ t, exec .releasePointComplete s = .next t ∧ SameMemory s t ∧ PointEnded (u.crew (selCrew s)) (t.crew (selCrew s)) p := by
  have stock := State.sendWaiting_stock (s.finishPoint (selCrew s) p)
  have goods : (s.finishPoint (selCrew s) p).sendWaiting.goods = s.goods := by
    rw [State.goods_of_stock stock, he, State.endPoint_goods, hg]
  have settled := State.settleArrivals_of_none ((State.arrivals_of_goods goods (selCrew s).core).trans h.arrivals)
  refine ⟨(s.finishPoint (selCrew s) p).sendWaiting, ?_, sameMemory_of_goods goods, ?_⟩
  · have run : exec .releasePointComplete s =
        .next (((s.finishPoint (selCrew s) p).sendWaiting).settleArrivals (selCrew s).core) := by
      show execReleasePointComplete s = _
      have point := h.point
      have ready := h.ready
      rw [selCrew] at point ready ⊢
      simp only [execReleasePointComplete, point, ready, if_true]
    rw [run, settled]
  · rw [State.crew_of_stock stock, he]
    exact u.endPoint_ended _ p hu

/-- What the end of a release point leaves of its crew. -/
def Released (s t : State) (p : Point) : Prop :=
  SameMemory s t ∧ (t.crew (selCrew s)).point = none ∧ (t.crew (selCrew s)).regions.length = 1 ∧
    ∀ l, l < 32 → ((t.crew (selCrew s)).thread l).pc =
        (if p.issue.getLsbD l then p.next else ((s.crew (selCrew s)).thread l).pc) ∧
      ((t.crew (selCrew s)).thread l).run = if p.issue.getLsbD l then .ready else ((s.crew (selCrew s)).thread l).run

/-- The end of the point, where the crew that took the answers in has kept where its threads stand. -/
theorem PointEnded.released {s t : State} {v : Crew} {p : Point} (h : PointEnded v (t.crew (selCrew s)) p) (hm : SameMemory s t)
    (hpc : ∀ l, (v.thread l).pc = ((s.crew (selCrew s)).thread l).pc)
    (hrun : ∀ l, (v.thread l).run = ((s.crew (selCrew s)).thread l).run) : Released s t p :=
  ⟨hm, h.point, h.regions, fun l hl => ⟨by rw [h.pc l hl, hpc], by rw [h.run l hl, hrun]⟩⟩

theorem PointDue.message {s : State} {p : Point} {m : MessageReq} (h : PointDue s p) (hk : p.kind = .amsg m)
    (ha : ∀ x ∈ s.pointTxs (selCrew s), x.answer = some (.accepted true)) :
    ∃ t, exec .releasePointComplete s = .next t ∧ Released s t p ∧ SameRegs (s.crew (selCrew s)) (t.crew (selCrew s)) := by
  have stock := s.pointTaken_stock (selCrew s)
  obtain ⟨t, run, mem, ended⟩ := h.exec_ends (State.finishPoint_message hk ha) (State.goods_of_stock stock)
    ((State.hasCrew_of_stock stock _).trans h.has)
  rw [State.crew_of_stock stock] at ended
  exact ⟨t, run, ended.released mem (fun _ => rfl) (fun _ => rfl), ended.sameRegs⟩

theorem PointDue.atomic {s : State} {p : Point} {e : AtomEff} {d : Nat} {back : Bool} (h : PointDue s p)
    (hk : p.kind = .atom e d back) (he : e.size = 4) (hd : d < 64) (hu : uncertainLanes (s.pointTxs (selCrew s)) = [])
    (hb : damagedLanes (s.pointTxs (selCrew s)) = []) :
    let vals := oldValues (s.pointTxs (selCrew s))
    ∃ t, exec .releasePointComplete s = .next t ∧ Released s t p ∧ ∀ k l, k < 64 → l < 32 →
      lane ((t.crew (selCrew s)).reg k).content l =
        if k = d ∧ p.lanes.getLsbD l = true ∧ vals.any (fun x => x.1 == l) = true then oldWord vals 0 l
        else lane ((s.crew (selCrew s)).reg k).content l := by
  intro vals
  have stock : ((s.pointTaken (selCrew s)).counted (selCrew s) (s.pointTxs (selCrew s))).stock = s.stock :=
    (State.counted_stock ..).trans (s.pointTaken_stock _)
  have has := (State.hasCrew_of_stock stock (selCrew s)).trans h.has
  have finish := State.finishPoint_atom hk hu hb
  rw [State.pointAtom_word _ _ _ _ he hd] at finish
  obtain ⟨-, written, -⟩ := writeReg_spec _ _ d (oldLanes p vals) (contentOf (fun l => oldWord vals 0 l)) (p.taint &&& oldLanes p vals)
    true has hd
  rw [State.crew_of_stock stock] at written
  obtain ⟨t, run, mem, ended⟩ := h.exec_ends finish ((State.writeReg_goods ..).trans (State.goods_of_stock stock))
    (writeReg_hasCrew _ _ _ _ _ _ _ has hd)
  refine ⟨t, run, ended.released mem written.pc written.run, fun k l _ hl => ?_⟩
  have reg : (t.crew (selCrew s)).reg k = _ := ended.sameRegs.1 k
  rw [reg]
  by_cases hkd : k = d
  · have lanes : (oldLanes p vals).getLsbD l = (p.lanes.getLsbD l && vals.any (fun x => x.1 == l)) := by
      rw [oldLanes, BitVec.getLsbD_and, getLsbD_ofFn _ _ hl]
    rw [hkd, written.content, lane_mergeLanes _ _ _ _ hl, lane_contentOf _ _ hl, lanes]
    simp only [true_and, Bool.and_eq_true]
  · rw [written.others k hkd, if_neg (fun x => hkd x.1)]

end Sys2Proof.Machine
end

section
namespace Sys2Proof
open Machine Claims

/-- Settles O33, one lemma for each kind of effect and of release point. -/
theorem regionsReleaseAndPointsComplete : Obligations.RegionsReleaseAndPointsComplete := by
  unfold Obligations.RegionsReleaseAndPointsComplete
  refine ⟨fun s o g rest hw ho hg hr hl hp => ?_, fun s p hc hp hr ha => ?_⟩
  · have h : Releasing s o g rest := ⟨ho, hg, hr, hl, hp⟩
    exact ⟨h.without_effects, fun _ _ _ _ _ he hs hgr hx => h.with_arrival hw he hs hgr hx, fun _ _ _ he hu => h.with_command he hu⟩
  · have h : PointDue s p := ⟨hc, hp, hr, ha⟩
    exact ⟨fun _ hk hx => h.message hk hx, fun _ _ _ hk he hd hu hb => h.atomic hk he hd hu hb⟩

end Sys2Proof
end

section
/-! ## SPDM requests (R489) -/

open Sys2Proof Sys2Proof.Claims

namespace Sys2Proof.Machine

/-- Plinth's answer is the only change, and there is none before it runs. -/
theorem State.spdm_answered {s : State} (h : s.plinthUp = true) (data : List Byte) (ok : Bool) :
    Answered s (s.spdm data ok) .other data ok := by
  rw [State.spdm, if_pos h]
  rfl

theorem State.spdm_of_down {s : State} (h : s.plinthUp = false) (data : List Byte) (ok : Bool) : s.spdm data ok = s := by
  rw [State.spdm, if_neg (by simp [h])]

/-- A request that Plinth answers. -/
theorem answered_of_spdm {s : State} {i : Instr} {data : List Byte} {ok : Bool} (h : s.plinthUp = true)
    (hi : exec i s = .next (s.spdm data ok)) : ∃ t, exec i s = .next t ∧ Answered s t .other data ok :=
  ⟨_, hi, s.spdm_answered h data ok⟩

theorem exec_getVersion {s : State} (h : s.pkg.boot.stage ≠ .off) :
    exec .getVersion s = .next (s.reply .other (Config.answer 0x84 []) true) :=
  if_neg (by simpa using h)

theorem exec_negotiateAlgorithms {s : State} (h : s.plinthUp = true) (a b : Nat) :
    exec (.negotiateAlgorithms a b) s = .next (({ s with pkg := { s.pkg with boot := { s.pkg.boot with algorithms := true } } } : State).reply
      .other (Config.answer 0xE3 (toBytes 4 a ++ toBytes 4 b)) true) :=
  if_pos h

theorem exec_getCertificate (s : State) (k off n : Nat) : exec (.getCertificate k off n) s =
    .next (if k = 0 then s.spdm ((Config.certificate.drop off).take n) true else s.spdm [] false) := by
  show execGetCertificate k off n s = _
  unfold execGetCertificate
  by_cases h : k = 0 <;> simp [h]

theorem exec_getMeasurements {s : State} {i : Nat} (h : i ≤ 7) :
    exec (.getMeasurements i) s = .next (s.spdm (if i = 0 then [7] else s.measurement i) true) := by
  show execGetMeasurements i s = _
  unfold execGetMeasurements
  by_cases h0 : i = 0
  · simp [h0]
  · simp [h0, show i ≠ 255 by omega, h]

theorem spdmRequestsAreAnswered : SpdmRequestsAreAnswered := by
  refine ⟨fun s hs => ⟨_, exec_getVersion hs, rfl⟩, fun s hs => ?_, fun s hs => ?_⟩
  · refine ⟨answered_of_spdm hs rfl, answered_of_spdm hs rfl, fun a b => ⟨_, exec_negotiateAlgorithms hs a b, rfl, rfl⟩,
      fun off n => answered_of_spdm hs ?_, fun k off n hk => answered_of_spdm hs ?_, fun nonce => answered_of_spdm hs rfl,
      answered_of_spdm hs (exec_getMeasurements (by omega)), fun i h1 h7 => answered_of_spdm hs ?_,
      fun c => answered_of_spdm hs rfl⟩
    · rw [exec_getCertificate, if_pos rfl]
    · rw [exec_getCertificate, if_neg hk]
    · rw [exec_getMeasurements h7, if_neg (by omega)]
  · exact ⟨congrArg Host.Outcome.next (s.spdm_of_down hs _ _), congrArg Host.Outcome.next (s.spdm_of_down hs _ _)⟩

end Sys2Proof.Machine
end

section
/-! ## What leaves the package while a home serves an access (R175)

Beside the answers and the writes of outside parties nothing leaves it. -/

open Sys2Proof

namespace Sys2Proof.Machine

@[simp] theorem State.touchVault_hostOut (s : State) (pa : Nat) : (s.touchVault pa).hostOut = s.hostOut := by
  unfold State.touchVault
  split <;> rfl

@[simp] theorem State.respond_hostOut (s : State) (h : HomeId) (x : Response) : (s.respond h x).2.hostOut = s.hostOut := by
  unfold State.respond
  split <;> rfl

@[simp] theorem State.stackAnswer_hostOut (s : State) (slice line : Nat) : (s.stackAnswer slice line).2.hostOut = s.hostOut := by
  unfold State.stackAnswer
  split <;> simp

@[simp] theorem State.modLine_hostOut (s : State) (slice line : Nat) (f : L2Line → L2Line) :
    (s.modLine slice line f).hostOut = s.hostOut := rfl

@[simp] theorem State.l2WriteBack_hostOut (s : State) (slice line : Nat) (leave : Bool) :
    (s.l2WriteBack slice line leave).hostOut = s.hostOut := by
  simp [State.l2WriteBack]

@[simp] theorem State.l2Evict_hostOut (s : State) (slice line : Nat) : (s.l2Evict slice line).hostOut = s.hostOut := by
  unfold State.l2Evict
  dsimp only
  (repeat' split) <;> simp [State.l2Drop]

@[simp] theorem State.l2Use_hostOut (s : State) (h : HomeId) (p : Loc) (page : Page) (write : Bool) :
    (s.l2Use h p page write).2.hostOut = s.hostOut := by
  unfold State.l2Use
  dsimp only
  (repeat' split) <;> simp

@[simp] theorem State.reach_hostOut (s : State) (h : HomeId) (p : Loc) (page : Page) (write : Bool) :
    (s.reach h p page write).2.hostOut = s.hostOut := by
  unfold State.reach
  split <;> simp

@[simp] theorem State.putBytes_hostOut (s : State) (p : Loc) (bs : List Byte) : (s.putBytes p bs).hostOut = s.hostOut := by
  cases p with
  | mem a => simp only [State.putBytes]; split <;> rfl
  | scratch c o => rfl

@[simp] theorem State.publish_hostOut (s : State) (h : HomeId) (p : Loc) (bs : List Byte) :
    (s.publish h p bs).2.hostOut = s.hostOut := by
  cases p with
  | scratch => rfl
  | mem a =>
    refine foldl_snd_view State.hostOut _ (fun acc t => ?_) _ ([], s)
    dsimp only
    split <;> rfl

/-- A run of bytes in memory applied at its home. -/
@[simp] theorem State.putRun_hostOut (s : State) (h : HomeId) (by_ : CrewRef) (page : Page) (a : Nat) (bs : List Byte) :
    (s.putRun h by_ page (.mem a) bs).2.hostOut = s.hostOut :=
  (State.publish_hostOut ..).trans ((State.reach_hostOut ..).trans (s.putBytes_hostOut ..))

/-- A write of one run of bytes in memory, without descriptors, applied at a home of the device. -/
theorem State.applyWrite_hostOut (s : State) {h : HomeId} {w : WriteReq} {a : Nat} {bs : List Byte}
    (hb : w.bytes = [(.mem a, bs)]) (hd : w.descs = []) (hh : ∀ n, h ≠ .outside n) :
    (s.applyWrite h w none).2.2.hostOut = s.hostOut := by
  unfold State.applyWrite
  split
  · exact absurd rfl (hh _)
  · simp [hb, hd]

end Sys2Proof.Machine
end

section
/-! ## Accesses from outside the dies (R175, R492 to R494) -/

open Sys2Proof Sys2Proof.Claims

namespace Sys2Proof.Machine

/-! ### Answers held at a home -/

/-- A response of a unit of the device stands last at its home. -/
theorem State.respond_last (s : State) {h : HomeId} (hh : ∀ n, h ≠ .outside n) (x : Response) :
    ∃ y, ((s.respond h x).2.home h).responses.getLast? = some y ∧ y.reply = x.reply := by
  unfold State.respond
  split
  · exact absurd rfl (hh _)
  · rw [home_modHome]
    exact ⟨_, List.getLast?_concat .., rfl⟩

/-- An answer that rests on the response that its home has recorded last. -/
theorem heldFor_of_last {s t : State} {p : Loc} {who : Party} {data : List Byte} {y : Response} (ho : t.hostOut = s.hostOut)
    (hl : (t.home (s.homeOf p false)).responses.getLast? = some y) (hr : y.reply = some ⟨who, data⟩) : HeldFor s t p who data :=
  ⟨ho, by rw [hl, Option.bind_some, hr]; rfl⟩

/-! ### Accesses of one line -/

/-- Bytes that one line holds are one run. -/
theorem lineRuns_one {a fuel : Nat} {bs : List Byte} (hb : bs ≠ []) (h : a % 128 + bs.length ≤ 128) :
    lineRuns (fuel + 1) a bs = [(a, bs)] := by
  have rest : bs.drop (128 - a % 128) = [] := List.drop_eq_nil_of_le (by omega)
  have first : bs.take (128 - a % 128) = bs := List.take_of_length_le (by omega)
  have ended : lineRuns fuel (a + (128 - a % 128)) [] = [] := by cases fuel <;> rfl
  simp only [lineRuns, List.isEmpty_iff, hb, if_false, first, rest, ended]

/-- The access reaches at least one byte. -/
theorem State.reaches_length {s : State} {acc : HostAccess} (h : s.reaches acc = true) : (accessRange acc).2 ≠ 0 := by
  simp only [State.reaches, Bool.and_eq_true, bne_iff_ne] at h
  exact h.1.1

/-- A read of one line by an outside party: memory stands, and the answer waits at the line's home. -/
theorem State.perform_read {s : State} {who : Party} {a n : Nat} (hr : s.reaches (.read a n) = true) (hn : a % 128 + n ≤ 128)
    (hi : Inside s (.mem a)) :
    SameMemory s (s.perform who (.read a n)) ∧ HeldFor s (s.perform who (.read a n)) (.mem a) who (s.bytesAt (.mem a) n) := by
  have bytes : List.replicate n (0 : Byte) ≠ [] := by
    have pos : n ≠ 0 := State.reaches_length hr
    simpa using pos
  have run : s.perform who (.read a n) = s.readRun who (a, n) := by
    simp only [State.perform]
    rw [lineRuns_one bytes (by simpa using hn)]
    simp
  have home : ∃ q : Option Tag × State, q.2.exchange = s.exchange ∧ q.2.hostOut = s.hostOut ∧ s.readRun who (a, n) =
      (q.2.respond (s.homeOf (.mem a) false) { Response.for_ deviceCrew.core s.cycle .none with
        reply := some ⟨who, s.peek (.mem a) n⟩, fill := q.1 }).2 := by
    refine ⟨s.reach (s.homeOf (.mem a) false) (.mem a) Page.plain false, s.reach_exchange .., s.reach_hostOut .., ?_⟩
    unfold State.readRun
    dsimp only
    split
    · next k hk => exact absurd hk (hi k)
    · rfl
  obtain ⟨q, exchange, out, eq⟩ := home
  obtain ⟨y, last, reply⟩ := q.2.respond_last hi { Response.for_ deviceCrew.core s.cycle .none with
    reply := some ⟨who, s.peek (.mem a) n⟩, fill := q.1 }
  rw [run, eq]
  refine ⟨sameMemory_of_ledger ((State.ledger_of_exchange (State.respond_exchange ..)).trans (State.ledger_of_exchange exchange)),
    heldFor_of_last ((State.respond_hostOut ..).trans out) last ?_⟩
  rw [reply, State.peek_inside hi]

/-- A write of one line by an outside party: its bytes are performed, and the answer waits at the line's home. -/
theorem State.perform_write {s : State} {who : Party} {a : Nat} {d : List Byte} (hr : s.reaches (.write a d) = true)
    (hn : a % 128 + d.length ≤ 128) (hi : Inside s (.mem a)) :
    Performed s (s.perform who (.write a d)) (.mem a) d ∧ HeldFor s (s.perform who (.write a d)) (.mem a) who [] := by
  have bytes : d ≠ [] := by
    have pos : d.length ≠ 0 := State.reaches_length hr
    simpa using pos
  have run : s.perform who (.write a d) = s.releaseRun (a, d) (some ⟨who, []⟩) := by
    simp only [State.perform, State.writeOut, lineRuns_one bytes hn, List.dropLast_singleton, List.foldl_nil, List.getLast?_singleton]
    split
    · next k hk => exact absurd hk (hi k)
    · rfl
  let w : WriteReq := { crew := deviceCrew, setter := 0, bytes := [(.mem a, d)], descs := [], rel := none, stats := [] }
  have eq : ∃ x : Response, x.reply = some ⟨who, []⟩ ∧ s.releaseRun (a, d) (some ⟨who, []⟩) =
      ((s.applyWrite (s.homeOf (.mem a) false) w none).2.2.respond (s.homeOf (.mem a) false) x).2.modHome (s.homeOf (.mem a) false)
        (fun y => { y with sigs := y.sigs.filter (fun e => e.line != (Loc.mem a).line) }) := ⟨_, rfl, rfl⟩
  obtain ⟨x, held, eq⟩ := eq
  obtain ⟨y, last, reply⟩ := (s.applyWrite (s.homeOf (.mem a) false) w none).2.2.respond_last hi x
  rw [run, eq]
  refine ⟨((s.applyWrite_performed none rfl rfl hi).followed (State.respond_exchange ..)).followed (State.modHome_exchange ..),
    heldFor_of_last (y := y) ?_ ?_ (reply.trans held)⟩
  · rw [State.modHome_hostOut, State.respond_hostOut]
    exact s.applyWrite_hostOut rfl rfl hi
  · rw [home_modHome]
    exact last

/-! ### The parties -/

theorem exec_appCoreAccess {s : State} {hart : Nat} {acc : HostAccess} (ha : inAperture (accessRange acc).1 = false)
    (hc : s.cutOff (accessRange acc).1 (accessRange acc).2 = false) : exec (.appCoreAccess hart acc) s =
      .next (if s.reaches acc = true ∧ s.readsPoison acc = false then s.perform (.app hart) acc else s.reply (.app hart) [] false) := by
  show execAppCoreAccess hart acc s = _
  simp only [execAppCoreAccess, ha, hc, Bool.false_eq_true, if_false]
  cases s.reaches acc <;> cases s.readsPoison acc <;> simp

theorem exec_pcieInbound {s : State} {port pa : Nat} {acc : HostAccess} (hi : s.inbound port acc = some pa)
    (hc : s.cutOff pa (accessRange acc).2 = false) (hr : s.reaches (accessAt acc pa) = true)
    (hp : s.readsPoison (accessAt acc pa) = false) :
    exec (.pcieInboundRequest port acc) s = .next (s.perform .other (accessAt acc pa)) := by
  show execPcieInboundRequest port acc s = _
  simp only [execPcieInboundRequest, hi, hc, hr, hp, Bool.false_eq_true, if_false, Bool.not_true, Bool.or_self]

theorem exec_pcieInbound_unmatched {s : State} {port : Nat} {acc : HostAccess} (hi : s.inbound port acc = none) :
    exec (.pcieInboundRequest port acc) s = .next (s.reply .other [] false) := by
  show execPcieInboundRequest port acc s = _
  simp only [execPcieInboundRequest, hi]

/-- The request that a home keeps under a package's identifier. -/
def State.keptFor (s : State) (k tx : Nat) (acc : HostAccess) : Option Kept :=
  (s.home (s.homeOf (.mem (accessRange acc).1) false)).atoms.find? (fun x => x.core == packageKey k && x.serial == tx)

theorem exec_phoac_read {s : State} {k tx a n : Nat} (hq : s.quiescing = false) (hr : s.reaches (.read a n) = true)
    (hp : s.readsPoison (.read a n) = false) (hk : s.keptFor k tx (.read a n) = none) :
    exec (.phoacRequest k tx (.read a n)) s = .next (s.perform .other (.read a n)) := by
  show execPhoacRequest k tx (.read a n) s = _
  rw [State.keptFor] at hk
  simp only [execPhoacRequest, hq, hr, hp, hk, Bool.false_eq_true, if_false, Bool.not_true, Bool.or_self, accessWrites]

theorem exec_phoac_kept {s : State} {k tx : Nat} {acc : HostAccess} {x : Kept} (hq : s.quiescing = false)
    (hr : s.reaches acc = true) (hp : s.readsPoison acc = false) (hk : s.keptFor k tx acc = some x) :
    exec (.phoacRequest k tx acc) s =
      .next (s.reply .other (toBytes (accessRange acc).2 ((x.vals.map (fun v => v.2)).headD 0)) true) := by
  show execPhoacRequest k tx acc s = _
  rw [State.keptFor] at hk
  simp only [execPhoacRequest, hq, hr, hp, hk, Bool.false_eq_true, if_false, Bool.not_true, Bool.or_self]

theorem outsideAccesses : OutsideAccesses := by
  refine ⟨fun s hart a n ha hc hr hp hn hi => ?_, fun s hart a d hw ha hc hr hn hi => ?_, fun s hart acc ha hc hr => ?_,
    fun s port acc hi => ⟨_, exec_pcieInbound_unmatched hi, rfl⟩, fun s port a n pa hb hc hr hp hn hi => ?_,
    fun s k tx a n hq hr hp hk hn hi => ?_, fun s k tx acc x hq hr hp hk => ?_⟩
  · refine ⟨_, exec_appCoreAccess ha hc, ?_⟩
    rw [if_pos ⟨hr, hp⟩]
    exact State.perform_read hr hn hi
  · refine ⟨_, exec_appCoreAccess ha hc, ?_⟩
    rw [if_pos ⟨hr, rfl⟩]
    obtain ⟨performed, held⟩ := State.perform_write (who := .app hart) hr hn hi
    exact ⟨performed.bytes hw, performed.outside hw, held⟩
  · refine ⟨_, exec_appCoreAccess ha hc, ?_⟩
    rw [if_neg (by simp [hr])]
    rfl
  · exact ⟨_, exec_pcieInbound hb hc hr hp, State.perform_read hr hn hi⟩
  · exact ⟨_, exec_phoac_read hq hr hp hk, State.perform_read hr hn hi⟩
  · exact ⟨_, exec_phoac_kept hq hr hp hk, sameMemory_of_ledger rfl, rfl⟩

end Sys2Proof.Machine
end

section
namespace Sys2Proof
open Machine Claims

/-- Settles O50, from what Plinth answers and what accesses from outside do. -/
theorem spdmAndOutsideAccesses : Obligations.SpdmAndOutsideAccesses := by
  unfold Obligations.SpdmAndOutsideAccesses
  exact ⟨spdmRequestsAreAnswered, outsideAccesses⟩

end Sys2Proof
end

section
/-! ## Groups and engines, and what leaves them alone

The groups and the engines of every core are what an engine's step reads and changes beside memory. Reads at homes, runs of
bytes performed there, copies in L1, accumulators and crews do not touch them. -/

open Sys2Proof Sys2Proof.Claims

namespace Sys2Proof.Machine

/-- The groups and the engines of every core. -/
def State.works (s : State) : Nat → List (Option Group) × List Engine := fun c => ((s.core c).groups, (s.core c).engines)

theorem State.group_of_works {s t : State} (h : t.works = s.works) (c g : Nat) : t.group c g = s.group c g := by
  have groups : (t.core c).groups = (s.core c).groups := congrArg Prod.fst (congrFun h c)
  rw [State.group, State.group, groups]

theorem State.engineOps_of_works {s t : State} (h : t.works = s.works) (c u : Nat) : t.engineOps c u = s.engineOps c u := by
  have engines : (t.core c).engines = (s.core c).engines := congrArg Prod.snd (congrFun h c)
  rw [State.engineOps, State.engineOps, engines]

theorem State.works_of_control {s t : State} (h : t.control = s.control) : t.works = s.works := by
  funext c
  have frame := State.core_of_control h c
  have groups : (t.core c).groups = (s.core c).groups := by have e := congrArg Core.groups frame; exact e
  have engines : (t.core c).engines = (s.core c).engines := by have e := congrArg Core.engines frame; exact e
  exact Prod.ext groups engines

theorem State.works_of_cores {s t : State} (h : t.cores = s.cores) : t.works = s.works :=
  funext fun c => congrArg (fun k : Core => (k.groups, k.engines)) (State.core_of_cores h c)

theorem State.modCore_works (s : State) (c : Nat) (f : Core → Core)
    (hf : ∀ k, ((f k).groups, (f k).engines) = (k.groups, k.engines) := by exact fun _ => rfl) : (s.modCore c f).works = s.works := by
  funext d
  by_cases h : d = c
  · rw [State.works, h, core_modCore]; exact hf _
  · rw [State.works, core_modCore_ne _ _ _ _ h]; rfl

theorem State.modSub_works (s : State) (c b : Nat) (f : Sub → Sub) : (s.modSub c b f).works = s.works := s.modCore_works c _

@[simp] theorem State.putBytes_works (s : State) (p : Loc) (bs : List Byte) : (s.putBytes p bs).works = s.works := by
  cases p with
  | mem a => simp only [State.putBytes]; split <;> rfl
  | scratch c o => exact s.modCore_works ..

@[simp] theorem State.respond_works (s : State) (h : HomeId) (x : Response) : (s.respond h x).2.works = s.works :=
  State.works_of_control (s.respond_control ..)

@[simp] theorem State.reach_works (s : State) (h : HomeId) (p : Loc) (page : Page) (write : Bool) :
    (s.reach h p page write).2.works = s.works :=
  State.works_of_control (s.reach_control ..)

@[simp] theorem State.publish_works (s : State) (h : HomeId) (p : Loc) (bs : List Byte) : (s.publish h p bs).2.works = s.works :=
  State.works_of_control (s.publish_control ..)

@[simp] theorem State.scratchConflict_works (s : State) (core off len : Nat) (by_ : CrewRef) :
    (s.scratchConflict core off len by_).works = s.works := by
  refine foldl_view State.works _ (fun st r => ?_) _ s
  have abort := State.abortLanes_view State.works State.modSub_works fun _ => rfl
  split
  · rfl
  · split
    · dsimp only
      split
      · rfl
      · exact abort ..
    · rfl

@[simp] theorem State.putRun_works (s : State) (h : HomeId) (by_ : CrewRef) (page : Page) (p : Loc) (bs : List Byte) :
    (s.putRun h by_ page p bs).2.works = s.works := by
  refine (State.publish_works ..).trans ?_
  cases p with
  | mem a => exact (State.reach_works ..).trans (s.putBytes_works ..)
  | scratch c o =>
    exact (State.scratchConflict_works ..).trans
      (foldl_view State.works (fun st (x : Loc × List Byte) => st.putBytes x.1 x.2) (fun st x => st.putBytes_works ..) _ s)

/-- A write of one run of bytes, without descriptors, performed at a home of the device. -/
theorem State.writeNow_works (s : State) {h : HomeId} {w : WriteReq} {p : Loc} {bs : List Byte} (hb : w.bytes = [(p, bs)])
    (hd : w.descs = []) (hh : ∀ n, h ≠ .outside n) : (s.writeNow h w).works = s.works := by
  have applied : (s.applyWrite h w none).2.2.works = s.works := by
    unfold State.applyWrite
    split
    · exact absurd rfl (hh _)
    · simp [hb, hd]
  exact (State.respond_works ..).trans applied

@[simp] theorem State.l1Store_works (s : State) (c : Nat) (p : Loc) (bs : List Byte) : (s.l1Store c p bs).works = s.works := by
  unfold State.l1Store
  split
  · rfl
  · split
    · exact s.modCore_works ..
    · rfl

@[simp] theorem State.acked_works (s : State) (c : Nat) (p : Loc) : (s.acked c p).works = s.works := by
  cases p with
  | mem a => exact s.modCore_works ..
  | scratch d o => rfl

theorem State.addStats_frame (s : State) (l : Nat) (xs : List StatAdd) :
    (s.addStats l xs).mem = s.mem ∧ (s.addStats l xs).cores = s.cores := by
  unfold State.addStats
  split
  · exact ⟨rfl, rfl⟩
  · exact ⟨s.modLaunch_mem .., s.modLaunch_cores ..⟩

theorem State.wakeGroup_works (s : State) (core : Nat) (g : Group) (done : Await → Bool) :
    (s.wakeGroup core g done).works = s.works := by
  refine foldl_view State.works _ (fun t x => ?_) _ s
  dsimp only
  split
  · exact (State.modSub_works ..).trans (t.modSub_works ..)
  · rfl

/-! ### Their changes -/

theorem State.group_modGroup (s : State) (c g : Nat) (f : Group → Group) : (s.modGroup c g f).group c g = (s.group c g).map f := by
  rw [State.group, State.modGroup, core_modCore, State.group]
  by_cases h : g < (s.core c).groups.length
  · exact modifyAt_getD_same _ _ _ _ h
  · rw [List.getD_eq_default _ _ (by simpa using h), List.getD_eq_default _ _ (by omega)]
    rfl

theorem State.engineOps_modGroup (s : State) (c g d u : Nat) (f : Group → Group) :
    (s.modGroup c g f).engineOps d u = s.engineOps d u := by
  rw [State.engineOps, State.engineOps]
  by_cases h : d = c
  · rw [State.modGroup, h, core_modCore]
  · rw [State.modGroup, core_modCore_ne _ _ _ _ h]

theorem State.engineOps_modOps (s : State) (c u : Nat) {f : List EngOp → List EngOp} (hf : f [] = []) :
    (s.modOps c u f).engineOps c u = f (s.engineOps c u) := by
  rw [State.engineOps, State.modOps, core_modCore, State.engineOps]
  rw [modifyAt_getElem?, if_pos rfl]
  cases (s.core c).engines[u]? with
  | none => exact hf.symm
  | some e => rfl

theorem State.group_modOps (s : State) (c u d g : Nat) (f : List EngOp → List EngOp) : (s.modOps c u f).group d g = s.group d g := by
  rw [State.group, State.group]
  by_cases h : d = c
  · rw [State.modOps, h, core_modCore]
  · rw [State.modOps, core_modCore_ne _ _ _ _ h]

theorem State.modOps_ledger (s : State) (c u : Nat) (f : List EngOp → List EngOp) : (s.modOps c u f).ledger = s.ledger :=
  s.modCore_ledger c _

theorem State.modTile_ledger (s : State) (c g k : Nat) (f : TileSlot → TileSlot) : (s.modTile c g k f).ledger = s.ledger :=
  s.modGroup_ledger ..

theorem State.engineOps_modTile (s : State) (c g k d u : Nat) (f : TileSlot → TileSlot) :
    (s.modTile c g k f).engineOps d u = s.engineOps d u :=
  s.engineOps_modGroup ..

theorem State.tile_modTile {s : State} {c g k : Nat} {x : Group} (hg : s.group c g = some x) (hk : k < x.tiles.length)
    (f : TileSlot → TileSlot) : (s.modTile c g k f).tile c g k = f (s.tile c g k) := by
  rw [State.tile, State.modTile, State.group_modGroup, State.tile, hg]
  simp only [Option.map_some, Option.bind_some, modifyAt_getElem?, if_true, List.getElem?_eq_getElem hk, Option.getD_some]

/-- The operation of a unit with its number, where one of them changes. -/
theorem State.engineOps_modOp (s : State) (c u id : Nat) (f : EngOp → EngOp) :
    (s.modOp c u id f).engineOps c u = (s.engineOps c u).map (fun o => if o.id == id then f o else o) :=
  s.engineOps_modOps c u rfl

theorem State.mem_engineOps_modOp {s : State} {c u : Nat} {o : EngOp} (h : o ∈ s.engineOps c u) (f : EngOp → EngOp) :
    f o ∈ (s.modOp c u o.id f).engineOps c u := by
  rw [State.engineOps_modOp]
  exact List.mem_map.2 ⟨o, h, by simp⟩

end Sys2Proof.Machine
end

section
/-! ## Engine commands start and stage (R167 to R169, R337, R347, R361) -/

open Sys2Proof Sys2Proof.Claims

namespace Sys2Proof.Machine

/-! ### Starts -/

/-- A start changes tiles at most. -/
theorem State.forkTile_view {β : Type} (v : State → β) (hv : ∀ (s : State) c g k f, v (s.modTile c g k f) = v s) (s : State)
    (core : Nat) (o : EngOp) : v (s.forkTile core o) = v s := by
  have forked : ∀ k, v (if o.work.writesTile then
      s.modTile core o.gslot k (fun t => if t.forked then t else { t with live := t.base, forked := true }) else s) = v s := fun k => by
    split
    · exact hv ..
    · rfl
  unfold State.forkTile
  split
  · dsimp only
    split
    · split
      · exact (hv ..).trans (forked _)
      · exact forked _
    · exact forked _
  · rfl

theorem exec_engineOpStart {s : State} {o : EngOp} (h : s.startable s.sel.a s.sel.b = some o) :
    exec .engineOpStart s = .next ((s.forkTile s.sel.a o).modOp s.sel.a s.sel.b o.id (fun x =>
      { x with started := some s.cycle, nextAt := s.firstStepAt s.sel.a o, readDone := s.readAtStart o })) := by
  show execEngineOpStart s = _
  simp only [execEngineOpStart, h]

theorem engineStarts {s : State} {o : EngOp} (h : s.startable s.sel.a s.sel.b = some o) :
    ∃ t, exec .engineOpStart s = .next t ∧ SameMemory s t ∧ t.engineOps s.sel.a s.sel.b =
      (s.engineOps s.sel.a s.sel.b).map (fun x => if x.id == o.id then
        { x with started := some s.cycle, nextAt := s.firstStepAt s.sel.a o, readDone := s.readAtStart o } else x) := by
  refine ⟨_, exec_engineOpStart h, sameMemory_of_ledger ?_, ?_⟩
  · exact (State.modOps_ledger ..).trans (State.forkTile_view State.ledger State.modTile_ledger s _ o)
  · rw [State.engineOps_modOp, State.forkTile_view (fun t => t.engineOps s.sel.a s.sel.b) (fun t c g k f => t.engineOps_modTile ..)]

/-! ### Staging -/

/-- The operation whose step is due is one of its unit's. -/
theorem State.stepDue_mem {s : State} {o : EngOp} {c u : Nat} (h : s.stepDue c u = some o) : o ∈ s.engineOps c u :=
  List.mem_of_find?_eq_some h

/-- A unit has been put in staging behind those of its operation. -/
theorem State.stage_staged {s : State} {c u : Nat} {o : EngOp} (h : o ∈ s.engineOps c u) (x : Option Staged) (next : Nat) :
    ∃ p, p ∈ (s.stage c u o x next).engineOps c u ∧ p.id = o.id ∧ p.step = o.step + 1 ∧ p.staged = o.staged ++ x.toList :=
  ⟨_, State.mem_engineOps_modOp (s := s.spend) h _, rfl, rfl, rfl⟩

theorem State.stage_ledger (s : State) (c u : Nat) (o : EngOp) (x : Option Staged) (next : Nat) :
    (s.stage c u o x next).ledger = s.ledger :=
  State.modOps_ledger ..

theorem State.tile_stage (s : State) (c u : Nat) (o : EngOp) (x : Option Staged) (next d g k : Nat) :
    (s.stage c u o x next).tile d g k = s.tile d g k := by
  rw [State.tile, State.stage, State.modOp, State.group_modOps]
  rfl

theorem State.afterRerun_of_first {o : EngOp} (h : o.done = false) (c u : Nat) (s : State) : State.afterRerun c u o s = s := by
  simp [State.afterRerun, h]

theorem exec_step_tzero {s : State} {o : EngOp} {k : Nat} (h : s.stepDue s.sel.a s.sel.b = some o) (hw : o.work = .tzero k)
    (hd : o.done = false) : exec .unitCompleteInStaging s =
      .next ((s.modTile s.sel.a o.gslot k (fun t => { t with live := zeroTile, status := 1 })).stage s.sel.a s.sel.b o
        (some s.emptyUnit) s.cycle) := by
  show execUnitCompleteInStaging s = _
  simp only [execUnitCompleteInStaging, h, hw, State.afterRerun_of_first hd]

theorem exec_step_copy {s : State} {o : EngOp} {runs : List CopyRun} {credit : Option Nat} (h : s.stepDue s.sel.a s.sel.b = some o)
    (hw : o.work = .copy runs credit) (hd : o.done = false) :
    exec .unitCompleteInStaging s = .next (s.stepCopy s.sel.a s.sel.b o runs credit.isSome) := by
  show execUnitCompleteInStaging s = _
  simp only [execUnitCompleteInStaging, h, hw, State.afterRerun_of_first hd]

theorem zeroStages {s : State} {o : EngOp} {k : Nat} {g : Group} (h : s.stepDue s.sel.a s.sel.b = some o) (hw : o.work = .tzero k)
    (hd : o.done = false) (hg : s.group s.sel.a o.gslot = some g) (hk : k < g.tiles.length) :
    ∃ t p, exec .unitCompleteInStaging s = .next t ∧ SameMemory s t ∧ (t.tile s.sel.a o.gslot k).live = zeroTile ∧
      (t.tile s.sel.a o.gslot k).status = 1 ∧ p ∈ t.engineOps s.sel.a s.sel.b ∧ p.id = o.id ∧ p.step = o.step + 1 ∧
      p.staged = o.staged ++ [s.emptyUnit] := by
  have mem : o ∈ (s.modTile s.sel.a o.gslot k (fun t => { t with live := zeroTile, status := 1 })).engineOps s.sel.a s.sel.b := by
    rw [State.engineOps_modTile]
    exact State.stepDue_mem h
  obtain ⟨p, staged⟩ := State.stage_staged mem (some s.emptyUnit) s.cycle
  refine ⟨_, p, exec_step_tzero h hw hd, sameMemory_of_ledger ((State.stage_ledger ..).trans (State.modTile_ledger ..)), ?_, ?_, staged⟩
  all_goals rw [State.tile_stage, State.tile_modTile hg hk]

/-- Reads of an engine at homes change neither memory nor groups nor engines. -/
theorem State.engineTags_control (s : State) (core : Nat) (l : List (Loc × Page)) :
    (s.engineTags core l).2.control = s.control ∧ (s.engineTags core l).2.exchange = s.exchange := by
  constructor
  · refine foldl_snd_view State.control _ (fun a x => ?_) l ([], s)
    dsimp only
    split
    · exact (State.respond_control ..).trans (State.reach_control ..)
    · exact State.reach_control ..
  · refine foldl_snd_view State.exchange _ (fun a x => ?_) l ([], s)
    dsimp only
    split
    · exact (State.respond_exchange ..).trans (State.reach_exchange ..)
    · exact State.reach_exchange ..

/-- A chunk of a copy none of whose blocks fails is staged as it has been read. -/
theorem State.stepCopy_stages {s : State} {core unit : Nat} {o : EngOp} {runs : List CopyRun} (credit : Bool)
    (hf : ∀ x ∈ o.chunkRuns, s.opFault o x.1.src.block = none) :
    ∃ (v : State) (u : Staged) (next : Nat), v.exchange = s.exchange ∧ v.works = s.works ∧
      s.stepCopy core unit o runs credit = v.stage core unit o (some u) next ∧
      u.writes = o.chunkRuns.map (fun x => (x.1.dst, s.opBytes o x.1.src x.1.len)) := by
  have unfaulted : o.chunkRuns.findSome? (fun x => (s.opFault o x.1.src.block).map (fun c => (c, x.1.va))) = none :=
    List.findSome?_eq_none_iff.2 fun x hx => by rw [hf x hx]; rfl
  obtain ⟨control, exchange⟩ := s.engineTags_control core ((o.chunkRuns.map (fun x => (x.1.src.line, x.1.srcPage))).eraseDups)
  simp only [State.stepCopy, unfaulted]
  refine ⟨_, _, _, ?_, ?_, rfl, rfl⟩
  · exact exchange
  · exact State.works_of_control control

theorem copyStages {s : State} {o : EngOp} {runs : List CopyRun} {credit : Option Nat} (h : s.stepDue s.sel.a s.sel.b = some o)
    (hw : o.work = .copy runs credit) (hd : o.done = false)
    (hf : ∀ x ∈ sliceRuns (Config.chunk * o.step) Config.chunk runs, s.opFault o x.1.src.block = none) :
    ∃ t p u, exec .unitCompleteInStaging s = .next t ∧ SameMemory s t ∧ p ∈ t.engineOps s.sel.a s.sel.b ∧ p.id = o.id ∧
      p.step = o.step + 1 ∧ p.staged = o.staged ++ [u] ∧ u.writes =
        (sliceRuns (Config.chunk * o.step) Config.chunk runs).map (fun x => (x.1.dst, s.opBytes o x.1.src x.1.len)) := by
  have chunk : o.chunkRuns = sliceRuns (Config.chunk * o.step) Config.chunk runs := by simp only [EngOp.chunkRuns, hw]
  rw [← chunk] at hf ⊢
  obtain ⟨v, u, next, exchange, works, step, writes⟩ :=
    State.stepCopy_stages (core := s.sel.a) (unit := s.sel.b) (runs := runs) credit.isSome hf
  have mem : o ∈ v.engineOps s.sel.a s.sel.b := by
    rw [State.engineOps_of_works works]
    exact State.stepDue_mem h
  obtain ⟨p, hp, id, stepped, staged⟩ := State.stage_staged mem (some u) next
  refine ⟨v.stage s.sel.a s.sel.b o (some u) next, p, u, by rw [exec_step_copy h hw hd, step], ?_, hp, id, stepped, staged, writes⟩
  exact sameMemory_of_ledger ((State.stage_ledger ..).trans (State.ledger_of_exchange exchange))

end Sys2Proof.Machine
end

section
/-! ## A chunk of a copy lands (R22, R108, R167, R168, R336) -/

open Sys2Proof Sys2Proof.Claims

namespace Sys2Proof.Machine

/-- A run of bytes has been written, and groups and engines stand. -/
structure RunLanded (s t : State) (p : Loc) (bs : List Byte) : Prop where
  cells : t.cells = (s.putBytes p bs).cells
  works : t.works = s.works

theorem RunLanded.followed {s t u : State} {p : Loc} {bs : List Byte} (h : RunLanded s t p bs) (hc : u.cells = t.cells)
    (hw : u.works = t.works) : RunLanded s u p bs :=
  ⟨hc.trans h.cells, hw.trans h.works⟩

/-- Statistics come after a run. -/
theorem RunLanded.counted {s t : State} {p : Loc} {bs : List Byte} (h : RunLanded s t p bs) (l : Nat) (xs : List StatAdd) :
    RunLanded s (t.addStats l xs) p bs := by
  obtain ⟨hm, hc⟩ := t.addStats_frame l xs
  refine h.followed ?_ (State.works_of_cores hc)
  simp only [State.cells, hm, State.core_of_cores hc]

/-- A run whose home is in the device and that touches no bound barrier object lands whole. -/
theorem State.landRun_landed {s : State} {o : EngOp} {thg : Bool} {p : Loc} {bs : List Byte}
    (ho : s.touchesObject p bs.length = false) (hh : ∀ n, s.homeOf p thg ≠ .outside n) :
    RunLanded s (s.landRun o thg p bs none) p bs := by
  let w : WriteReq := { crew := o.crew, setter := 0, bytes := s.outsideObjects p bs, descs := [], rel := none, stats := [] }
  let raced := s.race o.crew.core o.gslot (fun _ => false) p bs.length
  have whole : w.bytes = [(p, bs)] := State.outsideObjects_whole ho
  have performed := State.writeNow_performed raced (h := s.homeOf p thg) whole ho hh
  have works := State.writeNow_works raced (h := s.homeOf p thg) whole rfl hh
  have landed : RunLanded s (raced.writeNow (s.homeOf p thg) w) p bs := by
    refine ⟨performed.cells.trans ?_, works.trans rfl⟩
    cases p with
    | mem a => simp only [State.putBytes]; split <;> rfl
    | scratch c k => rfl
  have stored := landed.followed (u := (raced.writeNow (s.homeOf p thg) w).l1Store o.crew.core p bs)
    (State.cells_of_exchange (State.l1Store_exchange ..)) (State.l1Store_works ..)
  exact stored.followed (State.cells_of_goods (State.goods_of_stock (State.acked_stock ..))) (State.acked_works ..)

/-- A staged unit of one run without descriptors or sums. -/
theorem State.landUnit_landed {s : State} {o : EngOp} {u : Staged} {p : Loc} {bs : List Byte}
    (hu : u.writes = [(p, bs)]) (hd : u.descs = []) (ha : u.add = none)
    (ho : s.touchesObject p bs.length = false) (hh : ∀ n, s.homeOf p (o.thg p) ≠ .outside n) :
    RunLanded s (s.landUnit o u) p bs := by
  have landed := State.landRun_landed (o := o) ho hh
  have fault : s.addFault u = none := by simp [State.addFault, ha]
  simp only [State.landUnit, fault, hu, hd, ha, List.foldl_cons, List.foldl_nil, List.reverse_nil, List.find?_nil, Option.map_none]
  split
  · exact landed.counted ..
  · exact landed

theorem State.occupy_landed {s t : State} {p : Loc} {bs : List Byte} (h : RunLanded s t p bs) (o : EngOp) (u : Staged) :
    RunLanded s (t.occupy o u) p bs := by
  have frame := foldl_view (fun v : State => (v.cells, v.works))
    (fun (st : State) h => if homeHasPort h then st.modHome h (fun x => { x with freeAt := t.cycle +
      ((u.writes.map (fun x => (t.homeOf x.1 (o.thg x.1), x.1.line))).eraseDups).countP (fun y => y.1 == h) }) else st)
    (fun st x => by split <;> rfl) ((((u.writes.map (fun x => (t.homeOf x.1 (o.thg x.1), x.1.line))).eraseDups).map (fun x => x.1)).eraseDups) t
  exact h.followed (congrArg Prod.fst frame) (congrArg Prod.snd frame)

theorem State.creditUnit_of_none {s : State} {o : EngOp} {runs : List CopyRun} (hw : o.work = .copy runs none) (u : Staged) :
    s.creditUnit o u = s := by
  simp [State.creditUnit, hw]

/-- The operation without its first staged unit, which has landed. -/
def EngOp.pop (o : EngOp) (rest : List Staged) : EngOp := { o with staged := rest, landed := o.landed + 1 }

/-- The state after a chunk's bytes, the chunk taken from its operation. -/
def State.chunkLanded (s : State) (core unit : Nat) (o : EngOp) (u : Staged) (rest : List Staged) : State :=
  (((s.landUnit o u).occupy o u).creditUnit o u).modOp core unit o.id (fun x => x.pop rest)

theorem exec_engineLand_copy {s : State} {o : EngOp} {runs : List CopyRun} {u : Staged} {rest : List Staged}
    (h : s.landDue s.sel.a s.sel.b = some o) (hw : o.work = .copy runs none) (hu : o.staged = u :: rest) :
    exec .engineLand s = .next (if (o.pop rest).allLanded then
      (s.chunkLanded s.sel.a s.sel.b o u rest).opLanded s.sel.a s.sel.b (o.pop rest)
      else s.chunkLanded s.sel.a s.sel.b o u rest) := by
  have latch : ∀ t : State, (t.landLatch s.sel.a o).landLoose s.sel.a o = t := fun t => by
    simp [State.landLatch, State.landLoose, EngWork.readsLatch, hw]
  have run : exec .engineLand s = if (o.pop rest).allLanded then
      .next ((((s.chunkLanded s.sel.a s.sel.b o u rest).landLatch s.sel.a o).landLoose s.sel.a o).opLanded s.sel.a s.sel.b (o.pop rest))
      else .next (s.chunkLanded s.sel.a s.sel.b o u rest) := by
    show execEngineLand s = _
    simp only [execEngineLand, h]
    split
    · next hs => cases hw.symm.trans hs
    · next hs _ => cases hu.symm.trans hs
    · next hs _ =>
      cases hu.symm.trans hs
      rfl
  rw [run, latch]
  split <;> rfl

/-- The operation whose unit lands has started, or has nothing to do. -/
theorem State.landDue_started {s : State} {o : EngOp} {runs : List CopyRun} {c u : Nat} (h : s.landDue c u = some o)
    (hw : o.work = .copy runs none) : (o.started.isSome || o.total == 0) = true := by
  have landable := List.find?_some h
  simp only [State.landable, hw, Bool.and_eq_true] at landable
  exact landable.2.2

/-! ### The end of a copy -/

/-- The group whose number has landed. -/
def Group.landOn (g : Group) (tl n : Nat) : Group := { g with timelines := modifyAt g.timelines tl (fun t => t.land n) }

theorem State.landNumber_works (s : State) (c gs tl n : Nat) :
    (s.landNumber c gs tl n).works = (s.modGroup c gs (fun g => g.landOn tl n)).works := by
  unfold State.landNumber
  dsimp only
  split
  · exact State.wakeGroup_works ..
  · rfl

theorem State.landNumber_cells (s : State) (c gs tl n : Nat) : (s.landNumber c gs tl n).cells = s.cells := by
  have grouped : (s.modGroup c gs (fun g => g.landOn tl n)).cells = s.cells := State.cells_of_ledger (s.modGroup_ledger ..)
  unfold State.landNumber
  dsimp only
  split
  · exact (State.cells_of_goods (congrArg Prod.fst (State.wakeGroup_posts ..))).trans grouped
  · exact grouped

/-- A copy that has landed leaves its unit, and its number is on its timeline. -/
theorem State.opLanded_copy {s : State} {o : EngOp} {runs : List CopyRun} (c u : Nat) (hw : o.work = .copy runs none) :
    (s.opLanded c u o).cells = s.cells ∧ (∀ x ∈ (s.opLanded c u o).engineOps c u, x.id ≠ o.id) ∧
      (s.opLanded c u o).group c o.gslot = (s.group c o.gslot).map (fun g => g.landOn o.tl o.num) := by
  have gone : s.opLanded c u o = ((s.landNumber c o.gslot o.tl o.num).forgetRaced (fun x => x.op == o.id)).modOps c u
      (fun l => l.filter (fun x => x.id != o.id)) := by
    simp [State.opLanded, hw, EngWork.tile, EngWork.fillsLatch]
  rw [gone]
  refine ⟨(State.cells_of_ledger (State.modOps_ledger ..)).trans (s.landNumber_cells ..), fun x hx => ?_, ?_⟩
  · rw [State.engineOps_modOps _ _ _ rfl] at hx
    simpa using (List.mem_filter.1 hx).2
  · rw [State.group_modOps]
    exact (State.group_of_works (s.landNumber_works ..) _ _).trans (s.group_modGroup ..)

/-- What a chunk of a copy leaves of its bytes, its unit and its timeline. -/
theorem copyLands {s : State} {o : EngOp} {runs : List CopyRun} {u : Staged} {rest : List Staged} {p : Loc} {bs : List Byte}
    (hs : s.wf = true) (h : s.landDue s.sel.a s.sel.b = some o) (hw : o.work = .copy runs none) (hu : o.staged = u :: rest)
    (hb : u.writes = [(p, bs)]) (hd : u.descs = []) (ha : u.add = none) (ho : s.touchesObject p bs.length = false)
    (hh : ∀ n, s.homeOf p (o.thg p) ≠ .outside n) :
    ∃ t, exec .engineLand s = .next t ∧ t.bytesAt p bs.length = bs ∧ SameBytesOutside s t [(p, bs.length)] ∧
      (rest = [] → o.total ≤ o.step → ((t.engineOps s.sel.a s.sel.b).all (fun x => x.id != o.id) = true ∧
        ∀ g, s.group s.sel.a o.gslot = some g → o.tl < g.timelines.length → ∃ h, t.group s.sel.a o.gslot = some h ∧
          h.timelines.getD o.tl .reset = (g.timelines.getD o.tl .reset).land o.num)) ∧
      (rest ≠ [] → t.engineOps s.sel.a s.sel.b = (s.engineOps s.sel.a s.sel.b).map (fun x => if x.id == o.id then
        { x with staged := rest, landed := x.landed + 1 } else x)) := by
  have landed := State.occupy_landed (State.landUnit_landed hb hd ha ho hh) o u
  have chunk : s.chunkLanded s.sel.a s.sel.b o u rest =
      ((s.landUnit o u).occupy o u).modOp s.sel.a s.sel.b o.id (fun x => x.pop rest) := by
    rw [State.chunkLanded, State.creditUnit_of_none hw]
  have cells : (s.chunkLanded s.sel.a s.sel.b o u rest).cells = (s.putBytes p bs).cells := by
    rw [chunk]
    exact (State.cells_of_ledger (State.modOps_ledger ..)).trans landed.cells
  have group : (s.chunkLanded s.sel.a s.sel.b o u rest).group s.sel.a o.gslot = s.group s.sel.a o.gslot := by
    rw [chunk, State.modOp, State.group_modOps, State.group_of_works landed.works]
  obtain ⟨last, gone, timeline⟩ := State.opLanded_copy (s := s.chunkLanded s.sel.a s.sel.b o u rest) (o := o.pop rest)
    s.sel.a s.sel.b hw
  have performed : ∀ t : State, t.cells = (s.putBytes p bs).cells → t.bytesAt p bs.length = bs ∧
      SameBytesOutside s t [(p, bs.length)] := fun t ht => by
    refine ⟨(State.bytesAt_of_cells ht ..).trans (s.bytesAt_putBytes_same p bs hs), fun q hq => ?_⟩
    have apart := hq _ (List.mem_singleton.2 rfl)
    rw [State.bytesAt_of_cells ht, State.bytesAt_putBytes_apart _ _ _ _ _ hs (by rw [Loc.overlaps_comm]; exact apart)]
  refine ⟨_, exec_engineLand_copy h hw hu, ?_⟩
  split
  · next all =>
    obtain ⟨bytes, outside⟩ := performed _ (last.trans cells)
    refine ⟨bytes, outside, fun _ _ => ⟨List.all_eq_true.2 fun x hx => bne_iff_ne.2 (gone x hx), fun g hg htl => ?_⟩, fun hr => ?_⟩
    · refine ⟨g.landOn o.tl o.num, (timeline.trans (congrArg _ (group.trans hg))), ?_⟩
      exact modifyAt_getD_same _ _ _ _ htl
    · simp [EngOp.allLanded, EngOp.pop, hr] at all
  · next more =>
    obtain ⟨bytes, outside⟩ := performed _ cells
    refine ⟨bytes, outside, fun hr ht => absurd ?_ more, fun _ => ?_⟩
    · have started := State.landDue_started h hw
      simp only [EngOp.allLanded, EngOp.pop, hr, List.isEmpty_nil, decide_eq_true ht, Bool.or_true, Bool.true_and]
      exact started
    · rw [chunk, State.engineOps_modOp, State.engineOps_of_works landed.works]
      rfl

end Sys2Proof.Machine
end

section
namespace Sys2Proof
open Machine Claims

/-- Settles O38, one lemma for each step of an engine. -/
theorem enginesStartStageAndLand : Obligations.EnginesStartStageAndLand := by
  unfold Obligations.EnginesStartStageAndLand
  exact ⟨fun _ _ h => engineStarts h, fun _ _ _ _ h hw hd hg hk => zeroStages h hw hd hg hk,
    fun _ _ _ _ h hw hd hf => copyStages h hw hd hf,
    fun _ _ _ _ _ _ _ hs h hw hu _ hb hd ha ho hh => copyLands hs h hw hu hb hd ha ho hh⟩

end Sys2Proof
end

section
/-! ## Captures in latches (R208, R209)

A register instruction with HOLD writes its destination, retires, and keeps the transposition table. Only retiring touches the
latches and the locked run. -/

open Sys2Proof Sys2Proof.Claims

namespace Sys2Proof.Machine

/-! ### What leaves latches and locked runs alone -/

/-- The latches of a sub-core and its locked run. -/
def Sub.latching (b : Sub) : List (Option Latch) × Option Locked := (b.latches, b.locked)

theorem State.modSub_latching (s : State) (c b d e : Nat) (f : Sub → Sub) (hf : ∀ x, (f x).latching = x.latching) :
    ((s.modSub c b f).sub d e).latching = (s.sub d e).latching := by
  rcases sub_modSub_cases s c b d e f with h | ⟨-, -, h⟩ <;> rw [h]
  exact hf _

@[simp] theorem State.modCrew_latching (s : State) (r : CrewRef) (f : Crew → Crew) (c b : Nat) :
    ((s.modCrew r f).sub c b).latching = (s.sub c b).latching :=
  s.modSub_latching _ _ _ _ _ fun _ => rfl

theorem Sub.purgeOne_latching (b : Sub) (p : PhysReg) : (b.purgeOne p).latching = b.latching := by
  unfold Sub.purgeOne
  split <;> rfl

@[simp] theorem Sub.store_latching (b : Sub) (slot k : Nat) (c : Content) : (b.store slot k c).latching = b.latching := by
  exact Sub.purgeOne_latching ..

@[simp] theorem Sub.countStore_latching (b : Sub) (c : Content) : (b.countStore c).latching = b.latching := by
  obtain ⟨e, h⟩ := countStore_same b c
  rw [h]
  rfl

@[simp] theorem Sub.writeReg_latching (b : Sub) (slot k : Nat) (m : Mask) (c : Content) (taint : Mask) (back : Bool) :
    (b.writeReg slot k m c taint back).latching = b.latching := by
  refine (Sub.store_latching ..).trans ?_
  split
  · exact Sub.countStore_latching ..
  · rfl

theorem Sub.insert_latching (b : Sub) (e : XEntry) : (b.insert e).latching = b.latching := by
  unfold Sub.insert
  dsimp only
  split <;> rfl

@[simp] theorem State.writeDst_latching (s : State) (r : CrewRef) (d : Nat) (m : Mask) (x : Content) (taint : Mask)
    (back : Bool) (c b : Nat) : ((s.writeDst r d m x taint back).sub c b).latching = (s.sub c b).latching := by
  unfold State.writeDst State.writeReg
  split
  · rw [State.modSub_latching _ _ _ _ _ _ fun _ => Sub.writeReg_latching .., State.modCrew_latching]
  · rfl

@[simp] theorem State.memoize_latching (s : State) (i : Issue) (key : Option XEntry) (hit : Bool) (d : Option Nat)
    (ds : List Nat) (c b : Nat) : ((s.memoize i key hit d ds).sub c b).latching = (s.sub c b).latching := by
  unfold State.memoize
  split
  · rfl
  · refine State.modSub_latching _ _ _ _ _ _ fun x => ?_
    split
    · rfl
    · split
      · exact Sub.insert_latching ..
      · rfl

@[simp] theorem State.sets_latching (s : State) (i : Issue) (slot : Nat) (m : Mask) (delay c b : Nat) :
    ((s.sets i slot m delay).sub c b).latching = (s.sub c b).latching := by
  unfold State.sets
  split
  · rfl
  · exact State.modCrew_latching ..

/-! ### The capture -/

/-- A latch of a sub-core serves a group's next two slots, and the run that they lock starts (R208, R209). -/
def Serves (x : List (Option Latch) × Option Locked) (i : Issue) (now n : Nat) (l : Latch) : Prop :=
  x.1[n]? = some (some l) ∧
    x.2 = some { slot := i.slot, part := i.part, left := 2, used := 0, since := now }

/-- A capture outside any locked run starts one of two slots, unless its crew is asked to stop. -/
theorem Sub.slotIssued_serves {b : Sub} {i : Issue} {n : Nat} (now : Nat) (l : Latch) (free : b.locked = none)
    (goes : (b.crew i.slot).stopped = false) (hn : n < b.latches.length) :
    Serves (b.slotIssued i now (some (n, l))).latching i now n { l with left := 2 } := by
  have slot : (modifyAt (b.breakRun.latches) n (fun _ => some { l with left := 2 }))[n]? = some (some { l with left := 2 }) := by
    rw [modifyAt_getElem?, if_pos rfl, List.getElem?_eq_getElem (by simpa [Sub.breakRun] using hn)]
    rfl
  simpa [Serves, Sub.latching, Sub.slotIssued, free, goes] using slot

theorem retiredWith_serves {s : State} {i : Issue} {n : Nat} (moves : Bool) (l : Latch) (hc : s.hasCrew i.ref = true)
    (free : (s.sub i.core i.sub).locked = none) (goes : (s.crew i.ref).stopped = false)
    (hn : n < (s.sub i.core i.sub).latches.length) :
    Serves ((s.retiredWith i moves (some (n, l))).sub i.core i.sub).latching i s.cycle n { l with left := 2 } := by
  obtain ⟨sub, -⟩ := (hasCrew_iff s i.ref).1 hc
  rw [State.retiredWith, sub_drop, sub_spend, sub_modSub s i.core i.sub _ sub]
  exact Sub.slotIssued_serves s.cycle l free goes hn

/-- The state in which an instruction has written its result, before it retires. -/
def State.resultIn (s : State) (i : Issue) (f : L64) (part : Mask) (res : Content × Mask) (hit : Bool) : State :=
  if f.nwb == 1 || part == 0 then s else s.writeDst i.ref f.d.toNat part res.1 (res.2 &&& part) (!hit)

/-- What an instruction with HOLD leaves in its latch: its result in the effective lanes, the prior content of its destination
in the others, and the register that it has written (R208, R210). -/
def State.captured (s : State) (i : Issue) (f : L64) (part : Mask) (res : Content × Mask) (hit : Bool) : Latch :=
  { content := mergeLanes part res.1 ((s.crew i.ref).source s.freeCtr f.d.toNat)
    taint := (res.2 &&& part) ||| ((s.crew i.ref).sourceTaint f.d.toNat &&& ~~~ part)
    slot := i.slot, part := i.part, left := 2, pc := i.pc
    dest := if f.nwb == 1 || 64 ≤ f.d.toNat then none
      else some (f.d.toNat, ((s.resultIn i f part res hit).crew i.ref).reg f.d.toNat) }

theorem produce_eq (s : State) (i : Issue) (f : L64) (part : Mask) (res : Content × Mask) (hit : Bool) :
    s.produce i f part res hit =
      ((s.resultIn i f part res hit).modCrew i.ref (fun w => w.advance i.part i.len)).retiredWith i false
        (if f.hold == 3 then none else some (f.hold.toNat, s.captured i f part res hit)) := rfl

/-- A result written leaves the latches, the locked run and the crew's mode as they were. -/
theorem State.resultIn_spec (s : State) (i : Issue) (f : L64) (part : Mask) (res : Content × Mask) (hit : Bool)
    (hc : s.hasCrew i.ref = true) :
    (s.resultIn i f part res hit).hasCrew i.ref = true ∧
      CrewSame (s.crew i.ref) ((s.resultIn i f part res hit).crew i.ref) ∧ (s.resultIn i f part res hit).cycle = s.cycle ∧
      ((s.resultIn i f part res hit).sub i.core i.sub).latching = (s.sub i.core i.sub).latching := by
  unfold State.resultIn
  split
  · exact ⟨hc, CrewSame.refl _, rfl, rfl⟩
  · refine ⟨?_, ?_, ?_, State.writeDst_latching ..⟩ <;> rw [State.writeDst] <;> split
    · next hd => exact writeReg_hasCrew _ _ _ _ _ _ _ hc hd
    · exact hc
    · next hd => exact (writeReg_spec s i.ref _ part res.1 (res.2 &&& part) (!hit) hc hd).2.1.same
    · exact CrewSame.refl _
    · rfl
    · rfl

theorem produce_serves {s : State} {i : Issue} {f : L64} (part : Mask) (res : Content × Mask) (hit : Bool)
    (hc : s.hasCrew i.ref = true) (free : (s.sub i.core i.sub).locked = none) (goes : (s.crew i.ref).stopped = false)
    (hn : f.hold.toNat < (s.sub i.core i.sub).latches.length) (hold : f.hold ≠ 3) :
    Serves ((s.produce i f part res hit).sub i.core i.sub).latching i s.cycle f.hold.toNat (s.captured i f part res hit) := by
  obtain ⟨slot, same, cycle, latching⟩ := s.resultIn_spec i f part res hit hc
  rw [produce_eq, if_neg (by simpa using hold)]
  change Serves _ _ _ _ { s.captured i f part res hit with left := 2 }
  generalize s.captured i f part res hit = l
  generalize s.resultIn i f part res hit = u at *
  have advanced := u.modCrew_latching i.ref (fun w => w.advance i.part i.len) i.core i.sub
  obtain ⟨latches, locked⟩ := Prod.mk.inj (advanced.trans latching)
  rw [← cycle]
  refine retiredWith_serves false l (modCrew_advance_hasCrew _ _ _ _ slot) (locked.trans free) ?_ (latches ▸ hn)
  rw [crew_modCrew _ _ _ slot]
  exact same.stopped.trans goes

/-- A register instruction that may execute writes its result, or what the transposition table holds, keeps the table, and
raises its slot (R202, R243). -/
theorem alu_ok {s : State} {i : Issue} {f : L64} {ua ub uc : Bool} {x : Srcs} (op : BitVec 7) (memo : Bool)
    (g : Srcs → Content × Mask) (lat : Nat) (h : s.issues i (regNeeds f ua ub uc) = true)
    (hx : s.sources i f ua ub uc = .ok x) :
    ∃ key hit d n, s.alu op f ua ub uc memo g lat =
      .next (((s.produce i f x.part ((tableHit s i op f ua ub uc memo x.part).getD (g x).1, (g x).2) hit).memoize i key hit d
        (resultPlaces f)).sets i (slotOf f.sbs) x.part n) := by
  have e : s.alu op f ua ub uc memo g lat = .next _ := issueWith_ok _ h
  simp only [hx, memoized_eq] at e
  exact ⟨_, _, _, _, e⟩

/-- An instruction that executes as the shared register operation captures its result when HOLD names a latch (R208). -/
theorem captures_of_alu {ins : Instr} {op : BitVec 7} {f : L64} {ua ub uc memo : Bool} {res : Srcs → Content × Mask}
    (exec_eq : ∀ s, exec ins s = s.alu op f ua ub uc memo res) : Captures ins op f ua ub uc memo res := by
  intro s i x h hx free goes hn hold _
  obtain ⟨key, hit, d, n, e⟩ := alu_ok op memo res 4 h hx
  generalize tableHit s i op f ua ub uc memo x.part = found at *
  obtain ⟨latch, locked⟩ := produce_serves x.part (found.getD (res x).1, (res x).2) hit (issues_hasCrew h) free goes hn hold
  generalize ht : ((s.produce i f x.part (found.getD (res x).1, (res x).2) hit).memoize i key hit d (resultPlaces f)).sets i
    (slotOf f.sbs) x.part n = t at e
  have kept : (t.sub i.core i.sub).latching =
      ((s.produce i f x.part (found.getD (res x).1, (res x).2) hit).sub i.core i.sub).latching := by
    rw [← ht, State.sets_latching, State.memoize_latching]
  rw [← kept] at latch locked
  exact ⟨t, _, (exec_eq s).trans e, latch, fun k hk => lane_mergeLanes _ _ _ k hk, rfl, rfl, rfl, rfl, locked⟩

end Sys2Proof.Machine
end

section
namespace Sys2Proof
open Machine Claims

/-- Settles O55: each of the six is the shared register operation with its own result. -/
theorem holdCapturesInALatch : Obligations.HoldCapturesInALatch := by
  unfold Obligations.HoldCapturesInALatch
  exact fun f => ⟨captures_of_alu fun _ => rfl, captures_of_alu fun _ => rfl, captures_of_alu fun _ => rfl,
    captures_of_alu fun _ => rfl, captures_of_alu fun _ => rfl, captures_of_alu fun _ => rfl⟩

end Sys2Proof
end

section
/-! ## Results of variable latency (R191, R196, R277, R278, R283)

A result that is computed at issue leaves its crew's registers, predicates and places as they are: it is due in the crew, under
a setter. What an instruction does before its group retires is said by `CrewStands`. -/

open Sys2Proof Sys2Proof.Claims

namespace Sys2Proof.Machine

/-! ### States in which no crew has moved -/

/-- No crew other than that of a slot differs, nor do memory and the cycle; of that crew only traces of accesses and credits
do, which no read of it shows. -/
structure CrewStands (s u : State) (r : CrewRef) : Prop where
  slot : u.hasCrew r = true
  cycle : u.cycle = s.cycle
  memory : SameMemory s u
  others : ∀ q, q ≠ r → u.crew q = s.crew q
  crew : CrewSame (s.crew r) (u.crew r)
  regs : SameRegs (s.crew r) (u.crew r)
  preds : SamePreds (s.crew r) (u.crew r)
  pc : ∀ l, l < 32 → ((u.crew r).thread l).pc = ((s.crew r).thread l).pc
  run : ∀ l, l < 32 → ((u.crew r).thread l).run = ((s.crew r).thread l).run

theorem CrewStands.trans {s u v : State} {r : CrewRef} (a : CrewStands s u r) (b : CrewStands u v r) : CrewStands s v r :=
  ⟨b.slot, b.cycle.trans a.cycle, sameMemory_trans a.memory b.memory, fun q hq => (b.others q hq).trans (a.others q hq),
    a.crew.trans b.crew, sameRegs_trans a.regs b.regs, samePreds_trans a.preds b.preds,
    fun l hl => (b.pc l hl).trans (a.pc l hl), fun l hl => (b.run l hl).trans (a.run l hl)⟩

theorem crewStands_of_scene {s u : State} {r : CrewRef} (hs : s.hasCrew r = true) (h : u.scene r = s.scene r) :
    CrewStands s u r := by
  have crews := fun q => congrFun (congrArg Scene.crews h) q
  have settled : (u.crew r).settled = (s.crew r).settled := by simpa only [State.scene, if_true] using crews r
  obtain ⟨-, -, threads, map⟩ := (hasCrew_iff s r).1 hs
  have maps : (u.crew r).map = (s.crew r).map := by
    simpa only [Crew.settled] using congrArg Crew.map settled
  have count : (u.crew r).threads.length = 32 := by
    rw [← threads]
    simpa [Crew.settled] using congrArg (fun x : Crew => x.threads.length) settled
  have thread : ∀ {α : Type} (g : Thread → α), (∀ t, g { t with sb := [] } = g t) → ∀ l, l < 32 →
      g ((u.crew r).thread l) = g ((s.crew r).thread l) := fun g hg l hl =>
    Crew.thread_of_settled settled l (by omega) g hg
  exact
    { slot := hasCrew_of_crew count (by rw [maps, map])
      cycle := congrArg Scene.cycle h
      memory := sameMemory_of_ledger (congrArg Scene.ledger h)
      others := fun q hq => by simpa only [State.scene, if_neg hq] using crews q
      crew := Crew.same_of_settled settled
      regs := ⟨fun k => by rw [Crew.reg, Crew.reg, maps], thread Thread.taint fun _ => rfl⟩
      preds := thread Thread.preds fun _ => rfl
      pc := thread Thread.pc fun _ => rfl
      run := thread Thread.run fun _ => rfl }

/-- The group of an instruction that has moved no crew goes on, with a capture or without one. -/
theorem CrewStands.issued {s u : State} {i : Issue} (h : CrewStands s u i.ref) (cap : Option (Nat × Latch)) :
    let t := (u.modCrew i.ref (fun w => w.advance i.part i.len)).retiredWith i false cap
    Issued s t i ∧ SameMemory s t := by
  intro t
  obtain ⟨r, preds, regs, taints⟩ := retire_spec u i false cap h.slot
  refine ⟨⟨r.issue, r.elsewhere.cycle.trans h.cycle, fun q hq => (r.elsewhere.crew q hq).trans (h.others q hq),
    h.crew.trans r.crew, sameRegs_trans h.regs ⟨regs, taints⟩, samePreds_trans h.preds preds, fun l hl => ?_,
    fun l hl => (r.run l hl).trans (h.run l hl)⟩, sameMemory_trans h.memory (sameMemory_of_ledger ?_)⟩
  · rw [r.pc l hl, h.pc l hl]
  · simp [t, State.retiredWith]

/-- Retiring leaves the results due in a crew due. -/
theorem retireWith_loads {s : State} {i : Issue} (cap : Option (Nat × Latch)) (hc : s.hasCrew i.ref = true) :
    (((s.modCrew i.ref (fun w => w.advance i.part i.len)).retiredWith i false cap).crew i.ref).loads =
      (s.crew i.ref).loads := by
  rw [retiredWith_crew _ _ _ _ (modCrew_advance_hasCrew _ _ _ _ hc), crew_modCrew _ _ _ hc]
  obtain ⟨tn, rn, e⟩ := turned_fields ((s.crew i.ref).advance i.part i.len) i.part false
  rw [e]
  rfl

/-! ### A result becomes due -/

theorem Crew.addSetter_raises (w : Crew) (id slot : Nat) (m : Mask) (left : Nat) :
    SlotRaised w (w.addSetter id slot m left) := by
  refine ⟨?_, congrArg Crew.threads (w.addSetter_settled id slot m left)⟩
  unfold Crew.addSetter Crew.raise
  split_ifs <;> rfl

theorem SlotRaised.crewSame {w v : Crew} (h : SlotRaised w v) : CrewSame w v := by
  rw [h.crew]
  exact ⟨rfl, rfl, rfl, rfl, rfl, rfl, rfl, rfl, rfl, rfl, rfl, rfl, rfl⟩

/-- A crew in which slots have been raised, credits taken and results become due stands. -/
theorem crewStands_modCrew {s : State} {r : CrewRef} {f : Crew → Crew} {v : Crew} (hc : s.hasCrew r = true)
    (raised : SlotRaised (s.crew r) v) (hf : ∃ rs p ls, f (s.crew r) = { v with regions := rs, pinned := p, loads := ls }) :
    CrewStands s (s.modCrew r f) r := by
  obtain ⟨rs, p, ls, e⟩ := hf
  obtain ⟨-, -, threads, map⟩ := (hasCrew_iff s r).1 hc
  have count : v.threads.length = 32 := threads ▸ by simpa using congrArg List.length raised.threads
  have maps : v.map = (s.crew r).map := by rw [raised.crew]
  have crew : (s.modCrew r f).crew r = { v with regions := rs, pinned := p, loads := ls } := (crew_modCrew _ _ _ hc).trans e
  refine ⟨modCrew_hasCrew _ _ _ hc (by rw [e]; exact count) (by rw [e]; exact maps ▸ map), rfl, sameMemory_modSub ..,
    fun q hq => crew_modCrew_ne _ _ _ _ hq, ?_, ?_, ?_, fun l _ => ?_, fun l _ => ?_⟩ <;> rw [crew]
  · exact raised.crewSame.trans ⟨rfl, rfl, rfl, rfl, rfl, rfl, rfl, rfl, rfl, rfl, rfl, rfl, rfl⟩
  · exact sameRegs_congr raised.sameRegs rfl rfl
  · exact samePreds_congr raised.samePreds rfl
  · exact raised.thread l Thread.pc
  · exact raised.thread l Thread.run

theorem setter_stands (s : State) (i : Issue) (slot parts : Nat) (hc : s.hasCrew i.ref = true) :
    CrewStands s (s.setter i slot parts).2 i.ref := by
  have fresh : s.fresh.2.hasCrew i.ref = true := hc
  have raised := crewStands_modCrew fresh ((s.crew i.ref).addSetter_raises s.nextId slot i.part parts)
    (f := fun w => w.addSetter s.nextId slot i.part parts) ⟨_, _, _, rfl⟩
  exact ⟨raised.slot, rfl, raised.memory, raised.others, raised.crew, raised.regs, raised.preds, raised.pc, raised.run⟩

/-- A result computed at issue becomes the youngest that is due in its crew, which stands (R191, R196). -/
theorem startValue_spec (s : State) (i : Issue) (slot d : Nat) (part : Mask) (c : Content) (taint : Mask) (delay : Nat)
    (hc : s.hasCrew i.ref = true) :
    CrewStands s (s.startValue i slot [d] part c taint delay) i.ref ∧
      DueValue s (s.startValue i slot [d] part c taint delay) i [d] part c delay := by
  have set := setter_stands s i slot 1 hc
  constructor
  · refine set.trans (crewStands_modCrew set.slot (.refl _) ?_)
    obtain ⟨rs, p, e, -⟩ := takeCredit_fields ((s.setter i slot 1).2.crew i.ref) d
    simp only [List.foldl_cons, List.foldl_nil, e]
    exact ⟨_, _, _, rfl⟩
  · exact ⟨_, (congrArg (fun w : Crew => w.loads.getLast?) (crew_modCrew _ _ _ set.slot)).trans List.getLast?_concat,
      rfl, rfl, rfl⟩

/-- A result that is due stays so as its instruction's group goes on. -/
theorem CrewStands.due {s u : State} {i : Issue} {dst : List Nat} {part : Mask} {c : Content} {delay : Nat}
    (h : CrewStands s u i.ref) (due : DueValue s u i dst part c delay) (cap : Option (Nat × Latch)) :
    let t := (u.modCrew i.ref (fun w => w.advance i.part i.len)).retiredWith i false cap
    Issued s t i ∧ SameMemory s t ∧ DueValue s t i dst part c delay := by
  intro t
  obtain ⟨issued, memory⟩ := h.issued cap
  obtain ⟨q, last, fields⟩ := due
  exact ⟨issued, memory, q, (congrArg List.getLast? (retireWith_loads cap h.slot)).trans last, fields⟩

/-! ### LRED and LMATCH -/

/-- A result that goes to no register is written nowhere (R192, R223). -/
theorem State.resultIn_discards (s : State) {i : Issue} {f : L64} {part : Mask} (res : Content × Mask) (hit : Bool)
    (h : f.nwb = 1 ∨ 64 ≤ f.d.toNat ∨ part = 0) : s.resultIn i f part res hit = s := by
  rcases h with h | h | h
  · simp [State.resultIn, h]
  · simp [State.resultIn, State.writeDst, Nat.not_lt.2 h]
  · simp [State.resultIn, h]

/-- What LRED and LMATCH ask before they issue (R277, R278). -/
def lateNeeds (f : L64) : Needs := lNeeds f [f.d.toNat, f.a.toNat] (if f.nwb == 1 then [] else [f.d.toNat])

theorem late_due {s : State} {i : Issue} {f : L64} {x : Srcs} (g : Srcs → Content × Mask)
    (h : s.issues i (lateNeeds f) = true) (hx : s.sources i f true false false = .ok x) (hn : f.nwb = 0)
    (hd : f.d.toNat < 64) (hp : x.part ≠ 0) :
    ∃ t, s.late f g = .next t ∧ Issued s t i ∧ SameMemory s t ∧ DueValue s t i [f.d.toNat] x.part (g x).1 10 := by
  have e : s.late f g = .next _ := issueWith_ok _ h
  have writes : (x.part == 0 || f.nwb == 1 || decide (64 ≤ f.d.toNat)) = false := by
    simpa [hn, hd] using hp
  simp only [hx, writes, Bool.false_eq_true, if_false] at e
  obtain ⟨stands, due⟩ := startValue_spec s i (slotOf f.sbs) f.d.toNat x.part (g x).1 (g x).2 10 (issues_hasCrew h)
  refine ⟨_, e, ?_⟩
  split
  · exact stands.due due none
  · rw [produce_eq, State.resultIn_discards _ _ _ (.inl rfl)]
    exact stands.due due _

theorem late_discards {s : State} {i : Issue} {f : L64} {x : Srcs} (g : Srcs → Content × Mask)
    (h : s.issues i (lateNeeds f) = true) (hx : s.sources i f true false false = .ok x)
    (hd : f.nwb = 1 ∨ 64 ≤ f.d.toNat ∨ x.part = 0) :
    ∃ t, s.late f g = .next t ∧ Retired s t i (slotOf f.sbs) x.part ∧ SameRegs (s.crew i.ref) (t.crew i.ref) ∧
      SamePreds (s.crew i.ref) (t.crew i.ref) := by
  have hc := issues_hasCrew h
  have e : s.late f g = .next _ := issueWith_ok _ h
  have discards : (x.part == 0 || f.nwb == 1 || decide (64 ≤ f.d.toNat)) = true := by
    rcases hd with hd | hd | hd <;> simp [hd]
  simp only [hx, discards, if_true] at e
  rw [produce_eq, State.resultIn_discards _ _ _ hd] at e
  refine ⟨_, e, ?_⟩
  generalize (if f.hold == 3 then none else some (f.hold.toNat, s.captured i f x.part (g x) false)) = cap
  obtain ⟨r, preds, regs, taints⟩ := retire_spec s i false cap hc
  have slot := retiredWith_hasCrew _ i false cap (modCrew_advance_hasCrew s i.ref i.part i.len hc)
  obtain ⟨retired, sameRegs, same⟩ := sets_spec s _ i (slotOf f.sbs) x.part 10 r slot rfl
  exact ⟨retired, ⟨fun k => (sameRegs k).trans (regs k), fun l hl => (same l hl).2.trans (taints l hl)⟩,
    fun l hl => (same l hl).1.trans (preds l hl)⟩

/-! ### LOCQ -/

theorem groupRegs_one {d : Nat} (hd : d < 64) : groupRegs d 1 = [d] := by
  simp [groupRegs, upTo, Nat.not_le.2 hd]

/-- The word that LOCQ gives a lane: 0 where a load of one byte would fault (R80, R283). -/
def State.locqLane (s : State) (i : Issue) (f : M64) (l : Nat) : Word :=
  match s.resolve i.ref l .load (s.addr i f l) 1 with
  | .ok y => s.locqWord i.core y
  | .error _ => 0

/-- The content that LOCQ gives. -/
def State.locqContent (s : State) (i : Issue) (f : M64) : Content :=
  contentOf (fun l => if (partM s i f).getLsbD l then s.locqLane i f l else 0)

/-- The state after the translations that LOCQ asks for. -/
def State.locqSeen (s : State) (i : Issue) (f : M64) : State :=
  (splitLanes (s.quietAccess i f) (partM s i f).lanes).2.foldl (fun st x => st.lookTarget i.ref x.va x.target) s

theorem execLocq_ok {f : M64} {s : State} {i : Issue}
    (h : s.issues i (mNeeds f (pairRegs f.a.toNat ++ groupRegs f.d.toNat 1) []) = true) (hp : partM s i f ≠ 0)
    (hd : f.d.toNat < 64) (credits : (s.crew i.ref).creditsFor [f.d.toNat] ≤ (s.crew i.ref).creditsFree) :
    execLocq f s = .next (((s.locqSeen i f).startValue i (slotOf f.sbs) [f.d.toNat] (partM s i f) (s.locqContent i f)
      ((s.crew i.ref).pairTaint f.a.toNat) 12).retire i false) := by
  have e : execLocq f s = .next _ := issueWith_ok _ h
  have part : (partM s i f == 0) = false := by simpa using hp
  have free : s.needCredits i (partM s i f) [f.d.toNat] = none := by
    simp [State.needCredits, hd, credits]
  unfold partM at part free
  simp only [groupRegs_one hd, part, free, Bool.false_eq_true, if_false] at e
  exact e

theorem execLocq_due (f : M64) (s : State) (i : Issue)
    (h : s.issues i (mNeeds f (pairRegs f.a.toNat ++ groupRegs f.d.toNat 1) []) = true) (hp : partM s i f ≠ 0)
    (hd : f.d.toNat < 64) (credits : (s.crew i.ref).creditsFor [f.d.toNat] ≤ (s.crew i.ref).creditsFree) :
    ∃ t c, execLocq f s = .next t ∧ Issued s t i ∧ SameMemory s t ∧ DueValue s t i [f.d.toNat] (partM s i f) c 12 ∧
      ∀ l, l < 32 → (partM s i f).getLsbD l = true →
        (∀ y, s.resolve i.ref l .load (s.addr i f l) 1 = .ok y → lane c l = s.locqWord i.core y) ∧
        (∀ e, s.resolve i.ref l .load (s.addr i f l) 1 = .error e → lane c l = 0) := by
  have seen : CrewStands s (s.locqSeen i f) i.ref :=
    crewStands_of_scene (issues_hasCrew h) (foldl_view (State.scene i.ref) _ (fun st x => st.lookTarget_scene ..) _ s)
  obtain ⟨stands, q, last, kind, fields⟩ := startValue_spec (s.locqSeen i f) i (slotOf f.sbs) f.d.toNat (partM s i f)
    (s.locqContent i f) ((s.crew i.ref).pairTaint f.a.toNat) 12 seen.slot
  obtain ⟨issued, memory, due⟩ := (seen.trans stands).due ⟨q, last, seen.cycle ▸ kind, fields⟩ none
  refine ⟨_, _, execLocq_ok h hp hd credits, issued, memory, due, fun l hl hm => ?_⟩
  rw [State.locqContent, lane_contentOf _ _ hl, if_pos hm, State.locqLane]
  exact ⟨fun y hy => by rw [hy], fun e he => by rw [he]⟩

theorem resultsOfVariableLatency : ResultsOfVariableLatency := by
  refine ⟨?_, execLocq_due⟩
  rintro ins f g (⟨rfl, rfl⟩ | ⟨rfl, rfl⟩) s i x h hx <;> exact ⟨late_due _ h hx, late_discards _ h hx⟩

/-! ### Late results -/

theorem Crew.lower_raises (w : Crew) (slot : Nat) (m : Mask) : SlotRaised w (w.lower slot m) := by
  unfold Crew.lower
  split
  · exact .refl w
  · exact ⟨rfl, mapLanes_map m (fun _ t => { t with sb := modifyAt t.sb (slot - 1) (· - 1) })
      (fun t : Thread => { t with sb := [] }) (fun _ _ => rfl) 0 w.threads⟩

theorem Crew.finish_raises (w : Crew) (id n : Nat) : SlotRaised w (w.finish id n) := by
  unfold Crew.finish
  split
  · exact .refl w
  · next q _ =>
    split
    · obtain ⟨crew, threads⟩ := w.lower_raises q.slot q.lanes
      exact ⟨by rw [crew], threads⟩
    · exact ⟨rfl, rfl⟩

/-- A result written to a register in the lanes of a mask, as it comes (R191, R192). -/
theorem modSub_writeReg_spec {s : State} {r : CrewRef} {d : Nat} (m : Mask) (c : Content) (taint : Mask)
    (hc : s.hasCrew r = true) (hd : d < 64) :
    let v := (s.modSub r.core r.sub (fun b => b.writeReg r.slot d m c taint)).crew r
    (∀ l, l < 32 → lane (v.reg d).content l = if m.getLsbD l then lane c l else lane ((s.crew r).reg d).content l) ∧
      (∀ k, k ≠ d → v.reg k = (s.crew r).reg k) ∧ SamePreds (s.crew r) v := by
  intro v
  obtain ⟨-, slot, -, map⟩ := (hasCrew_iff s r).1 hc
  obtain ⟨p, content, crews, -⟩ := sub_writeReg (s.sub r.core r.sub) r.slot d m c taint true
  have crew : v = ((({ s.crew r with
      map := modifyAt (s.crew r).map d (fun _ => p)
      loads := (s.crew r).loads.map (LoadRec.overtake d m) } : Crew).setTaint d m taint).clearConsume m) := by
    refine (crew_modSub _ _ _ hc).trans ?_
    rw [Sub.crew, crews]
    exact modifyAt_getD_same _ _ _ _ slot
  have maps : v.map = modifyAt (s.crew r).map d (fun _ => p) := by rw [crew]; rfl
  have written : v.reg d = p := by rw [Crew.reg, maps, modifyAt_getD_same _ _ _ _ (by omega)]
  refine ⟨fun l hl => ?_, fun k hk => ?_, fun l _ => ?_⟩
  · rw [written, content, lane_mergeLanes _ _ _ _ hl]
    rfl
  · rw [Crew.reg, maps, modifyAt_getD_ne _ _ _ _ _ hk, Crew.reg]
  · rw [crew, Crew.clearConsume, Crew.setTaint,
      thread_modLanes_field _ _ _ Thread.preds (by intro _ t; split <;> rfl),
      thread_modLanes_field _ _ _ Thread.preds (by intros; rfl)]
    rfl

/-- The crew of a result that has come: its setter has finished, and it is due no more (R106). -/
def Crew.received (w : Crew) (q : LoadRec) : Crew :=
  { w.finish q.setter 1 with loads := w.loads.filter (fun x => x.setter != q.setter) }

/-- A computed result of one register that no access has failed, no snapshot has seen and no table awaits. -/
theorem finishLoad_value (s : State) (r : CrewRef) {q : LoadRec} {c : Content} {due d : Nat} {m : Mask}
    (kind : q.kind = .value c due) (dst : q.dst = [(d, m)]) (reads : q.reads = []) (snaps : q.snaps = []) (memo : q.memo = none)
    (hm : m ≠ 0) :
    s.finishLoad r q = ((s.modCrew r (fun w => w.received q)).modSub r.core r.sub (fun b => b)).modSub r.core r.sub
      (fun b => b.writeReg r.slot d m c (q.taint &&& m)) := by
  have failures : q.failures = [] := by rw [LoadRec.failures, reads]; rfl
  have lanes : (m == 0) = false := beq_false_of_ne hm
  simp only [State.finishLoad, failures, List.isEmpty_nil, if_true, State.writeLoad, snaps, List.foldl_nil, dst, memo, kind,
    LoadKind.consumes, LoadRec.content, upTo, List.length_singleton, List.range_one, List.foldl_cons, List.getElem?_cons_zero,
    lanes, Bool.false_eq_true, if_false]
  rfl

theorem lateResultsAreWritten : LateResultsAreWritten := by
  intro s r q c due d m hc kind dst reads snaps memo hd hm
  have arrived : CrewStands s (s.modCrew r (fun w => w.received q)) r :=
    crewStands_modCrew hc ((s.crew r).finish_raises q.setter 1) ⟨_, _, _, rfl⟩
  rw [finishLoad_value s r kind dst reads snaps memo hm]
  generalize s.modCrew r (fun w => w.received q) = u at *
  have same : (u.modSub r.core r.sub (fun b => b)).crew r = u.crew r := crew_modSub _ _ _ arrived.slot
  have slot := modSub_hasCrew u r (fun b => b) arrived.slot rfl
  obtain ⟨lanes, others, preds⟩ := modSub_writeReg_spec m c (q.taint &&& m) slot hd
  rw [same] at lanes others preds
  refine ⟨fun l hl => ?_, fun k hk => (others k hk).trans (arrived.regs.1 k),
    sameMemory_trans arrived.memory (sameMemory_trans (sameMemory_modSub ..) (sameMemory_modSub ..)),
    samePreds_trans arrived.preds preds⟩
  rw [lanes l hl, arrived.regs.1]

end Sys2Proof.Machine
end

section
namespace Sys2Proof
open Machine Claims

/-- Settles O19, of its two claims: what becomes due, and what is written when it is. -/
theorem variableLatencyAndLateResults : Obligations.VariableLatencyAndLateResults :=
  ⟨resultsOfVariableLatency, lateResultsAreWritten⟩

end Sys2Proof
end

section
/-! ## Extended blocks (R188, R190, R381)

Both instructions change what their crew holds of the pool, then retire as a head. -/

open Sys2Proof Sys2Proof.Claims

namespace Sys2Proof.Machine

/-! ### Instructions that retire as a head -/

theorem SameElse.sameMemory {s t : State} {r : CrewRef} (h : SameElse s t r) : SameMemory s t := by
  refine ⟨h.mem, fun c => ?_⟩
  by_cases hc : c = r.core
  · rw [hc, h.core]
    exact ⟨rfl, rfl⟩
  · rw [h.cores c hc]
    exact ⟨rfl, rfl⟩

theorem retire_head_ext (s : State) (i : Issue) (moves : Bool) (hc : s.hasCrew i.ref = true) :
    (((s.retire i moves).head i.ref).crew i.ref).ext = (s.crew i.ref).ext := by
  obtain ⟨tn, rn, e⟩ := retire_crew_fields s i moves hc
  rw [head_crew _ _ (retire_hasCrew s i moves hc), e]
  rfl

/-! ### The block opens -/

/-- The crew of a slot after a map entry of it has been replaced. -/
theorem Sub.store_crew (b : Sub) (slot k : Nat) (c : Content) (h : slot < b.crews.length) :
    ∃ p : PhysReg, p.content = c ∧
      (b.store slot k c).crew slot = { b.crew slot with map := modifyAt (b.crew slot).map k (fun _ => p) } := by
  refine ⟨_, replacement_content b ((b.crew slot).reg k) c, ?_⟩
  rw [Sub.crew, (store_crews b slot k c).1]
  exact modifyAt_getD_same _ _ _ _ h

/-- A sub-core in which zero has been stored in registers of a crew slot: of that crew only the map has changed, and the
registers hold zero. -/
structure Zeroed (b z : Sub) (slot : Nat) (ks : List Nat) : Prop where
  blocks : z.blocks = b.blocks
  length : z.crews.length = b.crews.length
  crew : ∃ m, z.crew slot = { b.crew slot with map := m }
  map : (z.crew slot).map.length = (b.crew slot).map.length
  zero : ∀ k, k < (b.crew slot).map.length → k ∈ ks ∨ ((b.crew slot).reg k).content = zeroContent →
    ((z.crew slot).reg k).content = zeroContent

theorem Sub.store_zeroed (b : Sub) (slot k : Nat) (h : slot < b.crews.length) :
    Zeroed b (b.store slot k zeroContent) slot [k] := by
  obtain ⟨p, content, crew⟩ := b.store_crew slot k zeroContent h
  refine ⟨(store_crews b slot k zeroContent).2.2, Sub.store_length .., ⟨_, crew⟩, by rw [crew]; exact modifyAt_length ..,
    fun j hj hz => ?_⟩
  rw [crew, Crew.reg]
  by_cases e : j = k
  · rw [e, modifyAt_getD_same _ _ _ _ (e ▸ hj), content]
  · rw [modifyAt_getD_ne _ _ _ _ _ e]
    exact hz.resolve_left (by simpa using e)

theorem Zeroed.trans {b y z : Sub} {slot : Nat} {ks js : List Nat} (h : Zeroed b y slot ks) (g : Zeroed y z slot js) :
    Zeroed b z slot (ks ++ js) := by
  obtain ⟨m, hm⟩ := h.crew
  obtain ⟨n, hn⟩ := g.crew
  refine ⟨g.blocks.trans h.blocks, g.length.trans h.length, ⟨n, by rw [hn, hm]⟩, g.map.trans h.map, fun k hk hz => ?_⟩
  refine g.zero k (h.map ▸ hk) ?_
  rw [List.mem_append] at hz
  by_cases hj : k ∈ js
  · exact .inl hj
  · exact .inr (h.zero k hk (hz.imp_left fun x => x.resolve_right hj))

theorem Sub.foldl_store_zeroed (slot : Nat) (ks : List Nat) (b : Sub) (h : slot < b.crews.length) :
    Zeroed b (ks.foldl (fun x k => x.store slot (32 + k) zeroContent) b) slot (ks.map (32 + ·)) := by
  induction ks generalizing b with
  | nil => exact ⟨rfl, rfl, ⟨_, rfl⟩, rfl, fun k _ hz => hz.resolve_left (by simp)⟩
  | cons k ks ih =>
    have first := b.store_zeroed slot (32 + k) h
    exact first.trans (ih _ (first.length ▸ h))

/-- A crew that takes up its block: it holds it and waits for none, and no register of the block is tainted (R188). -/
def Crew.opened (w : Crew) : Crew :=
  { w with ext := true, xwait := none, threads := w.threads.map (fun t => { t with taint := t.taint &&& 0xFFFFFFFF#64 }) }

theorem getLsbD_lowTaint (t : BitVec 64) {j : Nat} (h : 32 ≤ j) : (t &&& 0xFFFFFFFF#64).getLsbD j = false := by
  have high : Nat.testBit 0xFFFFFFFF j = false :=
    (Nat.testBit_two_pow_sub_one 32 j).trans (decide_eq_false (by omega))
  rw [BitVec.getLsbD_and, BitVec.getLsbD_ofNat]
  simp [high]

theorem Crew.opened_taint (w : Crew) (l : Nat) {j : Nat} (h : 32 ≤ j) : (w.opened.thread l).taint.getLsbD j = false := by
  rw [Crew.thread, Crew.opened, List.getD_eq_getElem?_getD, List.getElem?_map]
  cases w.threads[l]? with
  | none => exact BitVec.getLsbD_zero
  | some t => exact getLsbD_lowTaint t.taint h

/-- A block opened to a crew: it holds it, and G32 to G63 read as zero, untainted (R188). -/
structure BlockOpened (w v : Crew) : Prop where
  ext : v.ext = true
  regions : v.regions = w.regions
  threads : v.threads.length = w.threads.length
  map : v.map.length = w.map.length
  zero : w.map.length = 64 → ∀ j, 32 ≤ j → j < 64 → (v.reg j).content = zeroContent
  taint : ∀ l j, 32 ≤ j → (v.thread l).taint.getLsbD j = false

/-- A sub-core with zero stored in G32 to G63 of a crew slot. -/
def Sub.clearExt (b : Sub) (slot : Nat) : Sub := (upTo 32).foldl (fun x k => x.store slot (32 + k) zeroContent) b

theorem Sub.openExt_eq (b : Sub) (slot : Nat) :
    b.openExt slot = { b.clearExt slot with crews := modifyAt (b.clearExt slot).crews slot Crew.opened } := rfl

theorem Sub.openExt_spec (b : Sub) (slot : Nat) (h : slot < b.crews.length) :
    (b.openExt slot).blocks = b.blocks ∧ BlockOpened (b.crew slot) ((b.openExt slot).crew slot) := by
  have z : Zeroed b (b.clearExt slot) slot ((upTo 32).map (32 + ·)) := Sub.foldl_store_zeroed slot (upTo 32) b h
  rw [Sub.openExt_eq]
  generalize b.clearExt slot = y at *
  have crew : ({ y with crews := modifyAt y.crews slot Crew.opened } : Sub).crew slot = (y.crew slot).opened :=
    modifyAt_getD_same _ _ _ _ (lt_of_lt_of_eq h z.length.symm)
  obtain ⟨m, hm⟩ := z.crew
  refine ⟨z.blocks, crew ▸ ⟨rfl, by rw [hm]; rfl, by rw [hm]; exact List.length_map .., z.map, fun len j low high => ?_,
    fun l j low => Crew.opened_taint _ l low⟩⟩
  have named : j ∈ (upTo 32).map (32 + ·) :=
    List.mem_map.2 ⟨j - 32, List.mem_range.2 (by omega), Nat.add_sub_cancel' low⟩
  exact z.zero j (by omega) (.inl named)

/-! ### XBLK.ACQ -/

/-- The state in which a crew has taken a block and opened it. -/
def State.blockTaken (s : State) (i : Issue) (k : Nat) : State :=
  s.modSub i.core i.sub (fun b => (b.takeBlock k i.slot).openExt i.slot)

theorem blockTaken_spec {s : State} {i : Issue} {k : Nat} (hc : s.hasCrew i.ref = true)
    (hk : k < (s.sub i.core i.sub).blocks.length) :
    (s.blockTaken i k).hasCrew i.ref = true ∧ BlockOpened (s.crew i.ref) ((s.blockTaken i k).crew i.ref) ∧
      (((s.blockTaken i k).sub i.core i.sub).blocks[k]?).map (fun b => b.holder) = some (some i.slot) := by
  obtain ⟨hsub, slot, threads, map⟩ := (hasCrew_iff s i.ref).1 hc
  obtain ⟨blocks, opened⟩ := ((s.sub i.core i.sub).takeBlock k i.slot).openExt_spec i.slot slot
  have sub : (s.blockTaken i k).sub i.core i.sub = _ := sub_modSub s i.core i.sub _ hsub
  have opened : BlockOpened (s.crew i.ref) ((s.blockTaken i k).crew i.ref) := by
    rw [State.crew, State.crew, show i.ref.core = i.core from rfl, show i.ref.sub = i.sub from rfl, sub]
    exact opened
  refine ⟨hasCrew_of_crew (opened.threads.trans threads) (opened.map.trans map), opened, ?_⟩
  rw [sub, blocks, Sub.takeBlock]
  dsimp only
  rw [modifyAt_getElem?, if_pos rfl, List.getElem?_eq_getElem hk]
  rfl

/-- No crew that waits would be granted the block (R190). -/
theorem xblkContended_false {s : State} {core sub k : Nat}
    (h : ∀ n w, (s.sub core sub).crews[n]? = some w → w.xwait.isSome = true → w.ext = false →
      (s.sub core sub).blockFor (s.gslotOf ⟨core, sub, n⟩) ≠ some k) : s.xblkContended core sub k = false := by
  rw [State.xblkContended, List.any_eq_false]
  rintro ⟨w, n⟩ hm
  have at_ := List.mk_mem_zipIdx_iff_getElem?.1 hm
  simp only [Bool.and_eq_true, Bool.not_eq_true', beq_iff_eq, not_and]
  exact fun waits => h n w at_ waits.1 waits.2

/-- What XBLK.ACQ and XBLK.REL ask before they issue. -/
def blockNeeds (f : L64) : Needs := { lNeeds f [] [] with bare := true, head := true }

/-- No cause stands before XBLK.ACQ in a launch of 64 registers. -/
theorem issues_xblkAcq {s : State} {i : Issue} {f : L64} (h : s.issues i (blockNeeds f) = true)
    (regs : (s.launchOf i.ref).map (fun l => l.header.regs) = some 64) :
    s.issues i { lNeeds f [] [] with early := s.xblkCause, bare := true, head := true } = true := by
  have allowed : s.xblkCause = none := by simp [State.xblkCause, issues_issue h, regs]
  rw [allowed]
  exact h

theorem xblkAcqWith_holds {s : State} {i : Issue} {f : L64} (h : s.issues i (blockNeeds f) = true) (hp : partL s i f ≠ 0)
    (hg : (s.gslotOf i.ref).isSome = true) (regs : (s.launchOf i.ref).map (fun l => l.header.regs) = some 64)
    (ext : (s.crew i.ref).ext = true) :
    ∃ t, s.xblkAcqWith f = .next t ∧ SameElse s t i.ref ∧ SameRegs (s.crew i.ref) (t.crew i.ref) ∧
      TookHead (s.crew i.ref) (t.crew i.ref) s.cycle := by
  have e : s.xblkAcqWith f = .next _ := issueWith_ok _ (issues_xblkAcq h regs)
  have part : (s.eff i f.pred f.pn == 0) = false := beq_false_of_ne hp
  simp only [part, Option.isNone_eq_false_iff.2 hg, ext, Bool.false_eq_true, if_false, if_true] at e
  obtain ⟨else_, same, -, took⟩ := retire_head s i false (issues_hasCrew h)
  exact ⟨_, e, else_, same, took⟩

theorem xblkAcqWith_takes {s : State} {i : Issue} {f : L64} {k : Nat} (h : s.issues i (blockNeeds f) = true)
    (hp : partL s i f ≠ 0) (hg : (s.gslotOf i.ref).isSome = true)
    (regs : (s.launchOf i.ref).map (fun l => l.header.regs) = some 64) (ext : (s.crew i.ref).ext = false)
    (granted : (s.sub i.core i.sub).granted i.slot = false)
    (block : (s.sub i.core i.sub).blockFor (s.gslotOf i.ref) = some k)
    (free : ∀ n w, (s.sub i.core i.sub).crews[n]? = some w → w.xwait.isSome = true → w.ext = false →
      (s.sub i.core i.sub).blockFor (s.gslotOf ⟨i.core, i.sub, n⟩) ≠ some k) :
    ∃ t, s.xblkAcqWith f = .next t ∧ SameMemory s t ∧ (t.crew i.ref).ext = true ∧
      (((t.sub i.core i.sub).blocks)[k]?).map (fun b => b.holder) = some (some i.slot) ∧
      (t.crew i.ref).regions.length = (s.crew i.ref).regions.length + 1 ∧
      ∀ l j, l < 32 → 32 ≤ j → j < 64 → lane ((t.crew i.ref).reg j).content l = 0 ∧
        ((t.crew i.ref).thread l).taint.getLsbD j = false := by
  have hc := issues_hasCrew h
  obtain ⟨-, -, -, map⟩ := (hasCrew_iff s i.ref).1 hc
  obtain ⟨slot, opened, holder⟩ := blockTaken_spec hc (Sub.blockFor_lt block)
  obtain ⟨else_, ⟨same, taint⟩, -, took⟩ := retire_head (s.blockTaken i k) i false slot
  have e : s.xblkAcqWith f = .next _ := issueWith_ok _ (issues_xblkAcq h regs)
  have part : (s.eff i f.pred f.pn == 0) = false := beq_false_of_ne hp
  have mine : (some k).filter (fun k => !s.xblkContended i.core i.sub k) = some k := by
    simp [Option.filter, xblkContended_false free]
  simp only [part, Option.isNone_eq_false_iff.2 hg, ext, granted, block, mine, Bool.false_eq_true, if_false] at e
  refine ⟨((s.blockTaken i k).retire i false).head i.ref, e, sameMemory_trans (sameMemory_modSub ..) else_.sameMemory,
    (retire_head_ext _ i false slot).trans opened.ext, ?_, took.1.trans (by rw [opened.regions]),
    fun l j hl low high => ⟨?_, ?_⟩⟩
  · exact (congrArg (fun bs : List Block => (bs[k]?).map (fun b => b.holder)) else_.blocks).trans holder
  · rw [same, opened.zero map j low high, lane_zeroContent]
  · rw [taint l hl, opened.taint l j low]

/-! ### XBLK.REL -/

/-- The state in which a crew has given up its block, which its current region will free (R159, R190). -/
def State.blockGiven (s : State) (i : Issue) : State :=
  s.modSub i.core i.sub (fun b =>
    { b with
      blocks := b.blocks.map (fun x => if x.holder == some i.slot then { x with freeing := true } else x)
      crews := modifyAt b.crews i.slot (fun w => w.closeExt.hold .freeBlock 0) })

theorem xblkRelWith_ok {s : State} {i : Issue} {f : L64} (h : s.issues i (blockNeeds f) = true) (hp : partL s i f ≠ 0)
    (hg : (s.gslotOf i.ref).isSome = true) :
    s.xblkRelWith f = .next (if !(s.crew i.ref).ext then (s.retire i false).head i.ref
      else ((s.blockGiven i).retire i false).head i.ref) := by
  have part : (s.eff i f.pred f.pn == 0) = false := beq_false_of_ne hp
  refine (issueWith_ok _ h).trans ?_
  simp only [part, Option.isNone_eq_false_iff.2 hg, Bool.false_eq_true, if_false]
  rfl

/-- The current region of a crew that gives up its block frees it once it has released. -/
theorem Crew.closeExt_hold_last {w : Crew} {g : Region} (h : w.regions.getLast? = some g) :
    ∃ x, (w.closeExt.hold .freeBlock 0).regions.getLast? = some x ∧ x.effects = g.effects ++ [Effect.freeBlock] := by
  simp only [List.getLast?_eq_getElem?, Crew.hold, Crew.closeExt, Crew.modRegion, modifyAt_length, modifyAt_getElem?,
    if_true] at h ⊢
  rw [h]
  exact ⟨_, rfl, rfl⟩

theorem xblkRelWith_keeps {s : State} {i : Issue} {f : L64} (h : s.issues i (blockNeeds f) = true) (hp : partL s i f ≠ 0)
    (hg : (s.gslotOf i.ref).isSome = true) (ext : (s.crew i.ref).ext = false) :
    ∃ t, s.xblkRelWith f = .next t ∧ SameElse s t i.ref ∧ SameRegs (s.crew i.ref) (t.crew i.ref) ∧
      TookHead (s.crew i.ref) (t.crew i.ref) s.cycle := by
  obtain ⟨else_, same, -, took⟩ := retire_head s i false (issues_hasCrew h)
  exact ⟨_, by rw [xblkRelWith_ok h hp hg, ext]; rfl, else_, same, took⟩

theorem xblkRelWith_gives {s : State} {i : Issue} {f : L64} {g : Region} (h : s.issues i (blockNeeds f) = true)
    (hp : partL s i f ≠ 0) (hg : (s.gslotOf i.ref).isSome = true) (ext : (s.crew i.ref).ext = true)
    (last : (s.crew i.ref).regions.getLast? = some g) :
    ∃ t, s.xblkRelWith f = .next t ∧ SameMemory s t ∧ (t.crew i.ref).ext = false ∧
      ∃ h, (t.crew i.ref).regions[(s.crew i.ref).regions.length - 1]? = some h ∧ h.closed = some s.cycle ∧
        h.effects = g.effects ++ [Effect.freeBlock] := by
  have hc := issues_hasCrew h
  obtain ⟨-, hslot, threads, map⟩ := (hasCrew_iff s i.ref).1 hc
  have crew : (s.blockGiven i).crew i.ref = (s.crew i.ref).closeExt.hold .freeBlock 0 :=
    (crew_modSub s i.ref _ hc).trans (modifyAt_getD_same _ _ _ _ hslot)
  have slot : (s.blockGiven i).hasCrew i.ref = true := by
    refine hasCrew_of_crew ?_ ?_ <;> rw [crew]
    · simpa [Crew.hold, Crew.closeExt, Crew.modRegion] using threads
    · simp [Crew.hold, Crew.closeExt, Crew.modRegion, map]
  obtain ⟨else_, -, -, -, -, -, closes, -⟩ := retire_head (s.blockGiven i) i false slot
  obtain ⟨x, hx, effects⟩ := Crew.closeExt_hold_last last
  obtain ⟨y, hy, closed, -, kept, -⟩ := closes x (by rw [crew]; exact hx)
  refine ⟨_, by rw [xblkRelWith_ok h hp hg, ext]; rfl, sameMemory_trans (sameMemory_modSub ..) else_.sameMemory,
    (retire_head_ext _ i false slot).trans (by rw [crew]; rfl), y, ?_, closed, kept.trans effects⟩
  rw [← hy, crew]
  simp [Crew.hold, Crew.closeExt, Crew.modRegion]

end Sys2Proof.Machine
end

section
namespace Sys2Proof
open Machine Claims

/-- Settles O18: the short form of each is the long form of the neutral word. -/
theorem extendedBlocks : Obligations.ExtendedBlocks := by
  unfold Obligations.ExtendedBlocks
  constructor
  · rintro ins f (rfl | ⟨rfl, rfl⟩) s i h hp hg regs <;>
      exact ⟨xblkAcqWith_holds h hp hg regs, fun _ => xblkAcqWith_takes h hp hg regs⟩
  · rintro ins f (rfl | ⟨rfl, rfl⟩) s i h hp hg <;>
      exact ⟨fun _ => xblkRelWith_gives h hp hg, xblkRelWith_keeps h hp hg⟩

end Sys2Proof
end

section
/-! ## Words and their layouts (R213 to R221)

The fields that a layout reads from the word it writes are the fields written, and the word of the fields read is the word. -/

namespace Sys2Proof

/-- A field that lies above the low part of a word is a field of the high part. -/
theorem fieldAt_append_high {v w : Nat} (x : BitVec v) (y : BitVec w) (lo len : Nat) (h : w ≤ lo) :
    fieldAt (no_index (x ++ y)) lo len = fieldAt x (lo - w) len := BitVec.extractLsb'_append_eq_of_le h

/-- A field that lies in the low part of a word is a field of that part. -/
theorem fieldAt_append_low {v w : Nat} (x : BitVec v) (y : BitVec w) (lo len : Nat) (h : lo + len ≤ w) :
    fieldAt (no_index (x ++ y)) lo len = fieldAt y lo len := BitVec.extractLsb'_append_eq_of_add_le h

/-- Two fields that meet are one field. -/
theorem fieldAt_append_fieldAt {n : Nat} (w : BitVec n) (hi lo m k : Nat) (h : hi = lo + k) :
    no_index (fieldAt w hi m ++ fieldAt w lo k) = fieldAt w lo (m + k) :=
  BitVec.extractLsb'_append_extractLsb'_eq_extractLsb' h

@[simp] theorem fieldAt_all {n : Nat} (w : BitVec n) : fieldAt w 0 n = w := BitVec.extractLsb'_eq_self

theorem toNat_fieldAt {n : Nat} (w : BitVec n) (lo len : Nat) : (fieldAt w lo len).toNat = w.toNat / 2 ^ lo % 2 ^ len := by
  rw [fieldAt, BitVec.extractLsb'_toNat, Nat.shiftRight_eq_div_pow]

/-- The bits of a word are a field's number. -/
theorem bits_toNat {n : Nat} (w : BitVec n) (hi lo : Nat) : bits w.toNat hi lo = (fieldAt w lo (hi + 1 - lo)).toNat :=
  (toNat_fieldAt w lo _).symm

theorem C16.ofWord_toWord (cop : BitVec 4) (f : C16) : C16.ofWord (f.toWord cop) = f := by
  simp [ofWord, toWord, fieldAt_append_high, fieldAt_append_low]

theorem S32.ofWord_toWord (op : BitVec 7) (f : S32) : S32.ofWord (f.toWord op) = f := by
  simp [ofWord, toWord, fieldAt_append_high, fieldAt_append_low]

theorem I32.ofWord_toWord (op : BitVec 7) (f : I32) : I32.ofWord (f.toWord op) = f := by
  simp [ofWord, toWord, fieldAt_append_high, fieldAt_append_low]

theorem J32.ofWord_toWord (op : BitVec 7) (f : J32) : J32.ofWord (f.toWord op) = f := by
  simp [ofWord, toWord, fieldAt_append_high, fieldAt_append_low]

theorem L64.ofWord_toWord (op : BitVec 7) (f : L64) : L64.ofWord (f.toWord op) = f := by
  simp [ofWord, toWord, fieldAt_append_high, fieldAt_append_low]

theorem K64.ofWord_toWord (op : BitVec 7) (f : K64) : K64.ofWord (f.toWord op) = f := by
  simp [ofWord, toWord, fieldAt_append_high, fieldAt_append_low]

theorem M64.ofWord_toWord (op : BitVec 7) (f : M64) : M64.ofWord (f.toWord op) = f := by
  simp [ofWord, toWord, fieldAt_append_high, fieldAt_append_low]

theorem C16.toWord_ofWord (w : BitVec 16) (h : fieldAt w 0 1 = 0#1) (hb : fieldAt w 15 1 = 0#1) :
    (C16.ofWord w).toWord (fieldAt w 1 4) = w := by
  have all : (fieldAt w 15 1 ++ fieldAt w 10 5 ++ fieldAt w 5 5 ++ fieldAt w 1 4 ++ fieldAt w 0 1 : BitVec 16) = w := by
    simp [fieldAt_append_fieldAt]
  rwa [hb, h] at all

theorem S32.toWord_ofWord (w : BitVec 32) (h : fieldAt w 0 2 = 1#2) : (S32.ofWord w).toWord (fieldAt w 2 7) = w := by
  simp [ofWord, toWord, ← h, fieldAt_append_fieldAt]

theorem I32.toWord_ofWord (w : BitVec 32) (h : fieldAt w 0 2 = 1#2) : (I32.ofWord w).toWord (fieldAt w 2 7) = w := by
  simp [ofWord, toWord, ← h, fieldAt_append_fieldAt]

theorem J32.toWord_ofWord (w : BitVec 32) (h : fieldAt w 0 2 = 1#2) : (J32.ofWord w).toWord (fieldAt w 2 7) = w := by
  simp [ofWord, toWord, ← h, fieldAt_append_fieldAt]

theorem L64.toWord_ofWord (w : BitVec 64) (h : fieldAt w 0 2 = 3#2) : (L64.ofWord w).toWord (fieldAt w 2 7) = w := by
  simp [ofWord, toWord, ← h, fieldAt_append_fieldAt]

theorem K64.toWord_ofWord (w : BitVec 64) (h : fieldAt w 0 2 = 3#2) : (K64.ofWord w).toWord (fieldAt w 2 7) = w := by
  simp [ofWord, toWord, ← h, fieldAt_append_fieldAt]

theorem M64.toWord_ofWord (w : BitVec 64) (h : fieldAt w 0 2 = 3#2) : (M64.ofWord w).toWord (fieldAt w 2 7) = w := by
  simp [ofWord, toWord, ← h, fieldAt_append_fieldAt]

/-! ### The opcode of a word and its two low bits (R213) -/

theorem cop_of_word (x : BitVec 11) (cop : BitVec 4) : fieldAt (n := 16) (x ++ cop ++ 0#1) 1 4 = cop := by
  simp [fieldAt_append_high, fieldAt_append_low]

theorem op_of_word32 (x : BitVec 23) (op : BitVec 7) : fieldAt (n := 32) (x ++ op ++ 1#2) 2 7 = op := by
  simp [fieldAt_append_high, fieldAt_append_low]

theorem op_of_word64 (x : BitVec 55) (op : BitVec 7) : fieldAt (n := 64) (x ++ op ++ 3#2) 2 7 = op := by
  simp [fieldAt_append_high, fieldAt_append_low]

theorem low_field_eq {n : Nat} (w : BitVec n) (k c : Nat) (h : w.toNat % 2 ^ k = c) : fieldAt w 0 k = BitVec.ofNat k c := by
  refine BitVec.eq_of_toNat_eq ?_
  rw [toNat_fieldAt, Nat.pow_zero, Nat.div_one, h, BitVec.toNat_ofNat, ← h, Nat.mod_mod]

/-! ### The bytes of a word, and the decoder's choice of a length (R7, R213) -/

theorem ofBytes_append (bs cs : List Byte) : ofBytes (bs ++ cs) = ofBytes bs + 256 ^ bs.length * ofBytes cs := by
  induction bs with
  | nil => simp [ofBytes]
  | cons b bs ih => rw [List.cons_append, ofBytes, ofBytes, ih, List.length_cons, Nat.pow_succ']; ring

/-- The bytes of a word, whatever follows them, give the word back. -/
theorem ofBytes_word {k : Nat} (x : BitVec (8 * k)) (rest : List Byte) :
    ofBytes (toBytes k x.toNat ++ rest) = x.toNat + 2 ^ (8 * k) * ofBytes rest := by
  have e : (256 : Nat) ^ k = 2 ^ (8 * k) := by rw [Nat.pow_mul]
  rw [ofBytes_append, ofBytes_toBytes, toBytes_length, e, Nat.mod_eq_of_lt x.isLt]

theorem ofNat_word {k : Nat} (x : BitVec (8 * k)) (rest : List Byte) :
    BitVec.ofNat (8 * k) (ofBytes (toBytes k x.toNat ++ rest)) = x := by
  refine BitVec.eq_of_toNat_eq ?_
  rw [BitVec.toNat_ofNat, ofBytes_word, Nat.add_mul_mod_self_left, Nat.mod_eq_of_lt x.isLt]

theorem instrLength_of_even {w : Nat} (h : w % 2 = 0) : instrLength (w % 65536) = 2 := by
  rw [Laws.Words.length_of_low, if_pos h]

theorem instrLength_of_one {w : Nat} (h : w % 4 = 1) : instrLength (w % 65536) = 4 := by
  rw [Laws.Words.length_of_low, if_neg (by omega), if_pos h]

theorem instrLength_of_three {w : Nat} (h : w % 4 = 3) : instrLength (w % 65536) = 8 := by
  rw [Laws.Words.length_of_low, if_neg (by omega), if_neg (by omega)]

theorem decode_of_even {bs : List Byte} (h : ofBytes bs % 2 = 0) :
    decode bs = checked 2 (decode16 (BitVec.ofNat 16 (ofBytes bs))) := by
  simp [decode, instrLength_of_even h]

theorem decode_of_one {bs : List Byte} (h : ofBytes bs % 4 = 1) :
    decode bs = checked 4 (decode32 (BitVec.ofNat 32 (ofBytes bs))) := by
  simp [decode, instrLength_of_one h]

theorem decode_of_three {bs : List Byte} (h : ofBytes bs % 4 = 3) :
    decode bs = checked 8 (decode64 (BitVec.ofNat 64 (ofBytes bs))) := by
  simp [decode, instrLength_of_three h]

theorem decode_word16 (x : BitVec 16) (rest : List Byte) (h : x.toNat % 2 = 0) :
    decode (toBytes 2 x.toNat ++ rest) = checked 2 (decode16 x) := by
  have e := ofBytes_word (k := 2) x rest
  rw [decode_of_even (by omega), ofNat_word (k := 2)]

theorem decode_word32 (x : BitVec 32) (rest : List Byte) (h : x.toNat % 4 = 1) :
    decode (toBytes 4 x.toNat ++ rest) = checked 4 (decode32 x) := by
  have e := ofBytes_word (k := 4) x rest
  rw [decode_of_one (by omega), ofNat_word (k := 4)]

theorem decode_word64 (x : BitVec 64) (rest : List Byte) (h : x.toNat % 4 = 3) :
    decode (toBytes 8 x.toNat ++ rest) = checked 8 (decode64 x) := by
  have e := ofBytes_word (k := 8) x rest
  rw [decode_of_three (by omega), ofNat_word (k := 8)]

/-! ### The checks on fields (R227) -/

theorem checked_of_wellFormed (len : Nat) {i : Instr} (h : i.wellFormed = true) : checked len (.ok i) = .ok (i, len) := by
  have e : i.illegal = none := by simpa [Instr.wellFormed] using h
  simp [checked, e]

theorem checked_eq_ok {len n : Nat} {i : Instr} {x : Except IllegalCause Instr} (h : checked len x = .ok (i, n)) :
    x = .ok i ∧ i.wellFormed = true ∧ n = len := by
  unfold checked at h
  cases x with
  | error c => cases h
  | ok j =>
    dsimp only at h
    split at h
    · cases h
    · next e => cases h; exact ⟨rfl, by simp [Instr.wellFormed, e], rfl⟩

@[simp] theorem firstCause_eq_none (l : List (Option IllegalCause)) : firstCause l = none ↔ ∀ x ∈ l, x = none := by
  induction l with
  | nil => simp [firstCause]
  | cons a l ih => cases a <;> simp [firstCause, ih]

@[simp] theorem need_eq_none (ok : Bool) (c : IllegalCause) : need ok c = none ↔ ok = true := by
  cases ok <;> simp [need]

theorem wellFormed_iff (i : Instr) : i.wellFormed = true ↔ i.illegal = none := by simp [Instr.wellFormed]

/-- What the register format's checks say of the fields that choose among the instructions of one opcode. -/
theorem L64.of_check {sh : Shape} {cOk mxOk : Nat → Bool} {f : L64} (h : L64.check sh cOk mxOk f = none) :
    (sh.creg.isSome || cOk f.c.toNat) = true ∧ mxOk f.mx.toNat = true ∧ sh.b.fieldCheck f.b.toNat = none ∧
      sh.b.selCheck f.b.toNat = none := by
  simp only [check, firstCause_eq_none, List.forall_mem_cons, need_eq_none] at h
  obtain ⟨-, hmx, hc, -, -, hb, -, -, -, -, -, -, -, -, -, hsel, -⟩ := h
  exact ⟨hc, hmx, hb, hsel⟩

theorem K64.imm_of_check {d a : Use} {immOk : Nat → Bool} {f : K64} (h : K64.check d a immOk f = none) :
    immOk f.imm.toNat = true := by
  simp only [check, firstCause_eq_none, List.forall_mem_cons, need_eq_none] at h
  obtain ⟨-, chosen, -⟩ := h
  exact chosen

theorem M64.sz_of_check {szOk : Nat → Bool} {ordOk : Nat → Nat → Nat → Bool} {hintOk sxOk : Nat → Bool} {a : Use}
    {dcheck : Option IllegalCause} {f : M64} (h : M64.check szOk ordOk hintOk sxOk a dcheck f = none) :
    szOk f.sz.toNat = true := by
  simp only [check, firstCause_eq_none, List.forall_mem_cons, need_eq_none] at h
  obtain ⟨-, chosen, -⟩ := h
  exact chosen

end Sys2Proof
end

section
/-! ## What the opcode map reads (R213, R227 to R230) -/

namespace Sys2Proof

/-- The instruction that a row of the map reads from a 64-bit word, in its layout. -/
def LongForm.read (w : BitVec 64) : LongForm → Instr
  | .l mk => mk (L64.ofWord w)
  | .k mk => mk (K64.ofWord w)
  | .m mk => mk (M64.ofWord w)

/-- The instruction that a row of the map reads from a 32-bit word, in its layout, or the cause of ILLEGAL. -/
def ShortForm.read (w : BitVec 32) : ShortForm → Except IllegalCause Instr
  | .absent => .error .form
  | .s mk => .ok (mk (S32.ofWord w))
  | .bare rows => bare32 rows (S32.ofWord w)
  | .i mk => .ok (mk (I32.ofWord w))
  | .j mk => .ok (mk (J32.ofWord w))

/-- The row of a word's opcode reads a 64-bit word. -/
theorem decode64_of_row {w : BitVec 64} {r : OpRow} (hr : opRow (fieldAt w 2 7).toNat = some r) :
    decode64 w = .ok (r.long.read w) := by
  rw [decode64, bits_toNat, hr]
  cases h : r.long <;> simp only [h, LongForm.read]

theorem decode64_of_reserved {w : BitVec 64} (hr : opRow (fieldAt w 2 7).toNat = none) :
    decode64 w = .ok (.reservedOpcode (fieldAt w 2 7) true) := by
  rw [decode64, bits_toNat, hr]

/-- The row of a word's opcode reads a 32-bit word. -/
theorem decode32_of_row {w : BitVec 32} {r : OpRow} (hr : opRow (fieldAt w 2 7).toNat = some r) :
    decode32 w = r.short.read w := by
  rw [decode32, bits_toNat, hr]
  cases h : r.short <;> simp only [h, ShortForm.read]

theorem decode32_of_reserved {w : BitVec 32} (hr : opRow (fieldAt w 2 7).toNat = none) :
    decode32 w = .ok (.reservedOpcode (fieldAt w 2 7) false) := by
  rw [decode32, bits_toNat, hr]

theorem bit15_eq (w : BitVec 16) : bit w.toNat 15 = (fieldAt w 15 1 == 1#1) := by
  rw [bit, Bool.eq_iff_iff, beq_iff_eq, beq_iff_eq, ← BitVec.toNat_inj, toNat_fieldAt]; rfl

/-- The compact code of a word reads it, when its bit 15 is 0 (R215, R230). -/
theorem decode16_of_code {w : BitVec 16} {mk : C16 → Instr} (hb : fieldAt w 15 1 = 0#1)
    (hc : compactCodes[(fieldAt w 1 4).toNat]? = some mk) : decode16 w = .ok (mk (C16.ofWord w)) := by
  simp only [decode16, bit15_eq, hb, bits_toNat, hc]
  rfl

theorem decode16_of_bit15 {w : BitVec 16} (hb : fieldAt w 15 1 = 1#1) : decode16 w = .error .compact := by
  simp [decode16, bit15_eq, hb]

end Sys2Proof
end

section
/-! ## Decoding an encoded instruction (R213 to R221, R228, R230) -/

namespace Sys2Proof

/-- A word of the instruction decodes to it, whatever bytes follow, when it is well-formed. -/
def Decodes (i : Instr) : Prop :=
  ∀ len word rest, i.wellFormed = true → encode i = some (len, word) → decode (toBytes len word ++ rest) = .ok (i, len)

namespace Decodes

theorem of_none {i : Instr} (h : encode i = none) : Decodes i := by
  intro len word rest _ he
  cases h.symm.trans he

/-- An instruction of 8 bytes that its opcode's row reads. -/
theorem of_row64 {i : Instr} {x : BitVec 55} {op : BitVec 7} {r : OpRow} (h : encode i = some (8, (x ++ op ++ 3#2).toNat))
    (hr : opRow op.toNat = some r) (hi : i.wellFormed = true → r.long.read (x ++ op ++ 3#2) = i) : Decodes i := by
  intro len word rest hw he
  obtain ⟨rfl, rfl⟩ := Prod.mk.inj (Option.some.inj (h.symm.trans he))
  have hd : decode64 (x ++ op ++ 3#2) = .ok i := hi hw ▸ decode64_of_row ((op_of_word64 x op).symm ▸ hr)
  exact (decode_word64 (x ++ op ++ 3#2) rest (Laws.Words.low_bits (x ++ op) 3#2)).trans
    (hd.symm ▸ checked_of_wellFormed 8 hw)

/-- An instruction of 4 bytes that its opcode's row reads. -/
theorem of_row32 {i : Instr} {x : BitVec 23} {op : BitVec 7} {r : OpRow} (h : encode i = some (4, (x ++ op ++ 1#2).toNat))
    (hr : opRow op.toNat = some r) (hi : r.short.read (x ++ op ++ 1#2) = .ok i) : Decodes i := by
  intro len word rest hw he
  obtain ⟨rfl, rfl⟩ := Prod.mk.inj (Option.some.inj (h.symm.trans he))
  have hd : decode32 (x ++ op ++ 1#2) = .ok i := hi ▸ decode32_of_row ((op_of_word32 x op).symm ▸ hr)
  exact (decode_word32 (x ++ op ++ 1#2) rest (Laws.Words.low_bits (x ++ op) 1#2)).trans
    (hd.symm ▸ checked_of_wellFormed 4 hw)

theorem of_l {i : Instr} {op : BitVec 7} {f : L64} {r : OpRow} {mk : L64 → Instr} (h : encode i = some (8, (f.toWord op).toNat))
    (hr : opRow op.toNat = some r) (hl : r.long = .l mk) (hm : i.wellFormed = true → mk f = i) : Decodes i :=
  of_row64 h hr fun hw => (congrArg (LongForm.read _) hl).trans ((congrArg mk (L64.ofWord_toWord op f)).trans (hm hw))

theorem of_k {i : Instr} {op : BitVec 7} {f : K64} {r : OpRow} {mk : K64 → Instr} (h : encode i = some (8, (f.toWord op).toNat))
    (hr : opRow op.toNat = some r) (hl : r.long = .k mk) (hm : i.wellFormed = true → mk f = i) : Decodes i :=
  of_row64 h hr fun hw => (congrArg (LongForm.read _) hl).trans ((congrArg mk (K64.ofWord_toWord op f)).trans (hm hw))

theorem of_m {i : Instr} {op : BitVec 7} {f : M64} {r : OpRow} {mk : M64 → Instr} (h : encode i = some (8, (f.toWord op).toNat))
    (hr : opRow op.toNat = some r) (hl : r.long = .m mk) (hm : i.wellFormed = true → mk f = i) : Decodes i :=
  of_row64 h hr fun hw => (congrArg (LongForm.read _) hl).trans ((congrArg mk (M64.ofWord_toWord op f)).trans (hm hw))

theorem of_s {i : Instr} {op : BitVec 7} {f : S32} {r : OpRow} {mk : S32 → Instr} (h : encode i = some (4, (f.toWord op).toNat))
    (hr : opRow op.toNat = some r) (hs : r.short = .s mk) (hm : mk f = i) : Decodes i :=
  of_row32 h hr ((congrArg (ShortForm.read _) hs).trans (congrArg Except.ok ((congrArg mk (S32.ofWord_toWord op f)).trans hm)))

theorem of_i {i : Instr} {op : BitVec 7} {f : I32} {r : OpRow} {mk : I32 → Instr} (h : encode i = some (4, (f.toWord op).toNat))
    (hr : opRow op.toNat = some r) (hs : r.short = .i mk) (hm : mk f = i) : Decodes i :=
  of_row32 h hr ((congrArg (ShortForm.read _) hs).trans (congrArg Except.ok ((congrArg mk (I32.ofWord_toWord op f)).trans hm)))

theorem of_j {i : Instr} {op : BitVec 7} {f : J32} {r : OpRow} {mk : J32 → Instr} (h : encode i = some (4, (f.toWord op).toNat))
    (hr : opRow op.toNat = some r) (hs : r.short = .j mk) (hm : mk f = i) : Decodes i :=
  of_row32 h hr ((congrArg (ShortForm.read _) hs).trans (congrArg Except.ok ((congrArg mk (J32.ofWord_toWord op f)).trans hm)))

/-- A 32-bit instruction without register fields: MOD alone chooses it (R224). -/
theorem of_bare {i : Instr} {op : BitVec 7} {mod : BitVec 5} {r : OpRow} {rows : List (BitVec 5 × Instr)}
    (h : encode i = some (4, (S32.toWord op ⟨mod, 0, 0, 0⟩).toNat)) (hr : opRow op.toNat = some r) (hs : r.short = .bare rows)
    (hm : rows.lookup mod = some i) : Decodes i := by
  refine of_row32 h hr ((congrArg (ShortForm.read _) hs).trans ?_)
  have hb : bare32 rows ⟨mod, 0, 0, 0⟩ = .ok i := by simp [bare32, hm]
  exact (congrArg (bare32 rows) (S32.ofWord_toWord op ⟨mod, 0, 0, 0⟩)).trans hb

theorem of_c {i : Instr} {cop : BitVec 4} {f : C16} {mk : C16 → Instr} (h : encode i = some (2, (f.toWord cop).toNat))
    (hc : compactCodes[cop.toNat]? = some mk) (hm : mk f = i) : Decodes i := by
  intro len word rest hw he
  obtain ⟨rfl, rfl⟩ := Prod.mk.inj (Option.some.inj (h.symm.trans he))
  have hb : fieldAt (f.toWord cop) 15 1 = 0#1 := by simp [C16.toWord, fieldAt_append_high]
  have hop : fieldAt (f.toWord cop) 1 4 = cop := cop_of_word _ cop
  rw [decode_word16 (f.toWord cop) rest (Laws.Words.low_bits _ 0#1), decode16_of_code hb (hop.symm ▸ hc),
    C16.ofWord_toWord, hm, checked_of_wellFormed 2 hw]

/-! ### Opcodes that several instructions share: the field that tells them apart is fixed by its check (R228) -/

theorem bit_eq (x i : Nat) : bit x i = decide (x / 2 ^ i % 2 = 1) := rfl

theorem sysR (f : K64) : Decodes (.sysR f) := of_k rfl rfl rfl fun hw => by
  simp only [wellFormed_iff, Instr.illegal] at hw
  have h := K64.imm_of_check hw
  simp only [Bool.and_eq_true, decide_eq_true_eq] at h
  exact if_neg (by simp only [bit_eq, decide_eq_true_eq]; omega)

theorem sysW (f : K64) : Decodes (.sysW f) := of_k rfl rfl rfl fun hw => by
  simp only [wellFormed_iff, Instr.illegal] at hw
  have h := K64.imm_of_check hw
  have lt := f.imm.isLt
  simp only [Bool.and_eq_true, decide_eq_true_eq] at h
  exact if_pos (by simp only [bit_eq, decide_eq_true_eq]; omega)

theorem st (f : M64) : Decodes (.st f) := of_m rfl rfl rfl fun hw => by
  simp only [wellFormed_iff, Instr.illegal] at hw
  have h := M64.sz_of_check hw
  simp only [decide_eq_true_eq] at h
  refine if_neg fun e => ?_
  simp [eq_of_beq e] at h

theorem stBlk (f : M64) : Decodes (.stBlk f) := of_m rfl rfl rfl fun hw => by
  simp only [wellFormed_iff, Instr.illegal] at hw
  have h := M64.sz_of_check hw
  exact if_pos (beq_iff_eq.2 (BitVec.eq_of_toNat_eq (eq_of_beq h)))

theorem tctlZero (f : L64) : Decodes (.tctlZero f) := of_l rfl rfl rfl fun hw => by
  simp only [wellFormed_iff, Instr.illegal] at hw
  obtain ⟨h, -⟩ := L64.of_check hw
  have c : f.c.toNat % 8 = 0 := eq_of_beq (Bool.and_eq_true_iff.1 h).2
  simp [bits, show f.c.toNat % 4 = 0 by omega]

theorem tctlLoad (f : L64) : Decodes (.tctlLoad f) := of_l rfl rfl rfl fun hw => by
  simp only [wellFormed_iff, Instr.illegal] at hw
  obtain ⟨h, -⟩ := L64.of_check hw
  have c : f.c.toNat % 4 = 1 := eq_of_beq (Bool.and_eq_true_iff.1 h).2
  simp [bits, show f.c.toNat % 4 = 1 by omega]

theorem tctlStat (f : L64) : Decodes (.tctlStat f) := of_l rfl rfl rfl fun hw => by
  simp only [wellFormed_iff, Instr.illegal] at hw
  obtain ⟨h, -⟩ := L64.of_check hw
  have c : f.c.toNat % 8 = 2 := eq_of_beq (Bool.and_eq_true_iff.1 h).2
  simp [bits, show f.c.toNat % 4 = 2 by omega]

/-- SUBS.ON names a pair in B, and 67 is odd (R225). -/
theorem subsOn (f : L64) : Decodes (.subsOn f) := of_l rfl rfl rfl fun hw => by
  simp only [wellFormed_iff, Instr.illegal] at hw
  obtain ⟨-, -, -, h⟩ := L64.of_check hw
  refine if_neg fun e => ?_
  simp [eq_of_beq e, Shape.subsOn, Use.selCheck] at h

theorem subsOff (f : L64) : Decodes (.subsOff f) := of_l rfl rfl rfl fun hw => by
  simp only [wellFormed_iff, Instr.illegal] at hw
  obtain ⟨-, -, h, -⟩ := L64.of_check hw
  refine if_pos (beq_iff_eq.2 (BitVec.eq_of_toNat_eq ?_))
  simpa [Shape.subsOff, Use.fieldCheck] using h

theorem circSetup (f : L64) : Decodes (.circSetup f) := of_l rfl rfl rfl fun hw => by
  simp only [wellFormed_iff, Instr.illegal] at hw
  obtain ⟨-, h, -⟩ := L64.of_check hw
  have : f.mx = 0 := BitVec.eq_of_toNat_eq (eq_of_beq h)
  simp [this]

theorem circSend (f : L64) : Decodes (.circSend f) := of_l rfl rfl rfl fun hw => by
  simp only [wellFormed_iff, Instr.illegal] at hw
  obtain ⟨-, h, -⟩ := L64.of_check hw
  have : f.mx = 1 := BitVec.eq_of_toNat_eq (eq_of_beq h)
  simp [this]

theorem circRel (f : L64) : Decodes (.circRel f) := of_l rfl rfl rfl fun hw => by
  simp only [wellFormed_iff, Instr.illegal] at hw
  obtain ⟨-, h, -⟩ := L64.of_check hw
  have : f.mx = 2 := BitVec.eq_of_toNat_eq (eq_of_beq h)
  simp [this]

theorem xblkAcq (f : L64) : Decodes (.xblkAcq f) := of_l rfl rfl rfl fun hw => by
  simp only [wellFormed_iff, Instr.illegal] at hw
  obtain ⟨h, -⟩ := L64.of_check hw
  exact if_neg (by simp [show f.c.toNat = 0 from eq_of_beq h, bit])

theorem xblkRel (f : L64) : Decodes (.xblkRel f) := of_l rfl rfl rfl fun hw => by
  simp only [wellFormed_iff, Instr.illegal] at hw
  obtain ⟨h, -⟩ := L64.of_check hw
  exact if_pos (by simp [show f.c.toNat = 1 from eq_of_beq h, bit])

/-- A reserved opcode has a word, with every other bit zero, in both lengths (R229). -/
theorem reservedOpcode (op : BitVec 7) (long : Bool) : Decodes (.reservedOpcode op long) := by
  by_cases h : opRow op.toNat = none
  · have hr : reservedOp op = true := by simp [reservedOp, h]
    intro len word rest hw he
    cases long with
    | true =>
      obtain ⟨rfl, rfl⟩ : 8 = len ∧ ((0 : BitVec 55) ++ op ++ 3#2).toNat = word := by simpa [encode, hr] using he
      have e := op_of_word64 0 op
      have hd := decode64_of_reserved (e.symm ▸ h)
      rw [e] at hd
      exact (decode_word64 _ rest (Laws.Words.low_bits _ 3#2)).trans (hd.symm ▸ checked_of_wellFormed 8 hw)
    | false =>
      obtain ⟨rfl, rfl⟩ : 4 = len ∧ ((0 : BitVec 23) ++ op ++ 1#2).toNat = word := by simpa [encode, hr] using he
      have e := op_of_word32 0 op
      have hd := decode32_of_reserved (e.symm ▸ h)
      rw [e] at hd
      exact (decode_word32 _ rest (Laws.Words.low_bits _ 1#2)).trans (hd.symm ▸ checked_of_wellFormed 4 hw)
  · exact of_none (by simp [encode, reservedOp, h])

end Decodes

/-- Every instruction decodes from its word: by its layout, and by its own field where its opcode is shared. -/
theorem decodes (i : Instr) : Decodes i := by
  cases i with
  | iaddC16 f | isubC16 f | iminC16 f | imaxC16 f | andC16 f | orC16 f | xorC16 f | shlC16 f | shrC16 f | faddC16 f
  | fsubC16 f | fmulC16 f | fminC16 f | fmaxC16 f | paddC16 f | movC16 f =>
    exact .of_c rfl rfl rfl
  | iaddS32 f | isubS32 f | imulS32 f | imulhS32 f | iminS32 f | imaxS32 f | iabsS32 f | andS32 f | orS32 f | xorS32 f
  | logiS32 f | shlS32 f | shrS32 f | bextS32 f | bcntS32 f | bscanS32 f | brevS32 f | bpermS32 f | addsS32 f | faddS32 f
  | fmulS32 f | fminS32 f | fmaxS32 f | fclassS32 f | sfnS32 f | fintS32 f | ftoiS32 f | itofS32 f | fscaleS32 f
  | paddS32 f | pmulS32 f | pmnxS32 f | cvtS32 f | packS32 f | unpkS32 f | cvoteS32 f | lxchS32 f | maskLanesS32 f
  | movS32 f | jrS32 f | retS32 f | rjoinS32 f =>
    exact .of_s rfl rfl rfl rfl
  | iaddiI32 f | moviI32 f | sreadI32 f | brkI32 f =>
    exact .of_i rfl rfl rfl rfl
  | brJ32 f | callJ32 f =>
    exact .of_j rfl rfl rfl rfl
  | iadd f | isub f | imul f | imulh f | imac f | imacw f | imin f | imax f | iabs f | and f | or f | xor f | logi f
  | shl f | shr f | funl f | bext f | bins f | bcnt f | bscan f | brev f | bperm f | icmp f | sel f | adds f | idot4 f
  | fadd f | fmul f | ffma f | ffms f | fnma f | fmin f | fmax f | fcmp f | fclass f | sfn f | fint f | ftoi f | itof f
  | fscale f | padd f | pmul f | pfma f | pmnx f | cvt f | pack f | unpk f | plog f | pget f | pput f | cvote f | lxch f
  | lred f | lmatch f | pick f | maskLanes f | mov f | jr f | ret f | rjoin f | exitThread f | nop f | pause f | region f
  | commit f | tret f | cpy f | cpyt f | cpyg f | tlwait f | tmac f | tconv f | tdrain f | ract f | rcon f | rpre f
  | wopen f | amsg f =>
    exact .of_l rfl rfl rfl fun _ => rfl
  | iaddi f | movi f | sread f | br f | call f | tryGambit f | abort f | trap f | brk f =>
    exact .of_k rfl rfl rfl fun _ => rfl
  | qnt f | dqnt f | locq f | ld f | ldc f | lda f | sld f | sst f | atom f | atomn f | satom f | fence f | cache f
  | bari f | bara f | barx f | barw f | bart f =>
    exact .of_m rfl rfl rfl fun _ => rfl
  | exitThreadS32 | nopS32 | pauseS32 | regionS32 | commitS32 | tretS32 | xblkAcqS32 | xblkRelS32 =>
    exact .of_bare rfl rfl rfl rfl
  | sysR f => exact .sysR f
  | sysW f => exact .sysW f
  | st f => exact .st f
  | stBlk f => exact .stBlk f
  | tctlZero f => exact .tctlZero f
  | tctlLoad f => exact .tctlLoad f
  | tctlStat f => exact .tctlStat f
  | subsOn f => exact .subsOn f
  | subsOff f => exact .subsOff f
  | circSetup f => exact .circSetup f
  | circSend f => exact .circSend f
  | circRel f => exact .circRel f
  | xblkAcq f => exact .xblkAcq f
  | xblkRel f => exact .xblkRel f
  | reservedOpcode op long => exact .reservedOpcode op long
  | _ => exact .of_none rfl

/-- Settles O52: each instruction's layout and opcode give it back from its word. -/
theorem encodingsDecodeToTheirInstruction : Obligations.EncodingsDecodeToTheirInstruction :=
  fun i len word rest hw he => decodes i len word rest hw he

end Sys2Proof
end

section
/-! ## Encoding a decoded instruction (R213, R227, R228) -/

namespace Sys2Proof

/-! ### What a row reads has the row's opcode -/

/-- Each instruction that the long form of an opcode reads is encoded in that form. -/
def LongForm.Encodes (op : BitVec 7) : LongForm → Prop
  | .l mk => ∀ f, encode (mk f) = some (8, (f.toWord op).toNat)
  | .k mk => ∀ f, encode (mk f) = some (8, (f.toWord op).toNat)
  | .m mk => ∀ f, encode (mk f) = some (8, (f.toWord op).toNat)

/-- Each instruction that the short form of an opcode reads is encoded in that form. -/
def ShortForm.Encodes (op : BitVec 7) : ShortForm → Prop
  | .absent => True
  | .s mk => ∀ f, encode (mk f) = some (4, (f.toWord op).toNat)
  | .bare rows => ∀ p ∈ rows, encode p.2 = some (4, (S32.toWord op ⟨p.1, 0, 0, 0⟩).toNat)
  | .i mk => ∀ f, encode (mk f) = some (4, (f.toWord op).toNat)
  | .j mk => ∀ f, encode (mk f) = some (4, (f.toWord op).toNat)

/-- The encoder agrees with a row of the map in both lengths. -/
def OpRow.Encodes (r : OpRow) : Prop := r.long.Encodes (BitVec.ofNat 7 r.op) ∧ r.short.Encodes (BitVec.ofNat 7 r.op)

theorem intOps_encode : ∀ r ∈ intOps, r.Encodes := by
  simp only [intOps, List.forall_mem_cons, OpRow.Encodes, LongForm.Encodes, ShortForm.Encodes, List.not_mem_nil,
    false_implies, implies_true, and_true]
  and_intros
  all_goals exact fun _ => rfl

theorem floatOps_encode : ∀ r ∈ floatOps, r.Encodes := by
  simp only [floatOps, List.forall_mem_cons, OpRow.Encodes, LongForm.Encodes, ShortForm.Encodes, List.not_mem_nil,
    false_implies, implies_true, and_true]
  and_intros
  all_goals exact fun _ => rfl

theorem laneOps_encode : ∀ r ∈ laneOps, r.Encodes := by
  simp only [laneOps, List.forall_mem_cons, OpRow.Encodes, LongForm.Encodes, ShortForm.Encodes, List.not_mem_nil,
    false_implies, implies_true, and_true]
  and_intros
  all_goals exact fun _ => rfl

/-! Where a field of the word chooses among the instructions of an opcode, each has the same word. -/

theorem controlOps_encode : ∀ r ∈ controlOps, r.Encodes := by
  simp only [controlOps, List.forall_mem_cons, OpRow.Encodes, LongForm.Encodes, ShortForm.Encodes, List.not_mem_nil,
    false_implies, implies_true, and_true]
  and_intros
  all_goals
    intros
    repeat' split
  all_goals rfl

theorem memoryOps_encode : ∀ r ∈ memoryOps, r.Encodes := by
  simp only [memoryOps, List.forall_mem_cons, OpRow.Encodes, LongForm.Encodes, ShortForm.Encodes, List.not_mem_nil,
    false_implies, implies_true, and_true]
  and_intros
  all_goals
    intros
    repeat' split
  all_goals rfl

theorem engineOps_encode : ∀ r ∈ engineOps, r.Encodes := by
  simp only [engineOps, List.forall_mem_cons, OpRow.Encodes, LongForm.Encodes, ShortForm.Encodes, List.not_mem_nil,
    false_implies, implies_true, and_true]
  and_intros
  all_goals
    intros
    repeat' split
  all_goals rfl

theorem opcodeMap_encodes {r : OpRow} (h : r ∈ opcodeMap) : r.Encodes := by
  simp only [opcodeMap, List.mem_append] at h
  rcases h with ((((h | h) | h) | h) | h) | h
  · exact intOps_encode r h
  · exact floatOps_encode r h
  · exact laneOps_encode r h
  · exact controlOps_encode r h
  · exact memoryOps_encode r h
  · exact engineOps_encode r h

/-- The row of an opcode is a row of the map, and it is the row of no other opcode. -/
theorem opRow_spec {op : BitVec 7} {r : OpRow} (h : opRow op.toNat = some r) : r.Encodes ∧ BitVec.ofNat 7 r.op = op := by
  have e : r.op = op.toNat := eq_of_beq (List.find?_some (p := fun r : OpRow => r.op == op.toNat) h)
  exact ⟨opcodeMap_encodes (List.mem_of_find?_eq_some h), by rw [e, BitVec.ofNat_toNat, BitVec.setWidth_eq]⟩

/-! ### The word of what a word decodes to -/

theorem LongForm.encode_read {form : LongForm} {w : BitVec 64} (hf : form.Encodes (fieldAt w 2 7)) (hl : fieldAt w 0 2 = 3#2) :
    encode (form.read w) = some (8, w.toNat) := by
  cases form with
  | l mk => exact (hf _).trans (by rw [L64.toWord_ofWord w hl])
  | k mk => exact (hf _).trans (by rw [K64.toWord_ofWord w hl])
  | m mk => exact (hf _).trans (by rw [M64.toWord_ofWord w hl])

/-- What the decoder takes for an instruction without register fields is a listed one, and its register fields are zero. -/
theorem bare32_eq_ok {rows : List (BitVec 5 × Instr)} {f : S32} {i : Instr} (h : bare32 rows f = .ok i) :
    (f.mod, i) ∈ rows ∧ f = ⟨f.mod, 0, 0, 0⟩ := by
  unfold bare32 at h
  split at h
  · next hz =>
    split at h
    · next j hj =>
      cases h
      obtain ⟨⟨hb, ha⟩, hd⟩ := by simpa using hz
      obtain ⟨l₁, l₂, rfl, -⟩ := List.lookup_eq_some_iff.1 hj
      refine ⟨by simp, ?_⟩
      cases f
      simp_all
    · cases h
  · cases h

theorem ShortForm.encode_read {form : ShortForm} {w : BitVec 32} {i : Instr} (hf : form.Encodes (fieldAt w 2 7))
    (hl : fieldAt w 0 2 = 1#2) (hi : form.read w = .ok i) : encode i = some (4, w.toNat) := by
  cases form with
  | absent => cases hi
  | s mk => cases hi; exact (hf _).trans (by rw [S32.toWord_ofWord w hl])
  | bare rows =>
    obtain ⟨hm, hz⟩ := bare32_eq_ok hi
    exact (hf _ hm).trans (by rw [← hz, S32.toWord_ofWord w hl])
  | i mk => cases hi; exact (hf _).trans (by rw [I32.toWord_ofWord w hl])
  | j mk => cases hi; exact (hf _).trans (by rw [J32.toWord_ofWord w hl])

theorem compactCodes_encode {k : Nat} {mk : C16 → Instr} (h : compactCodes[k]? = some mk) (f : C16) :
    encode (mk f) = some (2, (f.toWord (BitVec.ofNat 4 k)).toNat) := by
  have hk : k < 16 := (List.getElem?_eq_some_iff.1 h).1
  interval_cases k <;> cases h <;> rfl

theorem encode_of_decode64 {w : BitVec 64} {i : Instr} (hl : fieldAt w 0 2 = 3#2) (hi : decode64 w = .ok i)
    (hr : ∀ op long, i ≠ .reservedOpcode op long) : encode i = some (8, w.toNat) := by
  cases h : opRow (fieldAt w 2 7).toNat with
  | none =>
    rw [decode64_of_reserved h] at hi
    cases hi
    exact absurd rfl (hr _ _)
  | some r =>
    rw [decode64_of_row h] at hi
    cases hi
    obtain ⟨⟨hf, -⟩, e⟩ := opRow_spec h
    exact LongForm.encode_read (e ▸ hf) hl

theorem encode_of_decode32 {w : BitVec 32} {i : Instr} (hl : fieldAt w 0 2 = 1#2) (hi : decode32 w = .ok i)
    (hr : ∀ op long, i ≠ .reservedOpcode op long) : encode i = some (4, w.toNat) := by
  cases h : opRow (fieldAt w 2 7).toNat with
  | none =>
    rw [decode32_of_reserved h] at hi
    cases hi
    exact absurd rfl (hr _ _)
  | some r =>
    rw [decode32_of_row h] at hi
    obtain ⟨⟨-, hf⟩, e⟩ := opRow_spec h
    exact ShortForm.encode_read (e ▸ hf) hl hi

theorem encode_of_decode16 {w : BitVec 16} {i : Instr} (hl : fieldAt w 0 1 = 0#1) (hi : decode16 w = .ok i) :
    encode i = some (2, w.toNat) := by
  unfold decode16 at hi
  split at hi
  · cases hi
  · next hb =>
    split at hi
    · next mk hm =>
      cases hi
      have h15 : fieldAt w 15 1 = 0#1 := by
        rcases BitVec.eq_zero_or_eq_one (fieldAt w 15 1) with e | e
        · exact e
        · simp [bit15_eq, e] at hb
      rw [bits_toNat] at hm
      have e := compactCodes_encode hm (C16.ofWord w)
      rwa [BitVec.ofNat_toNat, BitVec.setWidth_eq, C16.toWord_ofWord w hl h15] at e
    · cases hi

/-! ### Bytes that decode -/

/-- The low bits of the word at the start of some bytes. -/
theorem low_of_bytes {n k : Nat} (hk : k ≤ n) (x c : Nat) (h : x % 2 ^ k = c) :
    fieldAt (BitVec.ofNat n x) 0 k = BitVec.ofNat k c := by
  refine low_field_eq _ k c ?_
  rw [BitVec.toNat_ofNat, Nat.mod_mod_of_dvd _ (Nat.pow_dvd_pow 2 hk), h]

/-- What decodes is well-formed, has its first half-word's length, and its word is those bytes. -/
theorem decode_spec {bs : List Byte} {i : Instr} {n : Nat} (h : decode bs = .ok (i, n)) :
    i.wellFormed = true ∧ n = instrLength (ofBytes bs % 65536) ∧
      ((∀ op long, i ≠ .reservedOpcode op long) → encode i = some (n, ofBytes bs % 256 ^ n)) := by
  have cases4 : ofBytes bs % 2 = 0 ∨ ofBytes bs % 4 = 1 ∨ ofBytes bs % 4 = 3 := by omega
  rcases cases4 with low | low | low
  · rw [decode_of_even low] at h
    obtain ⟨hd, hw, rfl⟩ := checked_eq_ok h
    exact ⟨hw, (instrLength_of_even low).symm, fun _ => encode_of_decode16 (low_of_bytes (by decide) _ 0 low) hd⟩
  · rw [decode_of_one low] at h
    obtain ⟨hd, hw, rfl⟩ := checked_eq_ok h
    exact ⟨hw, (instrLength_of_one low).symm, fun hr => encode_of_decode32 (low_of_bytes (by decide) _ 1 low) hd hr⟩
  · rw [decode_of_three low] at h
    obtain ⟨hd, hw, rfl⟩ := checked_eq_ok h
    exact ⟨hw, (instrLength_of_three low).symm, fun hr => encode_of_decode64 (low_of_bytes (by decide) _ 3 low) hd hr⟩

/-- Settles O53: every row of the opcode map encodes what it reads, so that the bytes are the word. -/
theorem decodedInstructionsAreTheirWords : Obligations.DecodedInstructionsAreTheirWords :=
  fun _ _ _ h => decode_spec h

/-- Settles O51: each example's bytes are evaluated. -/
theorem wordsOfTheSpecDecode : Obligations.WordsOfTheSpecDecode := by
  unfold Obligations.WordsOfTheSpecDecode
  and_intros <;> rfl

end Sys2Proof
end

section
/-! ## A step runs what it has fetched (R213, R214, R227) -/

namespace Sys2Proof.Machine

open Claims

theorem step_of_decoded {s : State} {i : Issue} {x : Instr × State} (hi : s.issue = some i) (h : s.fetchDecode i = .ok x) :
    step s = exec x.1 x.2 := by
  simp only [step, State.plan, hi, h]

theorem step_of_refused {s t : State} {i : Issue} (hi : s.issue = some i) (h : s.fetchDecode i = .error t) :
    step s = .next t := by
  simp only [step, State.plan, hi, h]

/-- A word that its context has not kept in another form is the word that runs (R214). -/
theorem keptWord_fst {u : State} {ctx va w : Nat}
    (h : ∀ k, u.sched.kept.find? (fun k => k.ctx == ctx && k.va == va) = some k → k.word = w) :
    (u.keptWord ctx va w).1 = w := by
  unfold State.keptWord
  split
  · rfl
  · next k hk => simp [h k hk]

theorem instrLength_cases (h : Nat) : instrLength h = 2 ∨ instrLength h = 4 ∨ instrLength h = 8 := by
  unfold instrLength
  split_ifs <;> simp

/-- A fetched word fills at most its own bytes. -/
theorem fetched_word {i : Issue} {w : Nat} (h : w < 256 ^ instrLength (w % 65536)) : (fetched i w).word = w := by
  have e : (256 : Nat) ^ instrLength (w % 65536) = 2 ^ (8 * instrLength (w % 65536)) := by rw [Nat.pow_mul]
  exact Nat.mod_eq_of_lt (e ▸ h)

/-- A fetch that finds a word puts it, with its length, in the issue group. -/
theorem fetch_of_fetches {s : State} {i : Issue} {w : Nat} {u : State} (h : Fetches s i w u) :
    s.fetch i = .ok (fetched i w, running s u i w) := by
  obtain ⟨-, ⟨half, v, first, all, lt, low⟩, kept⟩ := h
  rw [← low] at all lt
  have found : (if instrLength (w % 65536) == 2 then .ok (half, v)
      else s.fetchBytes i.ref i.pc.toNat (instrLength (w % 65536))) = .ok (toBytes (instrLength (w % 65536)) w, u) := by
    split
    · next h2 => rw [← all, eq_of_beq h2, first]
    · exact all
  have word : ofBytes (toBytes (instrLength (w % 65536)) w) = w := by rw [ofBytes_toBytes, Nat.mod_eq_of_lt lt]
  simp only [State.fetch, first, ← low, found, word, keptWord_fst kept]
  rfl

theorem fetches_lt {s : State} {i : Issue} {w : Nat} {u : State} (h : Fetches s i w u) : w < 256 ^ instrLength (w % 65536) := by
  obtain ⟨-, ⟨half, v, -, -, lt, low⟩, -⟩ := h
  exact low ▸ lt

/-- A fetched word takes 8 bytes at most, so that its bytes give it back. -/
theorem ofBytes_of_fetches {s : State} {i : Issue} {w : Nat} {u : State} (h : Fetches s i w u) : ofBytes (toBytes 8 w) = w := by
  have le : 256 ^ instrLength (w % 65536) ≤ 256 ^ 8 := by
    rcases instrLength_cases (w % 65536) with e | e | e <;> rw [e] <;> decide
  rw [ofBytes_toBytes, Nat.mod_eq_of_lt (lt_of_lt_of_le (fetches_lt h) le)]

/-- A step whose fetch finds the word of an instruction executes it. -/
theorem step_of_fetches {s : State} {i : Issue} {w : Nat} {u : State} {x : Instr × Nat} (h : Fetches s i w u)
    (hd : decode (toBytes 8 w) = .ok x) : step s = exec x.1 (running s u i w) := by
  refine step_of_decoded (x := (x.1, running s u i w)) h.1 ?_
  simp only [State.fetchDecode, fetch_of_fetches h, fetched_word (fetches_lt h), hd]

/-- A step whose fetch finds a word that is no instruction raises ILLEGAL with the decoder's cause (R227). -/
theorem step_of_fetches_illegal {s : State} {i : Issue} {w : Nat} {u : State} {c : IllegalCause} (h : Fetches s i w u)
    (hd : decode (toBytes 8 w) = .error c) :
    step s = .next ((running s u i w).failAll (fetched i w) i.part (0, c.code)) := by
  refine step_of_refused h.1 ?_
  simp only [State.fetchDecode, fetch_of_fetches h, fetched_word (fetches_lt h), hd]
  rfl

theorem step_of_failed_fetch {s : State} {i : Issue} {e : Cause × Nat} (hi : s.issue = some i)
    (h : s.fetchBytes i.ref i.pc.toNat 2 = .error e) :
    step s = .next (s.fail { i with len := 0, word := 0 } (fetchFailure i.part e.1 e.2)) := by
  refine step_of_refused hi ?_
  simp only [State.fetchDecode, State.fetch, h]

end Sys2Proof.Machine
end

section
namespace Sys2Proof

open Machine

/-- Settles O56: a step goes by what its fetch finds and by what that decodes to. -/
theorem aStepRunsTheDecodedInstruction : Obligations.AStepRunsTheDecodedInstruction :=
  ⟨fun _ _ _ _ _ h hd => step_of_fetches h hd, fun _ _ _ _ _ h hd => step_of_fetches_illegal h hd,
    fun _ _ _ hi h => step_of_failed_fetch hi h⟩

end Sys2Proof
end

section
/-! ## Reserved and absent encodings (R215, R229) -/

namespace Sys2Proof

open Claims

theorem opRow_of_reserved {op : Nat} (h : op ∈ reservedList) : opRow op = none :=
  (by decide : ∀ op ∈ reservedList, opRow op = none) op h

/-- The map gives an opcode no 32-bit form. -/
def lacksShort (op : Nat) : Bool :=
  match opRow op with
  | some ⟨_, _, .absent⟩ => true
  | _ => false

theorem opRow_of_longOnly {op : Nat} (h : op ∈ longOnly) : ∃ r, opRow op = some r ∧ r.short = .absent := by
  have lacks : lacksShort op = true := (by decide : ∀ op ∈ longOnly, lacksShort op = true) op h
  unfold lacksShort at lacks
  split at lacks
  · next hr => exact ⟨_, hr, rfl⟩
  · cases lacks

/-- The opcode of a word of at least 9 bits (R216, R219). -/
theorem op_of_ofNat {n : Nat} (hn : 9 ≤ n) (w : Nat) : fieldAt (BitVec.ofNat n w) 2 7 = BitVec.ofNat 7 (w / 4) := by
  refine BitVec.eq_of_toNat_eq ?_
  obtain ⟨k, rfl⟩ := Nat.exists_eq_add_of_le hn
  rw [toNat_fieldAt, BitVec.toNat_ofNat, BitVec.toNat_ofNat, show 2 ^ (9 + k) = 2 ^ 2 * 2 ^ (7 + k) by ring,
    Nat.mod_mul_right_div_self, Nat.mod_mod_of_dvd _ (Nat.pow_dvd_pow 2 (Nat.le_add_right 7 k))]
  norm_num

theorem opRow_of_ofNat {n : Nat} (hn : 9 ≤ n) (w : Nat) :
    opRow (fieldAt (BitVec.ofNat n w) 2 7).toNat = opRow (w / 4 % 128) := by
  rw [op_of_ofNat hn, BitVec.toNat_ofNat]

theorem decode32_reserved {w : Nat} (hop : w / 4 % 128 ∈ reservedList) :
    decode32 (BitVec.ofNat 32 w) = .ok (.reservedOpcode (BitVec.ofNat 7 (w / 4)) false) := by
  rw [decode32_of_reserved ((opRow_of_ofNat (by decide) w).trans (opRow_of_reserved hop)), op_of_ofNat (by decide)]

theorem decode64_reserved {w : Nat} (hop : w / 4 % 128 ∈ reservedList) :
    decode64 (BitVec.ofNat 64 w) = .ok (.reservedOpcode (BitVec.ofNat 7 (w / 4)) true) := by
  rw [decode64_of_reserved ((opRow_of_ofNat (by decide) w).trans (opRow_of_reserved hop)), op_of_ofNat (by decide)]

theorem decode32_longOnly {w : Nat} (hop : w / 4 % 128 ∈ longOnly) : decode32 (BitVec.ofNat 32 w) = .error .form := by
  obtain ⟨r, hr, hs⟩ := opRow_of_longOnly hop
  rw [decode32_of_row ((opRow_of_ofNat (by decide) w).trans hr), hs, ShortForm.read]

theorem reservedOpcode_wellFormed (op : BitVec 7) (long : Bool) : (Instr.reservedOpcode op long).wellFormed = true := rfl

/-- Bytes whose opcode is reserved decode as such, in both lengths (R229). -/
theorem decode_reserved {bs : List Byte} (h : ofBytes bs % 2 = 1) (hop : ofBytes bs / 4 % 128 ∈ reservedList) :
    decode bs = .ok (.reservedOpcode (BitVec.ofNat 7 (ofBytes bs / 4)) (ofBytes bs % 4 == 3),
      instrLength (ofBytes bs % 65536)) := by
  have long : ofBytes bs % 4 = 1 ∨ ofBytes bs % 4 = 3 := by omega
  rcases long with low | low
  · rw [decode_of_one low, decode32_reserved hop, instrLength_of_one low, low]
    exact checked_of_wellFormed 4 (reservedOpcode_wellFormed _ _)
  · rw [decode_of_three low, decode64_reserved hop, instrLength_of_three low, low]
    exact checked_of_wellFormed 8 (reservedOpcode_wellFormed _ _)

theorem decode_word32_reserved (w : BitVec 32) (rest : List Byte) (h : w.toNat % 4 = 1)
    (hop : w.toNat / 4 % 128 ∈ reservedList) :
    decode (toBytes 4 w.toNat ++ rest) = .ok (.reservedOpcode (BitVec.ofNat 7 (w.toNat / 4)) false, 4) := by
  have read := decode32_reserved hop
  rw [BitVec.ofNat_toNat, BitVec.setWidth_eq] at read
  rw [decode_word32 w rest h, read, checked_of_wellFormed 4 (reservedOpcode_wellFormed _ _)]

theorem decode_word64_reserved (w : BitVec 64) (rest : List Byte) (h : w.toNat % 4 = 3)
    (hop : w.toNat / 4 % 128 ∈ reservedList) :
    decode (toBytes 8 w.toNat ++ rest) = .ok (.reservedOpcode (BitVec.ofNat 7 (w.toNat / 4)) true, 8) := by
  have read := decode64_reserved hop
  rw [BitVec.ofNat_toNat, BitVec.setWidth_eq] at read
  rw [decode_word64 w rest h, read, checked_of_wellFormed 8 (reservedOpcode_wellFormed _ _)]

theorem decode_word32_longOnly (w : BitVec 32) (rest : List Byte) (h : w.toNat % 4 = 1) (hop : w.toNat / 4 % 128 ∈ longOnly) :
    decode (toBytes 4 w.toNat ++ rest) = .error .form := by
  have read := decode32_longOnly hop
  rw [BitVec.ofNat_toNat, BitVec.setWidth_eq] at read
  rw [decode_word32 w rest h, read, checked]

theorem decode_word16_bit15 (w : BitVec 16) (rest : List Byte) (h : w.toNat % 2 = 0) (hb : 0x8000 ≤ w.toNat) :
    decode (toBytes 2 w.toNat ++ rest) = .error .compact := by
  have bit15 : fieldAt w 15 1 = 1#1 := by
    refine BitVec.eq_of_toNat_eq ?_
    have lt := w.isLt
    rw [toNat_fieldAt, BitVec.toNat_ofNat]
    omega
  rw [decode_word16 w rest h, decode16_of_bit15 bit15, checked]

end Sys2Proof

namespace Sys2Proof.Machine

open Claims

/-- A step that fetches a reserved opcode runs it (R229). -/
theorem step_of_fetches_reserved {s : State} {i : Issue} {w : Nat} {u : State} (h : Fetches s i w u) (odd : w % 2 = 1)
    (hop : w / 4 % 128 ∈ reservedList) :
    step s = exec (.reservedOpcode (BitVec.ofNat 7 (w / 4)) (w % 4 == 3)) (running s u i w) := by
  have e := ofBytes_of_fetches h
  have hd := decode_reserved (bs := toBytes 8 w) (by rw [e]; exact odd) (by rw [e]; exact hop)
  rw [e] at hd
  exact step_of_fetches h hd

/-- A step that fetches a 32-bit word whose opcode has no such form raises ILLEGAL (R229). -/
theorem step_of_fetches_longOnly {s : State} {i : Issue} {w : Nat} {u : State} (h : Fetches s i w u) (low : w % 4 = 1)
    (hop : w / 4 % 128 ∈ longOnly) :
    step s = .next ((running s u i w).failAll (fetched i w) i.part (0, 2)) := by
  have e := ofBytes_of_fetches h
  have hd : decode (toBytes 8 w) = .error .form := by
    rw [decode_of_one (by rw [e]; exact low), e, decode32_longOnly hop, checked]
  exact step_of_fetches_illegal h hd

end Sys2Proof.Machine
end

section
/-! ## A trap is raised, and nothing else happens (R294, R296) -/

open Sys2Proof Sys2Proof.Claims

namespace Sys2Proof.Machine

/-- What a sub-core loses of its run when its slot fails: the lock of its latches, and no crew (R15, R209). -/
def Sub.unlocked (b : Sub) (slot : Nat) : Sub := if (b.locked.map (fun x => x.slot)) == some slot then b.breakRun else b

theorem Sub.unlocked_same (b : Sub) (slot : Nat) :
    (b.unlocked slot).crews = b.crews ∧ (b.unlocked slot).keep = b.keep ∧ (b.unlocked slot).blocks = b.blocks := by
  unfold Sub.unlocked
  split
  · exact ⟨rfl, rfl, rfl⟩
  · exact ⟨rfl, rfl, rfl⟩

theorem abortLanes_of_no_gambit {s : State} {r : CrewRef} (lanes : Mask) (code : Nat) (h : (s.crew r).gambit = none) :
    s.abortLanes r lanes code = s := by
  simp only [State.abortLanes, h]

/-- Outside a gambit a failure that is no page fault alone is a trap of the whole crew (R294). -/
theorem failWith_of_no_gambit {s : State} {i : Issue} {fs : List LaneTrap} (after moves : Bool)
    (hg : (s.crew i.ref).gambit = none) (he : fs ≠ []) (hp : ∃ f ∈ fs, f.cls ≠ 2) :
    s.failWith i fs after moves =
      (((s.modSub i.core i.sub (fun b => b.unlocked i.slot)).drop).raiseTrap i.ref (trapOf i fs after 0)).issued i moves := by
  have out : (s.crew i.ref).inGambit = 0 := by rw [Crew.inGambit, hg]; rfl
  have rest : fs.filter (fun f => !(0 : Mask).getLsbD f.lane) = fs := List.filter_eq_self.2 fun f _ => by simp
  have notFault : fs.all (fun f => f.cls == 2) = false := by simpa using hp
  have some_ : fs.isEmpty = false := by simpa using he
  simp only [State.failWith, out, abortLanes_of_no_gambit _ _ hg, rest, some_, notFault]
  rfl

/-- The lowest class of failures that all have one class is that class (R294). -/
theorem foldl_min_cls {c : Nat} (fs : List LaneTrap) (m : Nat) (hm : c ≤ m) (h : ∀ f ∈ fs, f.cls = c) (he : fs ≠ []) :
    fs.foldl (fun m f => min m f.cls) m = c := by
  induction fs generalizing m with
  | nil => exact absurd rfl he
  | cons f fs ih =>
    obtain ⟨hf, hfs⟩ := List.forall_mem_cons.1 h
    rw [List.foldl_cons, hf, Nat.min_eq_right hm]
    cases fs with
    | nil => rfl
    | cons g gs => exact ih c le_rfl hfs (List.cons_ne_nil g gs)

theorem trapOf_cls {i : Issue} {fs : List LaneTrap} {c : Nat} (after : Bool) (he : fs ≠ []) (h : ∀ f ∈ fs, f.cls = c)
    (h2 : c ≠ 2) (h13 : c < 13) : (trapOf i fs after 0).cls = c := by
  have all : fs.filter (fun f => f.cls != 2) = fs := List.filter_eq_self.2 fun f hf => by simp [h f hf, h2]
  have low := foldl_min_cls fs 13 h13.le h he
  simp only [trapOf, all, low]
  exact if_neg (by simp; omega)

theorem issued_crew (s : State) (i : Issue) (moves : Bool) (h : s.hasCrew i.ref = true) :
    (s.issued i moves).crew i.ref = { (s.crew i.ref).turned i.part moves with lastIssue := s.cycle } := by
  obtain ⟨-, h2, -⟩ := (hasCrew_iff s i.ref).1 h
  rw [State.issued, show s.modSub i.core i.sub = s.modSub i.ref.core i.ref.sub from rfl, crew_modSub _ _ _ h]
  exact modifyAt_getD_same _ _ _ _ h2

theorem issued_sameElse (s : State) (i : Issue) (moves : Bool) (h : s.hasCrew i.ref = true) :
    SameElse s (s.issued i moves) i.ref :=
  SameElse.modSub s i.ref _ (fun _ hk => modifyAt_getD_ne _ _ _ _ _ hk) rfl rfl h

/-- A sub-core that loses its lock keeps its crews as they are. -/
theorem unlocked_spec (s : State) (r : CrewRef) (slot : Nat) (h : s.hasCrew r = true) :
    let u := s.modSub r.core r.sub (fun b => b.unlocked slot)
    SameElse s u r ∧ u.hasCrew r = true ∧ u.crew r = s.crew r := by
  have crews := fun b : Sub => (b.unlocked_same slot).1
  exact ⟨SameElse.modSub s r _ (fun k _ => congrArg (fun l : List Crew => l.getD k Crew.idle) (crews _))
    (Sub.unlocked_same _ _).2.1 (Sub.unlocked_same _ _).2.2 h, modSub_hasCrew s r _ h (crews _),
    crew_modSub_same s _ _ _ r crews⟩

/-- A trap raised outside a handler stands in its crew, and the crew is otherwise as it was (R296, R302). -/
theorem raiseTrap_spec {s : State} {r : CrewRef} (p : PendingTrap) (h : s.hasCrew r = true) (hh : (s.crew r).handling = none) :
    SameElse s (s.raiseTrap r p) r ∧ (s.raiseTrap r p).hasCrew r = true ∧
      (s.raiseTrap r p).crew r = { s.crew r with pendingTrap := some p } := by
  obtain ⟨-, -, h3, h4⟩ := (hasCrew_iff s r).1 h
  have calm : ¬ ((s.crew r).handling.isSome = true) := by simp [hh]
  refine ⟨SameElse.modCrew s r _ h, modCrew_hasCrew _ _ _ h ?_ ?_, ?_⟩
  · rw [if_neg calm]; exact h3
  · rw [if_neg calm]; exact h4
  · rw [State.raiseTrap, crew_modCrew _ _ _ h, if_neg calm]

/-- Failures of one class, in a crew outside gambits and handlers, raise that class in their lanes and do nothing else. -/
theorem failWith_raises {s : State} {i : Issue} {fs : List LaneTrap} {c : Nat} (after moves : Bool) (hc : s.hasCrew i.ref = true)
    (hg : (s.crew i.ref).gambit = none) (hh : (s.crew i.ref).handling = none) (he : fs ≠ []) (h : ∀ f ∈ fs, f.cls = c)
    (h2 : c ≠ 2) (h13 : c < 13) : Raised s (s.failWith i fs after moves) i c fs after := by
  obtain ⟨f, hf⟩ := List.exists_mem_of_ne_nil fs he
  rw [failWith_of_no_gambit after moves hg he ⟨f, hf, by rw [h f hf]; exact h2⟩]
  obtain ⟨same1, has1, crew1⟩ := unlocked_spec s i.ref i.slot hc
  generalize hu : (s.modSub i.core i.sub (fun b => b.unlocked i.slot)).drop = u
  have same : SameElse s u i.ref := hu ▸ same1.trans (.drop _ _)
  have has : u.hasCrew i.ref = true := hu ▸ has1
  have crew : u.crew i.ref = s.crew i.ref := hu ▸ crew1
  have idle : u.issue = none := hu ▸ rfl
  obtain ⟨same2, has2, crew2⟩ := raiseTrap_spec (trapOf i fs after 0) has (crew ▸ hh)
  obtain ⟨tn, rn, turned⟩ := turned_fields { s.crew i.ref with pendingTrap := some (trapOf i fs after 0) } i.part moves
  have final := issued_crew (u.raiseTrap i.ref (trapOf i fs after 0)) i moves has2
  rw [crew2, crew, turned] at final
  refine ⟨idle, (same.trans same2).trans (issued_sameElse _ i moves has2), ?_, ?_, ?_, ?_⟩
  all_goals rw [final]
  · exact ⟨fun _ => rfl, fun _ _ => rfl⟩
  · exact fun _ _ => rfl
  · exact fun _ _ => rfl
  · exact ⟨_, rfl, trapOf_cls after he h h2 h13, rfl, rfl, rfl, rfl, rfl, rfl, rfl, rfl⟩

theorem Mask.lanes_ne_nil {m : Mask} (h : m ≠ 0) : m.lanes ≠ [] := by
  intro e
  refine h (BitVec.eq_of_getLsbD_eq fun l hl => ?_)
  refine (Bool.eq_false_iff.2 fun hb => ?_).trans BitVec.getLsbD_zero.symm
  exact List.not_mem_nil (e ▸ (Mask.mem_lanes m l).2 ⟨hl, hb⟩)

/-- A reserved opcode raises ILLEGAL with cause OPCODE in every lane of its group (R229). -/
theorem execReservedOpcode_raises {s : State} {i : Issue} (op : BitVec 7) (long : Bool) (hi : s.issue = some i)
    (hc : s.hasCrew i.ref = true) (hg : (s.crew i.ref).gambit = none) (hh : (s.crew i.ref).handling = none) (hp : i.part ≠ 0) :
    ∃ t, execReservedOpcode op long s = .next t ∧ Raised s t i 0 (sameCause i.part (0, 1)) false := by
  refine ⟨s.failAll i i.part (0, 1), by simp only [execReservedOpcode, hi], ?_⟩
  refine failWith_raises false false hc hg hh ?_ ?_ (by decide) (by decide)
  · simpa [sameCause] using Mask.lanes_ne_nil hp
  · simp [sameCause]

end Sys2Proof.Machine
end

section
namespace Sys2Proof

open Machine

/-- Settles O54: the opcode map gives a reserved opcode no row and some rows no 32-bit form; a step runs or refuses what its
fetch decodes to, and a reserved opcode that runs raises its cause alone. -/
theorem reservedEncodingsTrap : Obligations.ReservedEncodingsTrap :=
  ⟨decode_word32_reserved, decode_word64_reserved, decode_word32_longOnly, decode_word16_bit15,
    fun _ _ _ _ h => step_of_fetches_reserved h, fun _ _ _ _ h => step_of_fetches_longOnly h,
    fun op long _ _ => execReservedOpcode_raises op long⟩

end Sys2Proof
end

section
/-! ## Registers written before an instruction retires (R192, R194)

An instruction that writes one register or a pair writes them first; its crew meanwhile stands where it is. -/

open Sys2Proof Sys2Proof.Claims

namespace Sys2Proof.Machine

/-- A crew that keeps whose it is, and whose threads keep their PCs, predicates and run states. -/
structure StandsStill (w v : Crew) : Prop where
  crew : CrewSame w v
  preds : SamePreds w v
  pc : ∀ l, l < 32 → (v.thread l).pc = (w.thread l).pc
  run : ∀ l, l < 32 → (v.thread l).run = (w.thread l).run

theorem StandsStill.refl (w : Crew) : StandsStill w w := ⟨.refl w, fun _ _ => rfl, fun _ _ => rfl, fun _ _ => rfl⟩

theorem StandsStill.trans {w v u : Crew} (h : StandsStill w v) (k : StandsStill v u) : StandsStill w u :=
  ⟨h.crew.trans k.crew, samePreds_trans h.preds k.preds, fun l hl => (k.pc l hl).trans (h.pc l hl),
    fun l hl => (k.run l hl).trans (h.run l hl)⟩

theorem RegWritten.standsStill {w v : Crew} {k : Nat} {m : Mask} {c : Content} {taint : Mask} (h : RegWritten w v k m c taint) :
    StandsStill w v := ⟨h.same, fun l _ => h.preds l, fun l _ => h.pc l, fun l _ => h.run l⟩

theorem SlotRaised.standsStill {w v : Crew} (h : SlotRaised w v) : StandsStill w v :=
  ⟨h.crewSame, h.samePreds, fun l _ => h.thread l Thread.pc, fun l _ => h.thread l Thread.run⟩

/-- Of a crew slot's registers those of a list have taken a value in the lanes of a mask (selectors of 64 and above discard
theirs), and its threads stand where they stood. -/
structure Writes (s u : State) (r : CrewRef) (dst : List Nat) (m : Mask) (val : Nat → Content) : Prop where
  elsewhere : SameElse s u r
  slot : u.hasCrew r = true
  issue : u.issue = s.issue
  crew : StandsStill (s.crew r) (u.crew r)
  clockHi : ∀ l, l < 32 → ((u.crew r).thread l).clockHi = ((s.crew r).thread l).clockHi
  others : ∀ k, k ∉ dst → (u.crew r).reg k = (s.crew r).reg k
  content : ∀ k, k ∈ dst → k < 64 → ∀ l, l < 32 → lane ((u.crew r).reg k).content l =
    if m.getLsbD l then lane (val k) l else lane ((s.crew r).reg k).content l

theorem Writes.nil {s : State} {r : CrewRef} (m : Mask) (val : Nat → Content) (h : s.hasCrew r = true) :
    Writes s s r [] m val :=
  ⟨.refl s r, h, rfl, .refl _, fun _ _ => rfl, fun _ _ => rfl, fun _ hk => absurd hk List.not_mem_nil⟩

/-- With no lane effective nothing is written. -/
theorem Writes.none {s : State} {r : CrewRef} (dst : List Nat) (val : Nat → Content) (h : s.hasCrew r = true) :
    Writes s s r dst 0 val :=
  ⟨.refl s r, h, rfl, .refl _, fun _ _ => rfl, fun _ _ => rfl, fun _ _ _ _ _ => by simp⟩

/-- One more register is written. -/
theorem Writes.writeReg {s u : State} {r : CrewRef} {dst : List Nat} {m : Mask} {val : Nat → Content}
    (h : Writes s u r dst m val) {k : Nat} (hk : k < 64) (new : k ∉ dst) (taint : Mask) (back : Bool) :
    Writes s (u.writeReg r k m (val k) taint back) r (dst ++ [k]) m val := by
  obtain ⟨same, written, -⟩ := writeReg_spec u r k m (val k) taint back h.slot hk
  refine ⟨h.elsewhere.trans same, writeReg_hasCrew u r k m _ taint back h.slot hk, h.issue, h.crew.trans written.standsStill,
    fun l hl => (written.clockHi l).trans (h.clockHi l hl), fun j hj => ?_, fun j hj hj64 l hl => ?_⟩
  · simp only [List.mem_append, List.mem_singleton, not_or] at hj
    exact (written.others j hj.2).trans (h.others j hj.1)
  · by_cases e : j = k
    · subst e
      rw [written.content, lane_mergeLanes _ _ _ _ hl, h.others j new]
    · rw [written.others j e]
      exact h.content j (by simpa [e] using hj) hj64 l hl

/-- A selector that names no register discards its value (R223). -/
theorem Writes.discard {s u : State} {r : CrewRef} {dst : List Nat} {m : Mask} {val : Nat → Content}
    (h : Writes s u r dst m val) {k : Nat} (hk : 64 ≤ k) : Writes s u r (dst ++ [k]) m val := by
  refine ⟨h.elsewhere, h.slot, h.issue, h.crew, h.clockHi, fun j hj => h.others j fun hd => hj (List.mem_append_left _ hd),
    fun j hj hj64 => h.content j ?_ hj64⟩
  simpa [show j ≠ k by omega] using hj

theorem Writes.writeDst {s u : State} {r : CrewRef} {dst : List Nat} {m : Mask} {val : Nat → Content}
    (h : Writes s u r dst m val) {k : Nat} (new : k ∉ dst) (taint : Mask) (back : Bool) :
    Writes s (u.writeDst r k m (val k) taint back) r (dst ++ [k]) m val := by
  unfold State.writeDst
  split
  · next hk => exact h.writeReg hk new taint back
  · next hk => exact h.discard (by omega)

end Sys2Proof.Machine
end

section
/-! ## BR, CALL, JR and RET (R214, R286, R287) -/

open Sys2Proof Sys2Proof.Claims

namespace Sys2Proof.Machine

/-! ### Control moves -/

theorem getLsbD_without (m n : Mask) (l : Nat) : (m &&& ~~~ n).getLsbD l = (m.getLsbD l && !n.getLsbD l) := by
  rw [BitVec.getLsbD_and, BitVec.getLsbD_not]
  by_cases hl : l < 32
  · simp [hl]
  · simp [BitVec.getLsbD_of_ge m l (by omega)]

/-- The crew of an issue group whose lanes of a mask go to their targets, the others past the instruction (R287). -/
def Crew.jumped (w : Crew) (i : Issue) (part : Mask) (target : Nat → Addr) : Crew :=
  (w.advance (i.part &&& ~~~ part) i.len).modLanes part (fun l t => { t with pc := target l })

theorem Crew.jumped_thread (w : Crew) (i : Issue) (part : Mask) (target : Nat → Addr) (l : Nat) (h : l < w.threads.length) :
    (w.jumped i part target).thread l = { w.thread l with
      pc := if part.getLsbD l then target l
        else if i.part.getLsbD l then (w.thread l).pc + BitVec.ofNat 64 i.len else (w.thread l).pc } := by
  rw [Crew.jumped, thread_modLanes _ _ _ _ (by simpa [Crew.advance] using h), advance_thread _ _ _ _ h, getLsbD_without]
  cases part.getLsbD l <;> cases i.part.getLsbD l <;> rfl

/-- A transfer after which the crew's slots alone rise, or its next issue is put off. -/
theorem transferred_of_followed {s t u : State} {i : Issue} {part : Mask} {target : Nat → Addr}
    (h : Transferred s t i part target) (issue : u.issue = t.issue) (elsewhere : SameElse t u i.ref) (crew : StandsStill (t.crew i.ref) (u.crew i.ref)) :
    Transferred s u i part target :=
  ⟨issue.trans h.issue, h.elsewhere.trans elsewhere, h.crew.trans crew.crew, samePreds_trans h.preds crew.preds,
    fun l hl => (crew.pc l hl).trans (h.pc l hl), fun l hl => (crew.run l hl).trans (h.run l hl)⟩

/-- A transfer before which registers were written. -/
theorem transferred_of_preceded {s u t : State} {i : Issue} {part : Mask} {target : Nat → Addr}
    (h : Transferred u t i part target) (elsewhere : SameElse s u i.ref) (crew : StandsStill (s.crew i.ref) (u.crew i.ref)) : Transferred s t i part target :=
  ⟨h.issue, elsewhere.trans h.elsewhere, crew.crew.trans h.crew, samePreds_trans crew.preds h.preds,
    fun l hl => by rw [h.pc l hl, crew.pc l hl], fun l hl => (h.run l hl).trans (crew.run l hl)⟩

theorem returnsAfter_spec {s : State} {r : CrewRef} (n : Nat) (h : s.hasCrew r = true) :
    SameElse s (s.returnsAfter r n) r ∧ (s.returnsAfter r n).hasCrew r = true ∧
      (s.returnsAfter r n).crew r = { s.crew r with resumeAt := max (s.crew r).resumeAt (s.cycle + n) } := by
  obtain ⟨-, -, h3, h4⟩ := (hasCrew_iff s r).1 h
  exact ⟨SameElse.modCrew s r _ h, modCrew_hasCrew _ _ _ h h3 h4, crew_modCrew _ _ _ h⟩

/-- A jump moves the effective lanes to their targets and nothing else (R287). -/
theorem jump_transfers {s : State} {i : Issue} (part : Mask) (target : Nat → Addr) (moves : Bool) (hc : s.hasCrew i.ref = true) :
    Transferred s (s.jump i part target moves) i part target ∧
      SameRegs (s.crew i.ref) ((s.jump i part target moves).crew i.ref) ∧
      (s.jump i part target moves).hasCrew i.ref = true := by
  obtain ⟨-, -, h3, h4⟩ := (hasCrew_iff s i.ref).1 hc
  let u := s.modCrew i.ref (fun w => w.jumped i part target)
  have hu : u.hasCrew i.ref = true :=
    modCrew_hasCrew _ _ _ hc (by simp [Crew.jumped, Crew.advance, h3]) (by simp [Crew.jumped, Crew.advance, Crew.modLanes, h4])
  have hr := retired_hasCrew u i moves hu
  obtain ⟨tn, rn, e⟩ := retired_crew_fields u i moves hu
  rw [crew_modCrew _ _ _ hc] at e
  have th (l : Nat) (hl : l < 32) :
      ((u.retired i moves).crew i.ref).thread l = ((s.crew i.ref).jumped i part target).thread l := by rw [e]; rfl
  have moved : Transferred s (u.retired i moves) i part target := by
    refine ⟨rfl, (SameElse.modCrew s _ _ hc).trans (retired_sameElse u i moves hu), ?_, fun l hl => ?_, fun l hl => ?_,
      fun l hl => ?_⟩
    · rw [e]; exact ⟨rfl, rfl, rfl, rfl, rfl, rfl, rfl, rfl, rfl, rfl, rfl, rfl, rfl⟩
    all_goals rw [th l hl, Crew.jumped_thread _ _ _ _ _ (by omega)]
  have regs : SameRegs (s.crew i.ref) ((u.retired i moves).crew i.ref) := by
    refine ⟨fun k => by rw [e]; rfl, fun l hl => ?_⟩
    rw [th l hl, Crew.jumped_thread _ _ _ _ _ (by omega)]
  have jumped : s.jump i part target moves =
      if part == 0 then u.retired i moves else (u.retired i moves).returnsAfter i.ref 4 := rfl
  rw [jumped]
  split
  · exact ⟨moved, regs, hr⟩
  · obtain ⟨same, slot, crew⟩ := returnsAfter_spec 4 hr
    refine ⟨transferred_of_followed moved rfl same ?_, ?_, slot⟩ <;> rw [crew]
    · exact ⟨⟨rfl, rfl, rfl, rfl, rfl, rfl, rfl, rfl, rfl, rfl, rfl, rfl, rfl⟩, fun _ _ => rfl, fun _ _ => rfl, fun _ _ => rfl⟩
    · exact sameRegs_congr regs rfl rfl

/-! ### BR and CALL -/

/-- The return address that CALL writes, by halves (R287). -/
def linkWord (i : Issue) (d k : Nat) : Content :=
  let back := i.pc + BitVec.ofNat 64 i.len
  if k = d then contentOf (fun _ => back.setWidth 32) else contentOf (fun _ => (back >>> 32).setWidth 32)

theorem linkWord_low (i : Issue) (d : Nat) : linkWord i d d = contentOf (fun _ => (i.pc + BitVec.ofNat 64 i.len).setWidth 32) :=
  if_pos rfl

theorem linkWord_high (i : Issue) (d : Nat) :
    linkWord i d (d + 1) = contentOf (fun _ => ((i.pc + BitVec.ofNat 64 i.len) >>> 32).setWidth 32) :=
  if_neg (by omega)

/-- BR moves its effective lanes and writes nothing (R287). -/
theorem branchWith_br {s : State} {i : Issue} {f : K64} (h : s.issues i (kNeeds f [] []) = true) :
    ∃ t, s.branchWith f false = .next t ∧ Transferred s t i (partK s i f) (fun _ => i.pc + f.imm.signExtend 64) ∧
      SameRegs (s.crew i.ref) (t.crew i.ref) := by
  obtain ⟨moved, regs, slot⟩ := jump_transfers (partK s i f) (fun _ => i.pc + f.imm.signExtend 64) true (issues_hasCrew h)
  exact ⟨_, issueWith_ok _ h, moved, regs⟩

/-- The link pair written in the effective lanes of a CALL (R287). -/
def State.linked (s : State) (f : K64) (i : Issue) : State :=
  if partK s i f != 0 then
    (s.writeReg i.ref f.d.toNat (partK s i f) (linkWord i f.d.toNat f.d.toNat) 0).writeReg i.ref (f.d.toNat + 1) (partK s i f)
      (linkWord i f.d.toNat (f.d.toNat + 1)) 0
  else s

theorem State.linked_writes {s : State} {f : K64} {i : Issue} (hc : s.hasCrew i.ref = true) (hd : f.d.toNat + 1 < 64) :
    Writes s (s.linked f i) i.ref [f.d.toNat, f.d.toNat + 1] (partK s i f) (linkWord i f.d.toNat) := by
  unfold State.linked
  split
  · exact ((Writes.nil _ _ hc).writeReg (by omega) (by simp) _ _).writeReg hd (by simp) _ _
  · next none_ =>
    rw [show partK s i f = 0 by simpa using none_]
    exact .none _ _ hc

theorem branchWith_call_eq {s : State} {i : Issue} {f : K64}
    (h : s.issues i (kNeeds f [f.d.toNat, f.d.toNat + 1] [f.d.toNat, f.d.toNat + 1]) = true) :
    s.branchWith f true = .next (((s.linked f i).jump i (partK s i f) (fun _ => i.pc + f.imm.signExtend 64) false).sets i
      (slotOf f.sbs) (partK s i f) 4) := by
  rw [State.linked, linkWord_low, linkWord_high]
  exact issueWith_ok _ h

/-- CALL writes the return address to its pair and moves its effective lanes (R287). -/
theorem branchWith_call {s : State} {i : Issue} {f : K64} (hd : f.d.toNat + 1 < 64)
    (h : s.issues i (kNeeds f [f.d.toNat, f.d.toNat + 1] [f.d.toNat, f.d.toNat + 1]) = true) :
    ∃ t, s.branchWith f true = .next t ∧ Transferred s t i (partK s i f) (fun _ => i.pc + f.imm.signExtend 64) ∧
      (∀ k, k ≠ f.d.toNat → k ≠ f.d.toNat + 1 → (t.crew i.ref).reg k = (s.crew i.ref).reg k) ∧
      ∀ k, k ∈ [f.d.toNat, f.d.toNat + 1] → ∀ l, l < 32 → lane ((t.crew i.ref).reg k).content l =
        if (partK s i f).getLsbD l then lane (linkWord i f.d.toNat k) l else lane ((s.crew i.ref).reg k).content l := by
  have wrote := State.linked_writes (s := s) (i := i) (issues_hasCrew h) hd
  obtain ⟨moved, regs, slot⟩ := jump_transfers (partK s i f) (fun _ => i.pc + f.imm.signExtend 64) false wrote.slot
  obtain ⟨same, rose⟩ := sets_raises _ i (slotOf f.sbs) (partK s i f) 4 slot
  have kept := (sameRegs_trans regs rose.sameRegs).1
  refine ⟨_, branchWith_call_eq h, ?_, fun k hk hk1 => ?_, fun k hk l hl => ?_⟩
  · refine transferred_of_preceded (transferred_of_followed moved ?_ same rose.standsStill) wrote.elsewhere wrote.crew
    unfold State.sets
    split <;> rfl
  · exact (kept k).trans (wrote.others k (by simp [hk, hk1]))
  · rw [kept k]
    refine wrote.content k hk ?_ l hl
    simp only [List.mem_cons, List.not_mem_nil, or_false] at hk
    omega

/-! ### JR and RET -/

/-- JR and RET go to the values of their pair where all are even (R287). -/
theorem jumpWith_jumps {s : State} {i : Issue} {f : L64} (moves : Bool)
    (h : s.issues i (lNeeds f [f.a.toNat, f.a.toNat + 1] []) = true) :
    let target := fun l => BitVec.ofNat 64 ((s.crew i.ref).pair s.freeCtr f.a.toNat l)
    (partL s i f).lanes.filter (fun l => (target l).getLsbD 0) = [] →
    ∃ t, s.jumpWith f moves = .next t ∧ Transferred s t i (partL s i f) target ∧ SameRegs (s.crew i.ref) (t.crew i.ref) := by
  intro target even
  obtain ⟨moved, regs, -⟩ := jump_transfers (partL s i f) target moves (issues_hasCrew h)
  exact ⟨_, (issueWith_ok _ h).trans (congrArg _ (if_pos (List.isEmpty_iff.2 even))), moved, regs⟩

/-- JR and RET raise ALIGN in the lanes whose target is odd, and nothing else happens (R214, R287). -/
theorem jumpWith_raises {s : State} {i : Issue} {f : L64} (moves : Bool)
    (h : traps s i (lNeeds f [f.a.toNat, f.a.toNat + 1] []) = true) :
    let odd := (partL s i f).lanes.filter (fun l => (BitVec.ofNat 64 ((s.crew i.ref).pair s.freeCtr f.a.toNat l)).getLsbD 0)
    odd ≠ [] → ∃ t, s.jumpWith f moves = .next t ∧ Raised s t i 3 (odd.map (fun l => ⟨l, 3, 2, 0, 0⟩)) false := by
  intro odd some_
  simp only [traps, Bool.and_eq_true, Option.isNone_iff_eq_none] at h
  obtain ⟨⟨issues, gambit⟩, handling⟩ := h
  refine ⟨_, (issueWith_ok _ issues).trans (congrArg _ (if_neg fun e => some_ (List.isEmpty_iff.1 e))), ?_⟩
  refine failWith_raises false moves (issues_hasCrew issues) gambit handling (mt List.map_eq_nil_iff.1 some_)
    (fun fault hf => ?_) (by decide) (by decide)
  obtain ⟨l, -, rfl⟩ := List.mem_map.1 hf
  rfl

end Sys2Proof.Machine
end

section
namespace Sys2Proof

open Machine Claims

/-- BR and CALL in both their lengths (R286, R287). -/
theorem branchesAndCalls : BranchesAndCalls := by
  refine ⟨?_, ?_⟩
  · rintro ins f (rfl | ⟨g, rfl, rfl⟩) s i h
    · exact branchWith_br h
    · exact branchWith_br h
  · intro ins f hf hd even s i h
    have run : exec ins s = s.branchWith f true := by
      obtain rfl | ⟨g, rfl, rfl⟩ := hf
      · rfl
      · rfl
    obtain ⟨t, ht, moved, others, link⟩ := branchWith_call (by omega) h
    refine ⟨t, run.trans ht, moved, others, fun l hl => ⟨?_, ?_⟩⟩
    · have e := link f.d.toNat (by simp) l hl
      rwa [linkWord_low, lane_contentOf _ _ hl] at e
    · have e := link (f.d.toNat + 1) (by simp) l hl
      rwa [linkWord_high, lane_contentOf _ _ hl] at e

/-- JR and RET in both their lengths differ in whether the turn pointer moves alone (R15, R287). -/
theorem jumpsAndReturns : JumpsAndReturns := by
  intro ins f hf s i
  obtain ⟨moves, run⟩ : ∃ moves, exec ins s = s.jumpWith f moves := by
    obtain rfl | ⟨g, rfl, rfl⟩ | rfl | ⟨g, rfl, rfl⟩ := hf
    · exact ⟨true, rfl⟩
    · exact ⟨true, rfl⟩
    · exact ⟨false, rfl⟩
    · exact ⟨false, rfl⟩
  rw [run]
  exact ⟨jumpWith_jumps moves, jumpWith_raises moves⟩

/-- Settles O11: the transfers are jumps of the effective lanes, CALL's behind the write of its link pair. -/
theorem controlTransfers : Obligations.ControlTransfers := ⟨branchesAndCalls, jumpsAndReturns⟩

end Sys2Proof
end

section
/-! ## SREAD (R238 to R240, R282) -/

open Sys2Proof Sys2Proof.Claims

namespace Sys2Proof.Machine

/-- The registers that SREAD writes: a pair for a special register of 64 bits (R282). -/
def sreadPlaces (f : K64) : List Nat :=
  if (f.imm.toNat == 0x020 || f.imm.toNat == 0x024) && f.d.toNat < 64 then [f.d.toNat, f.d.toNat + 1] else [f.d.toNat]

/-- What SREAD writes to a register: the low word of the special register, and to the second of a pair the high one. -/
def sreadWord (s : State) (i : Issue) (f : K64) (k : Nat) : Content :=
  if k = f.d.toNat then contentOf (fun l => (s.special i.ref f.imm.toNat l).1)
  else contentOf (fun l => (s.special i.ref f.imm.toNat l).2)

theorem sreadWord_low (s : State) (i : Issue) (f : K64) :
    sreadWord s i f f.d.toNat = contentOf (fun l => (s.special i.ref f.imm.toNat l).1) := if_pos rfl

theorem sreadWord_high (s : State) (i : Issue) (f : K64) :
    sreadWord s i f (f.d.toNat + 1) = contentOf (fun l => (s.special i.ref f.imm.toNat l).2) := if_neg (by omega)

theorem specialWide_contains (n : Nat) : specialWide.contains n = (n == 0x020 || n == 0x024) := by
  simp only [specialWide, List.contains_cons, List.contains_nil, Bool.or_false]

/-- The registers of an SREAD written in its effective lanes. -/
def State.sreadWrites (s : State) (i : Issue) (f : K64) : State :=
  let u := s.writeDst i.ref f.d.toNat (partK s i f) (sreadWord s i f f.d.toNat) 0
  if (f.imm.toNat == 0x020 || f.imm.toNat == 0x024) && f.d.toNat < 64 then
    u.writeReg i.ref (f.d.toNat + 1) (partK s i f) (sreadWord s i f (f.d.toNat + 1)) 0
  else u

/-- The high word of the clock latched in the effective lanes by a read of its low word (R240). -/
def State.latchClock (u s : State) (i : Issue) (f : K64) : State :=
  if f.imm.toNat == 0x010 then u.modCrew i.ref (fun w => w.modLanes (partK s i f) (fun _ th =>
    { th with clockHi := BitVec.ofNat 32 (s.clock i.core / 2 ^ 32) })) else u

theorem sreadWith_eq {s : State} {i : Issue} {f : K64} (h : s.issues i (kNeeds f (sreadPlaces f) (sreadPlaces f)) = true) :
    s.sreadWith f = .next (if partK s i f == 0 then s.retire i false
      else (((s.sreadWrites i f).latchClock s i f).retire i false).sets i (slotOf f.sbs) (partK s i f) 4) := by
  rw [State.sreadWrites, sreadWord_low, sreadWord_high, State.sreadWith]
  simp only [specialWide_contains]
  exact issueWith_ok _ h

theorem State.sreadWrites_writes {s : State} {i : Issue} {f : K64} (hc : s.hasCrew i.ref = true)
    (pair : (f.imm.toNat == 0x020 || f.imm.toNat == 0x024) = true → f.d.toNat % 2 = 0 ∨ f.d.toNat = 67) :
    Writes s (s.sreadWrites i f) i.ref (sreadPlaces f) (partK s i f) (sreadWord s i f) := by
  have first := (Writes.nil (partK s i f) (sreadWord s i f) hc).writeDst (k := f.d.toNat) (by simp) 0 true
  unfold State.sreadWrites sreadPlaces
  split
  · next wide =>
    simp only [Bool.and_eq_true, decide_eq_true_eq] at wide
    have even := pair wide.1
    exact first.writeReg (by omega) (by simp) 0 true
  · exact first

/-- The crew after a latch of the clock differs from the one before in the high words of the effective lanes alone. -/
theorem State.latchClock_spec {s u : State} {i : Issue} (f : K64) (hc : u.hasCrew i.ref = true) :
    let v := u.latchClock s i f
    SameElse u v i.ref ∧ v.hasCrew i.ref = true ∧ SameRegs (u.crew i.ref) (v.crew i.ref) ∧
      SamePreds (u.crew i.ref) (v.crew i.ref) ∧
      ∀ l, l < 32 → ((v.crew i.ref).thread l).clockHi = if f.imm.toNat = 0x010 ∧ (partK s i f).getLsbD l = true
        then BitVec.ofNat 32 (s.clock i.core / 2 ^ 32) else ((u.crew i.ref).thread l).clockHi := by
  obtain ⟨-, -, h3, h4⟩ := (hasCrew_iff u i.ref).1 hc
  unfold State.latchClock
  split
  · next reads =>
    refine ⟨SameElse.modCrew u _ _ hc, modCrew_hasCrew _ _ _ hc (by simpa using h3) h4, ?_⟩
    rw [crew_modCrew _ _ _ hc]
    refine ⟨⟨fun _ => rfl, fun l _ => thread_modLanes_field _ _ _ Thread.taint (by intros; rfl) l⟩,
      fun l _ => thread_modLanes_field _ _ _ Thread.preds (by intros; rfl) l, fun l hl => ?_⟩
    rw [thread_modLanes _ _ _ _ (by omega)]
    simp only [eq_of_beq reads, true_and]
    split <;> rfl
  · next other =>
    refine ⟨.refl _ _, hc, ⟨fun _ => rfl, fun _ _ => rfl⟩, fun _ _ => rfl, fun l _ => (if_neg fun both => ?_).symm⟩
    exact other (beq_iff_eq.2 both.1)

/-- SREAD writes its places from the special register, and latches the clock's high word when it reads the low one. -/
theorem sreadWith_reads {s : State} {i : Issue} {f : K64} (h : s.issues i (kNeeds f (sreadPlaces f) (sreadPlaces f)) = true)
    (pair : (f.imm.toNat == 0x020 || f.imm.toNat == 0x024) = true → f.d.toNat % 2 = 0 ∨ f.d.toNat = 67) :
    ∃ t, s.sreadWith f = .next t ∧ t.issue = none ∧ SameElse s t i.ref ∧ SamePreds (s.crew i.ref) (t.crew i.ref) ∧
      (∀ k, k ∉ sreadPlaces f → (t.crew i.ref).reg k = (s.crew i.ref).reg k) ∧
      (∀ k, k ∈ sreadPlaces f → k < 64 → ∀ l, l < 32 → (partK s i f).getLsbD l = true →
        lane ((t.crew i.ref).reg k).content l = lane (sreadWord s i f k) l) ∧
      ∀ l, l < 32 → ((t.crew i.ref).thread l).clockHi = if f.imm.toNat = 0x010 ∧ (partK s i f).getLsbD l = true
        then BitVec.ofNat 32 (s.clock i.core / 2 ^ 32) else ((s.crew i.ref).thread l).clockHi := by
  have hc := issues_hasCrew h
  refine ⟨_, sreadWith_eq h, ?_⟩
  split
  · next none_ =>
    have zero : ∀ l, (partK s i f).getLsbD l = false := fun l => by rw [eq_of_beq none_]; exact BitVec.getLsbD_zero
    obtain ⟨retired, regs, preds⟩ := retire_retired s i false hc
    refine ⟨retired.issue, retired.elsewhere, preds, fun k _ => regs.1 k, fun k _ _ l _ hp => ?_, fun l hl => ?_⟩
    · rw [zero l] at hp
      cases hp
    · rw [retired.clockHi l hl, if_neg (by simp [zero l])]
  · have wrote := State.sreadWrites_writes hc pair
    obtain ⟨same2, slot2, regs2, preds2, clock2⟩ := State.latchClock_spec (s := s) f wrote.slot
    obtain ⟨retired, regs3, preds3⟩ := retire_retired _ i false slot2
    obtain ⟨same4, rose⟩ := sets_raises _ i (slotOf f.sbs) (partK s i f) 4 (retire_hasCrew _ i false slot2)
    have kept := (sameRegs_trans regs2 (sameRegs_trans regs3 rose.sameRegs)).1
    refine ⟨?_, ((wrote.elsewhere.trans same2).trans retired.elsewhere).trans same4,
      samePreds_trans wrote.crew.preds (samePreds_trans preds2 (samePreds_trans preds3 rose.samePreds)),
      fun k hk => (kept k).trans (wrote.others k hk), fun k hk h64 l hl hp => ?_, fun l hl => ?_⟩
    · unfold State.sets
      split <;> rfl
    · rw [kept k, wrote.content k hk h64 l hl, if_pos hp]
    · rw [rose.thread l Thread.clockHi, retired.clockHi l hl, clock2 l hl, wrote.clockHi l hl]

end Sys2Proof.Machine
end

section
namespace Sys2Proof

open Machine Claims

/-- Settles O10: SREAD's writes are those of its places, one or a pair, and the latch of the clock alone follows them. -/
theorem specialRegisterReads : Obligations.SpecialRegisterReads := by
  intro ins f hf wide dst pair s i h part
  have run : exec ins s = s.sreadWith f := by
    obtain rfl | ⟨g, rfl, rfl⟩ := hf
    · rfl
    · rfl
  obtain ⟨t, ht, idle, same, preds, others, written, clock⟩ := sreadWith_reads (s := s) (i := i) (f := f) h pair
  refine ⟨t, run.trans ht, idle, same, preds, others, fun hd l hl hp => ⟨?_, fun hw => ?_⟩, clock⟩
  · have low : f.d.toNat ∈ sreadPlaces f := by unfold sreadPlaces; split <;> simp
    rw [written f.d.toNat low hd l hl hp, sreadWord_low, lane_contentOf _ _ hl]
  · have even := pair hw
    have high : f.d.toNat + 1 ∈ sreadPlaces f := by
      rw [sreadPlaces, if_pos (Bool.and_eq_true_iff.2 ⟨hw, decide_eq_true hd⟩)]
      simp
    rw [written (f.d.toNat + 1) high (by omega) l hl hp, sreadWord_high, lane_contentOf _ _ hl]

end Sys2Proof
end

section
/-! ## TRAP and BRK (R299) -/

open Sys2Proof Sys2Proof.Claims

namespace Sys2Proof

/-- The encodings of TRAP and BRK name no register (R299). -/
theorem K64.check_unused {f : K64} : K64.check .unused .unused (fun _ => true) f = none ↔
    f.sbs.toNat ≤ 6 ∧ f.d = 67 ∧ f.a = 67 := by
  simp [K64.check, Use.fieldCheck, Use.selCheck, ← BitVec.toNat_inj]

theorem trap_wellFormed_iff (f : K64) : (Instr.trap f).wellFormed = true ↔ f.sbs.toNat ≤ 6 ∧ f.d = 67 ∧ f.a = 67 :=
  (wellFormed_iff _).trans K64.check_unused

theorem brk_wellFormed_iff (f : K64) : (Instr.brk f).wellFormed = true ↔ f.sbs.toNat ≤ 6 ∧ f.d = 67 ∧ f.a = 67 :=
  (wellFormed_iff _).trans K64.check_unused

theorem brkI32_wellFormed_iff (g : I32) : (Instr.brkI32 g).wellFormed = true ↔ g.gd = 0 ∧ g.ga = 0 := by
  have expands : K64.check .unused .unused (fun _ => true) (g.expand false false) = none :=
    K64.check_unused.2 ⟨show K64.neutral.sbs.toNat ≤ 6 by decide, rfl, rfl⟩
  rw [wellFormed_iff, Instr.illegal]
  simp [expands]

end Sys2Proof

namespace Sys2Proof.Machine

/-- TRAP and BRK raise their class in every effective lane, with the code in AUX (R299). -/
theorem trapWith_raises {s : State} {i : Issue} {f : K64} {cls : Nat} (h : traps s i (kNeeds f [] []) = true)
    (some_ : partK s i f ≠ 0) (h2 : cls ≠ 2) (h13 : cls < 13) : ∃ t, s.trapWith f cls = .next t ∧
      Raised s t i cls ((partK s i f).lanes.map (fun l => ⟨l, cls, 0, 0, f.imm.setWidth 64⟩)) true := by
  simp only [traps, Bool.and_eq_true, Option.isNone_iff_eq_none] at h
  obtain ⟨⟨issues, gambit⟩, handling⟩ := h
  refine ⟨_, (issueWith_ok _ issues).trans (congrArg _ (if_neg (mt eq_of_beq some_))), ?_⟩
  refine failWith_raises true false (issues_hasCrew issues) gambit handling (mt List.map_eq_nil_iff.1 (Mask.lanes_ne_nil some_))
    (fun fault hf => ?_) h2 h13
  obtain ⟨l, -, rfl⟩ := List.mem_map.1 hf
  rfl

/-- With no effective lane they retire, and nothing else happens. -/
theorem trapWith_retires {s : State} {i : Issue} {f : K64} {cls : Nat} (h : s.issues i (kNeeds f [] []) = true)
    (none_ : partK s i f = 0) : ∃ t, s.trapWith f cls = .next t ∧ Retired s t i ∧ SameRegs (s.crew i.ref) (t.crew i.ref) ∧
      SamePreds (s.crew i.ref) (t.crew i.ref) :=
  ⟨_, (issueWith_ok _ h).trans (congrArg _ (if_pos (beq_iff_eq.2 none_))), retire_retired s i false (issues_hasCrew h)⟩

end Sys2Proof.Machine
end

section
namespace Sys2Proof

open Machine Claims

/-- Settles O15: the three instructions run one function of a class; their encodings are those of well-formed instructions,
which name no register, and the 32-bit TRAP is not one of them. -/
theorem softwareTraps : Obligations.SoftwareTraps := by
  refine ⟨fun ins f cls hf s i => ?_, fun f rest => ⟨?_, fun hs hd ha => ⟨?_, ?_⟩⟩,
    fun g rest => ⟨(brkI32_wellFormed_iff g).1, fun hd ha => ?_⟩,
    fun w rest low hop => decode_word32_longOnly w rest low (by rw [hop]; decide)⟩
  · obtain ⟨run, h2, h13⟩ : exec ins s = s.trapWith f cls ∧ cls ≠ 2 ∧ cls < 13 := by
      obtain ⟨rfl, rfl⟩ | ⟨rfl, rfl⟩ | ⟨g, rfl, rfl, rfl⟩ := hf
      · exact ⟨rfl, by decide, by decide⟩
      · exact ⟨rfl, by decide, by decide⟩
      · exact ⟨rfl, by decide, by decide⟩
    rw [run]
    exact ⟨fun h some_ => trapWith_raises h some_ h2 h13, trapWith_retires⟩
  · rintro (hw | hw)
    · exact ((trap_wellFormed_iff f).1 hw).2
    · exact ((brk_wellFormed_iff f).1 hw).2
  · exact decodes (.trap f) 8 _ rest ((trap_wellFormed_iff f).2 ⟨hs, hd, ha⟩) rfl
  · exact decodes (.brk f) 8 _ rest ((brk_wellFormed_iff f).2 ⟨hs, hd, ha⟩) rfl
  · exact decodes (.brkI32 g) 4 _ rest ((brkI32_wellFormed_iff g).2 ⟨hd, ha⟩) rfl

end Sys2Proof
end

section
/-! ## A trap taken by a crew whose slot keeps nothing (R296) -/

open Sys2Proof

namespace Sys2Proof.Machine

/-- A crew with a headed trap and free credits enters its handler (R296). -/
theorem takeTrap_of_headed {s : State} {r : CrewRef} {p : PendingTrap} {h : Addr × Bool}
    (pending : (s.crew r).pendingTrap = some p) (handler : s.handlerOf r p.cls = some h) (headed : p.headed = true)
    (credits : (s.crew r).creditsFor [0, 1, 2, 3] ≤ (s.crew r).creditsFree) : s.takeTrap r = s.enterHandler r p h := by
  simp only [State.takeTrap, pending, headed, handler, credits, Bool.not_true, Bool.false_eq_true, if_false, if_true]

theorem keep_of_nil {s : State} {r : CrewRef} (none_ : (s.sub r.core r.sub).keep = []) : s.keep r = SlotKeep.reset := by
  rw [State.keep, none_]
  rfl

/-- Where a sub-core keeps nothing, its crews enter their handlers with the side buffer that reset gives. -/
theorem enterHandler_keep_of_nil {s : State} {r : CrewRef} (p : PendingTrap) (h : Addr × Bool) (hc : s.hasCrew r = true)
    (none_ : (s.sub r.core r.sub).keep = []) : (s.enterHandler r p h).keep r = SlotKeep.reset := by
  obtain ⟨sub, -⟩ := (hasCrew_iff s r).1 hc
  have kept : (s.modKeep r (fun k => { k with side := s.sideAt r p })).hasCrew r = true := modSub_hasCrew _ _ _ hc rfl
  have still : ((s.modKeep r (fun k => { k with side := s.sideAt r p })).sub r.core r.sub).keep = [] := by
    rw [State.modKeep, sub_modSub _ _ _ _ sub, none_]
    rfl
  have wrote := ((((Writes.nil (s.crew r).aliveLanes (trapArg p) kept).writeReg (k := 0) (by decide) (by decide) 0 true).writeReg
    (k := 1) (by decide) (by decide) 0 true).writeReg (k := 2) (by decide) (by decide) 0 true).writeReg (k := 3) (by decide)
    (by decide) 0 true
  exact keep_of_nil (((SameElse.modCrew _ r _ wrote.slot).keep.trans wrote.elsewhere.keep).trans still)

/-- A trap of class 9 whose entry head has retired. -/
def headedTrap : PendingTrap :=
  { cls := 9, lanes := [⟨0, 9, 0, 0, 7⟩], async := false, tpc := 0, resume := 0, iword := 3, ilen := 8,
    pmask := BitVec.allOnes 32, parked := 0, headed := true }

/-- A crew that is to enter the handler of that trap. -/
def trappedCrew : Crew :=
  { Crew.idle with
    threads := List.replicate 32 { Thread.idle with run := .ready }, map := List.replicate 64 PhysReg.none_
    pendingTrap := some headedTrap }

/-- The crew's sub-core has one crew slot and keeps no side buffer; the crew's context has a trap vector. -/
def keeplessTrap : State :=
  { State.reset with
    cores := [(0, { Core.reset with subs := [{ Sub.reset with crews := [trappedCrew], keep := [] }] })]
    sched := { Sched.reset with contexts := [(0, { Context.reset with trapBase := 0x20000 })] } }

theorem keeplessTrap_crew : keeplessTrap.crew ⟨0, 0, 0⟩ = trappedCrew := rfl

theorem keeplessTrap_hasCrew : keeplessTrap.hasCrew ⟨0, 0, 0⟩ = true := rfl

theorem keeplessTrap_handler : keeplessTrap.handlerOf ⟨0, 0, 0⟩ 9 = some (0x20240, true) := rfl

theorem trappedCrew_credits : trappedCrew.creditsFor [0, 1, 2, 3] ≤ trappedCrew.creditsFree := by decide

/-- A trap that is taken counts one more in its side buffer (R297). -/
theorem State.sideAt_seq (s : State) (r : CrewRef) (p : PendingTrap) : (s.sideAt r p).seq = (s.keep r).side.seq + 1 := rfl

end Sys2Proof.Machine
end

section
namespace Sys2Proof

open Machine Claims

/-- Refutes O16: no hypothesis says that the sub-core keeps a side buffer for the crew's slot, and at `keeplessTrap`, where it
keeps none, the crew enters its handler with the side buffer that reset gives, and not with the header and the records of
its trap. -/
theorem not_trapEntryAndItsSideBuffer : ¬ Obligations.TrapEntryAndItsSideBuffer := by
  unfold Obligations.TrapEntryAndItsSideBuffer
  rintro ⟨entry, -⟩
  obtain ⟨-, enters, -⟩ := entry keeplessTrap headedTrap (0x20240, true) keeplessTrap_hasCrew rfl keeplessTrap_handler
  obtain ⟨t, ht, -, -, -, -, -, -, -, side, -⟩ := enters rfl trappedCrew_credits
  have entered : t = keeplessTrap.enterHandler ⟨0, 0, 0⟩ headedTrap (0x20240, true) :=
    (Host.Outcome.next.inj ht).symm.trans
      (takeTrap_of_headed (congrArg Crew.pendingTrap keeplessTrap_crew) keeplessTrap_handler rfl trappedCrew_credits)
  have seq := congrArg SideBuffer.seq side
  rw [entered, State.sideAt_seq, show selCrew keeplessTrap = ⟨0, 0, 0⟩ from rfl,
    enterHandler_keep_of_nil _ _ keeplessTrap_hasCrew rfl, keep_of_nil (s := keeplessTrap) (r := ⟨0, 0, 0⟩) rfl] at seq
  exact absurd seq (by decide)

end Sys2Proof
end

section
/-! ## The end of a barrier update (R327) -/

open Sys2Proof Sys2Proof.Claims

namespace Sys2Proof.Machine

/-- An update that leaves arrivals or bytes outstanding ends no phase. -/
theorem BarObj.settle_of_outstanding {o : BarObj} (h : o.remain ≠ 0 ∨ o.bytes ≠ 0) : o.settle = o :=
  if_neg (by simpa [imp_iff_not_or] using h)

/-- An update that leaves nothing outstanding ends the phase. -/
theorem BarObj.settle_of_complete {o : BarObj} (hr : o.remain = 0) (hb : o.bytes = 0) :
    o.settle = { o with parity := !o.parity, pcount := (o.pcount + 1) % 2 ^ 31, remain := o.expect, bytes := 0 } :=
  if_pos (by simp [hr, hb])

@[simp] theorem BarObj.settle_ovf (o : BarObj) : o.settle.ovf = o.ovf := by
  unfold BarObj.settle
  split <;> rfl

theorem BarObj.less_of_le {o : BarObj} {c : Nat} (h : c ≤ o.remain) : o.less c = { o with remain := o.remain - c } :=
  if_neg (by omega)

/-- An arrival that leaves arrivals outstanding only counts them down. -/
theorem BarObj.arrive_of_lt {o : BarObj} {c : Nat} (h : c < o.remain) : o.arrive c = { o with remain := o.remain - c } := by
  rw [BarObj.arrive, BarObj.less_of_le h.le]
  exact BarObj.settle_of_outstanding (.inl (by simp only; omega))

/-- The last arrival, as the end of its update sees it. -/
theorem BarObj.less_remain (o : BarObj) : o.less o.remain = { o with remain := 0 } := by
  rw [BarObj.less_of_le le_rfl, Nat.sub_self]

theorem BarObj.arrive_remain_of_bytes {o : BarObj} (hb : o.bytes ≠ 0) : o.arrive o.remain = { o with remain := 0 } := by
  rw [BarObj.arrive, BarObj.less_remain]
  exact BarObj.settle_of_outstanding (.inr hb)

theorem BarObj.arrive_remain_of_no_bytes {o : BarObj} (hb : o.bytes = 0) : o.arrive o.remain =
    { o with parity := !o.parity, pcount := (o.pcount + 1) % 2 ^ 31, remain := o.expect, bytes := 0 } := by
  rw [BarObj.arrive, BarObj.less_remain]
  exact BarObj.settle_of_complete rfl hb

/-- An arrival of more than remain sets OVF, whatever the phase does. -/
theorem BarObj.arrive_ovf {o : BarObj} {c : Nat} (h : o.remain < c) : (o.arrive c).ovf = true := by
  rw [BarObj.arrive, BarObj.settle_ovf, BarObj.less, if_pos h]

/-- Expected bytes come with one arrival. -/
theorem BarObj.expectBytes_of_lt {o : BarObj} {b : Word} (hr : 1 < o.remain) (hb : o.bytes + b.toNat < 2 ^ 32) :
    o.expectBytes b = { o with remain := o.remain - 1, bytes := o.bytes + b.toNat } := by
  rw [BarObj.expectBytes, Nat.mod_eq_of_lt hb]
  exact BarObj.arrive_of_lt (o := { o with bytes := o.bytes + b.toNat }) hr

/-- A credit's addition modulo 2^32 takes the bytes away. -/
theorem BarObj.credited_bytes {n bytes : Nat} (hn : n < 2 ^ 32) (le : n ≤ bytes) (hb : bytes < 2 ^ 32) :
    (bytes + (2 ^ 32 - n % 2 ^ 32)) % 2 ^ 32 = bytes - n := by
  omega

theorem BarObj.credit_of_lt {o : BarObj} {n : Nat} (hn : n < 2 ^ 32) (lt : n < o.bytes) (hb : o.bytes < 2 ^ 32) :
    o.credit n = { o with bytes := o.bytes - n } := by
  rw [BarObj.credit, BarObj.credited_bytes hn lt.le hb]
  exact BarObj.settle_of_outstanding (.inr (by simp only; omega))

/-- The credit of the last bytes ends a phase that has its arrivals. -/
theorem BarObj.credit_bytes {o : BarObj} (hb : o.bytes < 2 ^ 32) (hr : o.remain = 0) : o.credit o.bytes =
    { o with parity := !o.parity, pcount := (o.pcount + 1) % 2 ^ 31, remain := o.expect, bytes := 0 } := by
  rw [BarObj.credit, BarObj.credited_bytes hb le_rfl hb, Nat.sub_self]
  exact BarObj.settle_of_complete hr rfl

end Sys2Proof.Machine
end

section
namespace Sys2Proof

open Machine

/-- Settles O25: every update ends in the one test that completes a phase. -/
theorem barrierPhases : Obligations.BarrierPhases := by
  refine fun o c b => ⟨BarObj.arrive_of_lt, ?_, ?_, BarObj.arrive_ovf, BarObj.expectBytes_of_lt,
    fun n => BarObj.credit_of_lt, ?_⟩
  · rintro rfl
    exact BarObj.arrive_remain_of_bytes
  · rintro rfl
    exact BarObj.arrive_remain_of_no_bytes
  · rintro n hn rfl hr
    rw [BarObj.credit_bytes hn hr]
    exact ⟨rfl, rfl⟩

end Sys2Proof
end

section
/-! ## A release point begins (R165) -/

open Sys2Proof Sys2Proof.Claims

namespace Sys2Proof.Machine

theorem head_hasCrew (s : State) (r : CrewRef) (h : s.hasCrew r = true) : (s.head r).hasCrew r = true := by
  obtain ⟨-, -, threads, map⟩ := (hasCrew_iff s r).1 h
  refine hasCrew_of_crew ?_ ?_
  · rw [head_crew _ _ h]; exact threads
  · rw [head_crew _ _ h]; exact map

theorem SlotRaised.threads_length {w v : Crew} (h : SlotRaised w v) : v.threads.length = w.threads.length := by
  simpa using congrArg List.length h.threads

/-- The release point of an issue group, before it is sent (R165). -/
def begunPoint (i : Issue) (kind : PointKind) (part taint : Mask) (setter : Nat) : Point :=
  { setter := setter, kind := kind, issue := i.part, lanes := part, pc := i.pc, next := i.pc + BitVec.ofNat 64 i.len,
    iword := i.word, ilen := i.len, sent := false, taint := taint }

/-- A crew whose release point stands and whose group does not wait yet. -/
def State.pointed (s : State) (i : Issue) (kind : PointKind) (part taint : Mask) (slot : Nat) : State :=
  ((s.head i.ref).setter i slot 1).2.modCrew i.ref (fun w =>
    { w with point := some (begunPoint i kind part taint (s.head i.ref).nextId) })

/-- The release point follows its first head and the rise of its slot. -/
theorem State.pointed_spec (s : State) (i : Issue) (kind : PointKind) (part taint : Mask) (slot : Nat)
    (hc : s.hasCrew i.ref = true) : (s.pointed i kind part taint slot).hasCrew i.ref = true ∧
      ∃ v, SlotRaised ((s.crew i.ref).head s.nextId s.cycle (s.keep i.ref).side) v ∧
        (s.pointed i kind part taint slot).crew i.ref =
          { v with point := some (begunPoint i kind part taint (s.head i.ref).nextId) } := by
  have headed := head_hasCrew s i.ref hc
  have set := (setter_stands (s.head i.ref) i slot 1 headed).slot
  obtain ⟨-, -, threads, map⟩ := (hasCrew_iff _ i.ref).1 set
  refine ⟨modCrew_hasCrew _ _ _ set threads map, _, ?_, crew_modCrew _ _ _ set⟩
  have fresh : (s.head i.ref).fresh.2.hasCrew i.ref = true := headed
  rw [State.setter, crew_modCrew _ _ _ fresh, ← head_crew s _ hc]
  exact Crew.addSetter_raises ..

/-- A release point takes a head and holds its group in RELEASE; nothing else of its crew changes. -/
theorem startPoint_begun (s : State) (i : Issue) (kind : PointKind) (part taint : Mask) (slot : Nat)
    (hc : s.hasCrew i.ref = true) : PointBegun s (s.startPoint i kind part taint slot) i kind part := by
  obtain ⟨slot_, v, raised, crew⟩ := s.pointed_spec i kind part taint slot hc
  have waits : (s.startPoint i kind part taint slot).crew i.ref = _ := waitIn_crew (s.pointed i kind part taint slot) i _ _ slot_
  obtain ⟨-, -, regs, preds, moves⟩ := waitFor_heldIn (s.pointed i kind part taint slot) i .point slot_
  have regions : v.regions = ((s.crew i.ref).head s.nextId s.cycle (s.keep i.ref).side).regions := by rw [raised.crew]
  have length := ((s.crew i.ref).head_tookHead s.nextId s.cycle (s.keep i.ref).side).1
  rw [crew] at regs preds moves
  refine ⟨sameRegs_trans (sameRegs_congr raised.sameRegs rfl rfl) regs,
    samePreds_trans (samePreds_congr raised.samePreds rfl) preds, ?_, rfl, 
    ⟨begunPoint i kind part taint (s.head i.ref).nextId, ?_, rfl, rfl, rfl, rfl, rfl⟩, fun l hl => ?_⟩
  · rw [waits, crew, ← length, ← regions]; rfl
  · rw [waits, crew]; rfl
  · obtain ⟨pc, run⟩ := moves l hl
    have stands : (v.thread l).run = ((s.crew i.ref).thread l).run := raised.thread l Thread.run
    refine ⟨pc.trans ?_, run.trans (congrArg (fun q => if i.part.getLsbD l then RunState.release .point else q) stands)⟩
    rw [if_neg (by simp)]
    exact raised.thread l Thread.pc

@[simp] theorem State.fresh_ledger (s : State) : s.fresh.2.ledger = s.ledger := rfl

theorem startPoint_ledger (s : State) (i : Issue) (kind : PointKind) (part taint : Mask) (slot : Nat) :
    (s.startPoint i kind part taint slot).ledger = s.ledger := by
  simp [State.startPoint, State.waitFor, State.waitIn, State.setter, State.head]

end Sys2Proof.Machine
end

section
/-! ## A privileged instruction outside its place (R300 to R302) -/

open Sys2Proof Sys2Proof.Claims

namespace Sys2Proof.Machine

/-- An instruction with a cause that does not depend on its predicate raises it in every lane of its group (R227). -/
theorem issueWith_early {s : State} {i : Issue} {n : Needs} {c : Cause} (body : Issue → State → State) (hi : s.issue = some i)
    (he : n.early = some c) : s.issueWith n body = .next (s.failAll i i.part c) := by
  have first : s.gateTraps i n = some c := by rw [State.gateTraps, he]; rfl
  simp only [State.issueWith, hi, State.gate, first]

/-- PRIV raised in every lane of a group outside handlers. -/
theorem failAll_priv_raises {s : State} {i : Issue} (hc : s.hasCrew i.ref = true) (hh : (s.crew i.ref).handling = none)
    (hg : (s.crew i.ref).gambit = none) (hp : i.part ≠ 0) :
    Raised s (s.failAll i i.part causePriv) i 0 (sameCause i.part (0, 7)) false := by
  refine failWith_raises false false hc hg hh ?_ ?_ (by decide) (by decide)
  · simpa [sameCause] using Mask.lanes_ne_nil hp
  · simp [sameCause, causePriv]

/-- A trap inside a handler ends its context with the trap's class (R302, R303). -/
theorem raiseTrap_in_handler {s : State} {r : CrewRef} (p : PendingTrap) (h : s.hasCrew r = true)
    (hh : (s.crew r).handling.isSome = true) :
    (s.raiseTrap r p).hasCrew r = true ∧ (s.raiseTrap r p).crew r = (s.crew r).die p.cls := by
  obtain ⟨-, -, h3, h4⟩ := (hasCrew_iff s r).1 h
  refine ⟨modCrew_hasCrew _ _ _ h ?_ ?_, ?_⟩
  · rw [if_pos hh]; exact h3
  · rw [if_pos hh]; exact h4
  · rw [State.raiseTrap, crew_modCrew _ _ _ h, if_pos hh]

/-- PRIV raised in a handler ends its context. -/
theorem failAll_priv_dies {s : State} {i : Issue} (hc : s.hasCrew i.ref = true) (hh : (s.crew i.ref).handling.isSome = true)
    (hg : (s.crew i.ref).gambit = none) (hp : i.part ≠ 0) :
    ((s.failAll i i.part causePriv).crew i.ref).dying = some 0 := by
  have some_ : sameCause i.part causePriv ≠ [] := by simpa [sameCause] using Mask.lanes_ne_nil hp
  have all : ∀ f ∈ sameCause i.part causePriv, f.cls = 0 := by simp [sameCause, causePriv]
  obtain ⟨f, hf⟩ := List.exists_mem_of_ne_nil _ some_
  obtain ⟨-, has, crew⟩ := unlocked_spec s i.ref i.slot hc
  obtain ⟨has', crew'⟩ := raiseTrap_in_handler
    (s := (s.modSub i.core i.sub (fun b => b.unlocked i.slot)).drop) (trapOf i (sameCause i.part causePriv) false 0) has
    ((congrArg (fun w : Crew => w.handling.isSome) crew).trans hh)
  have dies := failWith_of_no_gambit false false hg some_ ⟨f, hf, by rw [all f hf]; decide⟩
  rw [show s.failAll i i.part causePriv = s.failWith i (sameCause i.part causePriv) false false from rfl, dies,
    issued_crew _ _ _ has', crew', trapOf_cls false some_ all (by decide) (by decide)]
  obtain ⟨tn, rn, turned⟩ := turned_fields
    ((((s.modSub i.core i.sub (fun b => b.unlocked i.slot)).drop).crew i.ref).die 0) i.part false
  rw [turned]
  rfl

end Sys2Proof.Machine
end

section
/-! ## Threads that an instruction holds

TRET and the waits for barriers and timelines leave their effective threads at the instruction, in a run state of their own;
the others of the group go past it. -/

open Sys2Proof Sys2Proof.Claims

namespace Sys2Proof.Machine

/-- A crew whose threads of a mask stay in run states; the others of the group stand past the instruction. -/
def Crew.stayed (w : Crew) (i : Issue) (part : Mask) (q : Nat → RunState) : Crew :=
  (w.advance (i.part &&& ~~~ part) i.len).modLanes part (fun l th => { th with run := q l })

theorem Crew.stayed_thread (w : Crew) (i : Issue) (part : Mask) (q : Nat → RunState) (l : Nat) (h : l < w.threads.length) :
    (w.stayed i part q).thread l = { w.thread l with
      pc := if i.part.getLsbD l && !part.getLsbD l then (w.thread l).pc + BitVec.ofNat 64 i.len else (w.thread l).pc
      run := if part.getLsbD l then q l else (w.thread l).run } := by
  rw [Crew.stayed, thread_modLanes _ _ _ _ (by simpa [Crew.advance] using h), advance_thread _ _ _ _ h, getLsbD_without]
  cases part.getLsbD l <;> cases i.part.getLsbD l <;> rfl

/-- The state in which an instruction holds threads of its group. -/
def State.stayed (s : State) (i : Issue) (part : Mask) (q : Nat → RunState) : State :=
  (s.modCrew i.ref (fun w => w.stayed i part q)).retired i false

/-- What holding threads leaves of their crew, and what it makes of the group's threads. -/
structure Stayed (s u : State) (i : Issue) (part : Mask) (q : Nat → RunState) : Prop where
  issue : u.issue = none
  elsewhere : SameElse s u i.ref
  slot : u.hasCrew i.ref = true
  regs : SameRegs (s.crew i.ref) (u.crew i.ref)
  preds : SamePreds (s.crew i.ref) (u.crew i.ref)
  handling : (u.crew i.ref).handling = (s.crew i.ref).handling
  dying : (u.crew i.ref).dying = (s.crew i.ref).dying
  regions : (u.crew i.ref).regions = (s.crew i.ref).regions
  pinned : (u.crew i.ref).pinned = (s.crew i.ref).pinned
  pc : ∀ l, l < 32 → ((u.crew i.ref).thread l).pc = if i.part.getLsbD l && !part.getLsbD l then
    ((s.crew i.ref).thread l).pc + BitVec.ofNat 64 i.len else ((s.crew i.ref).thread l).pc
  run : ∀ l, l < 32 → ((u.crew i.ref).thread l).run = if part.getLsbD l then q l else ((s.crew i.ref).thread l).run

theorem State.stayed_spec {s : State} {i : Issue} (part : Mask) (q : Nat → RunState) (hc : s.hasCrew i.ref = true) :
    Stayed s (s.stayed i part q) i part q := by
  obtain ⟨-, -, h3, h4⟩ := (hasCrew_iff s i.ref).1 hc
  have held : (s.modCrew i.ref (fun w => w.stayed i part q)).hasCrew i.ref = true :=
    modCrew_hasCrew _ _ _ hc (by simpa [Crew.stayed, Crew.advance] using h3) h4
  obtain ⟨tn, rn, e⟩ := retired_crew_fields _ i false held
  rw [crew_modCrew _ _ _ hc] at e
  have thread (l : Nat) (hl : l < 32) : ((s.stayed i part q).crew i.ref).thread l = _ :=
    (congrArg (fun w : Crew => w.thread l) e).trans ((s.crew i.ref).stayed_thread i part q l (by omega))
  refine ⟨rfl, (SameElse.modCrew s _ _ hc).trans (retired_sameElse _ i false held), retired_hasCrew _ i false held,
    ⟨fun k => ?_, fun l hl => by rw [thread l hl]⟩, fun l hl => by rw [thread l hl], ?_, ?_, ?_, ?_,
    fun l hl => by rw [thread l hl], fun l hl => by rw [thread l hl]⟩
  all_goals rw [State.stayed, e]; rfl

end Sys2Proof.Machine
end

section
/-! ## TRET (R300) -/

open Sys2Proof Sys2Proof.Claims

namespace Sys2Proof.Machine

theorem tretWith_holds {s : State} {i : Issue} {f : L64} (h : s.issues i { lNeeds f [] [] with head := true } = true)
    (hh : (s.crew i.ref).handling.isSome = true) (hg : (s.crew i.ref).gambit = none) (hp : partL s i f ≠ 0) :
    s.tretWith f = .next ((s.stayed i (partL s i f) (fun _ => .trap true)).finishTret i.ref) := by
  have inside : (s.crew i.ref).handling.isNone = false := by simpa [Option.isNone_eq_false_iff] using hh
  have part : (s.eff i f.pred f.pn == 0) = false := beq_false_of_ne hp
  have out : (s.eff i f.pred f.pn &&& (s.crew i.ref).inGambit != 0) = false := by rw [Crew.inGambit, hg]; simp
  unfold State.tretWith
  simp only [issues_issue h, inside, Bool.false_eq_true, if_false]
  rw [issueWith_ok _ (by exact h)]
  simp only [part, out, Bool.false_eq_true, if_false]
  rfl

theorem aliveLanes_getLsbD (w : Crew) (l : Nat) (hl : l < 32) : w.aliveLanes.getLsbD l = ((w.thread l).run != .exited) :=
  getLsbD_ofFn _ l hl

/-- A lane outside a mask that leaves none is in it. -/
theorem getLsbD_of_without_eq_zero {m n : Mask} (h : m &&& ~~~ n = 0) {l : Nat} (hl : m.getLsbD l = true) :
    n.getLsbD l = true := by
  have out : (m &&& ~~~ n).getLsbD l = false := by rw [h]; exact BitVec.getLsbD_zero
  rw [getLsbD_without, hl, Bool.true_and] at out
  simpa using out

/-- Threads that are held have not exited. -/
theorem Stayed.aliveLanes {s u : State} {i : Issue} {part : Mask} (h : Stayed s u i part (fun _ => .trap true))
    (alive : part &&& ~~~ (s.crew i.ref).aliveLanes = 0) : (u.crew i.ref).aliveLanes = (s.crew i.ref).aliveLanes := by
  refine BitVec.eq_of_getLsbD_eq fun l hl => ?_
  rw [aliveLanes_getLsbD _ l hl, h.run l hl]
  split
  · next hp => exact (getLsbD_of_without_eq_zero alive hp).symm
  · exact (aliveLanes_getLsbD _ l hl).symm

/-- Every thread has issued TRET when the others of the crew had. -/
theorem Stayed.tretAll_iff {s u : State} {i : Issue} {part : Mask} (h : Stayed s u i part (fun _ => .trap true))
    (hh : (s.crew i.ref).handling.isSome = true) (hp : part ≠ 0) (alive : part &&& ~~~ (s.crew i.ref).aliveLanes = 0) :
    (u.crew i.ref).tretAll = true ↔ ∀ l, l < 32 → ((s.crew i.ref).aliveLanes &&& ~~~ part).getLsbD l = true →
      ((s.crew i.ref).thread l).run = .trap true := by
  have some_ : (s.crew i.ref).aliveLanes ≠ 0 := by
    intro none_
    rw [none_, show ~~~ (0 : Mask) = BitVec.allOnes 32 from rfl, BitVec.and_allOnes] at alive
    exact hp alive
  simp only [Crew.tretAll, h.aliveLanes alive, h.handling, hh, Bool.true_and, Bool.and_eq_true, bne_iff_ne, ne_eq, some_,
    not_false_eq_true, true_and, List.all_eq_true, Mask.mem_lanes, beq_iff_eq, getLsbD_without, Bool.not_eq_true']
  refine ⟨fun all l hl hx => ?_, fun others l hx => ?_⟩
  · have e := all l ⟨hl, hx.1⟩
    rwa [h.run l hl, if_neg (by simp [hx.2])] at e
  · obtain ⟨hl, ha⟩ := hx
    rw [h.run l hl]
    split
    · rfl
    · next out => exact others l hl ⟨ha, by simpa using out⟩

/-- Until every thread has issued it, a TRET's threads are held, and the crew stays in its handler. -/
theorem tretWith_waits {s : State} {i : Issue} {f : L64} {cls : Nat}
    (h : s.issues i { lNeeds f [] [] with head := true } = true)
    (hh : (s.crew i.ref).handling = some cls) (hg : (s.crew i.ref).gambit = none) (hp : partL s i f ≠ 0)
    (alive : partL s i f &&& ~~~ (s.crew i.ref).aliveLanes = 0)
    (others : ∃ l, l < 32 ∧ ((s.crew i.ref).aliveLanes &&& ~~~ (partL s i f)).getLsbD l = true ∧
      ((s.crew i.ref).thread l).run ≠ .trap true) :
    ∃ t, s.tretWith f = .next t ∧ t.issue = none ∧ SameElse s t i.ref ∧ SameRegs (s.crew i.ref) (t.crew i.ref) ∧
      (t.crew i.ref).handling = some cls ∧
      ∀ l, l < 32 → (partL s i f).getLsbD l = true → ((t.crew i.ref).thread l).run = .trap true := by
  have inside : (s.crew i.ref).handling.isSome = true := by rw [hh]; rfl
  have held := State.stayed_spec (partL s i f) (fun _ => .trap true) (issues_hasCrew h)
  have unfinished : ((s.stayed i (partL s i f) (fun _ => .trap true)).crew i.ref).tretAll = false :=
      Bool.eq_false_iff.2 fun all => by
    obtain ⟨l, hl, hx, run⟩ := others
    exact run ((held.tretAll_iff inside hp alive).1 all l hl hx)
  have stays : (s.stayed i (partL s i f) (fun _ => .trap true)).finishTret i.ref =
      s.stayed i (partL s i f) (fun _ => .trap true) := by
    simp [State.finishTret, unfinished]
  refine ⟨_, (tretWith_holds h inside hg hp).trans (congrArg _ stays), held.issue, held.elsewhere, held.regs,
    held.handling.trans hh, fun l hl hx => ?_⟩
  rw [held.run l hl, if_pos hx]

/-! ### The return -/

/-- What TRET restores to a register of the first four: the words of the lane records (R298, R300). -/
def savedContent (side : SideBuffer) (k : Nat) : Content := contentOf (fun l => (side.lanes.getD l .zero).saveG.getD k 0)

/-- The taint that TRET restores to it. -/
def savedTaint (side : SideBuffer) (k : Nat) : Mask := Mask.ofFn (fun l => (side.lanes.getD l .zero).state.getLsbD (28 + k))

/-- The first registers restored in the lanes of a mask. -/
def State.restores (s : State) (r : CrewRef) (m : Mask) (side : SideBuffer) (n : Nat) : State :=
  (upTo n).foldl (fun st k => st.writeReg r k m (savedContent side k) (savedTaint side k)) s

theorem State.restores_succ (s : State) (r : CrewRef) (m : Mask) (side : SideBuffer) (n : Nat) :
    s.restores r m side (n + 1) = (s.restores r m side n).writeReg r n m (savedContent side n) (savedTaint side n) := by
  rw [State.restores, upTo, List.range_succ, List.foldl_append]
  rfl

theorem State.restores_writes {s : State} {r : CrewRef} (m : Mask) (side : SideBuffer) (hc : s.hasCrew r = true) {n : Nat}
    (hn : n ≤ 64) : Writes s (s.restores r m side n) r (upTo n) m (savedContent side) := by
  induction n with
  | zero => exact .nil _ _ hc
  | succ n ih =>
    rw [State.restores_succ, upTo, List.range_succ]
    exact (ih (by omega)).writeReg (by omega) (by simp [upTo]) _ _

theorem State.restores_taint {s : State} {r : CrewRef} {m : Mask} (side : SideBuffer) (hc : s.hasCrew r = true) {n : Nat}
    (hn : n ≤ 64) {k l : Nat} (hk : k < n) (hl : l < 32) (hm : m.getLsbD l = true) :
    (((s.restores r m side n).crew r).thread l).taint.getLsbD k = (savedTaint side k).getLsbD l := by
  induction n with
  | zero => omega
  | succ n ih =>
    have slot := (State.restores_writes m side hc (n := n) (by omega)).slot
    obtain ⟨-, written, -⟩ := writeReg_spec (s.restores r m side n) r n m (savedContent side n) (savedTaint side n) true slot
      (by omega)
    rw [State.restores_succ]
    by_cases e : k = n
    · subst e
      rw [written.tainted l hl, if_pos hm]
    · rw [written.taints l k e]
      exact ih (by omega) (by omega)

/-- P0 to P3 as a lane record has them, the other predicates kept (R298, R300). -/
def restoredPreds (state : Word) (preds : BitVec 32) : BitVec 32 := (preds &&& ~~~ (0xF#32)) ||| ((state >>> 24) &&& 0xF#32)

theorem restoredPreds_getLsbD (state : Word) (preds : BitVec 32) {k : Nat} (hk : k < 4) :
    (restoredPreds state preds).getLsbD k = state.getLsbD (24 + k) := by
  have low : (0xF#32).getLsbD k = true := (by decide : ∀ k, k < 4 → (0xF#32).getLsbD k = true) k hk
  rw [restoredPreds, BitVec.getLsbD_or, BitVec.getLsbD_and, BitVec.getLsbD_not, BitVec.getLsbD_and, BitVec.getLsbD_ushiftRight,
    low]
  simp

/-- A crew that leaves its handler: its threads go where their records say, and its mode and counters are the header's. -/
def Crew.returned (w : Crew) (m : Mask) (side : SideBuffer) (now : Nat) : Crew :=
  { w.modLanes m (fun l t =>
      { t with preds := restoredPreds (side.lanes.getD l .zero).state t.preds, pc := (side.lanes.getD l .zero).spc,
               run := .ready }) with
    turn := side.turn.toNat % 32, run := side.turn.toNat / 256 % 128, trapMode := side.flags.getLsbD 1, handling := none,
    resumeAt := now + 16, async := w.async.map (fun c => { c with held := false }) }

theorem Crew.returned_thread (w : Crew) (m : Mask) (side : SideBuffer) (now : Nat) {l : Nat} (hl : l < w.threads.length)
    (hm : m.getLsbD l = true) : (w.returned m side now).thread l = { w.thread l with
      preds := restoredPreds (side.lanes.getD l .zero).state (w.thread l).preds, pc := (side.lanes.getD l .zero).spc,
      run := .ready } := by
  refine (thread_modLanes _ _ _ _ hl).trans ?_
  rw [if_pos hm]

/-- A return and its head. -/
def State.returned (u : State) (r : CrewRef) (m : Mask) (side : SideBuffer) (now : Nat) : State :=
  (u.modCrew r (fun w => w.returned m side now)).head r

theorem State.returned_spec {u : State} {r : CrewRef} (m : Mask) (side : SideBuffer) (now : Nat) (hc : u.hasCrew r = true) :
    SameElse u (u.returned r m side now) r ∧ ∃ id cycle kept,
      (u.returned r m side now).crew r = ((u.crew r).returned m side now).head id cycle kept := by
  obtain ⟨-, -, threads, map⟩ := (hasCrew_iff u r).1 hc
  have slot : (u.modCrew r (fun w => w.returned m side now)).hasCrew r = true :=
    modCrew_hasCrew _ _ _ hc (by simpa [Crew.returned] using threads) map
  have final := head_crew _ r slot
  rw [crew_modCrew _ _ _ hc] at final
  exact ⟨(SameElse.modCrew _ r _ hc).trans (head_sameElse _ r slot), _, _, _, final⟩

theorem State.leaveHandler_of_even {s : State} {r : CrewRef}
    (even : ∀ l, l < 32 → (s.crew r).aliveLanes.getLsbD l = true → ((s.keep r).side.lanes.getD l .zero).spc.getLsbD 0 = false) :
    s.leaveHandler r =
      (s.restores r (s.crew r).aliveLanes (s.keep r).side 4).returned r (s.crew r).aliveLanes (s.keep r).side s.cycle := by
  refine if_neg ?_
  simpa [Mask.mem_lanes] using even

/-- What a crew is after its return, by the side buffer before it (R300). -/
structure Returned (s t : State) (r : CrewRef) : Prop where
  elsewhere : SameElse s t r
  handling : (t.crew r).handling = none
  trapMode : (t.crew r).trapMode = (s.keep r).side.flags.getLsbD 1
  turn : (t.crew r).turn = (s.keep r).side.turn.toNat % 32
  run : (t.crew r).run = (s.keep r).side.turn.toNat / 256 % 128
  resumeAt : (t.crew r).resumeAt = s.cycle + 16
  pc : ∀ l, l < 32 → (s.crew r).aliveLanes.getLsbD l = true →
    ((t.crew r).thread l).pc = ((s.keep r).side.lanes.getD l .zero).spc ∧ ((t.crew r).thread l).run = .ready
  saved : ∀ l k, l < 32 → (s.crew r).aliveLanes.getLsbD l = true → k < 4 →
    lane ((t.crew r).reg k).content l = ((s.keep r).side.lanes.getD l .zero).saveG.getD k 0 ∧
    ((t.crew r).thread l).preds.getLsbD k = ((s.keep r).side.lanes.getD l .zero).state.getLsbD (24 + k) ∧
    ((t.crew r).thread l).taint.getLsbD k = ((s.keep r).side.lanes.getD l .zero).state.getLsbD (28 + k)

theorem leaveHandler_returns {s : State} {r : CrewRef} (hc : s.hasCrew r = true)
    (even : ∀ l, l < 32 → (s.crew r).aliveLanes.getLsbD l = true → ((s.keep r).side.lanes.getD l .zero).spc.getLsbD 0 = false) :
    Returned s (s.leaveHandler r) r := by
  rw [State.leaveHandler_of_even even]
  have wrote := State.restores_writes (s.crew r).aliveLanes (s.keep r).side hc (n := 4) (by omega)
  have taints : ∀ k l, k < 4 → l < 32 → (s.crew r).aliveLanes.getLsbD l = true →
      (((s.restores r (s.crew r).aliveLanes (s.keep r).side 4).crew r).thread l).taint.getLsbD k =
        (savedTaint (s.keep r).side k).getLsbD l := fun k l hk hl ha => State.restores_taint _ hc (by omega) hk hl ha
  generalize s.restores r (s.crew r).aliveLanes (s.keep r).side 4 = u at *
  obtain ⟨-, -, threads, -⟩ := (hasCrew_iff u r).1 wrote.slot
  obtain ⟨same, id, cycle, kept, final⟩ :=
    State.returned_spec (s.crew r).aliveLanes (s.keep r).side s.cycle wrote.slot
  have thread := fun (l : Nat) (hl : l < 32) => (u.crew r).returned_thread (s.crew r).aliveLanes (s.keep r).side s.cycle
    (l := l) (by omega)
  refine ⟨wrote.elsewhere.trans same, ?_, ?_, ?_, ?_, ?_, fun l hl ha => ?_, fun l k hl ha hk => ⟨?_, ?_, ?_⟩⟩ <;> rw [final]
  · rfl
  · rfl
  · rfl
  · rfl
  · rfl
  · rw [Crew.head_thread, thread l hl ha]
    exact ⟨rfl, rfl⟩
  · have content := wrote.content k (by simpa [upTo] using hk) (by omega) l hl
    rw [if_pos ha, savedContent, lane_contentOf _ _ hl] at content
    exact content
  · rw [Crew.head_thread, thread l hl ha]
    exact restoredPreds_getLsbD _ _ hk
  · rw [Crew.head_thread, thread l hl ha]
    exact (taints k l hk hl ha).trans (getLsbD_ofFn _ l hl)

/-- A head that may execute has a snapshot (R155). -/
theorem issues_canHead {s : State} {i : Issue} {n : Needs} (h : s.issues i n = true) (head : n.head = true) :
    (s.crew i.ref).canHead = true := by
  simp only [State.issues, Bool.and_eq_true] at h
  obtain ⟨⟨-, free⟩, -⟩ := h
  simpa [head] using free

/-- The TRET of the last threads returns from a handler whose class is not terminal. -/
theorem tretWith_returns {s : State} {i : Issue} {f : L64} {cls : Nat}
    (h : s.issues i { lNeeds f [] [] with head := true } = true)
    (hh : (s.crew i.ref).handling = some cls) (hg : (s.crew i.ref).gambit = none) (hd : (s.crew i.ref).dying = none)
    (hp : partL s i f ≠ 0) (alive : partL s i f &&& ~~~ (s.crew i.ref).aliveLanes = 0)
    (others : ∀ l, l < 32 → ((s.crew i.ref).aliveLanes &&& ~~~ (partL s i f)).getLsbD l = true →
      ((s.crew i.ref).thread l).run = .trap true) (returns : terminalClass cls = false)
    (credits : (s.crew i.ref).creditsFor [0, 1, 2, 3] ≤ (s.crew i.ref).creditsFree)
    (even : ∀ l, l < 32 → (s.crew i.ref).aliveLanes.getLsbD l = true →
      ((s.keep i.ref).side.lanes.getD l .zero).spc.getLsbD 0 = false) :
    ∃ t, s.tretWith f = .next t ∧ Returned s t i.ref := by
  have inside : (s.crew i.ref).handling.isSome = true := by rw [hh]; rfl
  have held := State.stayed_spec (partL s i f) (fun _ => .trap true) (issues_hasCrew h)
  have all := (held.tretAll_iff inside hp alive).2 others
  have lanes := held.aliveLanes alive
  have keep : (s.stayed i (partL s i f) (fun _ => .trap true)).keep i.ref = s.keep i.ref :=
    congrArg (fun k : List SlotKeep => k.getD i.ref.slot SlotKeep.reset) held.elsewhere.keep
  refine ⟨_, tretWith_holds h inside hg hp, ?_⟩
  have heads := issues_canHead h rfl
  generalize s.stayed i (partL s i f) (fun _ => .trap true) = u at *
  have heads' : (u.crew i.ref).canHead = true := by rw [Crew.canHead, held.regions]; exact heads
  have credits' : (u.crew i.ref).creditsFor [0, 1, 2, 3] ≤ (u.crew i.ref).creditsFree := by
    rw [Crew.creditsFor, Crew.creditsFree, Crew.creditsUsed, held.regions, held.pinned]
    exact credits
  have leaves : u.finishTret i.ref = u.leaveHandler i.ref := by
    simp [State.finishTret, all, held.dying, hd, held.handling, hh, returns, heads', credits']
  obtain ⟨same, handling, mode, turn, run, resume, pc, saved⟩ :=
    leaveHandler_returns held.slot (r := i.ref) (by rw [lanes, keep]; exact even)
  rw [leaves]
  rw [lanes, keep] at saved pc
  rw [keep] at mode turn run
  exact ⟨held.elsewhere.trans same, handling, mode, turn, run, resume.trans (by rw [held.elsewhere.cycle]), pc, saved⟩

end Sys2Proof.Machine
end

section
/-! ## SYS.R and SYS.W (R301, R302) -/

open Sys2Proof Sys2Proof.Claims

namespace Sys2Proof.Machine

theorem sysPriv_of_allowed {s : State} {i : Issue} {space : Nat} (hi : s.issue = some i)
    (hh : (s.crew i.ref).handling.isSome = true) (mode : space = 2 → (s.crew i.ref).trapMode = true) :
    s.sysPriv space = none := by
  have inside : (s.crew i.ref).handling.isNone = false := by simpa [Option.isNone_eq_false_iff] using hh
  simp only [State.sysPriv, hi, inside, Bool.false_or]
  refine if_neg fun bad => ?_
  simp only [Bool.and_eq_true, beq_iff_eq, Bool.not_eq_true'] at bad
  exact absurd (mode bad.1) (by simp [bad.2])

theorem sysPriv_of_outside {s : State} {i : Issue} (space : Nat) (hi : s.issue = some i)
    (hh : (s.crew i.ref).handling = none) : s.sysPriv space = some causePriv := by
  simp [State.sysPriv, hi, hh]

theorem sysPriv_of_user {s : State} {i : Issue} (hi : s.issue = some i) (mode : (s.crew i.ref).trapMode = false) :
    s.sysPriv 2 = some causePriv := by
  simp [State.sysPriv, hi, mode]

/-- SYS.R writes the words of its space in the effective lanes of its destination (R301). -/
theorem execSysR_reads {s : State} {i : Issue} {f : K64} (h : s.issues i (kNeeds f [f.d.toNat] [f.d.toNat]) = true)
    (allowed : s.sysPriv (sysSpace f) = none) :
    ∃ t, execSysR f s = .next t ∧ Retired s t i (slotOf f.sbs) (partK s i f) ∧ SamePreds (s.crew i.ref) (t.crew i.ref) ∧
      OneReg (s.crew i.ref) (t.crew i.ref) f.d.toNat (partK s i f)
        (fun l => s.sysWord i.ref (sysSpace f) (sysIndex f) l) := by
  have hc := issues_hasCrew h
  let g : L64 := { L64.neutral with d := f.d }
  let c := contentOf (fun l => s.sysWord i.ref (sysSpace f) (sysIndex f) l)
  have run : execSysR f s = .next ((s.produce i g (partK s i f) (c, 0)).sets i (slotOf f.sbs) (partK s i f) 8) := by
    unfold execSysR
    rw [allowed, issueWith_ok _ (by exact h), show s.eff i f.pred f.pn = partK s i f from rfl]
    by_cases none_ : partK s i f = 0
    · simp [none_, State.produce, State.retire, State.retired, State.sets, g, L64.neutral]
    · simp only [beq_false_of_ne none_, State.produce, Bool.or_false, Bool.false_eq_true, if_false]
      simp [State.retire, State.retired, g, c, L64.neutral]
  obtain ⟨retired, next, preds, reg, -⟩ := produce_spec s i g (partK s i f) (c, 0) false hc
  obtain ⟨retired', regs', threads'⟩ := sets_spec s _ i (slotOf f.sbs) (partK s i f) 8 retired
    (produce_hasCrew s i g (partK s i f) (c, 0) false hc) next
  have reg' := reg.followed (u := ((s.produce i g (partK s i f) (c, 0)).sets i (slotOf f.sbs) (partK s i f) 8).crew i.ref)
    ⟨regs', fun l hl => (threads' l hl).2⟩
  refine ⟨_, run, retired', samePreds_trans preds fun l hl => (threads' l hl).1,
    ⟨fun hd l hl => ?_, reg'.others, reg'.taints⟩⟩
  rw [← lane_contentOf (fun l => s.sysWord i.ref (sysSpace f) (sysIndex f) l) l hl]
  exact reg'.dest hd l hl

/-- SYS.W begins a release point with its lanes' values (R301). -/
theorem execSysW_begins {s : State} {i : Issue} {f : K64} {x : Content × Mask}
    (h : s.issues i { kNeeds f [f.a.toNat] [] with bare := true, head := true } = true)
    (allowed : s.sysPriv (sysSpace f) = none) (hx : s.operand i f.a.toNat = .ok x) (hp : partK s i f ≠ 0) :
    execSysW f s = .next (s.startPoint i (.sysWrite (sysSpace f) (sysIndex f) x.1) (partK s i f) 0 (slotOf f.sbs)) := by
  have part : (s.eff i f.pred f.pn == 0) = false := beq_false_of_ne hp
  unfold execSysW
  rw [allowed, issueWith_ok _ (by exact h)]
  simp only [part, hx, Bool.false_eq_true, if_false]
  rfl

/-- SYS with a cause raises it before anything else. -/
theorem execSys_early {ins : Instr} {f : K64} {s : State} {i : Issue} (hf : ins = .sysR f ∨ ins = .sysW f)
    (hi : s.issue = some i) (he : s.sysPriv (sysSpace f) = some causePriv) :
    exec ins s = .next (s.failAll i i.part causePriv) := by
  obtain rfl | rfl := hf
  · exact issueWith_early _ hi he
  · exact issueWith_early _ hi he

end Sys2Proof.Machine
end

section
namespace Sys2Proof

open Machine Claims

/-- TRET holds its threads, returns with the last of them, and raises PRIV outside a handler (R300). -/
theorem tretReturns : TretReturns := by
  intro ins f hf s i cls
  have run : exec ins s = s.tretWith f := by
    obtain rfl | ⟨rfl, rfl⟩ := hf
    · rfl
    · rfl
  rw [run]
  refine ⟨fun h hh hg hd hp alive => ⟨tretWith_waits h hh hg hp alive, fun others terminal credits even => ?_⟩,
    fun hi hc hh hg hp => ⟨_, ?_, failAll_priv_raises hc hh hg hp⟩⟩
  · obtain ⟨t, ht, back⟩ := tretWith_returns h hh hg hd hp alive others terminal credits even
    refine ⟨t, ht, back.elsewhere, back.handling, back.trapMode, back.turn, back.run, back.resumeAt, fun l hl ha => ?_⟩
    obtain ⟨pc, ready⟩ := back.pc l hl ha
    exact ⟨pc, ready, fun k hk => back.saved l k hl ha hk⟩
  · exact issueWith_early _ hi (by simp [hi, hh])

/-- SYS.R, SYS.W, and both where they are not allowed (R301, R302). -/
theorem sideBufferInstructions : SideBufferInstructions := by
  refine ⟨fun f s i h hh mode => execSysR_reads h (sysPriv_of_allowed (issues_issue h) hh mode),
    fun f s i x h hh mode hx hp => ?_, fun ins f hf s i hi hc hh hg hp => ?_, fun ins f hf s i cls hi hc hh space mode hg hp => ?_⟩
  · obtain ⟨regs, -, -, -, ⟨p, point, kind, lanes, -, sent, -⟩, threads⟩ := startPoint_begun s i
      (.sysWrite (sysSpace f) (sysIndex f) x.1) (partK s i f) 0 (slotOf f.sbs) (issues_hasCrew h)
    refine ⟨_, execSysW_begins h (sysPriv_of_allowed (issues_issue h) hh mode) hx hp,
      sameMemory_of_ledger (startPoint_ledger ..), regs, ⟨p, point, kind, lanes, sent⟩, fun l hl hx => ?_⟩
    rw [(threads l hl).2, if_pos hx]
  · exact ⟨_, execSys_early hf hi (sysPriv_of_outside _ hi hh), failAll_priv_raises hc hh hg hp⟩
  · exact ⟨_, execSys_early hf hi (space ▸ sysPriv_of_user hi mode), failAll_priv_dies hc (by rw [hh]; rfl) hg hp⟩

/-- Settles O17: TRET's threads are held until the last of them returns; SYS acts in a handler alone. -/
theorem trapReturnAndSideBufferInstructions : Obligations.TrapReturnAndSideBufferInstructions :=
  ⟨tretReturns, sideBufferInstructions⟩

end Sys2Proof
end

section
/-! ## Effects held in the current region (R156) -/

open Sys2Proof Sys2Proof.Claims

namespace Sys2Proof.Machine

theorem Crew.hold_last {w : Crew} {q : Region} (h : w.regions.getLast? = some q) (e : Effect) (n : Nat) :
    (w.hold e n).regions.getLast? = some { q with effects := q.effects ++ [e], entries := q.entries + n } := by
  rw [List.getLast?_eq_getElem?] at h
  rw [Crew.hold, Crew.modRegion, List.getLast?_eq_getElem?, modifyAt_length, modifyAt_getElem?, if_pos rfl, h]
  rfl

/-- A setter that waits for nothing raises no slot. -/
theorem setter_zero_crew (s : State) (i : Issue) (slot : Nat) (hc : s.hasCrew i.ref = true) :
    (s.setter i slot 0).2.crew i.ref = s.crew i.ref := by
  have fresh : s.fresh.2.hasCrew i.ref = true := hc
  exact crew_modCrew _ _ _ fresh

/-- An effect held in the current region, before its instruction's group retires. -/
def State.held (s : State) (i : Issue) (slot : Nat) (e : Effect) (n : Nat) : State :=
  (s.setter i slot 0).2.modCrew i.ref (fun w => w.hold e n)

theorem State.held_stands (s : State) (i : Issue) (slot : Nat) (e : Effect) (n : Nat) (hc : s.hasCrew i.ref = true) :
    CrewStands s (s.held i slot e n) i.ref := by
  have set := setter_stands s i slot 0 hc
  exact set.trans (crewStands_modCrew set.slot (.refl _) ⟨_, _, _, rfl⟩)

theorem State.held_crew (s : State) (i : Issue) (slot : Nat) (e : Effect) (n : Nat) (hc : s.hasCrew i.ref = true) :
    (s.held i slot e n).crew i.ref = (s.crew i.ref).hold e n := by
  rw [State.held, crew_modCrew _ _ _ (setter_stands s i slot 0 hc).slot, setter_zero_crew s i slot hc]

theorem retire_regions (s : State) (i : Issue) (moves : Bool) (hc : s.hasCrew i.ref = true) :
    ((s.retire i moves).crew i.ref).regions = (s.crew i.ref).regions := by
  obtain ⟨tn, rn, e⟩ := retire_crew_fields s i moves hc
  rw [e]
  rfl

/-- A barrier update with room is held with one entry, and its group goes on (R156, R328). -/
theorem holdBarrier_held {s : State} {i : Issue} {f : M64} {e : Effect} (hc : s.hasCrew i.ref = true)
    (room : (s.crew i.ref).entriesUsed + 1 ≤ Config.quarantineEntries) :
    EffectHeld s (s.holdBarrier i f e) i 1 (fun x => x = e) := by
  have stands := s.held_stands i (slotOf f.sbs) e 1 hc
  have held : s.holdBarrier i f e = (s.held i (slotOf f.sbs) e 1).retire i false := by
    simp only [State.holdBarrier, State.needEntries, if_pos room]
    rfl
  rw [held]
  obtain ⟨issued, memory⟩ := stands.issued none
  refine ⟨issued, memory, fun q hq =>
    ⟨{ q with effects := q.effects ++ [e], entries := q.entries + 1 }, e, ?_, rfl, rfl, rfl, rfl⟩⟩
  rw [retire_regions _ _ _ stands.slot, s.held_crew _ _ _ _ hc]
  exact Crew.hold_last hq e 1

end Sys2Proof.Machine
end

section
/-! ## Barrier updates (R325 to R328) -/

open Sys2Proof Sys2Proof.Claims

namespace Sys2Proof.Machine

/-- A barrier instruction of a crew in a group, whose offset passes its checks, acts on the object there (R40, R325). -/
theorem barrierWith_ok {s : State} {i : Issue} {f : M64} {bare bind : Bool} {regs : List Nat} {off : Nat}
    (body : Issue → State → Mask → Nat → Nat → State)
    (h : s.issues i { mNeeds f (namesOf (f.a.toNat :: regs)) [] with bare := bare } = true) (hp : partM s i f ≠ 0)
    (hg : (s.gslotOf i.ref).isSome = true) (ho : s.barOffset i f (Mask.lowest (partM s i f)) bind = .ok off) :
    s.barrierWith f bare bind regs body = .next (body i s (partM s i f) (Mask.lowest (partM s i f)) off) := by
  have part : (partM s i f == 0) = false := beq_false_of_ne hp
  have grouped : (s.gslotOf i.ref).isNone = false := by simpa [Option.isNone_eq_false_iff] using hg
  have e : s.barrierWith f bare bind regs body = .next _ := issueWith_ok _ h
  unfold partM at part ho
  simp only [part, grouped, ho, Bool.false_eq_true, if_false] at e
  exact e

/-- BARI binds an object within its group's limit (R326). -/
theorem execBari_holds {f : M64} {s : State} {i : Issue} {g : Group} {off v : Nat}
    (h : s.issues i { mNeeds f (namesOf [f.a.toNat, f.d.toNat]) [] with bare := true } = true) (hp : partM s i f ≠ 0)
    (hs : (s.gslotOf i.ref).isSome = true) (hg : s.groupOf i.ref = some g)
    (hv : (lane ((s.crew i.ref).source s.freeCtr f.d.toNat) (Mask.lowest (partM s i f))).toNat = v)
    (ho : s.barOffset i f (Mask.lowest (partM s i f)) true = .ok off) (expect : v % 65536 ≠ 0)
    (class_ : v / 65536 = 0 ∨ (12 ≤ v / 65536 ∧ v / 65536 ≤ 30))
    (limit : (off :: (g.barriers ++ s.pendingBinds i.core g)).eraseDups.length ≤ g.barrierLimit) :
    execBari f s = .next (s.holdBarrier i f (.bari off (v % 65536) (v / 65536))) := by
  have expects : (v % 65536 == 0) = false := beq_false_of_ne expect
  have classes : (v / 65536 == 0 || (decide (12 ≤ v / 65536) && decide (v / 65536 ≤ 30))) = true := by simpa using class_
  refine (barrierWith_ok _ h hp hs ho).trans (congrArg _ ?_)
  simp only [hg, hv, Option.map_some, Option.getD_some, expects, classes, decide_eq_false (Nat.not_lt.2 limit), Bool.not_true,
    Bool.or_false, Bool.false_eq_true, if_false]

/-- BARA counts what its hint names (R325, R327). -/
theorem execBara_holds {f : M64} {s : State} {i : Issue} {off : Nat}
    (h : s.issues i { mNeeds f (namesOf (f.a.toNat :: (if f.hint == 0 then [f.d.toNat] else []))) [] with bare := true } = true)
    (hp : partM s i f ≠ 0) (hs : (s.gslotOf i.ref).isSome = true)
    (ho : s.barOffset i f (Mask.lowest (partM s i f)) false = .ok off) :
    execBara f s = .next (s.holdBarrier i f (.bara off
      (if f.hint = 0 then (lane ((s.crew i.ref).source s.freeCtr f.d.toNat) (Mask.lowest (partM s i f))).toNat % 65536
       else if f.hint = 1 then (partM s i f).lanes.length else 1) (partM s i f))) := by
  refine (barrierWith_ok _ h hp hs ho).trans ?_
  simp only [beq_iff_eq]

/-- BARX adds the bytes of its register (R327). -/
theorem execBarx_holds {f : M64} {s : State} {i : Issue} {off : Nat}
    (h : s.issues i { mNeeds f (namesOf [f.a.toNat, f.d.toNat]) [] with bare := true } = true) (hp : partM s i f ≠ 0)
    (hs : (s.gslotOf i.ref).isSome = true) (ho : s.barOffset i f (Mask.lowest (partM s i f)) false = .ok off) :
    execBarx f s = .next (s.holdBarrier i f (.barx off
      (lane ((s.crew i.ref).source s.freeCtr f.d.toNat) (Mask.lowest (partM s i f))) (partM s i f))) :=
  barrierWith_ok _ h hp hs ho

theorem barrierUpdatesAreHeld : BarrierUpdatesAreHeld :=
  ⟨fun _ _ _ _ _ h hp hs hg ho expect class_ limit room =>
      ⟨_, execBari_holds h hp hs hg rfl ho expect class_ limit, holdBarrier_held (issues_hasCrew h) room⟩,
    fun _ _ _ _ h hp hs ho room => ⟨_, execBara_holds h hp hs ho, holdBarrier_held (issues_hasCrew h) room⟩,
    fun _ _ _ _ h hp hs ho room => ⟨_, execBarx_holds h hp hs ho, holdBarrier_held (issues_hasCrew h) room⟩⟩

end Sys2Proof.Machine
end

section
/-! ## Waits for barriers and timelines (R329, R330, R348) -/

open Sys2Proof Sys2Proof.Claims

namespace Sys2Proof.Machine

theorem CrewStands.refl {s : State} {r : CrewRef} (hc : s.hasCrew r = true) : CrewStands s s r := crewStands_of_scene hc rfl

theorem dropLd_stands {s : State} {r : CrewRef} (hc : s.hasCrew r = true) : CrewStands s (s.dropLd r) r :=
  crewStands_of_scene hc (s.dropLd_scene r)

/-- A head moves no thread. -/
theorem head_stands {s : State} {r : CrewRef} (hc : s.hasCrew r = true) : CrewStands s (s.head r) r := by
  have same := head_sameElse s r hc
  refine ⟨head_hasCrew s r hc, rfl, same.sameMemory, fun q hq => same.crew q hq, ?_, ?_, ?_, fun l _ => ?_, fun l _ => ?_⟩ <;>
    rw [head_crew s r hc]
  · exact ⟨rfl, rfl, rfl, rfl, rfl, rfl, rfl, rfl, rfl, rfl, rfl, rfl, rfl⟩
  · exact ⟨fun _ => rfl, fun _ _ => rfl⟩
  · exact fun _ _ => rfl
  · rfl
  · rfl

/-- Outside gambits, and with a snapshot free, a group that blocks does so at once or behind a head (R153). -/
theorem blockHead_ok {s : State} {i : Issue} (hg : (s.crew i.ref).gambit = none) (hh : (s.crew i.ref).canHead = true)
    (hc : s.hasCrew i.ref = true) : ∃ u, s.blockHead i = .ok u ∧ CrewStands s u i.ref := by
  by_cases holds : (s.crew i.ref).regionHolds = true
  · refine ⟨s.head i.ref, ?_, head_stands hc⟩
    simp [State.blockHead, holds, hg, hh]
  · refine ⟨s, ?_, .refl hc⟩
    simp [State.blockHead, holds]

/-- Threads held after their crew has stood. -/
theorem CrewStands.heldIn {s u : State} {i : Issue} (h : CrewStands s u i.ref) (part : Mask) (q : Nat → RunState) :
    HeldIn s (u.stayed i part q) i part q := by
  have held := State.stayed_spec part q h.slot
  refine ⟨held.issue, sameMemory_trans h.memory held.elsewhere.sameMemory, sameRegs_trans h.regs held.regs,
    samePreds_trans h.preds held.preds, fun l hl => ⟨?_, ?_⟩⟩
  · rw [held.pc l hl, h.pc l hl]
  · rw [held.run l hl, h.run l hl]

/-- A wait holds its effective threads, some until what they wait for and the others for a number of cycles (R329, R348). -/
theorem awaitWith_held {s : State} {i : Issue} (part stay : Mask) (what : Nat → Await) (n : Nat) (hc : s.hasCrew i.ref = true)
    (hg : (s.crew i.ref).gambit = none) (hh : (s.crew i.ref).canHead = true) :
    HeldIn s (s.awaitWith i part stay what n) i part
      (fun l => .barrier (if stay.getLsbD l then what l else .returns (s.cycle + n)) s.cycle) := by
  obtain ⟨u, eq, stands⟩ : ∃ u, (if stay == 0 then .ok s else s.blockHead i) = Except.ok u ∧ CrewStands s u i.ref := by
    by_cases none_ : stay = 0
    · exact ⟨s, if_pos (beq_iff_eq.2 none_), .refl hc⟩
    · obtain ⟨u, eq, stands⟩ := blockHead_ok hg hh hc
      exact ⟨u, (if_neg (mt eq_of_beq none_)).trans eq, stands⟩
  simp only [State.awaitWith, eq]
  exact (stands.trans (dropLd_stands stands.slot)).heldIn part _

/-- The run states of held threads outside the mask play no part. -/
theorem heldIn_congr {s t : State} {i : Issue} {stay : Mask} {q p : Nat → RunState} (h : HeldIn s t i stay q)
    (e : ∀ l, l < 32 → stay.getLsbD l = true → q l = p l) : HeldIn s t i stay p := by
  obtain ⟨issue, memory, regs, preds, threads⟩ := h
  refine ⟨issue, memory, regs, preds, fun l hl => ⟨(threads l hl).1, (threads l hl).2.trans ?_⟩⟩
  split
  · next hs => exact e l hl hs
  · rfl

/-- The lanes that wait among the effective ones are those that a test names. -/
theorem getLsbD_and_ofFn {part : Mask} {l : Nat} (hl : l < 32) (hp : part.getLsbD l = true) (p : Nat → Bool) :
    (part &&& Mask.ofFn p).getLsbD l = p l := by
  rw [BitVec.getLsbD_and, hp, getLsbD_ofFn p l hl, Bool.true_and]

/-- BARW holds each effective thread until PARITY differs from its Gd[0] (R329). -/
theorem execBarw_held {f : M64} {s : State} {i : Issue} {g : Group} {off : Nat}
    (h : s.issues i { mNeeds f (namesOf [f.a.toNat, f.d.toNat]) [] with bare := true } = true) (hp : partM s i f ≠ 0)
    (hs : (s.gslotOf i.ref).isSome = true) (hgr : s.groupOf i.ref = some g) (hh : (s.crew i.ref).canHead = true)
    (hg : (s.crew i.ref).gambit = none) (ho : s.barOffset i f (Mask.lowest (partM s i f)) false = .ok off) :
    let par := (s.barObj i.core g off).parity
    ∃ t, execBarw f s = .next t ∧ HeldIn s t i (partM s i f) (fun l => .barrier
      (if (lane ((s.crew i.ref).source s.freeCtr f.d.toNat) l).getLsbD 0 == par then .parity off par
       else .returns (s.cycle + 24)) s.cycle) := by
  intro par
  let stay := partM s i f &&& Mask.ofFn (fun l => (lane ((s.crew i.ref).source s.freeCtr f.d.toNat) l).getLsbD 0 == par)
  have run : execBarw f s = .next (s.awaitWith i (partM s i f) stay (fun _ => .parity off par) 24) := by
    refine (barrierWith_ok _ h hp hs ho).trans (congrArg _ ?_)
    simp only [hgr]
    rfl
  refine ⟨_, run, heldIn_congr (awaitWith_held _ stay _ 24 (issues_hasCrew h) hg hh) fun l hl hx => ?_⟩
  simp only [stay, getLsbD_and_ofFn hl hx]

/-- An engine instruction of a crew in a group, with an effective lane, does what it is for (R334, R340). -/
theorem engineWith_ok {s : State} {i : Issue} {f : L64} {names writes : List Nat} {handler : Bool}
    (body : Issue → State → Mask → Nat → State) (h : s.issues i { lNeeds f names writes with bare := true } = true)
    (hp : partL s i f ≠ 0) (hs : (s.gslotOf i.ref).isSome = true) :
    s.engineWith f names writes handler body = .next (body i s (partL s i f) (Mask.lowest (partL s i f))) := by
  have part : (s.eff i f.pred f.pn == 0) = false := beq_false_of_ne hp
  have grouped : (s.gslotOf i.ref).isNone = false := by simpa [Option.isNone_eq_false_iff] using hs
  have e : s.engineWith f names writes handler body = .next _ := issueWith_ok _ h
  simp only [part, grouped, Bool.and_false, Bool.false_eq_true, if_false] at e
  exact e

/-- TLWAIT holds each effective thread until the counter has reached its number (R348). -/
theorem execTlwait_held {f : L64} {s : State} {i : Issue} {g : Group} {tl : Timeline}
    (h : s.issues i { lNeeds f [f.a.toNat, f.a.toNat + 1] [] with bare := true } = true) (hp : partL s i f ≠ 0)
    (hs : (s.gslotOf i.ref).isSome = true) (hgr : s.groupOf i.ref = some g) (htl : g.timelines[f.c.toNat % 8]? = some tl)
    (hh : (s.crew i.ref).canHead = true) (hg : (s.crew i.ref).gambit = none) :
    let n := fun l => (s.crew i.ref).pair s.freeCtr f.a.toNat l
    ∃ t, execTlwait f s = .next t ∧ HeldIn s t i (partL s i f) (fun l => .barrier
      (if tl.counter < n l then .timeline (f.c.toNat % 8) (n l) else .returns (s.cycle + 8)) s.cycle) := by
  intro n
  let stay := partL s i f &&& Mask.ofFn (fun l => decide (tl.counter < n l))
  have run : execTlwait f s = .next (s.awaitWith i (partL s i f) stay (fun l => .timeline (f.c.toNat % 8) (n l)) 8) := by
    refine (engineWith_ok _ h hp hs).trans (congrArg _ ?_)
    simp only [hgr, Option.bind_some, htl, Option.map_some, Option.getD_some]
    rfl
  refine ⟨_, run, heldIn_congr (awaitWith_held _ stay _ 8 (issues_hasCrew h) hg hh) fun l hl hx => ?_⟩
  simp only [stay, getLsbD_and_ofFn hl hx, decide_eq_true_eq]

/-- BART's word is due 24 cycles after issue (R330). -/
theorem execBart_due {f : M64} {s : State} {i : Issue} {g : Group} {off : Nat} (hd : f.d.toNat < 64)
    (h : s.issues i { mNeeds f (namesOf [f.a.toNat, f.d.toNat]) [] with bare := false } = true) (hp : partM s i f ≠ 0)
    (hs : (s.gslotOf i.ref).isSome = true) (hgr : s.groupOf i.ref = some g)
    (ho : s.barOffset i f (Mask.lowest (partM s i f)) false = .ok off)
    (order : s.orderWait i [{ lane := Mask.lowest (partM s i f), va := off, target :=
      { loc := .scratch i.core (g.scrBase + off), page := .window, walk := none, ownVault := false } }] 0 = none)
    (credits : (s.crew i.ref).creditsFor [f.d.toNat] ≤ (s.crew i.ref).creditsFree) :
    ∃ t, execBart f s = .next t ∧ Issued s t i ∧ SameMemory s t ∧ DueValue s t i [f.d.toNat] (partM s i f)
      (contentOf (fun _ => BitVec.ofNat 32 ((s.barObj i.core g off).toNum / 2 ^ 64))) 24 := by
  have free : s.needCredits i (partM s i f) [f.d.toNat] = none := by simp [State.needCredits, hd, credits]
  have e : execBart f s = .next _ := barrierWith_ok _ h hp hs ho
  simp only [hgr, order, groupRegs_one hd, free] at e
  have dropped := dropLd_stands (issues_hasCrew h)
  obtain ⟨started, due⟩ := startValue_spec (s.dropLd i.ref) i (slotOf f.sbs) f.d.toNat (partM s i f)
    (contentOf (fun _ => BitVec.ofNat 32 ((s.barObj i.core g off).toNum / 2 ^ 64)))
    (if ((s.crew i.ref).sourceTaint f.a.toNat).getLsbD (Mask.lowest (partM s i f)) then BitVec.allOnes 32 else 0) 24 dropped.slot
  exact ⟨_, e, (dropped.trans started).due due none⟩

/-- A thread whose wait has returned goes past its instruction. -/
theorem Crew.wake_returned {w : Crew} {l at_ since now : Nat} (hl : l < w.threads.length)
    (waits : (w.thread l).run = .barrier (.returns at_) since) (due : at_ ≤ now) :
    (w.wake now).thread l = { w.thread l with pc := (w.thread l).pc + 8, run := .ready } := by
  have there : w.threads[l]? = some (w.thread l) := by
    rw [Crew.thread, List.getD_eq_getElem?_getD, List.getElem?_eq_getElem hl]
    rfl
  rw [Crew.thread, Crew.wake, List.getD_eq_getElem?_getD, List.getElem?_map, there, Option.map_some, Option.getD_some, waits]
  exact if_pos due

theorem barrierAndTimelineWaits : BarrierAndTimelineWaits := by
  refine ⟨fun f s i g off h hp hs hgr hh hg ho => execBarw_held h hp hs hgr hh hg ho,
    fun f s i g off hd h hp hs hgr => ?_, fun f s i g tl h hp hs hgr htl hh hg => execTlwait_held h hp hs hgr htl hh hg,
    fun w l at_ since now hl waits due => Crew.wake_returned hl waits due⟩
  intro l0 ho order credits
  obtain ⟨t, ht, issued, memory, due⟩ := execBart_due hd h hp hs hgr ho order credits
  refine ⟨t, ht, issued, memory, _, due, fun l hl => ?_⟩
  rw [lane_contentOf _ _ hl, BitVec.toNat_ofNat]

end Sys2Proof.Machine
end

section
namespace Sys2Proof

open Machine

/-- Settles O24: updates are held as effects; waits hold their threads, whose return goes past the instruction. -/
theorem barrierUpdatesAndWaits : Obligations.BarrierUpdatesAndWaits := ⟨barrierUpdatesAreHeld, barrierAndTimelineWaits⟩

end Sys2Proof
end

section
/-! ## Bytes that are written over zeros (R7)

A mark of a page table entry is never all zero: its first byte has A and D. A run whose first byte is not what an unlisted
address reads as changes no other byte, in whatever form the cells stand. -/

open Sys2Proof.Claims

namespace Sys2Proof.Machine

theorem cellGet_cons (a : Nat) (v : Byte) (r : List Host.Cell) (j : Nat) :
    cellGet ((a, v) :: r) j = if a == j then v else if j < a then Config.unwritten else cellGet r j := rfl

theorem cellPut_cons (a : Nat) (v : Byte) (r : List Host.Cell) (i : Nat) (x : Byte) : cellPut ((a, v) :: r) i x =
    if a == i then (if x == Config.unwritten then r else (i, x) :: r)
    else if i < a then (if x == Config.unwritten then (a, v) :: r else (i, x) :: (a, v) :: r)
    else (a, v) :: cellPut r i x := rfl

theorem cellsWrite_cons (m : List Host.Cell) (a : Nat) (b : Byte) (r : List Byte) :
    cellsWrite m a (b :: r) = cellsWrite (cellPut m a b) (a + 1) r := rfl

/-! The places of a write among the cells: at an entry, before the first, and behind it. -/

theorem cellPut_at (a : Nat) (v : Byte) (r : List Host.Cell) (x : Byte) :
    cellPut ((a, v) :: r) a x = if x == Config.unwritten then r else (a, x) :: r := by
  rw [cellPut_cons, beq_self_eq_true, if_pos rfl]

theorem cellPut_before {a i : Nat} (v : Byte) (r : List Host.Cell) (x : Byte) (h : i < a) :
    cellPut ((a, v) :: r) i x = if x == Config.unwritten then (a, v) :: r else (i, x) :: (a, v) :: r := by
  rw [cellPut_cons, beq_false_of_ne (show a ≠ i by omega), if_neg Bool.false_ne_true, if_pos h]

theorem cellPut_behind {a i : Nat} (v : Byte) (r : List Host.Cell) (x : Byte) (h : a < i) :
    cellPut ((a, v) :: r) i x = (a, v) :: cellPut r i x := by
  rw [cellPut_cons, beq_false_of_ne (show a ≠ i by omega), if_neg Bool.false_ne_true, if_neg (show ¬ i < a by omega)]

theorem cellGet_at (a : Nat) (v : Byte) (r : List Host.Cell) : cellGet ((a, v) :: r) a = v := by
  rw [cellGet_cons, beq_self_eq_true, if_pos rfl]

theorem cellGet_before {a j : Nat} (v : Byte) (r : List Host.Cell) (h : j < a) :
    cellGet ((a, v) :: r) j = Config.unwritten := by
  rw [cellGet_cons, beq_false_of_ne (show a ≠ j by omega), if_neg Bool.false_ne_true, if_pos h]

theorem cellGet_behind {a j : Nat} (v : Byte) (r : List Host.Cell) (h : a < j) : cellGet ((a, v) :: r) j = cellGet r j := by
  rw [cellGet_cons, beq_false_of_ne (show a ≠ j by omega), if_neg Bool.false_ne_true, if_neg (show ¬ j < a by omega)]

/-- The bytes of cells with an entry in front differ where the bytes behind it do. -/
theorem cellGet_cons_congr (a : Nat) (v : Byte) {r q : List Host.Cell} {j : Nat} (h : a < j → cellGet q j = cellGet r j) :
    cellGet ((a, v) :: q) j = cellGet ((a, v) :: r) j := by
  rcases lt_trichotomy j a with lt | rfl | gt
  · rw [cellGet_before v q lt, cellGet_before v r lt]
  · rw [cellGet_at, cellGet_at]
  · rw [cellGet_behind v q gt, cellGet_behind v r gt, h gt]

/-! ### One byte written -/

/-- A byte that is listed when it is written leaves every other byte alone. -/
theorem cellGet_cellPut_ne_of_written (m : List Host.Cell) {i j : Nat} {x : Byte} (hx : x ≠ Config.unwritten) (hj : j ≠ i) :
    cellGet (cellPut m i x) j = cellGet m j := by
  have listed : ¬ (x == Config.unwritten) = true := mt eq_of_beq hx
  have fresh : ∀ r : List Host.Cell, (j < i → cellGet r j = Config.unwritten) → cellGet ((i, x) :: r) j = cellGet r j :=
    fun r below => by
      rcases lt_or_gt_of_ne hj with lt | gt
      · rw [cellGet_before x r lt, below lt]
      · rw [cellGet_behind x r gt]
  induction m with
  | nil => exact (congrArg (cellGet · j) (if_neg listed)).trans (fresh [] fun _ => rfl)
  | cons c r ih =>
    obtain ⟨a, v⟩ := c
    rcases lt_trichotomy i a with before | rfl | behind
    · rw [cellPut_before v r x before, if_neg listed]
      exact fresh _ fun lt => cellGet_before v r (by omega)
    · rw [cellPut_at, if_neg listed, cellGet_cons, cellGet_cons, beq_false_of_ne (Ne.symm hj)]
      rfl
    · rw [cellPut_behind v r x behind]
      exact cellGet_cons_congr a v fun _ => ih

theorem cellGet_cellPut_written (m : List Host.Cell) (i : Nat) {x : Byte} (hx : x ≠ Config.unwritten) :
    cellGet (cellPut m i x) i = x := by
  have listed : ¬ (x == Config.unwritten) = true := mt eq_of_beq hx
  induction m with
  | nil => exact (congrArg (cellGet · i) (if_neg listed)).trans (cellGet_at i x [])
  | cons c r ih =>
    obtain ⟨a, v⟩ := c
    rcases lt_trichotomy i a with before | rfl | behind
    · rw [cellPut_before v r x before, if_neg listed, cellGet_at]
    · rw [cellPut_at, if_neg listed, cellGet_at]
    · rw [cellPut_behind v r x behind, cellGet_behind v _ behind, ih]

/-- A write leaves a byte alone that no entry at the written place stands before. -/
theorem cellGet_cellPut_unwritten (m : List Host.Cell) {i j : Nat}
    (at_ : ∀ (v : Byte) (r : List Host.Cell), cellGet ((i, v) :: r) j = cellGet r j) :
    cellGet (cellPut m i Config.unwritten) j = cellGet m j := by
  have unlisted : (Config.unwritten == Config.unwritten) = true := beq_self_eq_true _
  induction m with
  | nil => rfl
  | cons c r ih =>
    obtain ⟨a, v⟩ := c
    rcases lt_trichotomy i a with before | rfl | behind
    · rw [cellPut_before v r _ before, if_pos unlisted]
    · rw [cellPut_at, if_pos unlisted, at_]
    · rw [cellPut_behind v r _ behind]
      exact cellGet_cons_congr a v fun _ => ih

/-- A write leaves every byte above it alone. -/
theorem cellGet_cellPut_above (m : List Host.Cell) {i j : Nat} (x : Byte) (hj : i < j) :
    cellGet (cellPut m i x) j = cellGet m j := by
  by_cases hx : x = Config.unwritten
  · rw [hx, cellGet_cellPut_unwritten m fun v r => cellGet_behind v r hj]
  · exact cellGet_cellPut_ne_of_written m hx (by omega)

/-- A write above a byte that is not what unlisted addresses read as leaves that byte, and all below it, alone. -/
theorem cellGet_cellPut_below (m : List Host.Cell) {p i j : Nat} (x : Byte) (hp : cellGet m p ≠ Config.unwritten) (hi : p < i)
    (hj : j ≤ p) : cellGet (cellPut m i x) j = cellGet m j := by
  by_cases hx : x = Config.unwritten
  · induction m with
    | nil => exact absurd rfl hp
    | cons c r ih =>
      obtain ⟨a, v⟩ := c
      have within : a ≤ p := by
        by_contra above
        exact hp (cellGet_before v r (by omega))
      rw [cellPut_behind v r x (by omega)]
      refine cellGet_cons_congr a v fun lt => ih ?_
      rwa [cellGet_behind v r (by omega)] at hp
  · exact cellGet_cellPut_ne_of_written m hx (by omega)

/-! ### A run of bytes written -/

theorem cellGet_cellsWrite_above (bs : List Byte) (m : List Host.Cell) {a j : Nat} (hj : a + bs.length ≤ j) :
    cellGet (cellsWrite m a bs) j = cellGet m j := by
  induction bs generalizing m a with
  | nil => rfl
  | cons b r ih =>
    rw [List.length_cons] at hj
    rw [cellsWrite_cons, ih _ (by omega), cellGet_cellPut_above m b (by omega)]

theorem cellGet_cellsWrite_below (bs : List Byte) (m : List Host.Cell) {p a j : Nat} (hp : cellGet m p ≠ Config.unwritten)
    (ha : p < a) (hj : j ≤ p) : cellGet (cellsWrite m a bs) j = cellGet m j := by
  induction bs generalizing m a with
  | nil => rfl
  | cons b r ih =>
    have kept : cellGet (cellPut m a b) p ≠ Config.unwritten := by rwa [cellGet_cellPut_below m b hp ha le_rfl]
    rw [cellsWrite_cons, ih _ kept (by omega), cellGet_cellPut_below m b hp ha hj]

/-- A run of cells whose first byte is listed changes no byte outside it. -/
theorem cellGet_cellsWrite_outside (m : List Host.Cell) {a j : Nat} {b : Byte} (bs : List Byte) (hb : b ≠ Config.unwritten)
    (hj : j < a ∨ a + (b :: bs).length ≤ j) : cellGet (cellsWrite m a (b :: bs)) j = cellGet m j := by
  rcases hj with below | above
  · have first : cellGet (cellPut m a b) a ≠ Config.unwritten := by rwa [cellGet_cellPut_written m a hb]
    rw [cellsWrite_cons, cellGet_cellsWrite_below bs _ first (Nat.lt_succ_self a) below.le,
      cellGet_cellPut_ne_of_written m hb (by omega)]
  · exact cellGet_cellsWrite_above _ m above

/-- In memory a run whose first byte is listed changes no byte outside it. -/
theorem putBytes_outside (s : State) (a : Nat) {b : Byte} (bs : List Byte) (hb : b ≠ Config.unwritten) :
    SameBytesOutside s (s.putBytes (.mem a) (b :: bs)) [(.mem a, (b :: bs).length)] := by
  intro q hq
  cases q with
  | scratch c o => rfl
  | mem k =>
    have apart : k < a ∨ a + (b :: bs).length ≤ k := by
      have none_ := hq _ (List.mem_singleton.2 rfl)
      simp only [Loc.overlaps, Bool.and_eq_false_iff, decide_eq_false_iff_not] at none_
      omega
    exact congrArg (fun x => [x]) (cellGet_cellsWrite_outside s.mem.cells bs hb apart)

end Sys2Proof.Machine
end

section
/-! ## Translations used by accesses (R67)

Checked accesses that write mark their page table entries, fill the TLBs and leave tags in their crew. -/

open Sys2Proof Sys2Proof.Claims

namespace Sys2Proof.Machine

/-- A region without its tags. -/
def Region.untagged (g : Region) : Region := { g with tags := [] }

/-- Translations have been used: the cycle and the other crews are as before, the crew of a slot is but for what stands for
its accesses, its regions but for their tags, and so is every byte outside some ranges. -/
structure Used (s u : State) (r : CrewRef) (ranges : List (Loc × Nat)) : Prop where
  slot : u.hasCrew r = true
  cycle : u.cycle = s.cycle
  others : ∀ q, q ≠ r → u.crew q = s.crew q
  settled : (u.crew r).settled = (s.crew r).settled
  regions : (u.crew r).regions.map Region.untagged = (s.crew r).regions.map Region.untagged
  bytes : SameBytesOutside s u ranges

theorem sameBytesOutside_of_ledger {s u : State} (h : u.ledger = s.ledger) (ranges : List (Loc × Nat)) :
    SameBytesOutside s u ranges := fun p _ => State.bytesAt_of_cells (State.cells_of_ledger h) p 1

theorem sameBytesOutside_trans {s u v : State} {a b : List (Loc × Nat)} (h : SameBytesOutside s u a)
    (k : SameBytesOutside u v b) : SameBytesOutside s v (a ++ b) := fun p hp =>
  (k p fun x hx => hp x (List.mem_append_right a hx)).trans (h p fun x hx => hp x (List.mem_append_left b hx))

/-- The crew of a slot keeps its threads and its registers where it is settled as before. -/
theorem hasCrew_of_settled {s u : State} {r : CrewRef} (hs : s.hasCrew r = true)
    (h : (u.crew r).settled = (s.crew r).settled) : u.hasCrew r = true := by
  obtain ⟨-, -, threads, map⟩ := (hasCrew_iff s r).1 hs
  refine hasCrew_of_crew ?_ ?_
  · rw [← threads]
    simpa [Crew.settled] using congrArg (fun w : Crew => w.threads.length) h
  · rw [← map]
    simpa only [Crew.settled] using congrArg (fun w : Crew => w.map.length) h

theorem Used.trans {s u v : State} {r : CrewRef} {a b : List (Loc × Nat)} (h : Used s u r a) (k : Used u v r b) :
    Used s v r (a ++ b) :=
  ⟨k.slot, k.cycle.trans h.cycle, fun q hq => (k.others q hq).trans (h.others q hq), k.settled.trans h.settled,
    k.regions.trans h.regions, sameBytesOutside_trans h.bytes k.bytes⟩

/-- What changes no crew. -/
theorem Used.of_crews {s u : State} {r : CrewRef} {a : List (Loc × Nat)} (hs : s.hasCrew r = true) (cycle : u.cycle = s.cycle)
    (crews : ∀ q, u.crew q = s.crew q) (bytes : SameBytesOutside s u a) : Used s u r a :=
  ⟨hasCrew_of_settled hs (by rw [crews]), cycle, fun q _ => crews q, by rw [crews], by rw [crews], bytes⟩

theorem Used.refl {s : State} {r : CrewRef} (hs : s.hasCrew r = true) : Used s s r [] :=
  .of_crews hs rfl (fun _ => rfl) fun _ _ => rfl

/-- What changes only what stands for accesses in the crew of a slot. -/
theorem Used.of_scene {s u : State} {r : CrewRef} (hs : s.hasCrew r = true) (h : u.scene r = s.scene r)
    (regions : (u.crew r).regions.map Region.untagged = (s.crew r).regions.map Region.untagged) : Used s u r [] := by
  have crews := fun q => congrFun (congrArg Scene.crews h) q
  have settled : (u.crew r).settled = (s.crew r).settled := by simpa only [State.scene, if_true] using crews r
  exact ⟨hasCrew_of_settled hs settled, congrArg Scene.cycle h,
    fun q hq => by simpa only [State.scene, if_neg hq] using crews q, settled, regions,
    sameBytesOutside_of_ledger (congrArg Scene.ledger h) _⟩

/-- A state whose scenes are those of another for every slot has its crews. -/
theorem crew_of_scenes {s u : State} (h : ∀ r, u.scene r = s.scene r) (q : CrewRef) : u.crew q = s.crew q := by
  have other : q ≠ { q with slot := q.slot + 1 } := fun e => absurd (congrArg CrewRef.slot e) (by simp)
  simpa only [State.scene, if_neg other] using congrFun (congrArg Scene.crews (h { q with slot := q.slot + 1 })) q

theorem fillTlb_used {s : State} {r : CrewRef} (core ctx va : Nat) (w : Walk) (pte : Nat) (hs : s.hasCrew r = true) :
    Used s (s.fillTlb core ctx va w pte).2 r [] :=
  .of_crews hs (congrArg Scene.cycle (s.fillTlb_scene core ctx va w pte r)) (crew_of_scenes (s.fillTlb_scene core ctx va w pte))
    (sameBytesOutside_of_ledger (congrArg Scene.ledger (s.fillTlb_scene core ctx va w pte r)) _)

theorem modCore_used {s : State} {r : CrewRef} (c : Nat) (f : Core → Core) (hs : s.hasCrew r = true)
    (hf : ∀ k, (f k).scratch = k.scratch ∧ (f k).descs = k.descs := by exact fun _ => ⟨rfl, rfl⟩)
    (subs : ∀ k, (f k).subs = k.subs := by exact fun _ => rfl) : Used s (s.modCore c f) r [] :=
  .of_crews hs rfl (fun q => crew_modCore_same s c f q subs) (sameBytesOutside_of_ledger (s.modCore_ledger c f hf) _)

/-! ### Marks of page table entries -/

/-- A write of one run of memory at its home changes no byte outside it, when its first byte is listed. -/
theorem writeNow_outside (s : State) (h : HomeId) (w : WriteReq) (a : Nat) {b : Byte} (bs : List Byte)
    (hb : b ≠ Config.unwritten) (hw : w.bytes = [(.mem a, b :: bs)]) :
    SameBytesOutside s (s.writeNow h w) [(.mem a, (b :: bs).length)] := by
  intro q hq
  by_cases outside : ∃ n, h = .outside n
  · obtain ⟨n, rfl⟩ := outside
    have sent : (s.writeNow (.outside n) w).ledger = s.ledger := by
      refine (State.ledger_of_exchange (State.respond_exchange ..)).trans ?_
      rw [State.applyWrite, hw]
      rfl
    exact sameBytesOutside_of_ledger sent _ q hq
  · have done_ := s.writeNow_performed hw rfl fun n e => outside ⟨n, e⟩
    rw [State.bytesAt_of_cells done_.cells]
    exact putBytes_outside s a bs hb q hq

/-- A number of 8 bytes written at its home, whose lowest byte is listed. -/
theorem writeNow_used {s : State} {r : CrewRef} (h : HomeId) (w : WriteReq) (a : Nat) {x : Nat} (hs : s.hasCrew r = true)
    (hx : BitVec.ofNat 8 x ≠ Config.unwritten) (hw : w.bytes = [(.mem a, toBytes 8 x)]) (hd : w.descs = []) :
    Used s (s.writeNow h w) r [(.mem a, 8)] := by
  have control : (s.writeNow h w).control = s.control := (State.respond_control ..).trans (s.applyWrite_control h w a _ hw hd)
  refine .of_crews hs (congrArg Control.cycle control) (fun q => ?_)
    (writeNow_outside s h w a (toBytes 7 (x / 256)) hx hw)
  have frame := congrArg Core.subs (State.core_of_control control q.core)
  have subs : ((s.writeNow h w).core q.core).subs = (s.core q.core).subs := frame
  simp only [State.crew, State.sub, Core.sub, subs]

/-- A and D of a page table entry in its first byte (R67). -/
theorem mark_ne_unwritten (now pte : Nat) : BitVec.ofNat 8 (now ||| ((pte ||| 0xC0) &&& 0xC0)) ≠ Config.unwritten := by
  intro zero
  have dirty := congrArg (fun x : Byte => x.getLsbD 7) zero
  simp [Config.unwritten] at dirty

/-- A translation used by a write marks its page table entry at most. -/
theorem useWalk_used {s : State} {r : CrewRef} (ctx va : Nat) (w : Walk) (hs : s.hasCrew r = true) :
    Used s (s.useWalk r ctx va w true).2 r [(.mem w.pteAddr, 8)] := by
  have filled := fillTlb_used r.core ctx va w (w.pte ||| 0xC0) hs
  have unmarked : Used s (s.fillTlb r.core ctx va w (w.pte ||| 0xC0)).2 r [(.mem w.pteAddr, 8)] :=
    { filled with bytes := fun p _ => filled.bytes p fun _ hx => absurd hx List.not_mem_nil }
  unfold State.useWalk
  simp only [if_true]
  split
  · exact unmarked
  · have noted := filled.trans (modCore_used r.core (fun k => { k with tlb := k.tlb.map (fun x =>
      if x.ctx == ctx && x.entry == w.pteAddr then { x with pte := x.pte ||| (w.pte ||| 0xC0) } else x) }) filled.slot)
    exact noted.trans (writeNow_used _ _ w.pteAddr noted.slot (mark_ne_unwritten _ w.pte) rfl rfl)

/-! ### Targets of accesses -/

theorem noteStore_used {s : State} {r : CrewRef} (p : Loc) (hs : s.hasCrew r = true) : Used s (s.noteStore r p) r [] := by
  have noted : (s.noteStore r p).cycle = s.cycle ∧ (s.noteStore r p).cores = s.cores ∧ (s.noteStore r p).cells = s.cells := by
    unfold State.noteStore State.modLaunch
    split
    · split
      · exact ⟨rfl, rfl, rfl⟩
      · exact ⟨rfl, rfl, rfl⟩
    · exact ⟨rfl, rfl, rfl⟩
  obtain ⟨cycle, cores, cells⟩ := noted
  refine .of_crews hs cycle (fun q => ?_) fun q _ => State.bytesAt_of_cells cells q 1
  simp only [State.crew, State.sub, State.core, cores]

theorem pin_used {s : State} {r : CrewRef} (hs : s.hasCrew r = true) : Used s (s.pin r) r [] := by
  unfold State.pin
  split
  · exact modCore_used _ _ hs
  · exact .refl hs

theorem addTags_used {s : State} {r : CrewRef} (ts : List Tag) (hs : s.hasCrew r = true) :
    Used s (s.modCrew r (fun w => w.addTags ts)) r [] := by
  refine .of_scene hs (State.modCrew_scene _ _ fun w => w.addTags_settled ts) ?_
  rw [crew_modCrew _ _ _ hs, Crew.addTags]
  split
  · rfl
  · exact modifyAt_map _ _ _ _ fun _ => rfl

/-- The range that the mark of an access takes. -/
def Access.mark (a : Access) : Option (Loc × Nat) := a.target.walk.map (fun w => (Loc.mem w.pteAddr, 8))

theorem marked_cons (a : Access) (acc : List Access) : marked (a :: acc) = a.mark.toList ++ marked acc := by
  rw [marked, List.filterMap_cons]
  cases h : a.mark with
  | none => simp [Access.mark] at h; simp [h, marked]
  | some x => simp only [Access.mark] at h; simp [h, marked]

theorem useTarget_used {s : State} {r : CrewRef} (a : Access) (hs : s.hasCrew r = true) :
    Used s (s.useTarget r a.va a.target true) r a.mark.toList := by
  have noted := noteStore_used a.target.loc hs
  unfold State.useTarget
  simp only [if_true, Access.mark]
  split
  · next none_ =>
    rw [none_]
    split
    · exact noted.trans (pin_used noted.slot)
    · exact noted
  · next w some_ =>
    rw [some_]
    have walked := noted.trans (useWalk_used (s.ctxOf r) a.va w noted.slot)
    have tagged := walked.trans (addTags_used ((s.noteStore r a.target.loc).useWalk r (s.ctxOf r) a.va w true).1 walked.slot)
    exact tagged

/-- Accesses that write mark the page table entries of their translations. -/
theorem useAll_used {s : State} {r : CrewRef} (acc : List Access) (hs : s.hasCrew r = true) :
    Used s (s.useAll r acc true) r (marked acc) := by
  induction acc generalizing s with
  | nil => exact .refl hs
  | cons a acc ih =>
    have first := useTarget_used a hs
    rw [marked_cons]
    exact first.trans (ih first.slot)

theorem dropLd_used {s : State} {r : CrewRef} (hs : s.hasCrew r = true) : Used s (s.dropLd r) r [] := by
  refine .of_scene hs (s.dropLd_scene r) ?_
  obtain ⟨-, slot, -⟩ := (hasCrew_iff s r).1 hs
  rw [State.dropLd, crew_modSub _ _ _ hs, Sub.crew, modifyAt_getD_same _ _ _ _ slot]
  rfl

theorem setter_used {s : State} {i : Issue} (slot parts : Nat) (hs : s.hasCrew i.ref = true) :
    Used s (s.setter i slot parts).2 i.ref [] := by
  have fresh : s.fresh.2.hasCrew i.ref = true := hs
  refine .of_scene hs (s.setter_scene i slot parts) ?_
  rw [State.setter, crew_modCrew _ _ _ fresh, show s.fresh.2.crew i.ref = s.crew i.ref from rfl,
    ((s.crew i.ref).addSetter_raises s.nextId slot i.part parts).crew]

/-- The state in which an atomic's accesses have been made. -/
def State.accessed (s : State) (i : Issue) (acc : List Access) : State := (s.useAll i.ref acc true).dropLd i.ref

theorem State.accessed_used {s : State} {i : Issue} (acc : List Access) (hs : s.hasCrew i.ref = true) :
    Used s (s.accessed i acc) i.ref (marked acc) := by
  have used := useAll_used acc hs
  exact List.append_nil (marked acc) ▸ used.trans (dropLd_used used.slot)

/-! ### What a crew whose accesses have been made still says -/

theorem sameRegs_of_settled {w v : Crew} (h : v.settled = w.settled) (ht : w.threads.length = 32) : SameRegs w v := by
  have maps : v.map = w.map := by simpa only [Crew.settled] using congrArg Crew.map h
  exact ⟨fun k => by rw [Crew.reg, Crew.reg, maps], fun l hl => Crew.thread_of_settled h l (by omega) Thread.taint⟩

theorem samePreds_of_settled {w v : Crew} (h : v.settled = w.settled) (ht : w.threads.length = 32) : SamePreds w v :=
  fun l hl => Crew.thread_of_settled h l (by omega) Thread.preds

/-- A release point that begins after accesses have been made. -/
theorem pointBegun_of_used {s u t : State} {i : Issue} {kind : PointKind} {part : Mask} {a : List (Loc × Nat)}
    (hs : s.hasCrew i.ref = true) (h : Used s u i.ref a) (k : PointBegun u t i kind part) : PointBegun s t i kind part := by
  obtain ⟨-, -, threads, -⟩ := (hasCrew_iff s i.ref).1 hs
  obtain ⟨regs, preds, length, issue, point, moves⟩ := k
  have count : (u.crew i.ref).regions.length = (s.crew i.ref).regions.length := by simpa using congrArg List.length h.regions
  refine ⟨sameRegs_trans (sameRegs_of_settled h.settled threads) regs,
    samePreds_trans (samePreds_of_settled h.settled threads) preds,
    by rw [length, count], issue, point, fun l hl => ?_⟩
  obtain ⟨pc, run⟩ := moves l hl
  rw [pc, run, Crew.thread_of_settled h.settled l (by omega) Thread.pc, Crew.thread_of_settled h.settled l (by omega) Thread.run]
  exact ⟨rfl, rfl⟩

/-- A group that goes on from a state whose crews are settled as before has issued. -/
theorem retire_issued_of_settled {s u : State} {i : Issue} (hs : s.hasCrew i.ref = true) (cycle : u.cycle = s.cycle)
    (others : ∀ q, q ≠ i.ref → u.crew q = s.crew q) (settled : (u.crew i.ref).settled = (s.crew i.ref).settled) :
    Issued s (u.retire i false) i := by
  obtain ⟨-, -, threads, -⟩ := (hasCrew_iff s i.ref).1 hs
  obtain ⟨retired, regs, preds⟩ := retire_retired u i false (hasCrew_of_settled hs settled)
  refine ⟨retired.issue, retired.elsewhere.cycle.trans cycle, fun q hq => (retired.elsewhere.crew q hq).trans (others q hq),
    (Crew.same_of_settled settled).trans retired.crew, sameRegs_trans (sameRegs_of_settled settled threads) regs,
    samePreds_trans (samePreds_of_settled settled threads) preds, fun l hl => ?_, fun l hl => ?_⟩
  · rw [retired.pc l hl, Crew.thread_of_settled settled l (by omega) Thread.pc]
  · rw [retired.run l hl, Crew.thread_of_settled settled l (by omega) Thread.run]

/-- The region that takes an instruction's effect is the one it was, but for its tags. -/
theorem Used.last {s u : State} {r : CrewRef} {a : List (Loc × Nat)} {q : Region} (h : Used s u r a)
    (hq : (s.crew r).regions.getLast? = some q) : ∃ p, (u.crew r).regions.getLast? = some p ∧ p.untagged = q.untagged := by
  have last := congrArg List.getLast? h.regions
  rw [List.getLast?_map, List.getLast?_map, hq, Option.map_some, Option.map_eq_some_iff] at last
  exact last

end Sys2Proof.Machine
end

section
/-! ## ATOM, SATOM and ATOMN (R313 to R317) -/

open Sys2Proof Sys2Proof.Claims

namespace Sys2Proof.Machine

/-- What a returning atomic asks before it issues (R315). -/
def atomNeeds (f : M64) (names : List Nat) : Needs := { mNeeds f (names ++ atomRegs f) [] with bare := true, head := true }

/-- A returning atomic whose lanes pass their checks begins a release point with its operands (R315, R316). -/
theorem atomWith_begins {s : State} {i : Issue} {f : M64} {names : List Nat} (taint : Crew → Mask)
    (access : State → Issue → Nat → Except LaneTrap Access) {acc : List Access} (h : s.issues i (atomNeeds f names) = true)
    (hp : partM s i f ≠ 0)
    (hx : Claims.checked (partM s i f) (fun l => s.readAccess i.ref (access s i l) false false) = ([], acc)) :
    ∃ t, s.atomWith f names taint access = .next t ∧ SameBytesOutside s t (marked acc) ∧
      PointBegun s t i (.atom (s.atomEffect i f acc) f.d.toNat (f.d.toNat < 64)) (partM s i f) := by
  have hs := issues_hasCrew h
  have part : (partM s i f == 0) = false := beq_false_of_ne hp
  have run : s.atomWith f names taint access = .next ((s.accessed i acc).startPoint i
      (.atom (s.atomEffect i f acc) f.d.toNat (f.d.toNat < 64)) (partM s i f) (taint (s.crew i.ref) &&& partM s i f)
      (slotOf f.sbs)) := by
    have e : s.atomWith f names taint access = .next _ := issueWith_ok _ h
    unfold partM at part hx
    unfold Claims.checked at hx
    simp only [part, hx, List.isEmpty_nil, Bool.not_true, Bool.false_eq_true, if_false] at e
    exact e
  have used := s.accessed_used (i := i) acc hs
  refine ⟨_, run, fun p hp => ?_, pointBegun_of_used hs used (startPoint_begun _ i _ _ _ _ used.slot)⟩
  exact (sameBytesOutside_of_ledger (startPoint_ledger ..) _ p hp).trans (used.bytes p hp)

theorem execAtom_begins {s : State} {i : Issue} {f : M64} {acc : List Access}
    (h : s.issues i (atomNeeds f (pairRegs f.a.toNat)) = true)
    (hp : partM s i f ≠ 0)
    (hx : Claims.checked (partM s i f) (fun l => s.readAccess i.ref (s.memAccess i.ref .atomic (sizeBytes f.sz.toNat)
      (sizeBytes f.sz.toNat) l ((s.crew i.ref).pair s.freeCtr f.a.toNat l)) false false) = ([], acc)) :
    ∃ t, execAtom f s = .next t ∧ SameBytesOutside s t (marked acc) ∧
      PointBegun s t i (.atom (s.atomEffect i f acc) f.d.toNat (f.d.toNat < 64)) (partM s i f) :=
  atomWith_begins (fun w => w.pairTaint f.a.toNat) (fun t i l => t.memAccess i.ref .atomic (sizeBytes f.sz.toNat)
    (sizeBytes f.sz.toNat) l ((t.crew i.ref).pair t.freeCtr f.a.toNat l)) h hp hx

theorem execSatom_begins {s : State} {i : Issue} {f : M64} {acc : List Access}
    (h : s.issues i (atomNeeds f (namesOf [f.a.toNat])) = true) (hp : partM s i f ≠ 0)
    (hx : Claims.checked (partM s i f) (fun l => s.readAccess i.ref (s.offAccess i.ref .atomic (sizeBytes f.sz.toNat)
      (sizeBytes f.sz.toNat) l ((lane ((s.crew i.ref).source s.freeCtr f.a.toNat) l).toNat : Nat)) false false) = ([], acc)) :
    ∃ t, execSatom f s = .next t ∧ SameBytesOutside s t (marked acc) ∧
      PointBegun s t i (.atom (s.atomEffect i f acc) f.d.toNat (f.d.toNat < 64)) (partM s i f) :=
  atomWith_begins (fun w => w.sourceTaint f.a.toNat) (fun t i l => t.offAccess i.ref .atomic (sizeBytes f.sz.toNat)
    (sizeBytes f.sz.toNat) l ((lane ((t.crew i.ref).source t.freeCtr f.a.toNat) l).toNat : Nat)) h hp hx

/-- Held effects are no part of a settled crew. -/
theorem settled_hold (w : Crew) (e : Effect) (n : Nat) : (w.hold e n).settled = w.settled := rfl

/-- ATOMN whose lanes pass their checks is held with one entry for each line (R156, R316). -/
theorem execAtomn_holds {s : State} {i : Issue} {f : M64} {q : Region} {acc : List Access}
    (h : s.issues i { mNeeds f (pairRegs f.a.toNat ++ atomRegs f) [] with bare := true } = true) (hp : partM s i f ≠ 0)
    (hq : (s.crew i.ref).regions.getLast? = some q)
    (hx : Claims.checked (partM s i f) (fun l => s.readAccess i.ref (s.memAccess i.ref .atomic (sizeBytes f.sz.toNat)
      (sizeBytes f.sz.toNat) l ((s.crew i.ref).pair s.freeCtr f.a.toNat l)) false false) = ([], acc))
    (room : (s.crew i.ref).entriesUsed + ((acc.map (fun a => a.target.loc.line)).eraseDups).length ≤ Config.quarantineEntries) :
    ∃ t id x, execAtomn f s = .next t ∧ Issued s t i ∧ SameBytesOutside s t (marked acc) ∧
      (t.crew i.ref).regions.getLast? = some x ∧ x.id = q.id ∧
      x.entries = q.entries + ((acc.map (fun a => a.target.loc.line)).eraseDups).length ∧
      x.effects = q.effects ++ [.atomn { s.atomEffect i f acc with setter := id }] := by
  have hs := issues_hasCrew h
  have part : (partM s i f == 0) = false := beq_false_of_ne hp
  generalize hn : ((acc.map (fun a => a.target.loc.line)).eraseDups).length = n at room ⊢
  have free : s.needEntries i n = none := by rw [State.needEntries, if_pos room]
  let u := (s.accessed i acc).setter i (slotOf f.sbs) n
  let e := Effect.atomn { s.atomEffect i f acc with setter := u.1 }
  have run : execAtomn f s = .next ((u.2.modCrew i.ref (fun w => w.hold e n)).retire i false) := by
    have e : execAtomn f s = .next _ := issueWith_ok _ h
    unfold partM at part hx
    unfold Claims.checked at hx
    simp only [part, hx, hn, free, List.isEmpty_nil, Bool.not_true, Bool.false_eq_true, if_false] at e
    exact e
  have accessed := s.accessed_used (i := i) acc hs
  have used : Used s u.2 i.ref (marked acc) :=
    List.append_nil (marked acc) ▸ accessed.trans (setter_used (slotOf f.sbs) n accessed.slot)
  clear_value u
  have crew : (u.2.modCrew i.ref (fun w => w.hold e n)).crew i.ref = (u.2.crew i.ref).hold e n := crew_modCrew _ _ _ used.slot
  have settled : ((u.2.modCrew i.ref (fun w => w.hold e n)).crew i.ref).settled = (s.crew i.ref).settled := by
    rw [crew, settled_hold, used.settled]
  obtain ⟨p, last, same⟩ := used.last hq
  have ids : p.untagged.id = q.untagged.id := congrArg Region.id same
  have entries : p.untagged.entries = q.untagged.entries := congrArg Region.entries same
  have effects : p.untagged.effects = q.untagged.effects := congrArg Region.effects same
  have held := Crew.hold_last last e n
  rw [← crew, ← retire_regions _ i false (hasCrew_of_settled hs settled)] at held
  refine ⟨_, u.1, _, run, retire_issued_of_settled hs used.cycle (fun r hr => ?_) settled, fun a ha => ?_, held,
    ids, congrArg (· + n) entries, congrArg (· ++ [e]) effects⟩
  · rw [crew_modCrew_ne _ _ _ _ hr]
    exact used.others r hr
  · refine (sameBytesOutside_of_ledger ?_ _ a ha).trans (used.bytes a ha)
    simp [State.retire, State.retired, State.retiredWith]

end Sys2Proof.Machine
end

section
namespace Sys2Proof

open Machine Claims

/-- Settles O22: accesses that pass their checks mark their translations, which moves no crew; then a release point begins, or
the effect is held. -/
theorem atomicsAsIssued : Obligations.AtomicsAsIssued := by
  refine ⟨fun f s i h hp pass => ?_, fun f s i h hp pass => ?_, fun f s i q h hp hq pass room => ?_⟩
  · exact execAtom_begins h hp (Prod.ext pass rfl)
  · exact execSatom_begins h hp (Prod.ext pass rfl)
  · exact execAtomn_holds h hp hq (Prod.ext pass rfl) room

end Sys2Proof
end
